-- ==== Sys2Proof/Word.lean ====
section
/-! DEFINITION. The word types of the block (R4, R5). -/
namespace Sys2Proof

/-- A byte. -/
abbrev Byte := BitVec 8
/-- A 16-bit register or field. -/
abbrev Half := BitVec 16
/-- A 32-bit register, token, VW32 code or stallkeeper word. -/
abbrev Word := BitVec 32
/-- A 64-bit register or operand. -/
abbrev Dword := BitVec 64
/-- A 128-bit core instruction (R112). -/
abbrev InstrWord := BitVec 128
/-- A 64-byte descriptor (R259). -/
abbrev DescWord := BitVec 512

end Sys2Proof
end

