-- ==== Sys2Proof/CommandData.lean ====
section
/-! DEFINITION. The records that commands carry: frames, start-up findings, measurements, provisioning objects. -/
namespace Sys2Proof

/-- What one read of protected memory finds in the cells of its line or group (R196, R197, R199, R208): how many words or sectors it
corrects, whether the re-read of a corrected one fails once more (R199), and the sectors, by their number within the line
or the group, that it cannot correct. -/
structure Ecc where
  corrected : Nat
  again : Bool
  bad : List (Fin 16)
deriving DecidableEq, Repr

/-- A read that finds nothing wrong. -/
def Ecc.clean : Ecc := ⟨0, false, []⟩

/-- The handshakes a unit counted over a streaming run that starts (R80, R102): for each array those stalled and those starved of A,
those in which the B broadcast was held, and those in which the B stream held no element. -/
structure StreamMeas where
  stall : List Nat
  starve : List Nat
  bWait : Nat
  bStarve : Nat
deriving DecidableEq, Repr

/-- An Arcade frame, field by field (R310). -/
structure Frame where
  typ : BitVec 4
  vc : BitVec 3
  ordered : Bool
  version : Byte
  seq : BitVec 12
  seqRsv : BitVec 4
  ack : BitVec 12
  nak : Bool
  ackValid : Bool
  ackRsv : BitVec 2
  pool : BitVec 4
  freed : Byte
  creditValid : Bool
  creditRsv : BitVec 3
  dest : Half
  src : Half
  tag : BitVec 15
  tagRsv : Bool
  op : Byte
  len : Byte
  space : BitVec 4
  addr : BitVec 44
  count : Half
  cls : BitVec 2
  hops : BitVec 6
  poison : Bool
  routeRsv : BitVec 7
  destEpoch : Half
  payload : List Byte
deriving DecidableEq, Repr

/-- A PHY that fails training (R211, R212, R234). -/
structure PhyFail where
  phy : Fin 50
  cause : BitVec 3
  ratesOk : BitVec 4
deriving DecidableEq, Repr

/-- Whether the module takes a reference for usable (R26): edges are there, and its frequency is within 200 ppm of the hub
oscillator's; `err` is in units of 0.01 ppm (R419). -/
def refIsUsable (edges : Bool) (err : Half) : Bool := edges && decide (err.toInt.natAbs ≤ 20000)

/-- What one start-up finds in the hardware (R21, R26, R27, R279): the strap levels, whether the reference has edges and its frequency
error in 0.01 ppm, the clusters that fail their self-test, the stacks whose seam cannot form, the seam lanes that fail, the PHYs that
fail training. -/
structure StartupEnv where
  straps : BitVec 18
  refEdges : Bool
  refErr : Half
  badClusters : BitVec 48
  badStacks : BitVec 4
  seamLanes : List (Fin 12 × Fin 32 × Fin 17)
  phyFails : List PhyFail
  pcieLanes : BitVec 5
  pcieRate : BitVec 2
deriving DecidableEq, Repr

/-- A usable reference is present at step 4 (R26, R27). -/
def StartupEnv.refUsable (e : StartupEnv) : Bool := refIsUsable e.refEdges e.refErr

/-- What one cluster measured over the last millisecond (R427, R433, R437). Power in mW, pace in 1 M handshakes/s. -/
structure ClusterMeas where
  power : Nat
  pace : Nat
  issued : Bool
deriving DecidableEq, Repr

/-- What the clerk measures at a cap-loop tick (R433): energy of the last ms in µJ, core-rail current in 0.1 A, the
clusters in index order, each port's traffic in percent of four-lane capacity (R434). -/
structure CapMeas where
  energy : Nat
  current : Nat
  clusters : List ClusterMeas
  portLoad : List Nat
deriving DecidableEq, Repr

/-- What a domain reports for a millisecond (R427, R462). -/
structure DomMeas where
  current : Half
  voltage : BitVec 12
  temp : Byte
  pace : Half
deriving DecidableEq, Repr

/-- A key provisioning object's payload (R293). -/
structure ProvObject where
  op : Byte
  slot : Byte
  rights : Byte
  policy : Byte
  counter : Word
  authSlot : Byte
  reserved : List Byte
  ephemeral : List Byte
  wrapped : List Byte
  auth : List Byte
deriving DecidableEq, Repr

end Sys2Proof
end

