-- ==== Sys2Proof/Syntax.lean ====
section
/-! DEFINITION. The commands of the block: one constructor per row of spec/opcode_table.json. An operand is what the row's
event brings from outside: an index, data that arrives, or what a measurement finds (log 12). -/
namespace Sys2Proof

/-- The commands. -/
inductive Instr where
  /-- POWER_ON_48V_GOOD (R279). The J1 input reaches 48 V good and the start-up sequence runs from step 1. -/
  | powerOn48vGood (e : StartupEnv) (modResetN perstN : Bool)
  /-- LOSS_OF_48V (R9). The J1 input falls below 39 V, and the module loses 48 V good and all non-persistent state. -/
  | lossOf48v
  /-- MOD_RESET_N_ASSERT (R18). A low of 10 µs or longer on MOD_RESET_N causes a module reset that holds at the end of step 2. -/
  | modResetNAssert (e : StartupEnv)
  /-- MOD_RESET_N_RELEASE (R17). MOD_RESET_N rises, and start-up continues from step 3. -/
  | modResetNRelease (e : StartupEnv)
  /-- PERST_N_ASSERT (R18). A PERST_N low of 10 µs or longer resets the module if step 9 has completed, and otherwise holds step 9. -/
  | perstNAssert (e : StartupEnv)
  /-- PERST_N_RELEASE (R17). PERST_N rises, and the held step 9 (PCIe link up) proceeds. -/
  | perstNRelease
  /-- REF_WAIT_TIMEOUT (R27). The 10 ms wait for a rack reference at step 4 expires, and start-up continues in holdover. -/
  | refWaitTimeout (e : StartupEnv)
  /-- IDENT (R29). An SMBus block read returns MOD_ID, MOD_REV and the serial number. -/
  | smbIdent
  /-- SMB_STATUS (R29). An SMBus block read returns MOD_STATUS, PWR_STATUS and STRAP_STATUS. -/
  | smbStatus
  /-- TEMP (R29). An SMBus read word returns the hottest junction temperature. -/
  | smbTemp
  /-- TILL (R29). An SMBus block read returns a single snapshot of the till. -/
  | smbTill
  /-- LEDGER_NEXT (R29). An SMBus read returns the next ledger entry and advances the SMBus read pointer. -/
  | ledgerNext
  /-- CAP_CEILING_READ (R29). An SMBus read word returns the sustained power ceiling. -/
  | capCeilingRead
  /-- CAP_CEILING_WRITE (R30). An SMBus write word sets or removes the sustained power ceiling. -/
  | capCeilingWrite (w : Half) (pecOk : Bool)
  /-- SMBUS_WAKE_ADDRESS (R28). An address match at SMBus 0x5B wakes the module from Sleep. -/
  | smbusWakeAddress
  /-- SMBUS_ALERT_RESPONSE (R31). A read of the Alert Response Address returns 0x5A and releases SMB_ALERT_N. -/
  | smbusAlertResponse
  /-- IDCODE (R32). The debug port IDCODE instruction shifts out the value of MOD_ID. -/
  | idcode
  /-- BYPASS (R32). The debug port BYPASS instruction, or any instruction not honoured, bypasses the port. -/
  | bypass (ir : Byte) (tdi : List Bool)
  /-- SAMPLE_PRELOAD (R32). SAMPLE/PRELOAD on the boundary-scan chain, honoured while MOD_RESET_N is held low. -/
  | samplePreload (ins seen : List Bool)
  /-- EXTEST (R32). EXTEST on the boundary-scan chain, honoured while MOD_RESET_N is held low. -/
  | extest (ins seen : List Bool)
  /-- DEBUG_REGISTER_ACCESS (R32). An Isarun debug instruction accesses a register while debug is enabled. -/
  | debugRegisterAccess (off : Half) (wr : Option Word) (e : StartupEnv)
  /-- DEBUG_LOCAL_STORE_ACCESS (R32). An Isarun debug instruction accesses local store while debug is enabled. -/
  | debugLocalStoreAccess (c : Fin 384) (addr : Nat) (wr : Option Word)
  /-- DEBUG_STALLKEEPER_ACCESS (R32). An Isarun debug instruction accesses a stallkeeper while debug is enabled. -/
  | debugStallkeeperAccess (cl : Fin 48) (addr : Word) (wr : Option Word)
  /-- STATION_NOP (R116). A station fires CTRL NOP, which has no effect beyond its pops and pushes. -/
  | stationNop (c : Fin 384) (k : Fin 8)
  /-- STATION_ALU (R116). A station fires CTRL ALU on its scalar registers. -/
  | stationAlu (c : Fin 384) (k : Fin 8)
  /-- LI (R116). A station fires CTRL LI, loading an immediate into a scalar register. -/
  | li (c : Fin 384) (k : Fin 8)
  /-- BR (R116). A station fires a conditional branch. -/
  | br (c : Fin 384) (k : Fin 8)
  /-- LOOP (R116). A station decrements a register and branches while it is nonzero. -/
  | loopStn (c : Fin 384) (k : Fin 8)
  /-- STATION_END (R116). A station fires END and enters DONE once its in-flight instructions complete. -/
  | stationEnd (c : Fin 384) (k : Fin 8)
  /-- TRAP (R116). A station fires TRAP and raises exception TRAP with its code. -/
  | trapStn (c : Fin 384) (k : Fin 8)
  /-- FLAGS (R116). A station reads its sticky flags, and may clear them. -/
  | flagsStn (c : Fin 384) (k : Fin 8)
  /-- JOIN (R117). A station fires SYNC JOIN, which only pops and pushes tokens. -/
  | joinStn (c : Fin 384) (k : Fin 8)
  /-- QUIESCE (R117). A station fires QUIESCE once it has no other instruction in flight. -/
  | quiesce (c : Fin 384) (k : Fin 8)
  /-- RAISE (R117). A station adds one arrival to a crier channel of its cluster. -/
  | raiseStn (c : Fin 384) (k : Fin 8)
  /-- NOTIFY (R117). A station posts a NOTIFY event with a code to the stallkeeper. -/
  | notifyStn (c : Fin 384) (k : Fin 8)
  /-- COPY_INSTRUCTION (R492). A station copies rows between operand entries, converting, transposing and rotating as the entries name. -/
  | copyInstruction (c : Fin 384) (k : Fin 8)
  /-- VLOAD (R118). A station loads 64 or 128 elements of a row into a vector register. -/
  | vload (c : Fin 384) (k : Fin 8)
  /-- VSTORE (R118). A station stores a vector register to local store, converting by R55 to R63. -/
  | vstore (c : Fin 384) (k : Fin 8)
  /-- SLOAD (R118). A station loads a 32-bit word from local store into a scalar register. -/
  | sload (c : Fin 384) (k : Fin 8)
  /-- SSTORE (R118). A station stores a scalar register word to local store. -/
  | sstore (c : Fin 384) (k : Fin 8)
  /-- PASS (R119). A station issues an array pass over its masked arrays. -/
  | arrayPass (c : Fin 384) (k : Fin 8)
  /-- MV (R122). A station issues a matrix-vector operation. -/
  | mv (c : Fin 384) (k : Fin 8)
  /-- VEC_ADD (R88). The vector engine adds two vector registers. -/
  | vecAdd (c : Fin 384) (k : Fin 8)
  /-- VEC_SUBTRACT (R88). The vector engine subtracts two vector registers. -/
  | vecSubtract (c : Fin 384) (k : Fin 8)
  /-- VEC_MULTIPLY (R88). The vector engine multiplies two vector registers. -/
  | vecMultiply (c : Fin 384) (k : Fin 8)
  /-- VEC_FMA (R88). The vector engine performs a fused multiply-add. -/
  | vecFma (c : Fin 384) (k : Fin 8)
  /-- VEC_MIN (R88). The vector engine takes the lane-wise minimum. -/
  | vecMin (c : Fin 384) (k : Fin 8)
  /-- VEC_MAX (R88). The vector engine takes the lane-wise maximum. -/
  | vecMax (c : Fin 384) (k : Fin 8)
  /-- VEC_COMPARE (R123). The vector engine compares lanes and writes 1.0 or +0. -/
  | vecCompare (c : Fin 384) (k : Fin 8)
  /-- VEC_SELECT (R123). The vector engine selects lanes by VC. -/
  | vecSelect (c : Fin 384) (k : Fin 8)
  /-- VEC_CONVERT (R88). The vector engine converts between VW32 and VF16 lanes. -/
  | vecConvert (c : Fin 384) (k : Fin 8)
  /-- VEC_RECIPROCAL (R88). The vector engine computes lane reciprocals within 1 ulp. -/
  | vecReciprocal (c : Fin 384) (k : Fin 8)
  /-- VEC_RSQRT (R88). The vector engine computes lane reciprocal square roots within 1 ulp. -/
  | vecRsqrt (c : Fin 384) (k : Fin 8)
  /-- VEC_EXP2 (R88). The vector engine computes lane exp2. -/
  | vecExp2 (c : Fin 384) (k : Fin 8)
  /-- VEC_EXP (R88). The vector engine computes lane exp as exp2 of x·log2(e). -/
  | vecExp (c : Fin 384) (k : Fin 8)
  /-- VEC_REDUCE (R123). The vector engine reduces its lanes to lane 0 by sum, sum of squares, max or min. -/
  | vecReduce (c : Fin 384) (k : Fin 8)
  /-- VEC_SOFTMAX_STEP (R90). The vector engine performs one online softmax step. -/
  | vecSoftmaxStep (c : Fin 384) (k : Fin 8)
  /-- TRANSPOSE (R124). A station moves COUNT 64 × 64 tiles through the exchange network, transposed. -/
  | xnetTranspose (c : Fin 384) (k : Fin 8)
  /-- HADAMARD (R124). A station rotates COUNT blocks through the exchange network. -/
  | xnetHadamard (c : Fin 384) (k : Fin 8)
  /-- SEND (R125). A station sends local bytes to a peer core's local store through the porter. -/
  | xferSend (c : Fin 384) (k : Fin 8)
  /-- RECV (R125). A station reads a peer core's bytes into its local store through the porter. -/
  | xferRecv (c : Fin 384) (k : Fin 8)
  /-- UNIT_START (R127). A unit starts an issued instruction and frees its issue slot. -/
  | unitStart (c : Fin 384) (k : Fin 8) (n : Nat) (m : StreamMeas)
  /-- PASS_DRAIN (R78). A finished pass's shadow accumulators drain column by column to the drain route as credit allows. -/
  | passDrain (c : Fin 384) (a : Fin 4) (wait : Nat)
  /-- BIAS_PRELOAD (R79). A column's bias preload begins once its drain is complete. -/
  | biasPreload (c : Fin 384) (a : Fin 4)
  /-- INSTRUCTION_COMPLETE (R126). An in-flight instruction reaches completion and pushes its OUT tokens. -/
  | instructionComplete (c : Fin 384) (k : Fin 8) (n : Nat)
  /-- LOCAL_STORE_PORT_GRANT (R93). A local-store port grants one 512 B access to a waiting request. -/
  | localStorePortGrant (c : Fin 384) (t : Fin 4) (e : Ecc) (busy : Nat)
  /-- PORT_REQUEST_URGENT (R93). A port request that has waited 32 handshakes becomes urgent. -/
  | portRequestUrgent (c : Fin 384) (t : Fin 4) (n : Nat)
  /-- REMOTE_TOKEN_ARRIVAL (R110). A token pushed on another core arrives at its peer queue. -/
  | remoteTokenArrival (c : Fin 384) (q : Fin 32)
  /-- REMOTE_CREDIT_RETURN (R109). A pop on a peer queue returns a credit to the proxy queue. -/
  | remoteCreditReturn (c : Fin 384) (q : Fin 32)
  /-- STATION_WATCHDOG (R134). A station's watchdog interval expires without a firing, raising WATCHDOG. -/
  | stationWatchdog (c : Fin 384) (k : Fin 8)
  /-- SK_ALU (R140). The stallkeeper executes an R-format ALU instruction. -/
  | skAlu (cl : Fin 48)
  /-- ADDI (R140). The stallkeeper adds a sign-extended immediate. -/
  | addi (cl : Fin 48)
  /-- ANDI (R140). The stallkeeper ANDs a zero-extended immediate. -/
  | andi (cl : Fin 48)
  /-- ORI (R140). The stallkeeper ORs a zero-extended immediate. -/
  | ori (cl : Fin 48)
  /-- LUI (R140). The stallkeeper loads an upper immediate. -/
  | lui (cl : Fin 48)
  /-- LW (R140). The stallkeeper loads a word from its address space. -/
  | lw (cl : Fin 48)
  /-- SW (R140). The stallkeeper stores a word to its address space. -/
  | sw (cl : Fin 48)
  /-- BEQ (R140). The stallkeeper branches if equal. -/
  | beq (cl : Fin 48)
  /-- BNE (R140). The stallkeeper branches if not equal. -/
  | bne (cl : Fin 48)
  /-- BLT (R140). The stallkeeper branches if less than, signed. -/
  | blt (cl : Fin 48)
  /-- BGE (R140). The stallkeeper branches if greater or equal, signed. -/
  | bge (cl : Fin 48)
  /-- BLTU (R140). The stallkeeper branches if less than, unsigned. -/
  | bltu (cl : Fin 48)
  /-- BGEU (R140). The stallkeeper branches if greater or equal, unsigned. -/
  | bgeu (cl : Fin 48)
  /-- JAL (R140). The stallkeeper jumps and links in g31. -/
  | jal (cl : Fin 48)
  /-- JR (R140). The stallkeeper jumps to a register plus immediate. -/
  | jr (cl : Fin 48)
  /-- CSRR (R140). The stallkeeper reads a control register. -/
  | csrr (cl : Fin 48)
  /-- CSRW (R140). The stallkeeper writes a control register. -/
  | csrw (cl : Fin 48)
  /-- WAIT (R140). The stallkeeper sleeps until a selected event is pending. -/
  | skWait (cl : Fin 48)
  /-- WAIT_WAKE (R140). A selected event becomes pending and the waiting stallkeeper resumes. -/
  | waitWake (cl : Fin 48)
  /-- CCTL_START (R133). The stallkeeper puts an IDLE station in RUN at ENTRY. -/
  | cctlStart (cl : Fin 48)
  /-- CCTL_HALT (R133). The stallkeeper halts a running station as COMMANDED. -/
  | cctlHalt (cl : Fin 48)
  /-- CCTL_RESUME (R133). The stallkeeper restarts a HALTED station. -/
  | cctlResume (cl : Fin 48)
  /-- CCTL_RESET (R133). The stallkeeper resets a station to IDLE, discarding its in-flight work and holds. -/
  | cctlReset (cl : Fin 48)
  /-- INJECT (R133). The stallkeeper pushes a token of a given value into a queue. -/
  | cctlInject (cl : Fin 48)
  /-- PCMD (R140). The stallkeeper posts a 64-byte porter command to a command queue. -/
  | pcmd (cl : Fin 48)
  /-- CCMD (R155). The stallkeeper posts a crier broadcast record. -/
  | ccmd (cl : Fin 48)
  /-- SK_END (R149). The stallkeeper ends the launch on its cluster with a status. -/
  | skEnd (cl : Fin 48)
  /-- EVT_POP (R141). A read of control register 0x0001 pops the oldest pending stallkeeper event. -/
  | evtPop (cl : Fin 48)
  /-- TIMER_ARM (R142). A write to control register 0x0010 arms the stallkeeper timer. -/
  | timerArm (cl : Fin 48)
  /-- TIMER_EVENT (R142). Market time reaches the armed TIMER value and a TIMER event is raised. -/
  | timerEvent (cl : Fin 48)
  /-- START_CAPTURE (R412). A write takes the current market time as the interval start. -/
  | startCapture (cl : Fin 48)
  /-- START_LO (R412). A write stages the low 32 bits of an interval start. -/
  | startLo (cl : Fin 48)
  /-- START_HI (R412). A write supplies the high bits, and the staged value becomes the interval start. -/
  | startHi (cl : Fin 48)
  /-- NOW_LO (R412). A read returns market time bits [31:0] and latches bits [63:32]. -/
  | nowLo (cl : Fin 48)
  /-- STOP_CAPTURE (R413). A write takes the stop time and computes INTERVAL. -/
  | stopCapture (cl : Fin 48)
  /-- NORM_SEL (R384). The stallkeeper selects the NORM_ID whose clip factor it will read. -/
  | normSel (cl : Fin 48)
  /-- NORM_FACTOR (R384). The stallkeeper reads the clip factor, waiting until it is published. -/
  | normFactor (cl : Fin 48)
  /-- CRIER_COUNT_WRITE (R154). A stallkeeper write of 1 to a crier channel's COUNT adds one arrival. -/
  | crierCountWrite (cl : Fin 48)
  /-- CRIER_FIRE (R154). A crier channel whose arrivals reached THRESHOLD fires once every token target has credit. -/
  | crierFire (cl : Fin 48) (ch : Fin 64)
  /-- CRIER_BROADCAST_COMPLETE (R155). Every destination holds the broadcast bytes, and one arrival is added to the completion channel. -/
  | crierBroadcastComplete (cl : Fin 48) (n : Nat)
  /-- PORTER_COMMAND_START (R150). The porter takes a command from a queue once it has a tag. -/
  | porterCommandStart (cl : Fin 48)
  /-- PORTER_MOVE (R151). The porter moves LENGTH bytes between address spaces. -/
  | porterMove (cl : Fin 48) (n : Nat)
  /-- PORTER_MOVE_2D (R151). The porter moves ROWS strided rows. -/
  | porterMove2d (cl : Fin 48) (n : Nat)
  /-- PORTER_GATHER (R151). The porter gathers 32-byte rows through the narrow path. -/
  | porterGather (cl : Fin 48) (n : Nat)
  /-- PORTER_FILL (R151). The porter fills a destination with an 8-byte pattern. -/
  | porterFill (cl : Fin 48) (n : Nat)
  /-- PORTER_SIGNAL (R151). The porter moves no data and pushes its token. -/
  | porterSignal (cl : Fin 48) (n : Nat)
  /-- PORTER_COMMAND_COMPLETE (R153). Every destination byte is visible, and the command pushes its token and raises its event. -/
  | porterCommandComplete (cl : Fin 48) (n : Nat)
  /-- LAUNCH_TIMEOUT (R149). A launch's TIMEOUT elapses and each running cluster receives ABORT. -/
  | launchTimeout (l : Nat)
  /-- LAUNCH_FORCED_END (R149). An aborted cluster has not ended within 1 ms, so it is ended with ERR_TIMEOUT. -/
  | launchForcedEnd (l : Nat) (cl : Fin 48)
  /-- CLUSTER_LAUNCH_END (R149). All in-flight work of an ending cluster has completed, and its launch ends. -/
  | clusterLaunchEnd (cl : Fin 48)
  /-- LAUNCH_COMPLETE (R149). Every target cluster has ended, and the LAUNCH completes with the highest status. -/
  | launchComplete (l : Nat)
  /-- WATCH_ARM (R169). A write of 1 to WATCH_CTRL.ARM takes new bases and clears the trigger bits. -/
  | watchArm (cl : Fin 48)
  /-- CNT_CLEAR (R104). A write to CNT_CLEAR clears the selected core counters. -/
  | cntClear (cl : Fin 48)
  /-- VK1_REPLAY (R177). After the halted launch drains, scales are recomputed from retained values and the launch reruns. -/
  | vk1Replay (l : Nat)
  /-- LS_SCRUB_READ (R198). A tier slice's scrubber reads one line every 1,024 handshakes. -/
  | lsScrubRead (c : Fin 384) (t : Fin 4)
  /-- ROW_REPAIR (R199). A tier slice copies a failing row to a spare row and redirects it. -/
  | rowRepair (c : Fin 384) (t : Fin 4)
  /-- MAT_REPLACEMENT (R200). A tier slice replaces a mat with no spare rows left by its spare mat. -/
  | matReplacement (c : Fin 384) (t : Fin 4)
  /-- CORE_RETIREMENT (R203). A core marked for retirement leaves service at the end of its launch. -/
  | coreRetirement (c : Fin 384)
  /-- GDDR7_COMMAND_ISSUE (R222). At a free command slot, a channel picks a request and issues it to the device. -/
  | gddr7CommandIssue (ch : Fin 50) (e : Ecc)
  /-- GDDR7_REQUEST_URGENT (R222). A class 1 to 3 request that has waited 4,096 ns becomes urgent. -/
  | gddr7RequestUrgent (ch : Fin 50) (n : Nat)
  /-- GDDR7_EDC_RETRY (R216). A transfer whose error-detection code mismatches is retried. -/
  | gddr7EdcRetry (ch : Fin 50) (ok : Bool)
  /-- GDDR7_SCRUB_READ (R219). A channel's scrubber reads a group, rewriting or poisoning as needed. -/
  | gddr7ScrubRead (ch : Fin 50)
  /-- GDDR7_RATE_CHANGE (R218). All channels relock at a new data rate once their issued requests complete. -/
  | gddr7RateChange
  /-- TG_START (R238). A write of START begins a traffic generator run, or is refused. -/
  | tgStart (ch : Fin 50) (w : Word)
  /-- TG_STOP (R238). A write of STOP ends the generator run after the group in progress. -/
  | tgStop (ch : Fin 50) (w : Word)
  /-- TG_CLEAR (R238). A write of CLEAR clears TG_STATUS and every lane count. -/
  | tgClear (ch : Fin 50) (w : Word)
  /-- TG_RUN_DONE (R241). A traffic generator completes a pass or its run. -/
  | tgRunDone (ch : Fin 50) (lanes : List Nat)
  /-- MEM_CNT_CLEAR (R231). A write of MEM_CTRL.CNT_CLEAR clears CH_ECC_CNT of every channel. -/
  | memCntClear (w : Word)
  /-- FLR (R245). A Function Level Reset resets the rings, sessions, event ring and MSI-X masks. -/
  | pcieFlr
  /-- HOT_RESET (R245). A PCIe hot reset affects only the host interface, as for FLR. -/
  | hotReset
  /-- PCIE_LINK_LOSS (R245). A loss of the PCIe link other than through PERST_N resets the host interface. -/
  | pcieLinkLoss
  /-- DOORBELL_WATCH_TIMER (R256). A doorbell line's watch interval elapses and its read is issued. -/
  | doorbellWatchTimer (r : Fin 256)
  /-- DOORBELL_READ_RETURN (R255). A doorbell word read returns, and its tail and epoch are checked and taken. -/
  | doorbellReadReturn (r : Fin 256) (w : Dword)
  /-- MIRROR_TAIL_WRITE (R257). A 4-byte write to a mirror page prompts the ring's doorbell read. -/
  | mirrorTailWrite (r : Fin 256) (off size : Nat) (w : Word)
  /-- DESCRIPTOR_FETCH_RETURN (R258). Fetched descriptor slots arrive from host memory. -/
  | descriptorFetchReturn (r : Fin 256) (slots : List DescWord)
  /-- DESCRIPTOR_START (R268). A descriptor whose start conditions hold is checked and started. -/
  | descriptorStart (r : Fin 256)
  /-- RING_URGENT (R269). A ring whose next descriptor has been able to start for 50 µs becomes urgent. -/
  | ringUrgent (r : Fin 256)
  /-- NOP (R261). Descriptor NOP completes with no effect. -/
  | nopDesc (r : Fin 256) (n : Nat)
  /-- FENCE (R270). Descriptor FENCE orders rings and, with CONTINUE_ON_ERROR, clears a halt. -/
  | fenceDesc (r : Fin 256) (n : Nat)
  /-- SESSION_OPEN (R297). The clerk checks a session-opening proof and binds the ring to a session. -/
  | sessionOpen (r : Fin 256) (n : Nat)
  /-- SESSION_CLOSE (R299). The ring's session binding ends with cause 0. -/
  | sessionClose (r : Fin 256) (n : Nat)
  /-- COPY_BYTE_MODE (R493). Descriptor COPY with TENSOR = 0 copies LENGTH bytes unchanged. -/
  | copyByteMode (r : Fin 256) (n : Nat)
  /-- COPY_TENSOR_MODE (R493). Descriptor COPY with TENSOR = 1 copies this module's shard, converting and rotating. -/
  | copyTensorMode (r : Fin 256) (n : Nat)
  /-- GATHER (R261). Descriptor GATHER packs 32-byte GDDR7 rows through the narrow path. -/
  | gatherDesc (r : Fin 256) (n : Nat)
  /-- FILL (R261). Descriptor FILL writes an 8-byte pattern over a range. -/
  | fillDesc (r : Fin 256) (n : Nat)
  /-- PROGRAM_LOAD (R146). An image is checked and copied into every cluster of a mask. -/
  | programLoad (r : Fin 256) (n : Nat)
  /-- LAUNCH (R148). A launch is checked, and the target clusters are reset and started. -/
  | launchDesc (r : Fin 256) (n : Nat)
  /-- ALL_REDUCE (R367). A COLLECTIVE of KIND 0 all-reduces the group's tensors. -/
  | allReduce (r : Fin 256) (n : Nat)
  /-- REDUCE_SCATTER (R367). A COLLECTIVE of KIND 1 reduce-scatters segments to their owners. -/
  | reduceScatter (r : Fin 256) (n : Nat)
  /-- ALL_GATHER (R367). A COLLECTIVE of KIND 2 gathers every segment to every member. -/
  | allGather (r : Fin 256) (n : Nat)
  /-- BROADCAST (R367). A COLLECTIVE of KIND 3 broadcasts from ROOT. -/
  | broadcastColl (r : Fin 256) (n : Nat)
  /-- PIPELINE_SEND (R369). A COLLECTIVE of KIND 4 sends a tensor to PEER after its PIPE_READY. -/
  | pipelineSend (r : Fin 256) (n : Nat)
  /-- PIPELINE_RECEIVE (R369). A COLLECTIVE of KIND 5 receives a tensor from PEER. -/
  | pipelineReceive (r : Fin 256) (n : Nat)
  /-- BARRIER (R376). A data-free group step that completes once every member has arrived. -/
  | barrierDesc (r : Fin 256) (n : Nat)
  /-- UPDATE_STEP (R377). The update engines step a parameter shard by the named rule. -/
  | updateStep (r : Fin 256) (n : Nat)
  /-- UPDATE_RUN (R379). An update engine steps one run once its gradient values are visible. -/
  | updateRun (r : Fin 256) (n u : Nat)
  /-- NORM_REDUCE (R385). The module forms and all-reduces the sum of squares, then publishes the clip factor. -/
  | normReduce (r : Fin 256) (n : Nat)
  /-- DIGEST (R390). The module writes the shard digest and optional sub-block digests. -/
  | digestDesc (r : Fin 256) (n : Nat)
  /-- EXPORT_SHARD (R392). The module writes a shard in the shard record format. -/
  | exportShard (r : Fin 256) (n : Nat)
  /-- IMPORT_SHARD (R394). The module checks a shard record, then writes it into the tensor's layout. -/
  | importShard (r : Fin 256) (n : Nat)
  /-- POWER_SET_CAP (R455). POWER_SET changes the host cap or the surge enable. -/
  | powerSetCap (r : Fin 256) (n : Nat)
  /-- POWER_SET_RUN (R455). POWER_SET with STATE 1 brings every cluster to Run. -/
  | powerSetRun (r : Fin 256) (n : Nat)
  /-- POWER_SET_IDLE (R455). POWER_SET with STATE 2 puts the masked clusters in Idle. -/
  | powerSetIdle (r : Fin 256) (n : Nat)
  /-- POWER_SET_DOZE (R455). POWER_SET with STATE 3 puts the masked clusters in Doze. -/
  | powerSetDoze (r : Fin 256) (n : Nat)
  /-- POWER_SET_SLEEP (R452). POWER_SET with STATE 4 begins Sleep entry. -/
  | powerSetSleep (r : Fin 256) (n : Nat)
  /-- STATE_REQ (R262). The module writes a summary, counter-block, port or channel record. -/
  | stateReq (r : Fin 256) (n : Nat)
  /-- FW_CHUNK (R303). Firmware bytes are programmed into the inactive slot. -/
  | fwChunk (r : Fin 256) (n : Nat)
  /-- FW_VERIFY (R303). The inactive slot's image is verified and marked verified. -/
  | fwVerify (r : Fin 256) (n : Nat)
  /-- FW_ACTIVATE (R303). The boot record names the verified slot as pending. -/
  | fwActivate (r : Fin 256) (n : Nat)
  /-- FW_CONFIRM (R303). The trial image is made active and the anti-rollback fuses are blown. -/
  | fwConfirm (r : Fin 256) (n : Nat)
  /-- DIAG_READ_COUNTERS (R261). DIAG action 0 reads part of a core's counter block into a buffer. -/
  | diagReadCounters (r : Fin 256) (n : Nat)
  /-- DIAG_WRITE_COUNTERS (R261). DIAG action 1 writes the writable counter-block registers. -/
  | diagWriteCounters (r : Fin 256) (n : Nat)
  /-- DIAG_MARGIN_SWEEP (R349). DIAG action 2 walks a chain of ports, measuring link margins. -/
  | diagMarginSweep (r : Fin 256) (n : Nat)
  /-- DIAG_RESUME_SWEEP (R350). DIAG action 3 resumes a broken margin sweep. -/
  | diagResumeSweep (r : Fin 256) (n : Nat)
  /-- TIME_MARK (R414). The west hub's market time is taken at the descriptor's start. -/
  | timeMark (r : Fin 256) (n : Nat)
  /-- COMPLETION_RECORD_WRITE (R268). A finished descriptor's record is written once every earlier record is written. -/
  | completionRecordWrite (r : Fin 256)
  /-- MSIX_MODERATION_EXPIRY (R264). A ring's MOD interval ends and its held interrupt is sent. -/
  | msixModerationExpiry (r : Fin 256)
  /-- RING_RESET (R271). A write of RING_CFG.RESET starts a ring reset. -/
  | ringReset (r : Fin 256) (w : Word)
  /-- RING_RESET_COMPLETE (R271). The last started descriptor of a resetting ring ends, and the ring becomes DISABLED. -/
  | ringResetComplete (r : Fin 256)
  /-- RING_ENABLE (R250). A write of ENABLE = 1 makes a DISABLED ring UNBOUND, or sets CFG_ERR. -/
  | ringEnable (r : Fin 256) (w : Word)
  /-- RING_DISABLE (R250). A write of ENABLE = 0 asks the ring to disable once idle. -/
  | ringDisable (r : Fin 256) (w : Word)
  /-- RING_IDLE_DISABLE (R267). A ring asked to disable becomes idle, enters DISABLED and ends its binding. -/
  | ringIdleDisable (r : Fin 256)
  /-- EVENT_RING_ENABLE (R275). A write of EVT_RING_CFG.ENABLE = 1 restarts the event ring counts. -/
  | eventRingEnable (w : Word)
  /-- EVT_FULL_POLL (R278). A full event ring has its consumed count read again every 20 µs. -/
  | evtFullPoll (consumed : Word)
  /-- MSIX_UNMASK (R490). Unmasking a vector sends its one held message and clears its pending bit. -/
  | msixUnmask (v : Fin 512)
  /-- REGISTER_WRITE (R247). A BAR0 write to a register without a row of its own, with half staging and W1C handling. -/
  | registerWrite (off : Half) (size : Nat) (w : Dword)
  /-- LOW_HALF_READ (R486). A 4-byte read of the low half of a 64-bit register, TIME_LO or TILL_LO latches the high half. -/
  | lowHalfRead (bar2 : Bool) (off : Half) (size : Nat)
  /-- NONCE_DRAW (R295). A read of SESSION_NONCE draws a nonce into the next window and returns its tag. -/
  | nonceDraw (size : Nat)
  /-- NONCE_EXPIRY (R295). A nonce's 10 s life ends. -/
  | nonceExpiry (t : Fin 16)
  /-- SESSION_IDLE_TIMEOUT (R299). A ring with no descriptor for 10 s ends its binding with cause 2. -/
  | sessionIdleTimeout (r : Fin 256)
  /-- LOCKOUT_EXPIRY (R300). A running lockout ends. -/
  | lockoutExpiry
  /-- DEBUG_ENABLE (R307). A DEBUG_CTRL write of ENABLE = 1 activates debug or sets DENIED. -/
  | debugEnable (w : Word)
  /-- DEBUG_DISABLE (R307). A DEBUG_CTRL write of ENABLE = 0 ends debug at once. -/
  | debugDisable (w : Word)
  /-- MOD_CTRL_RESET (R282). A write of RESET with the right KEY causes a module reset. -/
  | modCtrlReset (w : Word) (e : StartupEnv)
  /-- CLERK_WATCHDOG (R288). The clerk has not served its watchdog for 2 s, and the module resets. -/
  | clerkWatchdog (e : StartupEnv)
  /-- GET_VERSION (R291). The DOE mailbox answers SPDM GET_VERSION. -/
  | getVersion
  /-- GET_CAPABILITIES (R291). The DOE mailbox answers SPDM GET_CAPABILITIES. -/
  | getCapabilities
  /-- NEGOTIATE_ALGORITHMS (R291). The DOE mailbox answers SPDM NEGOTIATE_ALGORITHMS. -/
  | negotiateAlgorithms (asym hash : Word)
  /-- GET_DIGESTS (R291). The DOE mailbox answers SPDM GET_DIGESTS. -/
  | getDigests
  /-- GET_CERTIFICATE (R291). The DOE mailbox returns a certificate chain. -/
  | getCertificate (slot : Fin 8) (off len : Half)
  /-- CHALLENGE (R291). The DOE mailbox answers an SPDM CHALLENGE within 50 ms. -/
  | spdmChallenge (slot : Fin 8) (nonce : List Byte)
  /-- GET_MEASUREMENTS (R291). The DOE mailbox returns the measurement blocks. -/
  | getMeasurements (op : Byte) (sign : Bool) (nonce : List Byte)
  /-- SPDM_UNSUPPORTED_REQUEST (R291). An unsupported SPDM request is answered with ERROR UnsupportedRequest. -/
  | spdmUnsupportedRequest (code : Byte)
  /-- CLAIM (R294). A key provisioning object claims an unowned module. -/
  | claimKeys (o : ProvObject)
  /-- SET_SLOT (R294). A key provisioning object replaces a slot's key and rights. -/
  | setSlot (o : ProvObject)
  /-- CLEAR_SLOT (R294). A key provisioning object empties a slot. -/
  | clearSlot (o : ProvObject)
  /-- SET_POLICY (R294). A key provisioning object sets DEBUG_LOCK. -/
  | setPolicy (o : ProvObject)
  /-- RELEASE (R294). A key provisioning object empties every slot and returns the module to unowned. -/
  | releaseKeys (o : ProvObject)
  /-- IDLE_FRAME (R311). An IDLE frame arrives and its ACK and CREDIT fields are processed. -/
  | idleFrame (p : Fin 16) (f : Frame) (fixed : List Nat)
  /-- QUARANTINE_END (R338). A quarantine's 10 ms of silence ends and a full haggle starts. -/
  | quarantineEnd (p : Fin 16)
  /-- CRC_FAILED_FRAME (R313). A frame fails its CRC or lies in an uncorrectable codeword, and NAK is set. -/
  | crcFailedFrame (p : Fin 16) (raw : List Byte) (errs : Nat)
  /-- REPLAY_TIMER (R314). The oldest unacknowledged frame has waited 2 µs, so it is replayed. -/
  | replayTimer (p : Fin 16)
  /-- WRITE (R320). An Arcade WRITE message writes its payload at ADDR. -/
  | writeMsg (p : Fin 16) (f : Frame)
  /-- READ (R320). An Arcade READ message is answered with READ_DATA. -/
  | readMsg (p : Fin 16) (f : Frame)
  /-- WRITE_DONE (R320). A WRITE_DONE message completes a write transaction at its source. -/
  | writeDone (p : Fin 16) (f : Frame)
  /-- READ_DATA (R320). A READ_DATA message returns part of a read. -/
  | readData (p : Fin 16) (f : Frame)
  /-- REJECT (R320). A REJECT message completes a transaction with the status its reason gives. -/
  | rejectMsg (p : Fin 16) (f : Frame)
  /-- RESTART_NOTICE (R343). A restart notice completes transactions to the address, records its epoch and is forwarded. -/
  | restartNotice (p : Fin 16) (f : Frame)
  /-- SWEEP_REQ (R350). A margin sweep request measures one hop. -/
  | sweepReq (p : Fin 16) (f : Frame)
  /-- SWEEP_RESULT (R350). A margin sweep result returns one hop's measurements. -/
  | sweepResult (p : Fin 16) (f : Frame)
  /-- SWEEP_HOP_TIMEOUT (R349). A sweep hop has no answer within 10 ms, and the chain breaks. -/
  | sweepHopTimeout (r : Fin 256) (n : Nat)
  /-- STEP_OPEN (R365). A start-dissemination message of a collective step arrives. -/
  | stepOpen (p : Fin 16) (f : Frame)
  /-- RS_DATA (R370). Reduce-phase values arrive and are added into the receiver's partials. -/
  | rsData (p : Fin 16) (f : Frame)
  /-- AG_DATA (R367). Gather-phase values arrive and are stored. -/
  | agData (p : Fin 16) (f : Frame)
  /-- BC_DATA (R367). Broadcast values arrive and are stored and forwarded. -/
  | bcData (p : Fin 16) (f : Frame)
  /-- PIPE_READY (R369). A pipeline receive's ready message lets the matching send move data. -/
  | pipeReady (p : Fin 16) (f : Frame)
  /-- PIPE_DATA (R369). Pipeline values arrive and are stored into DST. -/
  | pipeData (p : Fin 16) (f : Frame)
  /-- ARRIVE (R365). An end-dissemination or barrier arrival message is received. -/
  | arriveMsg (p : Fin 16) (f : Frame)
  /-- NORM_PART (R385). A partial sum of squares arrives for the norm all-reduce. -/
  | normPart (p : Fin 16) (f : Frame)
  /-- COLLECTIVE_ROUND_TIMEOUT (R375). A partner sends nothing for TIMEOUT ms, and the step fails with ERR_TIMEOUT. -/
  | collectiveRoundTimeout (g : Nat)
  /-- NORM_WAIT_TIMEOUT (R387). No NORM_REDUCE of the NORM_ID starts within 100 ms, and the UPDATE_STEP times out. -/
  | normWaitTimeout (r : Fin 256) (n : Nat)
  /-- REPROOF (R337). A received REPROOF frame is counted and logged. -/
  | reproofFrame (p : Fin 16) (f : Frame)
  /-- PARTNER_SIGNAL_DETECT (R325). A DOWN port detects a partner's signal and starts a full haggle. -/
  | partnerSignalDetect (p : Fin 16) (txFailed rxFailed : BitVec 9)
  /-- HELLO (R325). A HELLO frame settles version, credits and identity. -/
  | helloFrame (p : Fin 16) (f : Frame)
  /-- PING (R325). A PING frame is answered by an ECHO in its answer slot. -/
  | pingFrame (p : Fin 16) (f : Frame)
  /-- ECHO (R325). An ECHO frame contributes a flight-time sample. -/
  | echoFrame (p : Fin 16) (f : Frame)
  /-- CERT (R326). A CERT frame carries part of the hub die chain and signature for checking. -/
  | certFrame (p : Fin 16) (f : Frame)
  /-- CERT_TIMEOUT (R326). The partner does not answer the CERT phase within 70 ms, and the port is BLOCKED. -/
  | certTimeout (p : Fin 16)
  /-- JOIN_FRAME (R327). A JOIN frame is checked, and the port becomes UP or BLOCKED. -/
  | joinFrame (p : Fin 16) (f : Frame)
  /-- RETRAIN (R339). A RETRAIN frame of PHASE 6 is answered with RETRAIN_ECHO and its identity is checked. -/
  | retrainFrame (p : Fin 16) (f : Frame)
  /-- RETRAIN_ECHO (R339). A RETRAIN_ECHO frame contributes a remeasured flight-time sample. -/
  | retrainEcho (p : Fin 16) (f : Frame)
  /-- LANE_FAIL (R339). A lane loses lock or reaches its symbol threshold, and the port retrains. -/
  | laneFail (p : Fin 16) (rx : Bool) (lane : Fin 9)
  /-- RETRAIN_PATTERN_DETECT (R339). The partner detects the retrain pattern and joins the retrain. -/
  | retrainPatternDetect (p : Fin 16)
  /-- RETRY_ATTEMPT (R342). A port in RETRY attempts a retrain every 1 ms. -/
  | retryAttempt (p : Fin 16)
  /-- RETRY_EXPIRY (R345). RETRY ends after 100 ms, and the port goes DOWN and discards held frames. -/
  | retryExpiry (p : Fin 16)
  /-- TRANSACTION_TIMEOUT (R323). A transaction incomplete after 200 ms completes with ERR_TIMEOUT. -/
  | transactionTimeout (t : Nat)
  /-- FRAME_FORWARD (R334). A router forwards a waiting frame on a permitted port that grants credit. -/
  | frameForward (src : Fin 17) (pool : Fin 16)
  /-- ROUTER_FRAME_URGENT (R475). A frame that has held credit at its pool head for 1 µs becomes urgent. -/
  | routerFrameUrgent (src : Fin 17) (pool : Fin 16)
  /-- BIND (R330). A MACH_BIND write of BIND binds the module to a logical address, or is refused. -/
  | machBind (w : Dword)
  /-- UNBIND (R331). A MACH_BIND write of UNBIND stops new transactions and waits for those in flight. -/
  | machUnbind (w : Dword)
  /-- UNBIND_WAIT_END (R331). The unbind's wait ends, UP ports move to LINKED and BOUND clears. -/
  | unbindWaitEnd
  /-- ROUTE_LOAD (R332). A MACH_ROUTE write of LOAD reads and checks a routing description. -/
  | routeLoad (w : Dword)
  /-- ROUTE_MASKS_READY (R333). The new minimal masks are computed and replace the old ones at once. -/
  | routeMasksReady
  /-- PORT_ENABLE (R354). A write of PORT_CFG.ENABLE = 1 lets the port leave DOWN. -/
  | portEnable (p : Fin 16) (w : Word)
  /-- PORT_DISABLE (R354). A write of PORT_CFG.ENABLE = 0 takes the port DOWN. -/
  | portDisable (p : Fin 16) (w : Word)
  /-- PORT_RETRAIN (R354). A write of PORT_CFG.RETRAIN retrains an UP port. -/
  | portRetrain (p : Fin 16) (w : Word)
  /-- REHAGGLE (R354). A write of PORT_CFG.REHAGGLE starts a full haggle. -/
  | rehaggle (p : Fin 16) (w : Word)
  /-- PORT_CNT_CLEAR (R354). A write of PORT_CFG.CNT_CLEAR clears the port error and violation counters. -/
  | portCntClear (p : Fin 16) (w : Word)
  /-- LANE_SWEEP_START (R359). A PORT_SWEEP_CTRL write of START begins a lane margin measurement. -/
  | laneSweepStart (p : Fin 16) (w : Word)
  /-- LANE_SWEEP_DONE (R359). A lane margin measurement completes and its results are reported. -/
  | laneSweepDone (p : Fin 16) (v h : Byte)
  /-- TIME_SYNC_SEND (R406). Every 65,536 ns a module sends TIME_SYNC on every UP port. -/
  | timeSyncSend
  /-- TIME_SYNC (R407). A TIME_SYNC arrives, and a follower slews or steps toward its upstream. -/
  | timeSync (p : Fin 16) (f : Frame)
  /-- SYNC_LOST (R408). No usable upstream for 1 ms, so the follower runs on its own count. -/
  | syncLost
  /-- BEACON (R403). The west hub's beacon reaches every timekeeper at each multiple of 4,096 ns. -/
  | timeBeacon (errs : List Int)
  /-- FIFO_POINTER_CHECK (R399). Every 1 ms a mesochronous FIFO compares its pointers. -/
  | fifoPointerCheck (port : Bool) (i : Fin 50) (sep : Nat)
  /-- REF_LOST (R410). A missing or off-frequency reference switches market time to holdover. -/
  | refLost (edges : Bool) (freqErr : Half)
  /-- REF_RESTORED (R411). A usable reference returns, the hub relocks and HOLDOVER clears. -/
  | refRestored (freqErr : Half)
  /-- TIME_LOAD (R416). A TIME_CTRL write of LOAD steps market time to the staged value, or is refused. -/
  | timeLoad (w : Word)
  /-- CAP_LOOP_TICK (R433). At each millisecond the clerk runs the cap loop, equalisation and surge grants. -/
  | capLoopTick (m : CapMeas)
  /-- DOMAIN_STATUS_TICK (R427). At the end of each millisecond every domain reports its current, voltage and state. -/
  | domainStatusTick (ms : List DomMeas)
  /-- SURGE_CHECK (R437). Every 100 µs during surge the clerk checks the power and energy conditions. -/
  | surgeCheck (power current : Nat)
  /-- CONVERTER_LIMIT (R424). Core-rail overcurrent engages every cluster's pace limiter. -/
  | converterLimit (current : Nat)
  /-- CONVERTER_LIMIT_RELEASE (R424). The current has been below 3,600 A for 100 µs, and the limiter is released. -/
  | converterLimitRelease
  /-- THERMAL_POLL (R446). Every 100 µs the clerk reads the junction sensors and applies thermal responses. -/
  | thermalPoll (temps : List Int)
  /-- THERMAL_SHUTDOWN (R447). A junction reaches 115 °C, and hardware switches off every domain except AON. -/
  | thermalShutdown (d : Fin 59) (temp : Byte)
  /-- DROOP_WARNING (R441). A domain dips 40 mV below setpoint, and its pace limiter engages. -/
  | droopWarning (d : Fin 59) (depth : Nat)
  /-- PACE_LIMITER_RELEASE (R441). 100 µs after the last crossing, the droop pace limiter disengages. -/
  | paceLimiterRelease (d : Fin 59)
  /-- DROOP_RESET (R442). A domain dips to the reset level and resets. -/
  | droopReset (d : Fin 59) (depth : Nat) (stuck : Bool) (e : StartupEnv)
  /-- RETENTION_FLOOR_LOSS (R442). A retained SRAM domain falls below 0.34 V, and every sector of the stack is poisoned. -/
  | retentionFloorLoss (st : Fin 4)
  /-- AUTO_IDLE (R449). A cluster with no launch for 100 µs enters Idle by itself. -/
  | autoIdle (cl : Fin 48)
  /-- DOZE_WAKE (R450). An access to a dozing cluster wakes it to Idle. -/
  | dozeWake (cl : Fin 48)
  /-- POWER_DEFERRAL_EXPIRY (R451). Transfers have not drained within 1 ms, and the power request is refused. -/
  | powerDeferralExpiry
  /-- DOMAIN_STATE_ENTRY (R451). Transfers have drained and the deferred Doze or Sleep entry begins. -/
  | domainStateEntry
  /-- SLEEP_ENTRY (R452). Started descriptors have completed, and the module proceeds into Sleep. -/
  | sleepEntry
  /-- PCIE_WAKE (R453). The PCIe link exits L1 and wakes the module from Sleep. -/
  | pcieWake
  /-- WAKE_N_ASSERT (R453). WAKE_N low wakes the module from Sleep. -/
  | wakeNAssert
  /-- CLUSTER_HEARTBEAT_POLL (R471). Every 100 µs the clerk polls every cluster, and resets one silent for 1 ms. -/
  | clusterHeartbeatPoll (answered stuck : BitVec 48)
  /-- SEAM_LANE_FAIL (R469). A seam lane fails, and its group switches in the spare or is disabled. -/
  | seamLaneFail (sm : Fin 12) (g : Fin 32) (lane : Fin 17)
  /-- SEAM_FLIT_REPLAY (R469). A seam flit fails its CRC and is replayed within its group. -/
  | seamFlitReplay (sm : Fin 12) (g : Fin 32)
  /-- LEDGER_LOAD (R480). A LEDGER_SEL write loads the selected ledger entry. -/
  | ledgerLoad (w : Word)
  /-- LEDGER_FLUSH (R477). Buffered ledger entries reach flash within 10 ms. -/
  | ledgerFlush
  /-- NORM_FACTOR_TIMEOUT (R384). A stallkeeper read of NORM_FACTOR that has waited 100 ms with no NORM_REDUCE of its NORM_ID started returns the poison code 0x7FFF_FFFF. -/
  | normFactorTimeout (cl : Fin 48)
deriving DecidableEq, Repr

end Sys2Proof
end

