-- ==== Sys2Proof/Config.lean ====
section
/-! DEFINITION. What one module fixes at manufacture, and the free values: constants without a body, of which nothing can be
proved. -/
namespace Sys2Proof

/-- A fresh free value, read at the count `State.free` (log 7): nonces (R295), session tags (R298), SPDM nonces. -/
opaque Config.freeWord : Nat → BitVec 256

/-- Which of the values that the bound of R88 allows an approximation takes (log 8). First argument: the operation
(0 reciprocal, 1 reciprocal square root, 2 exp2, 3 exp; 8 more for VF16 lanes); second: the operand's code. R89 makes it a function of both. -/
opaque Config.approxPick : Nat → Nat → Nat

/-- FREE VALUE (R207; log 18): the 32 check bits of a data sector, by its 64 bytes as a number: the spec gives the code's properties, not the
code. -/
opaque Config.sectorCheck : Nat → BitVec 32

/-- FREE VALUE (R207; log 18): the 17 check bits over a check sector, by its other bits. -/
opaque Config.groupCheck : Nat → BitVec 17

/-- FREE VALUE (R228; log 25): the DQ lane, modulo 32, that carries a bit of a group. -/
opaque Config.dqLane : Nat → Nat

/-- FREE VALUE (R212; log 25): a byte of a device that no training has written, by channel, group and place in the group. -/
opaque Config.devByte : Nat → Nat → Nat → BitVec 8

/-- A byte of a replay record, whose layout is internal to the module (R174; log 45): what the record holds, as numbers, and the byte's
place in it. -/
opaque Config.recordByte : List Int → Nat → BitVec 8

/-- The fused 64-bit serial number (R484). -/
opaque Config.serial : BitVec 64

/-- The fused voltage code of a cluster's operating point 1 to 14 (R429, R461; log 11). -/
opaque Config.fusedVcode : Nat → Nat → BitVec 8

/-- The unused spare rows of a mat at shipment above the four that R202 promises (core, tier slice, mat; 72 is the spare mat; log 11). -/
opaque Config.extraSpareRows : Nat → Nat → Nat → Nat

/-- ECDSA P-384 verification (R285, R326): public key, SHA-384 hash, signature (log 10). -/
opaque Config.ecdsaVerify : List Byte → List Byte → List Byte → Bool

/-- An ECDSA P-384 signature by one of the module's own keys (R290, R291): key number 0 module, 1 west hub, 2 east hub (log 10). -/
opaque Config.ecdsaSign : Nat → List Byte → List Byte

/-- The shared secret of ECDH between an outside P-384 public key and the module key (R293; log 10). -/
opaque Config.ecdhModule : List Byte → List Byte

/-- AES key unwrap of RFC 3394 (R293): wrapping key, wrapped bytes; none when its integrity check fails (log 10). -/
opaque Config.aesUnwrap : List Byte → List Byte → Option (List Byte)

/-- An X.509 v3 certificate of R290 (log 10): its number (0 root authority, 1 manufacturing authority, 2 module, 3 west hub die, 4 east hub
die, 5 standby provisioning), its subject's serial number, its notAfter. -/
opaque Config.certificate : Nat → List Byte → List Byte → List Byte

/-- Whether a chain leads to the Isarun root, and the public key of its leaf (R326; log 10). -/
opaque Config.chainKey : List Byte → Option (List Byte)

/-- The Isarun firmware signing key hash fused at manufacture (R285; log 11). -/
opaque Config.fwKeyHash : List Byte

/-- Whether this hardware accepts an image's FEATURE_LEVEL (R303; log 11). -/
opaque Config.featureAccepted : Word → Bool

/-- An SPDM response body, of which the spec fixes only what it answers (R291; log 10): request code, request bytes. -/
opaque Config.spdmBody : Nat → List Byte → List Byte

end Sys2Proof
end

