-- ==== Sys2Proof/Machine/State.lean ====
section
/-! DEFINITION. The state of the block: every register, FIFO, buffer, counter, mode and pin the spec gives it (INVENTORY.md
lists each with its rule), the queue of waiting commands, and the model's own fields. Plain data throughout. -/
namespace Sys2Proof.Machine
open Sys2Proof

/-- Why the block stops with a fault. -/
inductive Fault where
  /-- Raised by no command of this model: every event of the table has an effect or leaves the block as it is (log 3).
  Safe: it is never an outcome. -/
  | none
deriving DecidableEq, Repr

/-- Why a command has no meaning. -/
inductive Refusal where
  /-- Raised by an arm of exec for a command whose meaning is not written yet. Safe: nothing is claimed of it. -/
  | notModelled (mnemonic : String)
deriving DecidableEq, Repr

/-- What a command answers. -/
abbrev Out (σ : Type) := Host.Outcome σ Fault Refusal

/-- A byte memory: (address, byte) pairs, addresses strictly rising, no byte equal to 0, which is what an unlisted address
reads as (R214, R279; log 6). -/
abbrev Memory := List Host.Cell

/-! ### Cores -/

/-- STATE of a station (R136). -/
inductive StnState where
  | idle | run | halted | done
deriving DecidableEq, Repr

/-- Who waits for a transaction or a request of this module: a porter command, a descriptor, a partner's read, a channel's traffic
generator, or no one. -/
inductive TxnOwner where
  | porter (cl : Fin 48) (n : Nat)
  | desc (r : Fin 256) (idx : Nat)
  | peer (m : Half) (tag : BitVec 15)
  | gen
  | none
deriving DecidableEq, Repr

/-- Who presents a local-store request: a station's instruction, or a porter access (R93, rank 4). -/
inductive PortOwner where
  | stn (k : Fin 8) (uid : Nat)
  | ext (o : TxnOwner)
deriving DecidableEq, Repr

/-- A request waiting at a local-store port (R93). `net` says that it belongs to a stream of the exchange network (R99). -/
structure PortReq where
  owner : PortOwner
  rank : Nat
  line : Nat
  write : Bool
  waited : Nat
  urgent : Bool
  net : Bool
deriving DecidableEq, Repr

/-- A line as a read grant delivered it (R94): its bytes that are not zero, its sectors marked uncorrected. -/
structure LineRead where
  line : Nat
  bytes : Memory
  poison : List Nat
deriving DecidableEq, Repr

/-- An instruction in flight (R127). `regs` are the scalar registers as read at firing, and VSTORE's vector register after them;
`left` counts the arrays of a pass still to drain; `raised` are the flags it raised; `marked` says it read data marked uncorrected;
`remote` the peer core of a failed transfer; `mute` that it pushes no tokens (R131); `granted` that a grant has freed a slot of the
matrix-vector unit; `seen` the lines its reads delivered; `pieces` the requests of the tiles and blocks it has still to pass
through the exchange network (R99). -/
structure Inflight where
  uid : Nat
  pc : BitVec 12
  word : InstrWord
  regs : List Word
  outVal : Word
  started : Bool
  streaming : Bool
  left : Nat
  raised : BitVec 3
  marked : Bool
  remote : Option Nat
  mute : Bool
  moved : Bool
  granted : Bool
  seen : List LineRead
  pieces : List (List PortReq)
deriving DecidableEq, Repr

/-- A station with its control block (R106, R135 to R137). `stuck` are the queues whose reserved credits no instruction
will spend (R131); `ending` says END has fired (R116). -/
structure Station where
  state : StnState
  pc : BitVec 12
  regs : Vector Word 16
  flags : BitVec 3
  entry : BitVec 12
  enable : Bool
  haltMask : BitVec 3
  haltUncorr : Bool
  wdog : Half
  wdogFrom : Dword
  excCode : Byte
  excPost : Bool
  excPc : BitVec 12
  excLost : BitVec 5
  excDetail : Word
  lfsr : Dword
  inflight : List Inflight
  nextUid : Nat
  stuck : List (Fin 32)
  ending : Bool
deriving DecidableEq, Repr

/-- A token queue as the map fixed it at LAUNCH (R107 to R109). `credits` are those the producer may still spend. -/
structure TokenQueue where
  prod : Byte
  cons : Byte
  peerCore : BitVec 9
  peerQ : Fin 32
  depth : Nat
  tokens : List Word
  credits : Nat
deriving DecidableEq, Repr

/-- A row of 64 values in the drain queue, tagged for a station (R121). -/
structure DqRow where
  vals : List Word
  stn : Fin 8
deriving DecidableEq, Repr

/-- A drain in progress: whose pass, its rank among the masked arrays, columns already out (R78). `buf` holds the columns
delivered so far, first column first. -/
structure DrainRun where
  stn : Fin 8
  uid : Nat
  word : InstrWord
  outRow : Word
  rank : Nat
  lowest : Bool
  cols : Nat
  buf : List (List Word)
deriving DecidableEq, Repr

/-- A bias preload: whose pass, columns loaded (R79). -/
structure BiasRun where
  stn : Fin 8
  uid : Nat
  cols : Nat
deriving DecidableEq, Repr

/-- One array: accumulators of cell (i, j) at index 64 i + j (R71), the passes issued and not started, oldest first, the pass
that streams, the pass whose products are all added and whose accumulators have not swapped, the pass that follows that one and
whose first element makes them swap (R78), the station that holds the array with the mask of the hold (R120), the cells that have counted SAT in the pass (R52), and its counters (R102). -/
structure ArrayUnit where
  active : Vector Word 4096
  shadow : Vector Word 4096
  issued : List (Fin 8 × Nat)
  streaming : Option (Fin 8 × Nat)
  finished : Option (Fin 8 × Nat)
  follower : Option (Fin 8 × Nat)
  satCells : List Nat
  heldBy : Option (Fin 8 × BitVec 4)
  drain : Option DrainRun
  bias : Option BiasRun
  passCnt : Word
  macCnt : Dword
  gatedCnt : Dword
  stallCnt : Dword
  outWaitCnt : Dword
  starveCnt : Dword
deriving DecidableEq, Repr

/-- One operand element as the load path delivers it: the exact value num * 2^exp, or poison (R46). -/
inductive FNum where
  | fin (num : Int) (exp : Int)
  | poison
deriving DecidableEq, Repr

/-- The matrix-vector unit (R84, R122). `issued` are the operations not yet streaming, `slots` the issue slots they hold (R127). -/
structure Mvu where
  x : List FNum
  accs : Vector Word 4096
  issued : List (Fin 8 × Nat)
  slots : Nat
  streaming : Option (Fin 8 × Nat)
  finished : Option (Fin 8 × Nat)
  satCells : List Nat
  heldBy : Option (Fin 8)
  macCnt : Dword
  gatedCnt : Dword
deriving DecidableEq, Repr

/-- One local-store port with its counters (R93, R102). -/
structure LsPort where
  reqs : List PortReq
  grantCnt : Dword
  urgentCnt : Dword
deriving DecidableEq, Repr

/-- One tier slice: the scrubber's place and the repair pool (R198 to R203). `repairs` are rows (mat, row) waiting,
`redirected` the rows and mats moved, `hold` the access hold of the repair in progress. -/
structure TierSlice where
  scrubLine : Nat
  rowsUsed : List (Nat × Nat)
  matSpent : Bool
  replacedMat : Option Nat
  repairs : List (Nat × Nat)
  unrepaired : List (Nat × Nat)
deriving DecidableEq, Repr

/-- A record kept for VK1 replay (R174): the destination entry's options, the place of its stored rows, the source values in
stored order, and whether the store rotated them. -/
structure Retained where
  entry : List Word
  row : Nat
  col : Nat
  rot : Bool
  rows : Nat
  cols : Nat
  vals : List FNum
deriving DecidableEq, Repr

/-- The watch registers and base copies of a core (R165 to R169). -/
structure Watch where
  action : BitVec 2
  edgeFrac : Byte
  satThr : Word
  ufzThr : Word
  edgeMin : Word
  blockCnt : Word
  satTrig : Bool
  ufzTrig : Bool
  edgeTrig : Bool
  retaining : Bool
  retainFull : Bool
  replayed : Bool
  refused : Bool
  trigCnt : Byte
  baseSat : Word
  baseUfz : Word
  baseEdge : Word
  baseBlock : Word
  replayBase : BitVec 28
  replayLimit : BitVec 28
  replayUsed : Word
  retained : List Retained
  eventSent : Bool
deriving DecidableEq, Repr

/-- A core (R106, R91, R102). `xnetOwner` is the instruction whose stream holds the exchange network, `xnetWait` those whose streams
wait for it, oldest first (R99). -/
structure Core where
  stns : Vector Station 8
  vregs : Vector (Vector Word 64) 64
  queues : Vector TokenQueue 32
  istore : Memory
  optab : Memory
  qmap : Memory
  ls : Memory
  lsPoison : List Nat
  arrays : Vector ArrayUnit 4
  mvu : Mvu
  drainQ : List DqRow
  xnetOwner : Option (Fin 8 × Nat)
  xnetWait : List (Fin 8 × Nat)
  vecIssued : Nat
  loadIssued : Nat
  storeIssued : Nat
  xnetIssued : List (Fin 8 × Nat)
  lports : Vector LsPort 4
  slices : Vector TierSlice 4
  bWaitCnt : Dword
  bStarveCnt : Dword
  xnetBusyCnt : Dword
  satCnt : Word
  ufzCnt : Word
  psnCnt : Word
  edgeCnt : Word
  watch : Watch
  lsCe : Word
  lsUe : Word
  lsRepair : Word
  retire : Bool
  retired : Bool
deriving DecidableEq, Repr

/-! ### Clusters -/

/-- What the stallkeeper is doing (R140, R143, R149). -/
inductive SkState where
  | idle | run | wait | stopped
deriving DecidableEq, Repr

/-- The start of an interval (R412): its value, whether taken in holdover, whether a step has fallen since (R413). -/
structure IStart where
  val : Dword
  hold : Bool
  stepped : Bool
deriving DecidableEq, Repr

/-- The stallkeeper with its memories and control registers (R138 to R142, R384, R412). -/
structure Stallkeeper where
  st : SkState
  pc : Word
  g : Vector Word 32
  imem : Memory
  dmem : Memory
  events : List Word
  timer : Word
  timerArmed : Bool
  waitMask : Word
  startLo : Word
  start : Option IStart
  nowHi : Word
  interval : Word
  normSel : Word
  normSince : Option Nat
deriving DecidableEq, Repr

/-- A station's SEND or RECV as the porter carries it (R125). -/
structure XferCmd where
  isSend : Bool
  core : Fin 384
  stn : Fin 8
  uid : Nat
  localAddr : Nat
  peer : Nat
  peerAddr : Nat
  len : Nat
deriving DecidableEq, Repr

/-- An entry of a porter command queue (R150, R151). -/
structure PorterCmd where
  word : DescWord
  xfer : Option XferCmd
deriving DecidableEq, Repr

/-- A porter command that holds its tag (R150, R153). `moved` says its own transfer is made, `txns` the remote transactions
it still waits for, `code` the error it failed with, `id` its number among the cluster's started commands;
`stage` holds a GATHER list read from a partner, once `staged`; `marked` says a transfer read data marked uncorrected (R130); `asked`
counts the batches of requests it has presented, `seen` holds the local-store lines its reads delivered, each with its core (R94); `began` that it has
begun to write its destination. -/
structure PorterRun where
  id : Nat
  cmd : PorterCmd
  q : Fin 4
  txns : Nat
  moved : Bool
  code : Option Half
  stage : Memory
  staged : Bool
  marked : Bool
  asked : Nat
  seen : List (Fin 384 × LineRead)
  began : Bool
deriving DecidableEq, Repr

/-- A crier channel (R154). `firing` says it has reached its threshold and waits for credit. -/
structure CrierChan where
  threshold : Half
  skEvent : Bool
  targets : Vector Half 4
  count : Half
  gen : Half
  firing : Bool
deriving DecidableEq, Repr

/-- A crier broadcast in progress (R155). -/
structure Broadcast where
  src : Nat
  coreMask : Byte
  chan : Fin 64
  addr : Nat
  len : Nat
  clusters : BitVec 48
deriving DecidableEq, Repr

/-- A cluster (R138, R150, R154, R402, R471). `tkErr` is its timekeeper's reading minus the west hub's market time. -/
structure Cluster where
  sk : Stallkeeper
  pq : Vector (List PorterCmd) 4
  pNext : Fin 4
  pCount : Nat
  pLast : Vector Nat 4
  prun : List PorterRun
  crier : Vector CrierChan 64
  bcasts : List Broadcast
  tkErr : Int
  handle : Word
  imgCores : Byte
  entry : Word
  loaded : Bool
  launch : Option Nat
  ending : Option Byte
  inService : Bool
  failures : List Nat
  lastAnswer : Dword
deriving DecidableEq, Repr

/-- A launch in progress (R147 to R149, R170 to R178). `phase`: 0 running, 1 stop begun, 2 replay begun. -/
structure Launch where
  id : Nat
  ring : Fin 256
  idx : Nat
  handle : Word
  mask : BitVec 48
  seed : Dword
  arg : Word
  timeout : Half
  start : Nat
  ended : List (Nat × Byte)
  recipe : Option Nat
  phase : Nat
  abortAt : Option Nat
  retaining : Bool
  replayed : Bool
  exposed : Bool
  failed : Option (Byte × Half)
deriving DecidableEq, Repr

/-- A token or a credit on its way between cores (R109, R110). -/
structure Transit where
  core : Nat
  q : Fin 32
  val : Word
  credit : Bool
deriving DecidableEq, Repr

/-! ### GDDR7 -/

/-- A request in a channel's queue (R220 to R224): `cnt` sectors of a group from sector `lo` on, `merge` those a write covers in part and
reads first (R209), `tries` its retries so far (R216), `seq` its place in the order of acceptance. -/
structure GReq where
  cls : Nat
  group : Nat
  write : Bool
  at_ : Nat
  urgent : Bool
  owner : TxnOwner
  lo : Nat
  cnt : Nat
  merge : List Nat
  tries : Nat
  seq : Nat
deriving DecidableEq, Repr

/-- A traffic generator (R238 to R241). `counts` are lanes 0 to 31, all lanes, ECC corrections; `visited` the groups done in the
pass. -/
structure TrafficGen where
  mode : BitVec 3
  raw : Bool
  walk : BitVec 2
  loop : Bool
  laneSel : BitVec 6
  pattern : Dword
  addr : Dword
  state : BitVec 2
  mismatch : Bool
  edcSeen : Bool
  passes : Half
  counts : List Nat
  stopAsked : Bool
  visited : List Nat
deriving DecidableEq, Repr

/-- A GDDR7 channel (R220, R233 to R236). `waiting` are requests, true for narrow ones, that wait before the channel,
`accepted` counts the requests accepted; `rawGroups` the
groups that hold what raw mode wrote (R227). -/
structure Channel where
  edcRetry : BitVec 4
  ceEvtEn : Bool
  state : BitVec 3
  sr : Bool
  cause : BitVec 4
  ratesOk : BitVec 4
  corrected : Word
  uncorrected : Half
  retries : Half
  slot : BitVec 6
  mapped : Bool
  substitute : Bool
  burst : List GReq
  narrow : List GReq
  lastNarrow : Bool
  openRow : Option Nat
  scrubGroup : Nat
  waiting : List (Bool × GReq)
  accepted : Nat
  rawGroups : List Nat
  tg : TrafficGen
deriving DecidableEq, Repr

/-- The memory interfaces of both hubs (R207, R210, R231, R232). `mem` is keyed by usable byte address; `poison` holds the
usable address / 64 of each sector whose poison bit is set; `raw` holds device bytes of channels outside the
map; `capRate` and `thermRate` are the rates that the cap loop (R434) and the thermal response (R446) allow. -/
structure Gddr where
  rateMax : BitVec 2
  scrubEn : Bool
  ceEvtLog2 : BitVec 5
  rate : BitVec 2
  activeCh : BitVec 6
  trained : Bool
  rateTarget : Option (BitVec 2)
  capRate : BitVec 2
  thermRate : BitVec 2
  selfRefresh : Bool
  failedCh : BitVec 6
  chans : Vector Channel 50
  mem : Memory
  poison : List Nat
  raw : Memory
deriving DecidableEq, Repr

/-! ### Host interface -/

/-- One dimension of a tensor descriptor (R181). -/
structure TDim where
  extent : Nat
  kind : Nat
  axisMask : Half
  cycle : Nat
  stride : Nat
  scaleStride : Nat
deriving DecidableEq, Repr

/-- A tensor descriptor as the module read it (R179, R180). -/
structure Tensor where
  fmt : Nat
  implicit : Bool
  isLocal : Bool
  rotL : Nat
  rotSeed : Word
  seqDim : Nat
  splitDim : Nat
  ncores : Nat
  core0 : Nat
  placeMask : Half
  placeBase : Half
  posBase : Nat
  dataBase : Nat
  scaleBase : Nat
  dims : List TDim
  reservedOk : Bool
deriving DecidableEq, Repr

/-- A started descriptor (R268). `run` while its work goes on, `done` once it has its status; `effects` once every memory
effect it will make is visible (R260); `early` when it had started before the ring's halting record (R270). `ran` is false of a
descriptor that ends without a start (R265, R270); `order` numbers the starts of all rings; `asked` counts the batches of
requests it has presented, `issued` that its work is under way, its status so far kept; `corr` counts the sectors its reads had corrected; `stage`
holds operand bytes read from a partner, by offset, once `staged`; `snap` what the descriptor takes at its start (R262, R272 (e)), `bad` the
sectors that came to it marked, each with its core or 384 for GDDR7, `tds` the tensor descriptors it read there (R179). -/
structure DescCtx where
  idx : Nat
  word : DescWord
  run : Bool
  done : Bool
  status : Byte
  detail : Half
  result : Dword
  effects : Bool
  early : Bool
  time : Dword
  hold : Bool
  era : Byte
  since : Nat
  ran : Bool
  order : Nat
  asked : Nat
  issued : Bool
  corr : Nat
  stage : Memory
  staged : Bool
  snap : List Byte
  bad : List (Nat × Nat)
  tds : List (Dword × Tensor)
deriving DecidableEq, Repr

/-- STATE of a ring (R252, R267). -/
inductive RingState where
  | disabled | unbound | bound | halted | resetting
deriving DecidableEq, Repr

/-- A ring: its registers (R249 to R252) and what the ring engine keeps for it (R254 to R271). `mirrors` are the values written to its
mirror page whose reads are outstanding, each with the reads issued before its own (R257); `ableSince` is when its next descriptor became
able to start, `freedAt` when the end of a descriptor of it last gave back the last free context (R269). -/
structure Ring where
  base : BitVec 52
  cplBase : BitVec 52
  dbAddr : BitVec 61
  enable : Bool
  log2 : BitVec 5
  prio : BitVec 2
  epoch : Half
  vector : BitVec 9
  irqAll : Bool
  mod_ : BitVec 6
  state : RingState
  urgent : Bool
  dbInvalid : Bool
  mirrorMismatch : Bool
  cfgErr : Bool
  tail : Word
  head : Word
  fetchIdx : Nat
  epochTaken : Bool
  interval : Nat
  lastRead : Nat
  outstanding : Nat
  tailAt : Nat
  mirrors : List (Word × Nat)
  refused : List Word
  fetched : List DescWord
  startIdx : Nat
  started : List DescCtx
  ableSince : Option Nat
  freedAt : Nat
  haltSeq : Half
  resetCause : Byte
  dropped : Nat
  reEnable : Bool
  tag : Option Half
  lastIrq : Option Nat
  irqHeld : Bool
  activeAt : Nat
deriving DecidableEq, Repr

/-- The event ring (R275, R278). -/
structure EventRing where
  base : BitVec 52
  enable : Bool
  log2 : BitVec 5
  dbAddr : BitVec 61
  minSev : BitVec 2
  lost : Half
  w : Nat
  c : Nat
  spell : Nat
  full : Bool
  lastRead : Nat
deriving DecidableEq, Repr

/-- An MSI-X table entry (R489) with its pending bit (R490). -/
structure MsixEntry where
  addr : BitVec 62
  data : Word
  mask : Bool
  pend : Bool
deriving DecidableEq, Repr

/-- An entry of MSIX_MAP (R275). -/
structure MsixMap where
  vector : BitVec 9
  en : Bool
deriving DecidableEq, Repr

/-- The endpoint (R242, R247, R486): the lanes its link trains with and its rate (0 64 GT/s, 1 32, 2 16), staged lower halves of 64-bit writes and latched upper halves of reads, by offset. `rr` is
the ring served last of each priority (R269), `starts` the descriptors started. -/
structure Pcie where
  up : Bool
  lanes : BitVec 5
  rate : BitVec 2
  funcMask : Bool
  staged : List (Nat × Word)
  latched : List (Nat × Word)
  entries : Vector MsixEntry 512
  maps : Vector MsixMap 64
  rr : Vector (Fin 256) 4
  starts : Nat
deriving DecidableEq, Repr

/-! ### Power, pins, start-up -/

/-- What a cluster's logic domain is doing (R448). -/
inductive PwrMode where
  | run | idle | doze | off
deriving DecidableEq, Repr

/-- A cluster's power (R431 to R451). `issued`, `pace` and `power` are of the last millisecond; `warnAt` is the last droop warning,
`thermAt` the last thermal step, `lastSurge` the last time at OP15. -/
structure ClusterPower where
  mode : PwrMode
  op : Nat
  capLimit : Nat
  thermLimit : Nat
  thermAt : Nat
  duty : Nat
  pace : Nat
  issued : Bool
  power : Nat
  idleSince : Nat
  warnAt : Option Nat
  slowTicks : Nat
  straggler : Bool
  wearMs : Nat
  wearTold : Bool
  thermDown : Bool
  lastSurge : Option Nat
deriving DecidableEq, Repr

/-- What a domain reports (R427, R462), its hottest sensor in 0.125 °C, and its pace limiter: `engaged`, until when or since when
released, and when a warning last made an event (R441). -/
structure Domain where
  current : Half
  voltage : BitVec 12
  state : BitVec 3
  limiter : Bool
  surge : Bool
  thermal : Bool
  temp : Byte
  pace : Half
  opRep : BitVec 4
  sensor : Int
  engaged : Bool
  limitUntil : Option Nat
  warnEvt : Option Nat
deriving DecidableEq, Repr

/-- A deferred Doze or Sleep request (R451). -/
structure Deferral where
  ring : Fin 256
  idx : Nat
  state : Nat
  mask : BitVec 48
  since : Nat
deriving DecidableEq, Repr

/-- Module power: registers of R457 to R461 and what the clerk keeps (R432 to R447). `samples` are the energies of the last
milliseconds, newest first, `part` those of the 100 µs checks since the last tick; `capForce` is the cap of the last tick;
`wakes` are the wake sources that arrived during entry (R454). -/
structure Power where
  v48 : Bool
  capDefault : BitVec 12
  hostCap : BitVec 12
  ceiling : BitVec 12
  memStepEn : Bool
  linkStepEn : Bool
  opReq : BitVec 4
  idleAuto : Bool
  surgeEn : Bool
  mstate : BitVec 3
  capUnreachable : Bool
  limit105 : Bool
  duty : Nat
  surgeBlock : BitVec 3
  wearSpent : Bool
  warnAt : Option Nat
  smbEn : Bool
  pcieEn : Bool
  pinEn : Bool
  smbSeen : Bool
  pcieSeen : Bool
  pinSeen : Bool
  till : Dword
  samples : List Nat
  surgeMs : List Bool
  underTicks : Nat
  overTicks : Nat
  conv : Bool
  part : List Nat
  coreCurrent : Nat
  vtCluster : BitVec 6
  vtOp : BitVec 4
  clusters : Vector ClusterPower 48
  doms : Vector Domain 59
  deferral : Option Deferral
  linkStepped : Bool
  sleepAt : Nat
  capForce : BitVec 12
  memThermAt : Nat
  memThermDown : Bool
  linkTherm : BitVec 2
  wakes : BitVec 3
deriving DecidableEq, Repr

/-- The sideband pins (R12, R13, R31, R32). Inputs: modResetN, perstN, wakeN. `alertOff` holds the causes of SMB_ALERT_N, and the
newest ledger SEQ, that its last release covered. `dbgBusy` says that a debug access has not yet ended with a scan, `dbgCut` that the
end of debug cut one off, which the next scan reports as denied (R33). -/
structure Pins where
  modResetN : Bool
  perstN : Bool
  wakeN : Bool
  modReady : Bool
  thermTripN : Bool
  alertOff : BitVec 3 × Word
  extest : Bool
  bscan : List Bool
  pecErrors : Nat
  dbgBusy : Bool
  dbgCut : Bool
deriving DecidableEq, Repr

/-- Start-up (R21 to R24, R279 to R282, R328). `refWait` is the time at which the wait of R27 began. -/
structure Boot where
  step : BitVec 4
  degraded : Bool
  fatal : Bool
  recovery : Bool
  cause : Byte
  prior : Byte
  count : Half
  scratch : Word
  straps : BitVec 18
  latchedOnce : Bool
  changed : Bool
  holdReset : Bool
  refWait : Option Nat
  epoch : Word
  clerkServed : Nat
deriving DecidableEq, Repr

/-! ### Identity, keys, sessions, firmware -/

/-- An owner key slot (R292). -/
structure KeySlot where
  valid : Bool
  key : List Byte
  rights : BitVec 5
deriving DecidableEq, Repr

/-- A nonce window (R295). -/
structure NonceWin where
  val : BitVec 256
  tag : Half
  live : Bool
  at_ : Nat
deriving DecidableEq, Repr

/-- A live session (R298). -/
structure Session where
  slot : Fin 8
  tag : Half
  rights : BitVec 5
deriving DecidableEq, Repr

/-- One copy of the boot record (R283): slot false is A, true is B; `valid` says that its CRC-32C holds. -/
structure BootRec where
  valid : Bool
  seqNo : Nat
  active : Bool
  pending : Option Bool
  tries : Nat
  verified : Option Bool
deriving DecidableEq, Repr

/-- The clerk's security state (R283, R290 to R307). -/
structure Security where
  owned : Bool
  debugLock : Bool
  slots : Vector KeySlot 8
  counter : Word
  standbyCert : Bool
  flashA : Memory
  flashB : Memory
  recA : BootRec
  recB : BootRec
  fwState : BitVec 3
  bootSlot : Bool
  fallback : Bool
  rejected : Bool
  running : Word
  feature : Word
  arbFused : Nat
  draws : Nat
  nonces : Vector NonceWin 16
  sessions : List Session
  fails : Nat
  lockUntil : Option Nat
  level : Nat
  dbgTag : Half
  dbgActive : Bool
  dbgDenied : Bool
  dbgSlot : Fin 8
  spdmVersion : Bool
  spdmCaps : Bool
  spdmAlgs : Bool
  transcript : List Byte
deriving DecidableEq, Repr

/-! ### Arcade, machine, collectives -/

/-- A frame waiting in a pool, with the time since which it has had credit at the pool's head (R475). -/
structure QFrame where
  frame : Frame
  since : Option Nat
  urgent : Bool
deriving DecidableEq, Repr

/-- A receiver pool and what its sender side knows (R317, R318). -/
structure Pool where
  held : List QFrame
  freed : Byte
  granted : Nat
  credit : Nat
  spent : Nat
  lastFreed : Byte
deriving DecidableEq, Repr

/-- A frame in the replay buffer (R314). -/
structure TxEntry where
  frame : Frame
  sentAt : Nat
deriving DecidableEq, Repr

/-- The latest TIME_SYNC of a port (R406, R407). -/
structure SyncMsg where
  tSend : Dword
  root : Half
  stratum : Byte
  flags : Byte
  at_ : Nat
deriving DecidableEq, Repr

/-- An Arcade port (R311 to R318, R324 to R345, R354 to R359). `narrowed` says a width step is in force, `hgBuf` holds haggle
frames to acknowledge, `peerNext` is the partner's RX_NEXT, `ownHello` the payload of the last HELLO sent,
`rrPool` the pool its output served last (R475), `nonce` the one of the haggle (R324); `laneFixed` counts the symbols corrected on each lane
from the partner in millisecond `laneWindow` (R339). -/
structure Port where
  enable : Bool
  certReq : Bool
  laneFailThr : BitVec 5
  state : BitVec 3
  certOk : Bool
  txLanes : Nat
  rxLanes : Nat
  crossed : Bool
  blockCause : BitVec 3
  partnerAddr : Half
  flight : Half
  txFailed : BitVec 9
  rxFailed : BitVec 9
  narrowed : Bool
  corrected : Word
  uncorrectable : Half
  replays : Half
  viol : Vector Byte 5
  reproofs : Byte
  quarantines : Byte
  partnerEpoch : Word
  partnerSerial : Dword
  known : Bool
  verPartner : Byte
  verAgreed : Byte
  floorPartner : Byte
  sweepLane : BitVec 4
  sweepState : BitVec 2
  vMargin : Byte
  hMargin : Byte
  txSeq : BitVec 12
  rxNext : BitVec 12
  hgTx : BitVec 12
  hgRx : BitVec 12
  nak : Bool
  ackValid : Bool
  buf : List TxEntry
  nakReplay : Option (BitVec 12 × Nat)
  fruitless : Nat
  pools : Vector Pool 16
  phase : Nat
  samples : List Nat
  cert : List Byte
  partnerHello : List Byte
  certWanted : Bool
  resume : Bool
  partnerBound : Bool
  partnerDim : Byte
  partnerCross : Bool
  restarted : Bool
  violTimes : List Nat
  reproofAt : List (Nat × Nat)
  quarEnd : Option Nat
  retrySince : Option Nat
  retryAt : Nat
  signalAt : Nat
  sent : List Frame
  tsync : Option SyncMsg
  hgBuf : List TxEntry
  peerNext : BitVec 12
  ownHello : List Byte
  rrPool : Fin 16
  nonce : BitVec 384
  laneFixed : Vector Nat 9
  laneWindow : Nat
deriving DecidableEq, Repr

/-- A routing description (R332). -/
structure RouteDesc where
  dims : Nat
  floor : Byte
  cross : Half
  gen : Half
  down : List (Nat × Nat)
deriving DecidableEq, Repr

/-- A transaction in flight (R320, R323): `at_` is when its first frame was sent, once `sent`; `held` are the pieces of a read whose data
goes on to another module, by offset, each with its mark. -/
structure Txn where
  tag : BitVec 15
  dest : Half
  isRead : Bool
  owner : TxnOwner
  at_ : Nat
  dstAddr : Dword
  len : Nat
  got : Nat
  sent : Bool
  held : List (Nat × List Byte × Bool)
deriving DecidableEq, Repr

/-- Frames still to come of a WRITE transaction that arrives, since when, and whether it was answered with REJECT (R320). -/
structure Inbound where
  src : Half
  tag : BitVec 15
  left : Nat
  dead : Bool
  at_ : Nat
deriving DecidableEq, Repr

/-- A margin sweep in progress (R349, R350): its chain, the hop being measured and the module it starts at; `ended` its cause once it has
ended and waits for a transaction to write its results. -/
structure Sweep where
  ring : Fin 256
  idx : Nat
  chain : List Nat
  hop : Nat
  cur : Half
  at_ : Nat
  tStart : Dword
  results : List (List Byte)
  ended : Option Nat
deriving DecidableEq, Repr

/-- The machine registers and the router (R329 to R334, R343, R352). `serving` are partners' READs whose data is being read here. -/
structure Mach where
  logical : Half
  slot : BitVec 6
  block : BitVec 10
  standby : Bool
  routeAddr : BitVec 58
  bound : Bool
  bindErr : Bool
  bindCause : BitVec 3
  routeErr : Bool
  route : Option RouteDesc
  loading : Option (RouteDesc × Nat)
  unbinding : Option Nat
  txns : List Txn
  nextTag : BitVec 15
  epochs : List (Half × Half)
  notices : List (Half × Word)
  inbound : List Inbound
  serving : List Frame
  inject : Vector (List QFrame) 16
  sweep : Option Sweep
deriving DecidableEq, Repr

/-- One element of a collective's flat sequence: its VW32 partial, and the wire code and block scale while they travel
unchanged (R370, R372). -/
structure WireElem where
  acc : Word
  code : Word
  scale : Byte
deriving DecidableEq, Repr

/-- A unit of 512 elements of a step (R366): the round it is in, the elements received in it, whether its values are final here. -/
structure CollUnit where
  round : Nat
  got : Nat
  final : Bool
deriving DecidableEq, Repr

/-- A step of a group (R364 to R376). kind 0 to 5 as COLLECTIVE KIND, 6 barrier; `phase`: 0 waits for its turn, 1 opening,
2 moving data, 3 closing. `openAt`
and `closeAt` are the dissemination rounds done, `n` its step count, 0 before it begins. `heard` is when the member last heard what it expects, `tag` marks its frames. -/
structure CollStep where
  ring : Fin 256
  idx : Nat
  gid : Word
  n : Nat
  kind : Nat
  wire : Nat
  finalWide : Bool
  form : Nat
  members : List Half
  rank : Nat
  dims : List Nat
  root : Nat
  peer : Half
  seed : Word
  timeout : Nat
  last : Bool
  recCrc : Word
  total : Nat
  src : Option Tensor
  dst : Option Tensor
  phase : Nat
  openAt : Nat
  closeAt : Nat
  okBit : Bool
  vals : List WireElem
  units : List CollUnit
  heard : Nat
  poisoned : Nat
  carried : Bool
  tag : BitVec 15
deriving DecidableEq, Repr

/-- A collective group: its step count n and its steps, the one in progress first (R364). -/
structure Group where
  id : Word
  n : Nat
  steps : List CollStep
deriving DecidableEq, Repr

/-- A NORM_REDUCE in progress (R385): the module's own sum and the partial so far; `round` counts subcube rounds, or is 1
once a list member has passed its chain sum on; `n` counts the reductions of its NORM_ID. -/
structure NormRun where
  ring : Fin 256
  idx : Nat
  id : Word
  n : Nat
  maxNorm : Word
  form : Nat
  members : List Half
  rank : Nat
  dims : List Nat
  timeout : Nat
  acc : Word
  round : Nat
  heard : Nat
  poisoned : Nat
  tag : BitVec 15
deriving DecidableEq, Repr

/-- A clip factor's entry (R386). status: 0 pending, 1 published, 2 failed; with its NORM_REDUCE's status and DETAIL. Entries
stand in order of publication. -/
structure NormEntry where
  id : Word
  status : Nat
  factor : Word
  endStatus : Byte
  endDetail : Half
deriving DecidableEq, Repr

/-- The HYPER record (R378). -/
structure Hyper where
  lr : Word
  beta1 : Word
  beta2 : Word
  eps : Word
  decay : Word
  seed : Word
  factBase : Nat
  sr : Byte
  watchSat : Word
  watchUfz : Word
  edgeFrac : Byte
  edgeMin : Word
deriving DecidableEq, Repr

/-- An UPDATE_STEP in progress (R377 to R383). `clip` is the factor in use, `waitNorm` that it is awaited since `since`;
`runsLeft` are the runs not yet worked, `asked` those whose reads the channels have been given; `stats` the row and column
statistics and rho of R380 once pass 1 is made; `badSectors` the sectors delivered uncorrected, each once; `skipped` says a
parameter was not stepped, `trig` the first channel that triggered. -/
structure UpdateCtx where
  ring : Fin 256
  idx : Nat
  rule : Nat
  decayOn : Bool
  clip : Option Word
  waitNorm : Bool
  normId : Word
  since : Nat
  step : Word
  hyper : Hyper
  master : Tensor
  stateT : Option Tensor
  grad : Tensor
  compute : Tensor
  gradTd : Dword
  runsLeft : List Nat
  asked : List Nat
  stats : Option (List Word × List Word × Word)
  satCnt : Nat
  ufzCnt : Nat
  edgeCnt : Nat
  blockCnt : Nat
  badSectors : List Nat
  skipped : Bool
  trig : Option Nat
deriving DecidableEq, Repr

/-- Collectives, norms and updates (R364, R377, R386). `waiting` are messages not yet expected, which hold their pool buffers,
with the port they came by; `normCounts` counts reductions of each NORM_ID; `malformed` counts discarded ones (R374). -/
structure Coll where
  groups : List Group
  runs : List NormRun
  norms : List NormEntry
  upds : List UpdateCtx
  normCounts : List (Word × Nat)
  waiting : List (Fin 16 × Frame)
  malformed : Nat
deriving DecidableEq, Repr

/-! ### Time base, faults -/

/-- The west hub's time base (R399 to R419). `slew` is what a follower still has to gain or lose, `slewAt` when it last did, `upAt`
when a usable upstream was last heard, `lostTold` that SYNC_LOST was written since. -/
structure TimeBase where
  mt : Dword
  running : Bool
  root : Bool
  follow : Bool
  stagedLo : Word
  stagedHi : Word
  locked : Bool
  holdover : Bool
  syncBit : Bool
  stepped : Bool
  loadErr : Bool
  stratum : BitVec 4
  era : Byte
  offset : Byte
  present : Bool
  lost : Bool
  lossCnt : Byte
  freqErr : Half
  holdSince : Nat
  slew : Int
  lastSample : Option Int
  aside : List Int
  firstDone : Bool
  upstream : Option (Fin 16)
  rootAddr : Half
  upAt : Nat
  lostTold : Bool
  slewAt : Nat
  lastSend : Dword
  fifoPhy : Vector Nat 50
  fifoPort : Vector Nat 16
deriving DecidableEq, Repr

/-- A lane group of a seam (R469, R470). -/
structure SeamGroup where
  failed : List (Fin 17)
  disabled : Bool
  replays : Nat
deriving DecidableEq, Repr

/-- A ledger entry (R478); a continuation has kind 0x0807 and up to 28 data bytes. -/
structure LedgerEntry where
  kind : Half
  sev : Byte
  flags : Byte
  seqNo : Word
  time : Dword
  boot : Half
  source : Half
  data : List Byte
deriving DecidableEq, Repr

/-- The ledger (R477, R480) and the SMBus read pointer (R29). -/
structure Ledger where
  sections : Vector (List LedgerEntry) 18
  buffer : List (LedgerEntry × Nat)
  seqNo : Word
  lastAt : List (Half × Half × Nat)
  sel : Word
  valid : Bool
  skipped : Bool
  data : List Byte
  smbPtr : Word
deriving DecidableEq, Repr

/-- What the block has put out (log 14): SMBus answer, DOE answer, debug scan and whether it reported an access denied (R33), last
read data, MSI-X messages. -/
structure Output where
  smb : List Byte
  doe : List Byte
  scan : List Bool
  denied : Bool
  read : Dword
  msix : List (Dword × Word)
deriving DecidableEq, Repr

/-- The state of the block. -/
structure State where
  pending : List Instr
  ns : Nat
  free : Nat
  pwr : Power
  pins : Pins
  boot : Boot
  sec : Security
  pcie : Pcie
  rings : Vector Ring 256
  evt : EventRing
  host : Memory
  cores : Vector Core 384
  clusters : Vector Cluster 48
  launches : List Launch
  wires : List Transit
  gddr : Gddr
  ports : Vector Port 16
  mach : Mach
  coll : Coll
  time : TimeBase
  seams : Vector (Vector SeamGroup 32) 12
  ledger : Ledger
  watchTotal : Nat
  out : Output
deriving DecidableEq, Repr

/-! ### Reset values -/

def Station.reset : Station where
  state := .idle
  pc := 0
  regs := Vector.replicate 16 0
  flags := 0
  entry := 0
  enable := false
  haltMask := 0
  haltUncorr := true
  wdog := 0
  wdogFrom := 0
  excCode := 0
  excPost := false
  excPc := 0
  excLost := 0
  excDetail := 0
  lfsr := 0
  inflight := []
  nextUid := 0
  stuck := []
  ending := false

/-- An unbound queue (R108: PROD and CONS 0xFF). -/
def TokenQueue.reset : TokenQueue where
  prod := 0xFF
  cons := 0xFF
  peerCore := 0
  peerQ := 0
  depth := 0
  tokens := []
  credits := 0

def ArrayUnit.reset : ArrayUnit where
  active := Vector.replicate 4096 0
  shadow := Vector.replicate 4096 0
  issued := []
  streaming := none
  finished := none
  follower := none
  satCells := []
  heldBy := none
  drain := none
  bias := none
  passCnt := 0
  macCnt := 0
  gatedCnt := 0
  stallCnt := 0
  outWaitCnt := 0
  starveCnt := 0

def Mvu.reset : Mvu where
  x := []
  accs := Vector.replicate 4096 0
  issued := []
  slots := 0
  streaming := none
  finished := none
  satCells := []
  heldBy := none
  macCnt := 0
  gatedCnt := 0

def LsPort.reset : LsPort := ⟨[], 0, 0⟩

def TierSlice.reset : TierSlice where
  scrubLine := 0
  rowsUsed := []
  matSpent := false
  replacedMat := none
  repairs := []
  unrepaired := []

def Watch.reset : Watch where
  action := 0
  edgeFrac := 0
  satThr := 0
  ufzThr := 0
  edgeMin := 0
  blockCnt := 0
  satTrig := false
  ufzTrig := false
  edgeTrig := false
  retaining := false
  retainFull := false
  replayed := false
  refused := false
  trigCnt := 0
  baseSat := 0
  baseUfz := 0
  baseEdge := 0
  baseBlock := 0
  replayBase := 0
  replayLimit := 0
  replayUsed := 0
  retained := []
  eventSent := false

/-- The queue map at reset: PROD and CONS of each of the 32 entries read 0xFF (R108). -/
def qmapReset : Memory :=
  (List.range 32).flatMap fun i => [(16 * i, 0xFF), (16 * i + 1, 0xFF)]

def Core.reset : Core where
  stns := Vector.replicate 8 Station.reset
  vregs := Vector.replicate 64 (Vector.replicate 64 0)
  queues := Vector.replicate 32 TokenQueue.reset
  istore := []
  optab := []
  qmap := qmapReset
  ls := []
  lsPoison := []
  arrays := Vector.replicate 4 ArrayUnit.reset
  mvu := Mvu.reset
  drainQ := []
  xnetOwner := none
  xnetWait := []
  vecIssued := 0
  loadIssued := 0
  storeIssued := 0
  xnetIssued := []
  lports := Vector.replicate 4 LsPort.reset
  slices := Vector.replicate 4 TierSlice.reset
  bWaitCnt := 0
  bStarveCnt := 0
  xnetBusyCnt := 0
  satCnt := 0
  ufzCnt := 0
  psnCnt := 0
  edgeCnt := 0
  watch := Watch.reset
  lsCe := 0
  lsUe := 0
  lsRepair := 0
  retire := false
  retired := false

def Stallkeeper.reset : Stallkeeper where
  st := .idle
  pc := 0
  g := Vector.replicate 32 0
  imem := []
  dmem := []
  events := []
  timer := 0
  timerArmed := false
  waitMask := 0
  startLo := 0
  start := none
  nowHi := 0
  interval := 0x8000_0000
  normSel := 0
  normSince := none

def CrierChan.reset : CrierChan where
  threshold := 0
  skEvent := false
  targets := Vector.replicate 4 0
  count := 0
  gen := 0
  firing := false

def Cluster.reset : Cluster where
  sk := Stallkeeper.reset
  pq := Vector.replicate 4 []
  pNext := 0
  pCount := 0
  pLast := Vector.replicate 4 0
  prun := []
  crier := Vector.replicate 64 CrierChan.reset
  bcasts := []
  tkErr := 0
  handle := 0
  imgCores := 0
  entry := 0
  loaded := false
  launch := none
  ending := none
  inService := true
  failures := []
  lastAnswer := 0

def TrafficGen.reset : TrafficGen where
  mode := 0
  raw := false
  walk := 0
  loop := false
  laneSel := 0
  pattern := 0
  addr := 0
  state := 0
  mismatch := false
  edcSeen := false
  passes := 0
  counts := List.replicate 34 0
  stopAsked := false
  visited := []

def Channel.reset : Channel where
  edcRetry := 4
  ceEvtEn := true
  state := 0
  sr := false
  cause := 0
  ratesOk := 0
  corrected := 0
  uncorrected := 0
  retries := 0
  slot := 0
  mapped := false
  substitute := false
  burst := []
  narrow := []
  lastNarrow := false
  openRow := none
  scrubGroup := 0
  waiting := []
  accepted := 0
  rawGroups := []
  tg := TrafficGen.reset

def Gddr.reset : Gddr where
  rateMax := 0
  scrubEn := true
  ceEvtLog2 := 10
  rate := 0
  activeCh := 0
  trained := false
  rateTarget := none
  capRate := 0
  thermRate := 0
  selfRefresh := false
  failedCh := 0
  chans := Vector.replicate 50 Channel.reset
  mem := []
  poison := []
  raw := []

def Ring.reset : Ring where
  base := 0
  cplBase := 0
  dbAddr := 0
  enable := false
  log2 := 4
  prio := 0
  epoch := 0
  vector := 0
  irqAll := false
  mod_ := 0
  state := .disabled
  urgent := false
  dbInvalid := false
  mirrorMismatch := false
  cfgErr := false
  tail := 0
  head := 0
  fetchIdx := 0
  epochTaken := false
  interval := 200
  lastRead := 0
  outstanding := 0
  tailAt := 0
  mirrors := []
  refused := []
  fetched := []
  startIdx := 0
  started := []
  ableSince := none
  freedAt := 0
  haltSeq := 0
  resetCause := 0
  dropped := 0
  reEnable := false
  tag := none
  lastIrq := none
  irqHeld := false
  activeAt := 0

def EventRing.reset : EventRing where
  base := 0
  enable := false
  log2 := 6
  dbAddr := 0
  minSev := 0
  lost := 0
  w := 0
  c := 0
  spell := 0
  full := false
  lastRead := 0

def Pcie.reset : Pcie where
  up := false
  lanes := 16
  rate := 0
  funcMask := false
  staged := []
  latched := []
  entries := Vector.replicate 512 ⟨0, 0, true, false⟩
  maps := Vector.replicate 64 ⟨0, false⟩
  rr := Vector.replicate 4 255
  starts := 0

def ClusterPower.reset : ClusterPower where
  mode := .off
  op := 0
  capLimit := 14
  thermLimit := 14
  thermAt := 0
  duty := 100
  pace := 0
  issued := false
  power := 0
  idleSince := 0
  warnAt := none
  slowTicks := 0
  straggler := false
  wearMs := 0
  wearTold := false
  thermDown := false
  lastSurge := none

def Domain.reset : Domain where
  current := 0
  voltage := 0
  state := 0
  limiter := false
  surge := false
  thermal := false
  temp := 0
  pace := 0
  opRep := 0
  sensor := 0
  engaged := false
  limitUntil := none
  warnEvt := none

def Power.reset : Power where
  v48 := false
  capDefault := 2400
  hostCap := 2400
  ceiling := 0
  memStepEn := false
  linkStepEn := false
  opReq := 10
  idleAuto := true
  surgeEn := false
  mstate := 0
  capUnreachable := false
  limit105 := false
  duty := 100
  surgeBlock := 0
  wearSpent := false
  warnAt := none
  smbEn := true
  pcieEn := true
  pinEn := true
  smbSeen := false
  pcieSeen := false
  pinSeen := false
  till := 0
  samples := []
  surgeMs := []
  underTicks := 0
  overTicks := 0
  conv := false
  part := []
  coreCurrent := 0
  vtCluster := 0
  vtOp := 0
  clusters := Vector.replicate 48 ClusterPower.reset
  doms := Vector.replicate 59 Domain.reset
  deferral := none
  linkStepped := false
  sleepAt := 0
  capForce := 2400
  memThermAt := 0
  memThermDown := false
  linkTherm := 0
  wakes := 0

def Pins.reset : Pins where
  modResetN := true
  perstN := true
  wakeN := true
  modReady := false
  thermTripN := true
  alertOff := (0, 0)
  extest := false
  bscan := []
  pecErrors := 0
  dbgBusy := false
  dbgCut := false

def Boot.reset : Boot where
  step := 0
  degraded := false
  fatal := false
  recovery := false
  cause := 0
  prior := 0
  count := 0
  scratch := 0
  straps := 0
  latchedOnce := false
  changed := false
  holdReset := false
  refWait := none
  epoch := 0
  clerkServed := 0

def Security.reset : Security where
  owned := false
  debugLock := false
  slots := Vector.replicate 8 ⟨false, [], 0⟩
  counter := 0
  standbyCert := false
  flashA := []
  flashB := []
  recA := ⟨true, 1, false, none, 0, none⟩
  recB := ⟨true, 0, false, none, 0, none⟩
  fwState := 0
  bootSlot := false
  fallback := false
  rejected := false
  running := 0
  feature := 0
  arbFused := 0
  draws := 0
  nonces := Vector.replicate 16 ⟨0, 0, false, 0⟩
  sessions := []
  fails := 0
  lockUntil := none
  level := 0
  dbgTag := 0
  dbgActive := false
  dbgDenied := false
  dbgSlot := 0
  spdmVersion := false
  spdmCaps := false
  spdmAlgs := false
  transcript := []

def Pool.reset : Pool := ⟨[], 0, 0, 0, 0, 0⟩

def Port.reset : Port where
  enable := true
  certReq := false
  laneFailThr := 20
  state := 0
  certOk := false
  txLanes := 0
  rxLanes := 0
  crossed := false
  blockCause := 0
  partnerAddr := 0
  flight := 0
  txFailed := 0
  rxFailed := 0
  narrowed := false
  corrected := 0
  uncorrectable := 0
  replays := 0
  viol := Vector.replicate 5 0
  reproofs := 0
  quarantines := 0
  partnerEpoch := 0
  partnerSerial := 0
  known := false
  verPartner := 0
  verAgreed := 0
  floorPartner := 0
  sweepLane := 0
  sweepState := 0
  vMargin := 0
  hMargin := 0
  txSeq := 0
  rxNext := 0
  hgTx := 0
  hgRx := 0
  nak := false
  ackValid := false
  buf := []
  nakReplay := none
  fruitless := 0
  pools := Vector.replicate 16 Pool.reset
  phase := 0
  samples := []
  cert := []
  partnerHello := []
  certWanted := false
  resume := false
  partnerBound := false
  partnerDim := 0
  partnerCross := false
  restarted := false
  violTimes := []
  reproofAt := []
  quarEnd := none
  retrySince := none
  retryAt := 0
  signalAt := 0
  sent := []
  tsync := none
  hgBuf := []
  peerNext := 0
  ownHello := []
  rrPool := 15
  nonce := 0
  laneFixed := Vector.replicate 9 0
  laneWindow := 0

def Mach.reset : Mach where
  logical := 0
  slot := 0
  block := 0
  standby := false
  routeAddr := 0
  bound := false
  bindErr := false
  bindCause := 0
  routeErr := false
  route := none
  loading := none
  unbinding := none
  txns := []
  nextTag := 0
  epochs := []
  notices := []
  inbound := []
  serving := []
  inject := Vector.replicate 16 []
  sweep := none

def TimeBase.reset : TimeBase where
  mt := 0
  running := false
  root := false
  follow := true
  stagedLo := 0
  stagedHi := 0
  locked := false
  holdover := false
  syncBit := false
  stepped := false
  loadErr := false
  stratum := 15
  era := 0
  offset := 0
  present := false
  lost := false
  lossCnt := 0
  freqErr := 0
  holdSince := 0
  slew := 0
  lastSample := none
  aside := []
  firstDone := false
  upstream := none
  rootAddr := 0
  upAt := 0
  lostTold := false
  slewAt := 0
  lastSend := 0
  fifoPhy := Vector.replicate 50 4
  fifoPort := Vector.replicate 16 4

def Ledger.reset : Ledger where
  sections := Vector.replicate 18 []
  buffer := []
  seqNo := 0
  lastAt := []
  sel := 0
  valid := false
  skipped := false
  data := List.replicate 32 0
  smbPtr := 0

/-- The block before 48 V good (log 1): every register at the reset value the spec states (R482), nothing in flight, no
command waiting. Values the spec does not state are those log 4 names. -/
def State.reset : State where
  pending := []
  ns := 0
  free := 0
  pwr := Power.reset
  pins := Pins.reset
  boot := Boot.reset
  sec := Security.reset
  pcie := Pcie.reset
  rings := Vector.replicate 256 Ring.reset
  evt := EventRing.reset
  host := []
  cores := Vector.replicate 384 Core.reset
  clusters := Vector.replicate 48 Cluster.reset
  launches := []
  wires := []
  gddr := Gddr.reset
  ports := Vector.replicate 16 Port.reset
  mach := Mach.reset
  coll := ⟨[], [], [], [], [], [], 0⟩
  time := TimeBase.reset
  seams := Vector.replicate 12 (Vector.replicate 32 ⟨[], false, 0⟩)
  ledger := Ledger.reset
  watchTotal := 0
  out := ⟨[], [], [], false, 0, []⟩

end Sys2Proof.Machine
end

