-- ==== Sys2Proof/Machine/Ops.lean ====
section
/-! DEFINITION. Named operations over memory, registers, events and the ledger: the shared steps every meaning is written in. -/
namespace Sys2Proof.Machine
open Sys2Proof

/-- The answer of a command that has its effect. -/
abbrev Res := Out State

/-! ### Bits and bytes -/

/-- Bits [lo + w - 1 : lo] of a word. -/
def bits {n : Nat} (x : BitVec n) (lo w : Nat) : BitVec w := x.extractLsb' lo w

/-- Bit i of a word as a number 0 or 1. -/
def bit {n : Nat} (x : BitVec n) (i : Nat) : Bool := x.getLsbD i

/-- A Bool as a number. -/
def b2n (b : Bool) : Nat := if b then 1 else 0

/-- A word's bytes, least significant first (R4). -/
def leBytes (v : Nat) : Nat → List Byte
  | 0 => []
  | n + 1 => BitVec.ofNat 8 v :: leBytes (v / 256) n

/-- The number a little-endian byte list spells (R4). -/
def leNat : List Byte → Nat
  | [] => 0
  | b :: bs => b.toNat + 256 * leNat bs

/-- The number a big-endian byte list spells. -/
def beNat (bs : List Byte) : Nat := leNat bs.reverse

/-- Exactly n bytes: cut, or filled with zeros. -/
def fit (n : Nat) (bs : List Byte) : List Byte := (bs ++ List.replicate n 0).take n

/-- Saturating addition on a counter (R103). -/
def satAdd {w : Nat} (x : BitVec w) (k : Nat) : BitVec w :=
  if x.toNat + k < 2 ^ w then BitVec.ofNat w (x.toNat + k) else BitVec.allOnes w

/-- A signed number kept in w bits, saturating (R418). -/
def satInt (w : Nat) (x : Int) : BitVec w :=
  BitVec.ofInt w (max (-(2 ^ (w - 1) - 1)) (min (2 ^ (w - 1) - 1) x))

/-- Replace entry n of a list. -/
def setAt {α : Type} (l : List α) (n : Nat) (x : α) : List α := l.set n x

/-- Change entry n of a list. -/
def modAt {α : Type} (l : List α) (n : Nat) (f : α → α) : List α := l.modify n f

/-! ### Memory -/

/-- The byte at an address. -/
def Memory.get : Memory → Nat → Byte
  | [], _ => 0
  | (k, v) :: m, a => if k = a then v else Memory.get m a

/-- Write one byte, keeping the canonical form. -/
def Memory.put : Memory → Nat → Byte → Memory
  | [], a, v => if v = 0 then [] else [(a, v)]
  | (k, w) :: m, a, v =>
    if a < k then (if v = 0 then (k, w) :: m else (a, v) :: (k, w) :: m)
    else if a = k then (if v = 0 then m else (a, v) :: m)
    else (k, w) :: Memory.put m a v

/-- Write consecutive bytes. -/
def Memory.putBytes : Memory → Nat → List Byte → Memory
  | m, _, [] => m
  | m, a, b :: bs => Memory.putBytes (m.put a b) (a + 1) bs

/-- n consecutive bytes. -/
def Memory.getBytes (m : Memory) (a n : Nat) : List Byte := (List.range n).map fun i => m.get (a + i)

/-- n consecutive bytes as a little-endian number. -/
def Memory.getLE (m : Memory) (a n : Nat) : Nat := leNat (m.getBytes a n)

/-- Write a little-endian number in n bytes. -/
def Memory.putLE (m : Memory) (a n v : Nat) : Memory := m.putBytes a (leBytes v n)

/-- The canonical form: addresses strictly rise and no byte is zero. -/
def Memory.wf (m : Memory) : Bool :=
  decide (m.Pairwise fun x y => x.1 < y.1) && m.all fun c => c.2 != 0

/-! ### Sets of sector numbers -/

/-- Add a number to a rising list without repeats. -/
def insSorted : Nat → List Nat → List Nat
  | a, [] => [a]
  | a, b :: l => if a < b then a :: b :: l else if a = b then b :: l else b :: insSorted a l

/-- The sectors of 64 bytes that [a, a + n) touches. -/
def sectorsOf (a n : Nat) : List Nat := if n = 0 then [] else (List.range ((a + n - 1) / 64 - a / 64 + 1)).map (a / 64 + ·)

/-- The sectors of 64 bytes that [a, a + n) covers whole. -/
def wholeSectors (a n : Nat) : List Nat := (sectorsOf a n).filter fun x => a ≤ 64 * x && 64 * x + 64 ≤ a + n

/-! ### Setters of the state's components -/

def State.setPwr (s : State) (x : Power) : State := { s with pwr := x }
def State.setPins (s : State) (x : Pins) : State := { s with pins := x }
def State.setBoot (s : State) (x : Boot) : State := { s with boot := x }
def State.setSec (s : State) (x : Security) : State := { s with sec := x }
def State.setPcie (s : State) (x : Pcie) : State := { s with pcie := x }
def State.setEvt (s : State) (x : EventRing) : State := { s with evt := x }
def State.setHost (s : State) (x : Memory) : State := { s with host := x }
def State.setLaunches (s : State) (x : List Launch) : State := { s with launches := x }
def State.setWires (s : State) (x : List Transit) : State := { s with wires := x }
def State.setGddr (s : State) (x : Gddr) : State := { s with gddr := x }
def State.setMach (s : State) (x : Mach) : State := { s with mach := x }
def State.setColl (s : State) (x : Coll) : State := { s with coll := x }
def State.setTime (s : State) (x : TimeBase) : State := { s with time := x }
def State.setLedger (s : State) (x : Ledger) : State := { s with ledger := x }
def State.setOut (s : State) (x : Output) : State := { s with out := x }
def State.setFree (s : State) (x : Nat) : State := { s with free := x }
def State.setRing (s : State) (r : Fin 256) (x : Ring) : State := { s with rings := s.rings.set r x }
def State.setCore (s : State) (c : Fin 384) (x : Core) : State := { s with cores := s.cores.set c x }
def State.setCluster (s : State) (c : Fin 48) (x : Cluster) : State := { s with clusters := s.clusters.set c x }
def State.setPort (s : State) (p : Fin 16) (x : Port) : State := { s with ports := s.ports.set p x }

def State.core (s : State) (c : Fin 384) : Core := s.cores[c]
def State.cluster (s : State) (c : Fin 48) : Cluster := s.clusters[c]
def State.ring (s : State) (r : Fin 256) : Ring := s.rings[r]
def State.port (s : State) (p : Fin 16) : Port := s.ports[p]
def State.station (s : State) (c : Fin 384) (k : Fin 8) : Station := (s.core c).stns[k]
def State.sk (s : State) (cl : Fin 48) : Stallkeeper := (s.cluster cl).sk
def State.chan (s : State) (ch : Fin 50) : Channel := s.gddr.chans[ch]
def State.cpwr (s : State) (cl : Fin 48) : ClusterPower := s.pwr.clusters[cl]
def State.dom (s : State) (d : Fin 59) : Domain := s.pwr.doms[d]

def State.modCore (s : State) (c : Fin 384) (f : Core → Core) : State := s.setCore c (f (s.core c))
def State.modCluster (s : State) (c : Fin 48) (f : Cluster → Cluster) : State := s.setCluster c (f (s.cluster c))
def State.modRing (s : State) (r : Fin 256) (f : Ring → Ring) : State := s.setRing r (f (s.ring r))
def State.modPort (s : State) (p : Fin 16) (f : Port → Port) : State := s.setPort p (f (s.port p))
def State.setStation (s : State) (c : Fin 384) (k : Fin 8) (x : Station) : State :=
  s.modCore c fun co => { co with stns := co.stns.set k x }
def State.modStation (s : State) (c : Fin 384) (k : Fin 8) (f : Station → Station) : State :=
  s.setStation c k (f (s.station c k))
def State.setSk (s : State) (cl : Fin 48) (x : Stallkeeper) : State := s.modCluster cl fun y => { y with sk := x }
def State.setChan (s : State) (ch : Fin 50) (x : Channel) : State :=
  s.setGddr { s.gddr with chans := s.gddr.chans.set ch x }
def State.setCpwr (s : State) (cl : Fin 48) (x : ClusterPower) : State :=
  s.setPwr { s.pwr with clusters := s.pwr.clusters.set cl x }
def State.setDom (s : State) (d : Fin 59) (x : Domain) : State :=
  s.setPwr { s.pwr with doms := s.pwr.doms.set d x }

/-- Change the context of a descriptor by its index. -/
def modCtx (r : Fin 256) (idx : Nat) (f : DescCtx → DescCtx) (s : State) : State :=
  s.modRing r fun g => { g with started := g.started.map fun c => if c.idx = idx then f c else c }

/-- A number as an index below n, reduced modulo n. -/
def ix (n : Nat) [NeZero n] (i : Nat) : Fin n := Fin.ofNat n i

/-- The cluster of a core (R58: core index is stack × 96 + cluster × 8 + core). -/
def clusterOf (c : Fin 384) : Fin 48 := ix 48 (c.val / 8)

/-- Core j of a cluster. -/
def coreOf (cl : Fin 48) (j : Nat) : Fin 384 := ix 384 (cl.val * 8 + j % 8)

/-- Fold a change over a list of indices. -/
def forAll {α : Type} (l : List α) (f : α → State → State) (s : State) : State := l.foldl (fun t a => f a t) s

/-- Draw a fresh free value (log 7). -/
def State.fresh (s : State) : BitVec 256 × State := (Config.freeWord s.free, s.setFree (s.free + 1))

/-! ### Reading words of the block's own memories -/

/-- Market time over a nanosecond: 1 ns, or one more or one less while a slew is due, once per 4,096 ns (R400, R407). -/
def TimeBase.tick (t : TimeBase) (ns : Nat) : TimeBase :=
  if !t.running then t
  else if t.slew = 0 || ns < t.slewAt + 4096 || (0 < t.slew && t.mt.toNat % 4096 = 4095) || t.mt.toNat % 100000 = 99999 then { t with mt := t.mt + 1 }
  else if 0 < t.slew then { t with mt := t.mt + 2, slew := t.slew - 1, slewAt := ns }
  else { t with slew := t.slew + 1, slewAt := ns }

/-- Market time over a nanosecond of Sleep: the AON domain counts it in units of 40 ns (R411). -/
def TimeBase.sleepTick (t : TimeBase) (asleep : Nat) : TimeBase :=
  if t.running && asleep % 40 = 0 then { t with mt := t.mt + 40 } else t

/-- The time a cluster's timekeeper reads: at most the last beacon and 4,095 ns (R404, R405). -/
def State.clusterTime (s : State) (cl : Fin 48) : Dword :=
  let t : Dword := s.time.mt + BitVec.ofInt 64 (s.cluster cl).tkErr
  if 0 < (s.cluster cl).tkErr && t.toNat / 4096 ≠ s.time.mt.toNat / 4096 then s.time.mt ||| 0xFFF else t

/-! ### Module status -/

/-- MOD_STATUS (R282). -/
def modStatus (s : State) : Word :=
  BitVec.ofNat 32 (s.boot.step.toNat + 16 * b2n s.pins.modReady + 32 * b2n s.boot.degraded + 64 * b2n s.boot.fatal
    + 128 * b2n s.boot.recovery)

/-- RESET_CAUSE (R282). -/
def resetCause (s : State) : Word :=
  BitVec.ofNat 32 (s.boot.cause.toNat + 256 * s.boot.prior.toNat + 65536 * s.boot.count.toNat)

/-! ### Status outputs and the alert (R13, R31) -/

/-- The point a cluster with a launch requests: OP_REQ, of which 15 acts as 14 (R431, R458). -/
def requestOf (s : State) : Nat := min 14 s.pwr.opReq.toNat

/-- THROTTLE_N is low (R431). -/
def throttled (s : State) : Bool :=
  (List.finRange 48).any fun cl =>
    (s.cluster cl).launch.isSome && ((s.cpwr cl).op < requestOf s || (s.cpwr cl).duty < 100)

/-- FAULT_N: low while MOD_STATUS reports DEGRADED or a fatal fault. -/
def faultN (s : State) : Bool := !(s.boot.degraded || s.boot.fatal)

/-- THROTTLE_N: low while a cluster is held below the point it requests; floating, and so read high, in Sleep and when Off. -/
def throttleN (s : State) : Bool := !(s.pwr.v48 && s.pwr.mstate ≠ 2 && s.pwr.mstate ≠ 4 && throttled s)

/-- The pin causes of SMB_ALERT_N: bit 0 THERM_TRIP_N, bit 1 FAULT_N, bit 2 THROTTLE_N low. -/
def alertPins (s : State) : BitVec 3 :=
  BitVec.ofNat 3 (b2n (!s.pins.thermTripN) + 2 * b2n (!faultN s) + 4 * b2n (!throttleN s))

/-- A pin condition that ends is new when it next arises (R31). -/
def rearmed (s : State) : Pins := { s.pins with alertOff := (s.pins.alertOff.1 &&& alertPins s, s.pins.alertOff.2) }

/-- What may end a pin condition notes that it has ended (R31): every command that changes a point, a duty, a request, a launch or the
module's state does so. -/
def rearm (s : State) : State := s.setPins (rearmed s)

/-! ### The ledger (R477, R478) -/

/-- The sections an entry is kept in: 0 error, 1 general, 2 + p port p. -/
def ledgerSections (kind : Half) (sev : Nat) (source : Half) : List Nat :=
  let port := kind = 0x0806 || kind = 0x0807 || bits kind 8 8 = 0x05
  (if 2 ≤ sev then [0] else []) ++ (if port then [2 + source.toNat % 16] else if sev < 2 then [1] else [])

/-- Whether an entry of this KIND and SOURCE was written in the current millisecond. -/
def ledgerRecent (l : Ledger) (ns : Nat) (kind source : Half) : Bool :=
  l.lastAt.any fun x => x.1 = kind && x.2.1 = source && ns / 1000000 = x.2.2 / 1000000

/-- Write a ledger entry: at most one per KIND and SOURCE per millisecond; a later one sets MERGED in the first. The
entry reaches the AON buffer at once. -/
def ledgerAdd (kind : Half) (sev : Nat) (source : Half) (data : List Byte) (s : State) : State :=
  let l := s.ledger
  if ledgerRecent l s.ns kind source && kind ≠ 0x0807 then
    let mark (x : LedgerEntry × Nat) : LedgerEntry × Nat :=
      if x.1.kind = kind && x.1.source = source then ({ x.1 with flags := x.1.flags ||| 2 }, x.2) else x
    s.setLedger { l with buffer := l.buffer.map mark }
  else
    let e : LedgerEntry :=
      { kind := kind, sev := BitVec.ofNat 8 sev, flags := BitVec.ofNat 8 (b2n s.time.holdover),
        seqNo := l.seqNo + 1, time := s.time.mt, boot := bits s.boot.epoch 0 16, source := source,
        data := fit (if kind = 0x0807 then 28 else 10) data }
    let other (x : Half × Half × Nat) : Bool := !(x.1 = kind && x.2.1 = source)
    s.setLedger { l with
      buffer := l.buffer ++ [(e, s.ns)], seqNo := l.seqNo + 1,
      lastAt := (kind, source, s.ns) :: l.lastAt.filter other }

/-! ### MSI-X (R489, R490) -/

/-- Send a vector's message, or hold it in the pending bit while the vector or the function is masked. -/
def sendMsi (v : Nat) (s : State) : State :=
  let i := ix 512 v
  let e := s.pcie.entries[i]
  if e.mask || s.pcie.funcMask then s.setPcie { s.pcie with entries := s.pcie.entries.set i { e with pend := true } }
  else s.setOut { s.out with msix := s.out.msix ++ [(BitVec.ofNat 64 (4 * e.addr.toNat), e.data)] }

/-! ### The event ring (R274 to R278) -/

/-- Place a record in the event ring and raise its class's vector (R276, R278). -/
def evtWrite (kind : Half) (sev : Nat) (source : Word) (data : List Byte) (s : State) : State :=
  let e := s.evt
  let size := 2 ^ e.log2.toNat
  let rec_ := leBytes kind.toNat 2
    ++ [BitVec.ofNat 8 sev, BitVec.ofNat 8 ((if (e.w / size) % 2 = 0 then 1 else 0) + 2 * b2n s.time.holdover)]
    ++ leBytes source.toNat 4 ++ leBytes s.time.mt.toNat 8 ++ fit 16 data
  let s1 := s.setHost (s.host.putBytes (e.base.toNat * 4096 + 32 * (e.w % size)) rec_)
  let s2 := s1.setEvt { e with w := e.w + 1 }
  let m := s.pcie.maps[ix 64 (kind.toNat / 256)]
  if m.en then sendMsi m.vector.toNat s2 else s2

/-- Read the consumed count when the ring has just filled (R278). -/
def evtCheckFull (s : State) : State :=
  let e := s.evt
  let size := 2 ^ e.log2.toNat
  if e.w - e.c < size then s
  else
    let c := e.c + (s.host.getLE (e.dbAddr.toNat * 8) 4 + 2 ^ 32 - e.c % 2 ^ 32) % 2 ^ 32
    if e.w - c < size then s.setEvt { e with c := c } else s.setEvt { e with full := true, lastRead := s.ns, spell := 0 }

/-- An event occurs: it is written unless the ring is off, full or its severity is below MIN_SEV; severity 1 and above is
kept in the ledger in every case (R477). -/
def postEvent (kind : Half) (sev : Nat) (source : Word) (data : List Byte) (s : State) : State :=
  let s1 := if sev ≥ 1 then ledgerAdd kind sev (bits source 0 16) (data.take 10) s else s
  let e := s1.evt
  if !e.enable || sev < e.minSev.toNat then s1
  else if e.full then s1.setEvt { e with lost := satAdd e.lost 1, spell := e.spell + 1 }
  else evtCheckFull (evtWrite kind sev source data s1)

/-- A resource has left service: MOD_STATUS.DEGRADED is set and a DEGRADED event written (R481). -/
def setDegraded (s : State) : State :=
  let s1 := s.setBoot { s.boot with degraded := true }
  postEvent 0x0701 2 0 (leBytes (modStatus s1).toNat 4) s1

/-! ### Statuses (R265) -/

def stOk : Byte := 0x00
def stCorrected : Byte := 0x01
def stUncorrected : Byte := 0x10
def stRestarted : Byte := 0x11
def stTimeout : Byte := 0x12
def stNoSession : Byte := 0x20
def stAuth : Byte := 0x21
def stRights : Byte := 0x22
def stMalformed : Byte := 0x30
def stUnsupported : Byte := 0x31
def stRecipe : Byte := 0x40
def stPower : Byte := 0x50
def stDegraded : Byte := 0x51
def stHalted : Byte := 0xFF

/-! ### Little helpers on lists of the state -/

/-- The position of the first entry that satisfies p. -/
def findIx {α : Type} (l : List α) (p : α → Bool) : Option Nat := l.findIdx? p

/-- The index of a launch in the list. -/
def launchIx (s : State) (id : Nat) : Option Nat := findIx s.launches fun l => l.id = id

end Sys2Proof.Machine
end

