-- ==== Sys2Proof/Machine/Isa.lean ====
section
/-! DEFINITION. The two instruction words the block itself executes: core instructions of 128 bits (R112 to R125) and
stallkeeper instructions of 32 bits (R139, R140), decoded and encoded. -/
namespace Sys2Proof.Machine
open Sys2Proof

/-- PASS operands (R119). -/
structure PassOp where
  a : Byte
  b : Byte
  bias : Byte
  out : Byte
  mask : BitVec 4
  aOff : BitVec 4
  bOff : BitVec 4
  outOff : BitVec 4
  biasOff : BitVec 4
  k : Half
  biasMode : BitVec 2
  accContinue : Bool
  hold : Bool
  drain : Bool
  dqStn : BitVec 3
deriving DecidableEq, Repr

/-- MV operands (R122). -/
structure MvOp where
  x : Byte
  w : Byte
  y : Byte
  xOff : BitVec 4
  wOff : BitVec 4
  yOff : BitVec 4
  width : BitVec 2
  k : BitVec 15
  n : BitVec 13
  cont : Bool
  hold : Bool
  drain : Bool
  dqStn : BitVec 3
  xKeep : Bool
deriving DecidableEq, Repr

/-- VEC operands (R123). -/
structure VecOp where
  vd : BitVec 3
  va : BitVec 3
  vb : BitVec 3
  vc : BitVec 3
  aDq : Bool
  bScal : Bool
  sb : BitVec 4
  lanes : Bool
  sub : BitVec 3
deriving DecidableEq, Repr

/-- XNET operands (R124). -/
structure XnetOp where
  src : Byte
  dst : Byte
  srcOff : BitVec 4
  dstOff : BitVec 4
  count : Half
  log2b : BitVec 4
  inverse : Bool
deriving DecidableEq, Repr

/-- XFER operands (R125). -/
structure XferOp where
  opnd : Byte
  off : BitVec 4
  peer : BitVec 9
  peerAddr : BitVec 28
  peerOff : BitVec 4
  len : BitVec 24
deriving DecidableEq, Repr

/-- Operands of a MOVE between a register and a row (R118). -/
structure VMoveOp where
  opnd : Byte
  off : BitVec 4
  col : BitVec 4
  v : BitVec 3
  lanes : Bool
deriving DecidableEq, Repr

/-- The core operations (R115). -/
inductive CoreOp where
  | nop
  | alu (sd sa sb fn : BitVec 4) (useImm : Bool) (imm : Word)
  | li (sd : BitVec 4) (imm : Word)
  | br (sa sb : BitVec 4) (cond : BitVec 3) (target : BitVec 12)
  | loop (sa : BitVec 4) (target : BitVec 12)
  | endStn
  | trap (code : Half)
  | flags (sd : BitVec 4) (clear : Bool)
  | join
  | quiesce
  | raise (ch : BitVec 6)
  | notify (code : Half)
  | copy (src dst : Byte) (srcOff dstOff : BitVec 4) (rows : Half)
  | vload (m : VMoveOp)
  | vstore (m : VMoveOp)
  | sload (sd sa : BitVec 4) (imm : BitVec 28)
  | sstore (sd sa : BitVec 4) (imm : BitVec 28)
  | pass (p : PassOp)
  | mv (m : MvOp)
  | vec (op : BitVec 4) (v : VecOp)
  | transpose (x : XnetOp)
  | hadamard (x : XnetOp)
  | send (x : XferOp)
  | recv (x : XferOp)
deriving DecidableEq, Repr

/-- A token queue named in the header: none when its valid bit is 0 (R112). -/
abbrev QRef := Option (BitVec 5)

/-- A core instruction (R112). -/
structure CoreInstr where
  op : CoreOp
  inA : QRef
  inB : QRef
  outA : QRef
  outB : QRef
  outVal : BitVec 4
deriving DecidableEq, Repr

/-- A header queue field. -/
def qref (x : BitVec 6) : QRef := if x.getLsbD 5 then some (bits x 0 5) else none

def passOf (w : InstrWord) : PassOp where
  a := bits w 80 8
  b := bits w 72 8
  bias := bits w 64 8
  out := bits w 56 8
  mask := bits w 52 4
  aOff := bits w 48 4
  bOff := bits w 44 4
  outOff := bits w 40 4
  biasOff := bits w 12 4
  k := bits w 24 16
  biasMode := bits w 22 2
  accContinue := w.getLsbD 21
  hold := w.getLsbD 20
  drain := w.getLsbD 19
  dqStn := bits w 16 3

def mvOf (w : InstrWord) : MvOp where
  x := bits w 80 8
  w := bits w 72 8
  y := bits w 64 8
  xOff := bits w 60 4
  wOff := bits w 56 4
  yOff := bits w 52 4
  width := bits w 50 2
  k := bits w 35 15
  n := bits w 22 13
  cont := w.getLsbD 21
  hold := w.getLsbD 20
  drain := w.getLsbD 19
  dqStn := bits w 16 3
  xKeep := w.getLsbD 15

def vecOf (w : InstrWord) : VecOp where
  vd := bits w 85 3
  va := bits w 82 3
  vb := bits w 79 3
  vc := bits w 76 3
  aDq := w.getLsbD 75
  bScal := w.getLsbD 74
  sb := bits w 70 4
  lanes := w.getLsbD 69
  sub := bits w 66 3

def xnetOf (w : InstrWord) : XnetOp where
  src := bits w 80 8
  dst := bits w 72 8
  srcOff := bits w 68 4
  dstOff := bits w 64 4
  count := bits w 48 16
  log2b := bits w 44 4
  inverse := w.getLsbD 43

def xferOf (w : InstrWord) : XferOp where
  opnd := bits w 80 8
  off := bits w 76 4
  peer := bits w 67 9
  peerAddr := bits w 39 28
  peerOff := bits w 35 4
  len := bits w 11 24

def vmoveOf (w : InstrWord) : VMoveOp where
  opnd := bits w 80 8
  off := bits w 68 4
  col := bits w 56 4
  v := bits w 61 3
  lanes := w.getLsbD 60

/-- PASS fields the encoding allows (R119, R120): a mask, K at least 1, a bias mode below 3, no bias with ACC_CONTINUE. -/
def PassOp.ok (p : PassOp) : Bool :=
  p.mask ≠ 0 && p.k ≠ 0 && p.biasMode ≠ 3 && !(p.accContinue && p.biasMode ≠ 0)

/-- MV fields the encoding allows (R122). -/
def MvOp.ok (m : MvOp) : Bool := m.k ≠ 0 && m.k.toNat ≤ 16384 && m.n ≠ 0 && m.n.toNat ≤ 4096

/-- VEC fields the encoding allows (R123): SUB values of compare, convert and reduce, and the lane format. -/
def vecOk (op : BitVec 4) (v : VecOp) : Bool :=
  op ≠ 15 && !(op = 6 && 3 ≤ v.sub.toNat) && !(op = 8 && 2 ≤ v.sub.toNat) && !(op = 13 && 4 ≤ v.sub.toNat)
    && !(v.lanes && (op = 8 || op = 14 || v.aDq))

/-- The operation a word names; none is an ILLEGAL encoding (R115 to R125). -/
def opOf (w : InstrWord) : Option CoreOp :=
  let f (lo : Nat) : BitVec 4 := bits w lo 4
  match (bits w 124 4).toNat, (bits w 120 4).toNat with
  | 0, 0 => some .nop
  | 0, 1 =>
    if 10 < (f 72).toNat then none else some (.alu (f 84) (f 80) (f 76) (f 72) (w.getLsbD 71) (bits w 32 32))
  | 0, 2 => some (.li (f 84) (bits w 32 32))
  | 0, 3 => if bits w 77 3 = 7 then none else some (.br (f 84) (f 80) (bits w 77 3) (bits w 0 12))
  | 0, 4 => some (.loop (f 84) (bits w 0 12))
  | 0, 5 => some .endStn
  | 0, 6 => some (.trap (bits w 72 16))
  | 0, 7 => some (.flags (f 84) (w.getLsbD 83))
  | 1, 0 => some .join
  | 1, 1 => some .quiesce
  | 1, 2 => some (.raise (bits w 82 6))
  | 1, 3 => some (.notify (bits w 72 16))
  | 2, 0 => some (.copy (bits w 80 8) (bits w 72 8) (f 68) (f 64) (bits w 48 16))
  | 2, 1 => some (.vload (vmoveOf w))
  | 2, 2 => some (.vstore (vmoveOf w))
  | 2, 3 => some (.sload (f 84) (f 80) (bits w 52 28))
  | 2, 4 => some (.sstore (f 84) (f 80) (bits w 52 28))
  | 3, 0 => if bits w 0 12 = 0 && (passOf w).ok then some (.pass (passOf w)) else none
  | 4, 0 => if bits w 0 15 = 0 && (mvOf w).ok then some (.mv (mvOf w)) else none
  | 5, _ => if bits w 0 66 = 0 && vecOk (f 120) (vecOf w) then some (.vec (f 120) (vecOf w)) else none
  | 6, 0 => some (.transpose (xnetOf w))
  | 6, 1 => if 6 ≤ (f 44).toNat && (f 44).toNat ≤ 12 then some (.hadamard (xnetOf w)) else none
  | 7, 0 => if bits w 0 11 = 0 && bits w 11 24 ≠ 0 then some (.send (xferOf w)) else none
  | 7, 1 => if bits w 0 11 = 0 && bits w 11 24 ≠ 0 then some (.recv (xferOf w)) else none
  | _, _ => none

/-- A Bool as one bit. -/
def b1 (b : Bool) : BitVec 1 := BitVec.ofBool b

/-- The header field of a queue. -/
def encQ : QRef → BitVec 6
  | none => 0
  | some q => 1#1 ++ q

/-- CLASS, OP and the 88 operand bits of an operation. -/
def encOp : CoreOp → BitVec 4 × BitVec 4 × BitVec 88
  | .nop => (0, 0, 0)
  | .alu sd sa sb fn u imm => (0, 1, sd ++ sa ++ sb ++ fn ++ b1 u ++ 0#7 ++ imm ++ 0#32)
  | .li sd imm => (0, 2, sd ++ 0#20 ++ imm ++ 0#32)
  | .br sa sb c t => (0, 3, sa ++ sb ++ c ++ 0#65 ++ t)
  | .loop sa t => (0, 4, sa ++ 0#72 ++ t)
  | .endStn => (0, 5, 0)
  | .trap c => (0, 6, c ++ 0#72)
  | .flags sd c => (0, 7, sd ++ b1 c ++ 0#83)
  | .join => (1, 0, 0)
  | .quiesce => (1, 1, 0)
  | .raise ch => (1, 2, ch ++ 0#82)
  | .notify c => (1, 3, c ++ 0#72)
  | .copy s d so do_ r => (2, 0, s ++ d ++ so ++ do_ ++ r ++ 0#48)
  | .vload m => (2, 1, m.opnd ++ 0#8 ++ m.off ++ 0#4 ++ m.v ++ b1 m.lanes ++ m.col ++ 0#56)
  | .vstore m => (2, 2, m.opnd ++ 0#8 ++ m.off ++ 0#4 ++ m.v ++ b1 m.lanes ++ m.col ++ 0#56)
  | .sload sd sa imm => (2, 3, sd ++ sa ++ imm ++ 0#52)
  | .sstore sd sa imm => (2, 4, sd ++ sa ++ imm ++ 0#52)
  | .pass p => (3, 0, p.a ++ p.b ++ p.bias ++ p.out ++ p.mask ++ p.aOff ++ p.bOff ++ p.outOff ++ p.k ++ p.biasMode
      ++ b1 p.accContinue ++ b1 p.hold ++ b1 p.drain ++ p.dqStn ++ p.biasOff ++ 0#12)
  | .mv m => (4, 0, m.x ++ m.w ++ m.y ++ m.xOff ++ m.wOff ++ m.yOff ++ m.width ++ m.k ++ m.n ++ b1 m.cont ++ b1 m.hold
      ++ b1 m.drain ++ m.dqStn ++ b1 m.xKeep ++ 0#15)
  | .vec op v => (5, op, v.vd ++ v.va ++ v.vb ++ v.vc ++ b1 v.aDq ++ b1 v.bScal ++ v.sb ++ b1 v.lanes ++ v.sub ++ 0#66)
  | .transpose x => (6, 0, x.src ++ x.dst ++ x.srcOff ++ x.dstOff ++ x.count ++ x.log2b ++ b1 x.inverse ++ 0#43)
  | .hadamard x => (6, 1, x.src ++ x.dst ++ x.srcOff ++ x.dstOff ++ x.count ++ x.log2b ++ b1 x.inverse ++ 0#43)
  | .send x => (7, 0, x.opnd ++ x.off ++ x.peer ++ x.peerAddr ++ x.peerOff ++ x.len ++ 0#11)
  | .recv x => (7, 1, x.opnd ++ x.off ++ x.peer ++ x.peerAddr ++ x.peerOff ++ x.len ++ 0#11)

/-- Decode a core instruction; none is ILLEGAL. An operand bit that no field of the operation takes is reserved (R115; log 38). -/
def decodeCore (w : InstrWord) : Option CoreInstr :=
  if bits w 88 4 ≠ 0 then none
  else match opOf w with
    | none => none
    | some o =>
      if (encOp o).2.2 ≠ bits w 0 88 then none
      else some
        { op := o, inA := qref (bits w 114 6), inB := qref (bits w 108 6), outA := qref (bits w 102 6),
          outB := qref (bits w 96 6), outVal := bits w 92 4 }

/-- The word of a core instruction (R112). -/
def encodeCore (i : CoreInstr) : InstrWord :=
  let e := encOp i.op
  e.1 ++ e.2.1 ++ encQ i.inA ++ encQ i.inB ++ encQ i.outA ++ encQ i.outB ++ i.outVal ++ 0#4 ++ e.2.2

/-- The operations whose encoding is legal. -/
def CoreOp.ok : CoreOp → Bool
  | .alu _ _ _ fn _ _ => fn.toNat ≤ 10
  | .br _ _ c _ => c ≠ 7
  | .pass p => p.ok
  | .mv m => m.ok
  | .vec op v => vecOk op v
  | .hadamard x => 6 ≤ x.log2b.toNat && x.log2b.toNat ≤ 12
  | .send x => x.len ≠ 0
  | .recv x => x.len ≠ 0
  | _ => true

/-! ### Stallkeeper instructions -/

/-- The stallkeeper operations (R140). -/
inductive SkOp where
  | alu (gd ga gb fn : BitVec 5)
  | addi (gd ga : BitVec 5) (imm : Half)
  | andi (gd ga : BitVec 5) (imm : Half)
  | ori (gd ga : BitVec 5) (imm : Half)
  | lui (gd ga : BitVec 5) (imm : Half)
  | lw (gd ga : BitVec 5) (imm : Half)
  | sw (gd ga : BitVec 5) (imm : Half)
  | branch (cond : BitVec 3) (ga gb : BitVec 5) (off : Half)
  | jal (off : BitVec 26)
  | jr (gd ga : BitVec 5) (imm : Half)
  | csrr (gd ga : BitVec 5) (imm : Half)
  | csrw (gd ga : BitVec 5) (imm : Half)
  | wait (gd ga : BitVec 5) (imm : Half)
  | cctl (gd ga gb fn : BitVec 5)
  | pcmd (gd ga : BitVec 5) (imm : Half)
  | ccmd (gd ga : BitVec 5) (imm : Half)
  | endSk (gd ga : BitVec 5) (imm : Half)
deriving DecidableEq, Repr

/-- Decode a stallkeeper word; none stops the stallkeeper (R140, R143). -/
def decodeSk (w : Word) : Option SkOp :=
  let a : BitVec 5 := bits w 21 5
  let b : BitVec 5 := bits w 16 5
  let c : BitVec 5 := bits w 11 5
  let fn : BitVec 5 := bits w 6 5
  let i : Half := bits w 0 16
  match (bits w 26 6).toNat with
  | 0x00 => if bits w 0 6 ≠ 0 || 12 < fn.toNat then none else some (.alu a b c fn)
  | 0x01 => some (.addi a b i)
  | 0x02 => some (.andi a b i)
  | 0x03 => some (.ori a b i)
  | 0x04 => some (.lui a b i)
  | 0x08 => some (.lw a b i)
  | 0x09 => some (.sw a b i)
  | 0x10 => some (.branch 0 a b i)
  | 0x11 => some (.branch 1 a b i)
  | 0x12 => some (.branch 2 a b i)
  | 0x13 => some (.branch 3 a b i)
  | 0x14 => some (.branch 4 a b i)
  | 0x15 => some (.branch 5 a b i)
  | 0x18 => some (.jal (bits w 0 26))
  | 0x19 => some (.jr a b i)
  | 0x20 => some (.csrr a b i)
  | 0x21 => some (.csrw a b i)
  | 0x28 => some (.wait a b i)
  | 0x30 => if bits w 0 6 ≠ 0 || 4 < fn.toNat then none else some (.cctl a b c fn)
  | 0x31 => some (.pcmd a b i)
  | 0x32 => some (.ccmd a b i)
  | 0x3F => some (.endSk a b i)
  | _ => none

/-- The word of a stallkeeper operation (R139). -/
def encodeSk : SkOp → Word
  | .alu gd ga gb fn => 0x00#6 ++ gd ++ ga ++ gb ++ fn ++ 0#6
  | .addi gd ga i => 0x01#6 ++ gd ++ ga ++ i
  | .andi gd ga i => 0x02#6 ++ gd ++ ga ++ i
  | .ori gd ga i => 0x03#6 ++ gd ++ ga ++ i
  | .lui gd ga i => 0x04#6 ++ gd ++ ga ++ i
  | .lw gd ga i => 0x08#6 ++ gd ++ ga ++ i
  | .sw gd ga i => 0x09#6 ++ gd ++ ga ++ i
  | .branch c ga gb i => 2#3 ++ c ++ ga ++ gb ++ i
  | .jal o => 0x18#6 ++ o
  | .jr gd ga i => 0x19#6 ++ gd ++ ga ++ i
  | .csrr gd ga i => 0x20#6 ++ gd ++ ga ++ i
  | .csrw gd ga i => 0x21#6 ++ gd ++ ga ++ i
  | .wait gd ga i => 0x28#6 ++ gd ++ ga ++ i
  | .cctl gd ga gb fn => 0x30#6 ++ gd ++ ga ++ gb ++ fn ++ 0#6
  | .pcmd gd ga i => 0x31#6 ++ gd ++ ga ++ i
  | .ccmd gd ga i => 0x32#6 ++ gd ++ ga ++ i
  | .endSk gd ga i => 0x3F#6 ++ gd ++ ga ++ i

/-- The operations whose encoding is legal. -/
def SkOp.ok : SkOp → Bool
  | .alu _ _ _ fn => fn.toNat ≤ 12
  | .branch c _ _ _ => c.toNat ≤ 5
  | .cctl _ _ _ fn => fn.toNat ≤ 4
  | _ => true

end Sys2Proof.Machine
end

