-- ==== Sys2Proof/Machine/Numbers.lean ====
section
/-! DEFINITION. The six number formats: decoding, exact arithmetic, rounding on store, vector-lane operations (R34 to R70,
R88, R89). A magnitude code m of a format with p mantissa bits has the value `magVal p m` steps of 2^st. -/
namespace Sys2Proof.Machine
open Sys2Proof

/-- A format: mantissa bits, exponent of the smallest step, width, largest finite magnitude code. -/
structure Fmt where
  p : Nat
  st : Int
  width : Nat
  maxCode : Nat
deriving DecidableEq, Repr

/-- The formats by FMT code (R113): 0 VF4, 1 VI4, 2 VF8, 3 VF16, 4 VW32 (R34). VI4's magnitudes 0 to 15 are integers. -/
def fmtOf (f : Nat) : Fmt :=
  if f = 0 then ⟨1, -2, 4, 7⟩ else if f = 1 then ⟨3, 0, 4, 7⟩ else if f = 2 then ⟨3, -9, 8, 0x7F⟩
  else if f = 3 then ⟨8, -70, 16, 0x7FFE⟩ else ⟨22, -276, 32, 0x7FFFFFFE⟩

/-- Whether a format carries block scales (R39). -/
def scaled (f : Nat) : Bool := f ≤ 2

/-- Bytes that n elements of a format occupy from an even element on (R39, R189). -/
def fmtBytes (f n : Nat) : Nat := if f ≤ 1 then (n + 1) / 2 else if f = 2 then n else if f = 3 then 2 * n else 4 * n

/-- The value of a magnitude code in steps (R35, R41 to R43). -/
def magVal (p m : Nat) : Nat := if m < 2 ^ p then m else (2 ^ p + m % 2 ^ p) <<< (m / 2 ^ p - 1)

/-- The greatest magnitude code whose value is at most q steps, exponents unbounded above. -/
def floorCode (p q : Nat) : Nat :=
  if q < 2 ^ (p + 1) then q else (Nat.log2 q - p) * 2 ^ p + (q >>> (Nat.log2 q - p))

/-- n / d * 2^e as a quotient of steps 2^st. -/
def steps (st : Int) (n d : Nat) (e : Int) : Nat × Nat :=
  if st ≤ e then (n <<< (e - st).toNat, d) else (n, d <<< (st - e).toNat)

/-! ### Exact numbers -/

def FNum.zero : FNum := .fin 0 0

/-- Exact product; poison wins over a zero (R50). -/
def FNum.mul : FNum → FNum → FNum
  | .fin a e, .fin b f => .fin (a * b) (e + f)
  | _, _ => .poison

/-- Exact sum. -/
def FNum.add : FNum → FNum → FNum
  | .fin a e, .fin b f =>
    if e ≤ f then .fin (a + b * 2 ^ (f - e).toNat) e else .fin (a * 2 ^ (e - f).toNat + b) f
  | _, _ => .poison

def FNum.neg : FNum → FNum
  | .fin a e => .fin (-a) e
  | .poison => .poison

/-- Exact difference. -/
def FNum.sub (x y : FNum) : FNum := add x (neg y)

/-- Less than, false where either is poison. -/
def FNum.lt (x y : FNum) : Bool :=
  match sub x y with
  | .fin d _ => d < 0
  | .poison => false

def FNum.isZero : FNum → Bool
  | .fin a _ => a == 0
  | .poison => false

def FNum.isPoison : FNum → Bool
  | .poison => true
  | _ => false

/-- Magnitude times 2^e as a pair. -/
def FNum.absPair : FNum → Nat × Int
  | .fin a e => (a.natAbs, e)
  | .poison => (0, 0)

def FNum.isNeg : FNum → Bool
  | .fin a _ => a < 0
  | .poison => false

/-- A VS8 scale's value (R38): (4 + m) * 2^(e - 34). -/
def scaleNum (sc : Byte) : FNum := .fin ((4 + sc.toNat % 4 : Nat) : Int) ((sc.toNat / 4 : Nat) - 34)

/-- The value of a code without its block scale (R35 to R45). -/
def codeNum (f code : Nat) : FNum :=
  let F := fmtOf f
  if f = 1 then .fin (if code < 8 then (code : Int) else (code : Int) - 16) 0
  else
    let m := code % 2 ^ (F.width - 1)
    let neg := code / 2 ^ (F.width - 1) % 2 = 1
    if (f = 2 && code % 256 = 0x80) || (3 ≤ f && m = 2 ^ (F.width - 1) - 1) then .poison
    else .fin (if neg then -(magVal F.p m : Int) else magVal F.p m) F.st

/-- An element as the load path delivers it (R46): code, its scale byte, whether the element's or the scale's sector came
marked uncorrected. -/
def elemNum (f code : Nat) (scale : Byte) (marked : Bool) : FNum :=
  if marked then .poison
  else if scaled f then
    match codeNum f code with
    | .poison => .poison
    | x => if scale = 0 then FNum.zero else FNum.mul x (scaleNum scale)
  else codeNum f code

/-! ### Rounding (R56 to R62) -/

/-- What an operation raised (R66): stored or rounded elements that saturated or underflowed, poison events counted, blocks
and edge blocks written (R65), and whether a vector lane was poison, which sets the sticky flag alone (R89). -/
structure Ev where
  sat : Nat
  ufz : Nat
  psn : Nat
  edge : Nat
  blk : Nat
  lanePsn : Bool
deriving DecidableEq, Repr

def Ev.none : Ev := ⟨0, 0, 0, 0, 0, false⟩

def Ev.add (a b : Ev) : Ev :=
  ⟨a.sat + b.sat, a.ufz + b.ufz, a.psn + b.psn, a.edge + b.edge, a.blk + b.blk, a.lanePsn || b.lanePsn⟩

/-- The sticky bits SAT, UFZ, PSN an event sets. -/
def Ev.bits (e : Ev) : BitVec 3 :=
  BitVec.ofNat 3 (b2n (e.sat ≠ 0) + 2 * b2n (e.ufz ≠ 0) + 4 * b2n (e.psn ≠ 0 || e.lanePsn))

/-- Round the magnitude a / b steps to nearest, ties to the even code (R56). -/
def rneCode (p a b : Nat) : Nat :=
  let lo := floorCode p (a / b)
  if magVal p lo * b = a then lo
  else
    let m := (magVal p lo + magVal p (lo + 1)) * b
    if 2 * a < m then lo else if m < 2 * a then lo + 1 else if lo % 2 = 0 then lo else lo + 1

/-- One shift of the generator of R58. -/
def lfsrShift (x : Dword) : Bool × Dword :=
  (x.getLsbD 0, if x.getLsbD 0 then (x >>> 1) ^^^ 0xD800000000000000 else x >>> 1)

/-- n shifts, the first output bit most significant. -/
def lfsrBits : Nat → Dword → Nat × Dword
  | 0, x => (0, x)
  | n + 1, x =>
    let r := lfsrShift x
    let t := lfsrBits n r.2
    (b2n r.1 * 2 ^ n + t.1, t.2)

/-- Stochastic rounding of a / b steps (R57). -/
def srCode (p a b : Nat) (g : Dword) : Nat × Dword :=
  let lo := floorCode p (a / b)
  if magVal p lo * b = a then (lo, g)
  else
    let r := lfsrBits 10 g
    (if r.1 < (a - magVal p lo * b) * 1024 / ((magVal p (lo + 1) - magVal p lo) * b) then lo + 1 else lo, r.2)

/-- A sign and a magnitude code as a code of the format; zero is always positive (R44). -/
def signCode (f : Nat) (neg : Bool) (m : Nat) : Nat :=
  if f = 1 then (if neg then (16 - m) % 16 else m)
  else if neg && m ≠ 0 then 2 ^ ((fmtOf f).width - 1) + m else m

/-- The code a poison element is stored as (R62). -/
def poisonCode (f : Nat) : Nat := if f ≤ 1 then 0 else if f = 2 then 0x80 else if f = 3 then 0x7FFF else 0x7FFFFFFF

/-- The largest magnitude code for a sign (R60). -/
def maxMag (f : Nat) (neg full : Bool) : Nat := if f = 1 && neg && full then 8 else (fmtOf f).maxCode

/-- Store one exact value n / d * 2^e (n signed) in a format, rounding once (R55 step 4, R56 to R61). -/
def storeQ (f : Nat) (full sr : Bool) (n : Int) (d : Nat) (e : Int) (g : Dword) : Nat × Ev × Dword :=
  let F := fmtOf f
  let neg := n < 0
  let q := steps F.st n.natAbs d e
  let top := maxMag f neg full
  if magVal F.p top * q.2 < q.1 then (signCode f neg top, { Ev.none with sat := 1 }, g)
  else
    let r := if sr && f ≠ 1 && f ≠ 4 then srCode F.p q.1 q.2 g else (rneCode F.p q.1 q.2, g)
    (signCode f neg r.1, { Ev.none with ufz := b2n (r.1 = 0 && n ≠ 0) }, r.2)

/-- Store one element divided by its scale; `given0` is a given scale of 0x00 (R63). -/
def storeElem (f : Nat) (full sr : Bool) (scale : Byte) (x : FNum) (g : Dword) : Nat × Ev × Dword :=
  match x with
  | .poison => (poisonCode f, { Ev.none with psn := 1 }, g)
  | .fin n e =>
    if scaled f then
      if scale = 0 then (0, { Ev.none with ufz := b2n (n ≠ 0) }, g)
      else storeQ f full sr n (4 + scale.toNat % 4) (e - ((scale.toNat / 4 : Nat) - 34)) g
    else storeQ f full sr n 1 e g

/-- Store a run of elements with one scale, in element order. -/
def storeElems (f : Nat) (full sr : Bool) (scale : Byte) : List FNum → Dword → List Nat × Ev × Dword
  | [], g => ([], Ev.none, g)
  | x :: xs, g =>
    let r := storeElem f full sr scale x g
    let t := storeElems f full sr scale xs r.2.2
    (r.1 :: t.1, r.2.1.add t.2.1, t.2.2)

/-- Round to VW32, RNE: the code and whether it saturated or became zero (R52, R98). -/
def toVw (x : FNum) : Word × Ev :=
  match x with
  | .poison => (0x7FFFFFFF, Ev.none)
  | .fin n e => let r := storeQ 4 false false n 1 e 0; (BitVec.ofNat 32 r.1, r.2.1)

/-- A VW32 code's value. -/
def vwNum (w : Word) : FNum := codeNum 4 w.toNat

/-- The smallest VS8 code at least a / fmax, by R64; the magnitudes are n * 2^e. -/
def amaxScale (f : Nat) (xs : List FNum) : Byte :=
  let big := xs.foldl (fun (m : FNum) x => match x with
    | .poison => m
    | .fin n e => let y : FNum := .fin n.natAbs e; if FNum.lt m y then y else m) FNum.zero
  let fmax : Nat := if f = 0 then 3 else if f = 1 then 7 else 480
  match big with
  | .poison => 0
  | .fin n e =>
    if n = 0 then 0
    else
      let q := steps (-34) n.natAbs fmax e
      let up := (q.1 + q.2 - 1) / q.2
      let sc (c : Nat) : Nat := (4 + c % 4) <<< (c / 4)
      let fl := if up < 4 then 0 else (Nat.log2 up - 2) * 4 + ((up >>> (Nat.log2 up - 2)) - 4)
      let c := if sc fl * q.2 < q.1 then fl + 1 else fl
      if c < 1 then 1 else if 255 < c then 255 else BitVec.ofNat 8 c

/-- Whether a store from one format to another narrows (R55, R65: "at least as wide as its source" by the widths of R34; log 46). -/
def narrows (src dst : Nat) : Bool := (fmtOf dst).width < (fmtOf src).width

/-- Store one block of at most 32 elements (R55 step 2 to 5). mode 0 AMAX, 1 GIVEN, 2 UNIT; `implicit` has no plane (R40);
`given` is the plane's byte and `marked` says it came marked uncorrected (R63); `narrow` says that the store narrows, so that the
block counts (R65). A block whose given scale came marked is no edge event, whatever the byte reads: the spec is silent there
(DESIGN CHOICE, log 46). Answers codes, the scale to write, events. -/
def storeBlock (f mode : Nat) (implicit full sr narrow : Bool) (given : Byte) (marked : Bool) (xs : List FNum) (g : Dword) :
    List Nat × Option Byte × Ev × Dword :=
  let sc : Byte := if implicit || mode = 2 then 0x80 else if mode = 1 then given else amaxScale f xs
  let lost := mode = 1 && !implicit && marked
  let r := storeElems f full sr sc (if lost then xs.map fun _ => FNum.poison else xs) g
  let edge := b2n (narrow && !lost && (sc = 1 || sc = 255))
  (r.1, if implicit || mode = 1 then Option.none else some sc, r.2.1.add { Ev.none with blk := b2n narrow, edge := edge }, r.2.2)

/-- The list cut into pieces of n. -/
def chunks {α : Type} (n : Nat) (l : List α) : List (List α) :=
  (List.range ((l.length + n - 1) / n)).map fun i => (l.drop (n * i)).take n

/-- The bytes of a run of codes that begins at an even element (R39). -/
def packCodes (f : Nat) (cs : List Nat) : List Byte :=
  if f ≤ 1 then
    (chunks 2 cs).map fun p => BitVec.ofNat 8 ((p.getD 0 0) % 16 + 16 * ((p.getD 1 0) % 16))
  else cs.flatMap fun c => leBytes c (fmtBytes f 1)

/-! ### Lanes of the vector engine (R88, R89) -/

/-- A lane result rounded to the lane format (3 or 4). -/
def laneRound (f : Nat) (x : FNum) : Nat × Ev :=
  match x with
  | .poison => (poisonCode f, { Ev.none with lanePsn := true })
  | .fin n e => let r := storeQ f false false n 1 e 0; (r.1, r.2.1)

/-- The largest finite magnitude, with SAT. -/
def laneMax (f : Nat) : Nat × Ev := ((fmtOf f).maxCode, { Ev.none with sat := 1 })

/-- An approximation's result for the exact positive value a / b steps: any code within k units in the last place, which
one Config says (log 8). -/
def approx (op k f code a b : Nat) (neg : Bool) : Nat × Ev :=
  let F := fmtOf f
  if magVal F.p F.maxCode * b < a then (signCode f neg F.maxCode, { Ev.none with sat := 1 })
  else
    let lo := floorCode F.p (a / b)
    let ulp := magVal F.p (lo + 1) - magVal F.p lo
    let near (c : Nat) : Bool := magVal F.p c * b ≤ a + k * ulp * b && a ≤ magVal F.p c * b + k * ulp * b
    let cs := ((List.range (4 * k + 4)).map fun i => lo + i - (2 * k + 1)).filter near
    let c := cs.getD (Config.approxPick (op + 8 * b2n (f = 3)) code % cs.length) lo
    if F.maxCode < c then (signCode f neg F.maxCode, { Ev.none with sat := 1 })
    else (signCode f neg c, { Ev.none with ufz := b2n (c = 0) })

/-- Integer square root by bits. -/
def isqrtGo : Nat → Nat → Nat → Nat
  | 0, _, r => r
  | i + 1, n, r => isqrtGo i n (if (r + 2 ^ i) * (r + 2 ^ i) ≤ n then r + 2 ^ i else r)

/-- Reciprocal of a lane (R88, R89). -/
def laneRecip (f code : Nat) : Nat × Ev :=
  match codeNum f code with
  | .poison => (poisonCode f, { Ev.none with lanePsn := true })
  | .fin n e =>
    if n = 0 then laneMax f
    else let q := steps (fmtOf f).st 1 n.natAbs (-e); approx 0 1 f code q.1 q.2 (n < 0)

/-- Reciprocal square root of a lane (R88, R89). -/
def laneRsqrt (f code : Nat) : Nat × Ev :=
  match codeNum f code with
  | .poison => (poisonCode f, { Ev.none with lanePsn := true })
  | .fin n e =>
    if n ≤ 0 then laneMax f
    else
      let odd := e % 2 ≠ 0
      let m := if odd then 2 * n.natAbs else n.natAbs
      let h := (if odd then e - 1 else e) / 2
      let r := isqrtGo 201 (2 ^ 400 / m) 0
      let s := if r * r * m = 2 ^ 400 then 2 * r else 2 * r + 1
      let q := steps (fmtOf f).st s 1 (-h - 201)
      approx 1 1 f code q.1 q.2 false

/-- The sum of t^i / i! scaled by 2^160, from term i on. -/
def expSeries : Nat → Nat → Nat → Nat → Nat
  | 0, _, _, _ => 0
  | k + 1, t, i, term => term + expSeries k t (i + 1) (term * t / (2 ^ 160 * (i + 1)))

/-- 2^x for x = y / 2^w in steps, with a sticky bit unless x is whole: a pair (a, b). -/
def exp2Steps (st : Int) (y : Int) (w : Nat) : Nat × Nat :=
  let n := y / 2 ^ w
  let fr := (y % 2 ^ w).toNat
  let n := if n < -600 then -600 else if 600 < n then 600 else n
  if fr = 0 then steps st 1 1 n
  else
    let t := (fr <<< 160 >>> w) * 0xb17217f7d1cf79abc9e3b39803f2f6af40f34326 / 2 ^ 160
    steps st (2 * expSeries 45 t 0 (2 ^ 160) + 1) 1 (n - 161)

/-- A lane's value as a fixed-point number with w fraction bits, exact for w at least 276. -/
def fixedOf (n : Int) (e : Int) (w : Nat) : Int :=
  if 0 ≤ e + w then n * 2 ^ (e + w).toNat else n / 2 ^ (-(e + w)).toNat

/-- exp2 of a lane (R88, R89). -/
def laneExp2 (f code : Nat) : Nat × Ev :=
  match codeNum f code with
  | .poison => (poisonCode f, { Ev.none with lanePsn := true })
  | .fin n e => let q := exp2Steps (fmtOf f).st (fixedOf n e 276) 276; approx 2 2 f code q.1 q.2 false

/-- exp of a lane, as exp2 of x log2(e) (R88, R89). -/
def laneExp (f code : Nat) : Nat × Ev :=
  match codeNum f code with
  | .poison => (poisonCode f, { Ev.none with lanePsn := true })
  | .fin n e =>
    let y := fixedOf n e 276 * 0x171547652b82fe1777d0ffda0d23a7d11d6aef551bad2b4b116
    let q := exp2Steps (fmtOf f).st y 476
    approx 3 3 f code q.1 q.2 false

/-- Two-operand lane operations 0 to 5: add, subtract, multiply, fused multiply-add, min, max (R88, R89). -/
def laneOp (op f a b c : Nat) : Nat × Ev :=
  let x := codeNum f a
  let y := codeNum f b
  let z := codeNum f c
  let r : FNum :=
    if op = 0 then FNum.add x y else if op = 1 then FNum.sub x y else if op = 2 then FNum.mul x y
    else if op = 3 then FNum.add (FNum.mul x y) z
    else if x.isPoison || y.isPoison then .poison
    else if op = 4 then (if FNum.lt y x then y else x) else (if FNum.lt x y then y else x)
  laneRound f r

/-- The code of 1.0 in a lane format. -/
def oneCode (f : Nat) : Nat := if f = 3 then 0x3F00 else 0x3FC00000

/-- Lane compare: SUB 0 eq, 1 lt, 2 le (R123). -/
def laneCmp (sub f a b : Nat) : Nat × Ev :=
  match FNum.sub (codeNum f a) (codeNum f b) with
  | .poison => (poisonCode f, { Ev.none with lanePsn := true })
  | .fin d _ =>
    (if (sub = 0 && d = 0) || (sub = 1 && d < 0) || (sub = 2 && d ≤ 0) then oneCode f else 0, Ev.none)

/-- Lane select: A where C is not a zero code, else B; the operand not picked may be poison (R89). -/
def laneSel (f a b c : Nat) : Nat × Ev :=
  if (codeNum f c).isPoison then (poisonCode f, { Ev.none with lanePsn := true })
  else
    let p := if (codeNum f c).isZero then b else a
    let r := laneRound f (codeNum f p)
    (r.1, r.2)

/-- Add a list of exact terms to a VW32 accumulator, one rounding each (R51, R52). -/
def accAdd (w : Word) (sat : Bool) : List FNum → Word × Bool
  | [] => (w, sat)
  | x :: xs =>
    match vwNum w with
    | .poison => (0x7FFFFFFF, sat)
    | a =>
      let r := toVw (FNum.add a x)
      accAdd r.1 (sat || r.2.sat ≠ 0) xs

/-- Whether some addition of the list rounds a nonzero sum to zero, as terms below the VW32 range can make it (R89). -/
def accFlush (w : Word) : List FNum → Bool
  | [] => false
  | x :: xs =>
    let r := toVw (FNum.add (vwNum w) x)
    r.2.ufz ≠ 0 || accFlush r.1 xs

end Sys2Proof.Machine
end

