-- ==== Sys2Proof/Machine/Operands.lean ====
section
/-! DEFINITION. Operand entries of a core (R113), the byte ranges an access touches, and the load and store paths over local
store (R91 to R95, R190, R192). -/
namespace Sys2Proof.Machine
open Sys2Proof

/-- An operand-table entry (R113). -/
structure Entry where
  base : Nat
  fmt : Nat
  scaleBase : Nat
  implicit : Bool
  mode : Nat
  rows : Nat
  cols : Nat
  rowStride : Nat
  scaleStride : Nat
  rotSeed : Word
  rotL : Nat
  rotT : Bool
  xpose : Bool
  sr : Bool
  full : Bool
deriving DecidableEq, Repr

/-- Entry from its eight words. -/
def entryOfWords (w : Nat → Word) : Entry where
  base := (bits (w 0) 0 28).toNat
  fmt := (bits (w 0) 28 4).toNat
  scaleBase := (bits (w 1) 0 28).toNat
  implicit := (w 1).getLsbD 28
  mode := (bits (w 1) 29 2).toNat
  rows := (bits (w 2) 0 16).toNat
  cols := (bits (w 2) 16 16).toNat
  rowStride := (bits (w 3) 0 28).toNat
  scaleStride := (bits (w 4) 0 24).toNat
  rotSeed := w 5
  rotL := (bits (w 6) 0 4).toNat
  rotT := (w 6).getLsbD 4
  xpose := (w 6).getLsbD 5
  sr := (w 6).getLsbD 6
  full := (w 6).getLsbD 7

/-- The 32-bit word at a byte address of a memory. -/
def Memory.word (m : Memory) (a : Nat) : Word := BitVec.ofNat 32 (m.getLE a 4)

/-- Entry i of a core's operand table. -/
def Core.entry (co : Core) (i : Byte) : Entry := entryOfWords fun j => co.optab.word (32 * i.toNat + 4 * j)

/-- A number read modulo 2^32 as a row offset. -/
def Entry.rowAddr (e : Entry) (row : Nat) : Nat := e.base + row * e.rowStride

/-- The scale byte address of element col of a row. -/
def Entry.scaleAddr (e : Entry) (row col : Nat) : Nat := e.scaleBase + row * e.scaleStride + col / 32

/-- Whether the entry has a scale plane in memory (R39, R40). -/
def Entry.plane (e : Entry) : Bool := scaled e.fmt && !e.implicit

/-- The byte offset of element col within a row (R189). -/
def fmtOffset (f col : Nat) : Nat := if f ≤ 1 then col / 2 else if f = 2 then col else if f = 3 then 2 * col else 4 * col

/-- A byte range: address and length. -/
abbrev Range := Nat × Nat

/-- The ranges that elements [col, col + n) of a row occupy, data then scales. -/
def Entry.span (e : Entry) (row col n : Nat) : List Range :=
  if n = 0 then []
  else
    let d : Range := (e.rowAddr row + fmtOffset e.fmt col, fmtOffset e.fmt (col + n - 1) + fmtBytes e.fmt 1 - fmtOffset e.fmt col)
    if e.plane then [d, (e.scaleAddr row col, (col + n - 1) / 32 - col / 32 + 1)] else [d]

/-- Whether two ranges share a byte. -/
def rangesMeet (a b : Range) : Bool := a.1 < b.1 + b.2 && b.1 < a.1 + a.2

/-- Whether any range of one list meets one of the other. -/
def anyMeet (xs ys : List Range) : Bool := xs.any fun a => ys.any fun b => rangesMeet a b

/-- First byte address of a range at or above the end of local store (R91, R92). -/
def lsEnd : Nat := 0x09000000

/-- The first byte at or above the end of local store, over a list of ranges. -/
def outOfRange (rs : List Range) : Option Nat :=
  rs.findSome? fun r => if lsEnd < r.1 + r.2 then some (max lsEnd r.1) else none

/-- The 512-byte lines ranges touch, without repeats (R91). -/
def linesOf (rs : List Range) : List Nat :=
  rs.foldl (fun acc r => (List.range ((r.1 + r.2 - 1) / 512 - r.1 / 512 + 1)).foldl
    (fun acc i => insSorted (r.1 / 512 + i) acc) acc) []

/-- The lines in which a write covers some sector only in part, so that it takes a read grant as well (R92). -/
def partialLines (rs : List Range) : List Nat :=
  linesOf ((rs.filter fun r => !(r.1 % 64 = 0)).map (fun r => (r.1, 1))
    ++ (rs.filter fun r => !((r.1 + r.2) % 64 = 0)).map fun r => (r.1 + r.2 - 1, 1))

/-- Whether any sector of the ranges is marked uncorrected (R197). -/
def Core.anyMarked (co : Core) (rs : List Range) : Bool :=
  !co.lsPoison.isEmpty && rs.any fun r => (sectorsOf r.1 r.2).any fun x => co.lsPoison.contains x

/-- Whether one byte is marked. -/
def Core.marked (co : Core) (a : Nat) : Bool := co.lsPoison.contains (a / 64)

/-- Write bytes into local store: a sector wholly covered loses its poison bit (R92, R197). -/
def Core.lsWrite (co : Core) (a : Nat) (bs : List Byte) : Core :=
  let ws := wholeSectors a bs.length
  { co with ls := co.ls.putBytes a bs, lsPoison := if co.lsPoison.isEmpty then [] else co.lsPoison.filter fun x => !ws.contains x }

/-- The code of element col of a stored row. -/
def codeAt (m : Memory) (f a col : Nat) : Nat :=
  if f ≤ 1 then (m.get (a + col / 2)).toNat / (if col % 2 = 0 then 1 else 16) % 16
  else m.getLE (a + fmtOffset f col) (fmtBytes f 1)

/-- An element of a stored row as the load path delivers it (R46). -/
def Core.elem (co : Core) (e : Entry) (row col : Nat) : FNum :=
  let a := e.rowAddr row
  let sa := e.scaleAddr row col
  elemNum e.fmt (codeAt co.ls e.fmt a col) (if e.plane then co.ls.get sa else 0x80)
    (co.marked (a + fmtOffset e.fmt col) || (e.plane && co.marked sa))

/-- Element (i, j) of the region that begins at row off, through XPOSE (R114, R192). -/
def Core.view (co : Core) (e : Entry) (off i j : Nat) : FNum :=
  if e.xpose then co.elem e (off + j) i else co.elem e (off + i) j

/-- The ranges of rows [i0, i0 + ni) and elements [j0, j0 + nj) of the region at row off, through XPOSE. -/
def Entry.viewSpan (e : Entry) (off i0 ni j0 nj : Nat) : List Range :=
  if e.xpose then (List.range nj).flatMap fun j => e.span (off + j0 + j) i0 ni
  else (List.range ni).flatMap fun i => e.span (off + i0 + i) j0 nj

/-- One poison code counts once as it is decoded (R66). -/
def psnCount (xs : List FNum) : Nat := (xs.filter FNum.isPoison).length

/-- A store in progress: the core, events, the generator; the core as the store's read grants saw it, which gives the scales of
SCALE_GIVEN (R94); whether such a scale came marked uncorrected (R63). -/
structure Stored where
  co : Core
  ev : Ev
  g : Dword
  seen : Core
  bad : Bool

/-- A store that begins. -/
def Stored.start (co : Core) (g : Dword) (seen : Core) : Stored := ⟨co, Ev.none, g, seen, false⟩

/-- Events count in a store. -/
def Stored.raise (ev : Ev) (r : Stored) : Stored := { r with ev := r.ev.add ev }

/-- The codes of a run written without a scale plane: the last byte of an odd run of 4-bit codes keeps the element beyond it
(R492). -/
def keepOdd (m : Memory) (f a : Nat) (cs : List Nat) : List Nat :=
  if f ≤ 1 && cs.length % 2 = 1 then cs ++ [codeAt m f a cs.length] else cs

/-- Put the codes of one block of at most 32 elements at element col of a row: with a scale plane a short block is completed with
zero codes (R190), without one nothing beyond it is written (R492). -/
def Core.putBlock (co : Core) (e : Entry) (row col : Nat) (cs : List Nat) : Core :=
  let a := e.rowAddr row + fmtOffset e.fmt col
  co.lsWrite a (packCodes e.fmt (if e.plane then (cs ++ List.replicate 32 0).take 32 else keepOdd co.ls e.fmt a cs))

/-- Store the blocks of a run that begins at a multiple of 32 (R55, R63, R190); `src` is the format the values come in. A store of one
element a row, as VSTORE through XPOSE makes, completes each element's block with 31 zero codes too: the spec does not say that
R190 applies there (DESIGN CHOICE, log 46). -/
def storeBlocks (e : Entry) (src row : Nat) : Nat → List (List FNum) → Stored → Stored
  | _, [], r => r
  | col, xs :: rest, r =>
    let sa := e.scaleAddr row col
    let lost := r.seen.marked sa
    let b := storeBlock e.fmt e.mode e.implicit e.full e.sr (narrows src e.fmt) (r.seen.ls.get sa) lost xs r.g
    let c1 := r.co.putBlock e row col b.1
    let c2 := match b.2.1 with
      | some v => c1.lsWrite sa [v]
      | none => c1
    storeBlocks e src row (col + 32) rest
      { r with co := c2, ev := r.ev.add b.2.2.1, g := b.2.2.2, bad := r.bad || (e.plane && e.mode = 1 && lost) }

/-- Store elements [col, col + n) of one stored row (R55): blocks for a scaled format, else element by element. -/
def storeRow (e : Entry) (src row col : Nat) (xs : List FNum) (r : Stored) : Stored :=
  if scaled e.fmt then storeBlocks e src row col (chunks 32 xs) r
  else
    let q := storeElems e.fmt e.full e.sr 0 xs r.g
    { r with
      co := r.co.lsWrite (e.rowAddr row + fmtOffset e.fmt col) (packCodes e.fmt q.1), ev := r.ev.add q.2.1, g := q.2.2 }

/-- Store consecutive stored rows. -/
def storeRows (e : Entry) (src : Nat) : Nat → List (List FNum) → Stored → Stored
  | _, [], r => r
  | row, xs :: rest, r => storeRows e src (row + 1) rest (storeRow e src row 0 xs r)

/-- The transpose of a rectangle given by rows of n elements. -/
def transposed (n : Nat) (rows : List (List FNum)) : List (List FNum) :=
  (List.range n).map fun j => rows.map fun r => r.getD j FNum.zero

/-- Store a region of VW32 rows at row off, transposed when XPOSE is set (R192); each row has n elements. -/
def storeRegion (e : Entry) (off n : Nat) (rows : List (List FNum)) (r : Stored) : Stored :=
  storeRows e 4 off (if e.xpose then transposed n rows else rows) r

/-! ### Lines as read grants delivered them (R94) -/

/-- A line's bytes that are not zero. -/
def Memory.lineCells (m : Memory) (line : Nat) : Memory :=
  (m.dropWhile fun c => c.1 < 512 * line).takeWhile fun c => c.1 < 512 * line + 512

/-- A memory with one line replaced. -/
def Memory.putLine (m : Memory) (line : Nat) (cells : Memory) : Memory :=
  m.takeWhile (fun c => c.1 < 512 * line) ++ cells ++ m.dropWhile fun c => c.1 < 512 * line + 512

/-- What a read grant delivers of a line. -/
def Core.readLine (co : Core) (line : Nat) : LineRead :=
  ⟨line, co.ls.lineCells line, co.lsPoison.filter fun x => x / 8 = line⟩

/-- The core as an instruction's read grants saw it: every line it was granted as it stood then (R94). -/
def Core.seenBy (co : Core) (ls : List LineRead) : Core :=
  ls.foldl (fun co l => { co with
    ls := co.ls.putLine l.line l.bytes,
    lsPoison := co.lsPoison.filter (· / 8 < l.line) ++ l.poison ++ co.lsPoison.filter (l.line < · / 8) }) co

/-- The ranges a store of a stored row writes: a short last block is completed (R190). -/
def Entry.storeSpan (e : Entry) (row col n : Nat) : List Range :=
  let m := if e.plane then (n + 31) / 32 * 32 else n
  let d := e.span row col m
  if e.plane && e.mode = 1 then d.take 1 else d

/-- The scale bytes a store under SCALE_GIVEN reads (R63). -/
def Entry.givenSpan (e : Entry) (row col n : Nat) : List Range :=
  if e.plane && e.mode = 1 then (e.span row col n).drop 1 else []

/-- The same over the rows of a region through XPOSE. -/
def Entry.regionSpan (e : Entry) (f : Entry → Nat → Nat → Nat → List Range) (off ni nj : Nat) : List Range :=
  let n := if e.xpose then (nj, ni) else (ni, nj)
  (List.range n.1).flatMap fun i => f e (off + i) 0 n.2

/-- Whether BASE and ROW_STRIDE keep the rule of R113; else the address of the first of n rows from a row on that is off a 64-byte
boundary (R137). Where ROW_STRIDE breaks the rule and each of the n rows stands on a boundary, DETAIL is the first row's address:
the spec gives no value there (DESIGN CHOICE, log 46). -/
def Entry.misaligned (e : Entry) (row n : Nat) : Option Nat :=
  if e.base % 64 = 0 && e.rowStride % 64 = 0 then none
  else some (((List.range (max n 1)).map fun i => e.rowAddr (row + i)).find? (fun a => a % 64 ≠ 0) |>.getD (e.rowAddr row))

/-! ### Rotations (R156 to R158) -/

/-- The sign of element j of a rotation block; true is minus (R157). -/
def rotSign (seed : Word) (j : Nat) : Bool :=
  let h := seed ^^^ (BitVec.ofNat 32 j * 0x9E3779B1)
  let h := h ^^^ (h >>> 15)
  let h := h * 0x85EBCA6B
  (h ^^^ (h >>> 13)).getLsbD 31

/-- A value in the exchange network with its saturation and underflow history (R98). -/
abbrev XVal := Word × Bool × Bool

/-- A rounded result that inherits the histories of its sources. -/
def xround (x : FNum) (sat ufz : Bool) : XVal :=
  let r := toVw x
  (r.1, sat || r.2.sat ≠ 0, ufz || r.2.ufz ≠ 0)

/-- One butterfly stage s (R158). -/
def xstage (s : Nat) (v : List XVal) : List XVal :=
  (List.range v.length).map fun p =>
    let lo := p - (if (p / 2 ^ s) % 2 = 1 then 2 ^ s else 0)
    let a := v.getD lo (0, false, false)
    let b := v.getD (lo + 2 ^ s) (0, false, false)
    let f := if lo = p then FNum.add (vwNum a.1) (vwNum b.1) else FNum.sub (vwNum a.1) (vwNum b.1)
    xround f (a.2.1 || b.2.1) (a.2.2 || b.2.2)

/-- The stages from s on. -/
def xstages : Nat → Nat → List XVal → List XVal
  | 0, _, v => v
  | n + 1, s, v => xstages n (s + 1) (xstage s v)

/-- The VW32 value nearest 2^(-1/2): its significand is that of the square root of 2, rounded. -/
def invSqrt2 : FNum := vwNum 0x3F9A827A

/-- The scale 2^(-L/2) (R98). -/
def rotScale (L : Nat) (x : XVal) : XVal :=
  if L % 2 = 0 then xround (FNum.mul (vwNum x.1) (.fin 1 (-(L / 2 : Nat)))) x.2.1 x.2.2
  else xround (FNum.mul (vwNum x.1) (FNum.mul invSqrt2 (.fin 1 (-(L / 2 : Nat))))) x.2.1 x.2.2

/-- Apply the signs. -/
def rotSigns (seed : Word) (v : List XVal) : List XVal :=
  (List.range v.length).map fun j =>
    let x := v.getD j (0, false, false)
    (if rotSign seed j && x.1 ≠ 0 then x.1 ^^^ 0x80000000 else x.1, x.2)

/-- Rotate one block of 2^L values (R158); a poison input makes the block poison (R98). -/
def rotBlock (L : Nat) (seed : Word) (inverse : Bool) (xs : List FNum) : List FNum × Ev :=
  if xs.any FNum.isPoison then (xs.map fun _ => FNum.poison, { Ev.none with psn := 1 })
  else
    let v : List XVal := xs.map fun x => ((toVw x).1, false, false)
    let r := if inverse then rotSigns seed ((xstages L 0 v).map (rotScale L))
      else (xstages L 0 (rotSigns seed v)).map (rotScale L)
    (r.map fun x => vwNum x.1,
      { Ev.none with
        sat := (r.filter fun x => x.2.1).length,
        ufz := (r.filter fun x => x.2.2).length })

/-- Rotate a row run by run. -/
def rotRow (L : Nat) (seed : Word) (inverse : Bool) (xs : List FNum) : List FNum × Ev :=
  (chunks (2 ^ L) xs).foldl (fun acc b => let r := rotBlock L seed inverse b; (acc.1 ++ r.1, acc.2.add r.2)) ([], Ev.none)

end Sys2Proof.Machine
end

