-- ==== Sys2Proof/Machine/Flags.lean ====
section
/-! DEFINITION. Every flag computation: sticky flags and core counters (R66, R102, R103), the watch (R165 to R173), and the halt
of a station and of a launch that flags can cause (R131, R132, R171). -/
namespace Sys2Proof.Machine
open Sys2Proof

/-! ### Stallkeeper events (R141) -/

/-- Post an event record to a cluster's stallkeeper; the kind is the bit number (log 15). -/
def skPost (cl : Fin 48) (kind core stn code : Nat) (s : State) : State :=
  s.modCluster cl fun c => { c with
    sk := { c.sk with events := c.sk.events ++ [BitVec.ofNat 32 (kind + 256 * core + 2048 * stn + 65536 * code)] } }

/-! ### In-flight instructions -/

/-- The queues an instruction pushes, in header order. -/
def outQueues (w : InstrWord) : List (Fin 32) :=
  let q (x : BitVec 6) : List (Fin 32) := match qref x with
    | some i => [ix 32 i.toNat]
    | none => []
  q (bits w 102 6) ++ q (bits w 96 6)

/-- Whether an in-flight instruction is a PASS or MV that still streams (R100). -/
def Inflight.isStreaming (i : Inflight) : Bool := i.streaming

/-- End every hold a station keeps, its accumulators discarded to +0 (R120), over the arrays and the matrix-vector unit. -/
def dropHolds (k : Fin 8) (co : Core) : Core :=
  let clear (a : ArrayUnit) : ArrayUnit := match a.heldBy with
    | some h => if h.1 = k then { a with heldBy := none, active := Vector.replicate 4096 0 } else a
    | none => a
  { co with
    arrays := co.arrays.map clear,
    mvu := if co.mvu.heldBy = some k then { co.mvu with heldBy := none, accs := Vector.replicate 4096 0 } else co.mvu }

/-- The arrays and the matrix-vector unit discard a streaming pass of a station, and the hold of its chain (R100, R120). -/
def abandonStreams (k : Fin 8) (co : Core) : Core :=
  let mine (x : Option (Fin 8 × Nat)) : Bool := match x with
    | some y => y.1 = k
    | none => false
  let clear (a : ArrayUnit) : ArrayUnit :=
    if mine a.streaming then { a with streaming := none, heldBy := none, active := Vector.replicate 4096 0 } else a
  { co with
    arrays := co.arrays.map clear,
    mvu := if mine co.mvu.streaming then { co.mvu with streaming := none, heldBy := none, accs := Vector.replicate 4096 0 }
      else co.mvu }

/-- A matrix-vector operation gives up its issue slot, which it may have done already (R127). -/
def freeMvSlot (held : Bool) (co : Core) : Core := { co with mvu := { co.mvu with slots := co.mvu.slots - b2n held } }

/-- An instruction of station k leaves its unit's issue queue and gives up the issue slot it holds (R127). -/
def freeSlots (k : Fin 8) (f : Inflight) (co : Core) : Core :=
  let key := (k, f.uid)
  match opOf f.word with
  | some (.pass _) => { co with arrays := co.arrays.map fun u => { u with issued := u.issued.filter (· ≠ key) } }
  | some (.mv _) => freeMvSlot (!f.granted) { co with mvu := { co.mvu with issued := co.mvu.issued.filter (· ≠ key) } }
  | some (.vec _ _) => { co with vecIssued := co.vecIssued - 1 }
  | some (.vload _) => { co with loadIssued := co.loadIssued - 1 }
  | some (.sload _ _ _) => { co with loadIssued := co.loadIssued - 1 }
  | some (.vstore _) => { co with storeIssued := co.storeIssued - 1 }
  | some (.sstore _ _ _) => { co with storeIssued := co.storeIssued - 1 }
  | some (.copy _ _ _ _ _) => { co with loadIssued := co.loadIssued - 1, storeIssued := co.storeIssued - 1 }
  | some (.transpose _) => { co with xnetIssued := co.xnetIssued.filter (· ≠ key) }
  | some (.hadamard _) => { co with xnetIssued := co.xnetIssued.filter (· ≠ key) }
  | _ => co

/-- Present requests to the ports by their lines (R91). -/
def addReqs (rs : List PortReq) (co : Core) : Core :=
  rs.foldl (fun co r =>
    let t := ix 4 r.line
    { co with lports := co.lports.set t { co.lports[t] with reqs := co.lports[t].reqs ++ [r] } }) co

/-- Change one in-flight instruction of a core. -/
def Core.modFlight (co : Core) (key : Fin 8 × Nat) (g : Inflight → Inflight) : Core :=
  let st := co.stns[key.1]
  { co with stns := co.stns.set key.1 { st with inflight := st.inflight.map fun f => if f.uid = key.2 then g f else f } }

/-! ### Turns at the exchange network (R99) -/

/-- An exchange operation, as against a load or store that goes through the network. -/
def isXnet (w : InstrWord) : Bool :=
  match opOf w with
  | some (.transpose _) => true
  | some (.hadamard _) => true
  | _ => false

/-- A stream takes the network for its next tile or block, whose requests it presents. -/
def takeNet (key : Fin 8 × Nat) (f : Inflight) (co : Core) : Core :=
  match f.pieces with
  | [] => co
  | p :: ps => addReqs p ({ co with xnetOwner := some key }.modFlight key fun f => { f with pieces := ps })

/-- A free network is taken by the oldest waiting stream; an exchange operation waits there until its unit starts it (R127). -/
def netTurn (co : Core) : Core :=
  match co.xnetOwner, co.xnetWait with
  | none, key :: rest =>
    match co.stns[key.1].inflight.find? fun f => f.uid = key.2 with
    | none => { co with xnetWait := rest }
    | some f => if isXnet f.word && !f.started then co else takeNet key f { co with xnetWait := rest }
  | _, _ => co

/-- A stream joins those that wait for the network. -/
def joinNet (key : Fin 8 × Nat) (co : Core) : Core := netTurn { co with xnetWait := co.xnetWait ++ [key] }

/-- A stream's tile or block has completed: it gives up the network, and waits again for what it has left. -/
def leaveNet (key : Fin 8 × Nat) (more : Bool) (co : Core) : Core :=
  netTurn { co with xnetOwner := none, xnetWait := if more then co.xnetWait ++ [key] else co.xnetWait }

/-- The requests of instructions leave the ports, and their streams the network. -/
def dropReqs (p : Fin 8 × Nat → Bool) (co : Core) : Core :=
  let keep (r : PortReq) : Bool := match r.owner with
    | .stn k u => !p (k, u)
    | .ext _ => true
  netTurn { co with
    lports := co.lports.map fun q => { q with reqs := q.reqs.filter keep },
    xnetOwner := co.xnetOwner.filter fun y => !p y, xnetWait := co.xnetWait.filter fun y => !p y }

/-! ### Halting (R131) -/

/-- A station enters HALTED with an exception; an END that had fired counts no more, as RESUME goes on at an instruction (R133). `uid` is the raising instruction: none for a pre-fire exception, for which
every in-flight instruction is older. Streaming passes are abandoned; younger instructions push nothing. -/
def haltStation (c : Fin 384) (k : Fin 8) (code : Nat) (pc : BitVec 12) (detail : Word) (uid : Option Nat) (s : State) :
    State :=
  let st := s.station c k
  if st.state ≠ .run then s
  else
    let young (i : Inflight) : Bool := match uid with
      | some u => u < i.uid
      | none => false
    let gone := st.inflight.filter Inflight.isStreaming
    let lost := (st.inflight.filter young).length
    let left := (st.inflight.filter fun i => !i.isStreaming).map fun i => if young i then { i with mute := true } else i
    let st1 : Station :=
      { st with
        state := .halted, excCode := BitVec.ofNat 8 code, excPost := uid.isSome, excPc := pc,
        excLost := BitVec.ofNat 5 lost, excDetail := detail, inflight := left, ending := false,
        stuck := st.stuck ++ gone.flatMap fun i => outQueues i.word }
    let goneUid (o : Fin 8 × Nat) : Bool := o.1 = k && gone.any fun i => i.uid = o.2
    let s1 := s.modCore c fun co => dropReqs goneUid (abandonStreams k { co with stns := co.stns.set k st1 })
    skPost (clusterOf c) 0 (c.val % 8) k.val code s1

/-- Halt as COMMANDED (R130, R133): pre-fire, at the next instruction. -/
def haltCommanded (c : Fin 384) (k : Fin 8) (s : State) : State := haltStation c k 0x0B (s.station c k).pc 0 none s

/-- The (core, station) pairs of a cluster. -/
def stationsOf (cl : Fin 48) : List (Fin 384 × Fin 8) :=
  (List.range 8).flatMap fun j => (List.finRange 8).map fun k => (coreOf cl j, k)

/-- Halt every running station of a cluster and stop its stallkeeper: its launch ends with a status (R149, R171). -/
def endCluster (cl : Fin 48) (status : Byte) (s : State) : State :=
  let s1 := forAll (stationsOf cl) (fun x => haltCommanded x.1 x.2) s
  s1.modCluster cl fun c => { c with sk := { c.sk with st := .stopped }, ending := some (c.ending.getD status) }

/-- The clusters of a mask. -/
def maskList (m : BitVec 48) : List (Fin 48) := (List.finRange 48).filter fun i => m.getLsbD i.val

/-- Replace a launch by its id. -/
def setLaunch (l : Launch) (s : State) : State :=
  s.setLaunches (s.launches.map fun x => if x.id = l.id then l else x)

/-- The launch a cluster runs. -/
def launchOf (s : State) (cl : Fin 48) : Option Launch :=
  match (s.cluster cl).launch with
  | some id => s.launches.find? fun l => l.id = id
  | none => none

/-! ### The watch -/

/-- The tests of R169 that hold now and have not triggered since arming: SAT, UFZ, edge. -/
def watchTests (co : Core) : List (Fin 3) :=
  let w := co.watch
  let sat := w.satThr ≠ 0 && !w.satTrig && w.satThr.toNat ≤ co.satCnt.toNat - w.baseSat.toNat
  let ufz := w.ufzThr ≠ 0 && !w.ufzTrig && w.ufzThr.toNat ≤ co.ufzCnt.toNat - w.baseUfz.toNat
  let blk := w.blockCnt.toNat - w.baseBlock.toNat
  let edge := w.edgeFrac ≠ 0 && !w.edgeTrig && w.edgeMin.toNat ≤ blk
    && w.edgeFrac.toNat * blk < (co.edgeCnt.toNat - w.baseEdge.toNat) * 256
  (if sat then [0] else []) ++ (if ufz then [1] else []) ++ (if edge then [2] else [])

/-- Set one trigger bit and count it (R168). -/
def trigOne (t : Fin 3) (w : Watch) : Watch :=
  let w1 : Watch := { w with trigCnt := satAdd w.trigCnt 1 }
  if t = 0 then { w1 with satTrig := true } else if t = 1 then { w1 with ufzTrig := true } else { w1 with edgeTrig := true }

/-- Mark REPLAY_REFUSED on every core of a launch's clusters (R171). -/
def refuseReplay (m : BitVec 48) (s : State) : State :=
  forAll (maskList m) (fun cl => forAll (List.range 8) fun j => fun t =>
    t.modCore (coreOf cl j) fun co => { co with watch := { co.watch with refused := true } }) s

/-- ERR_RECIPE_FLAG in place of a lower status (R171, R172). -/
def recipeStatus (x : Byte) : Byte := if x < 0x40 then 0x40 else x

/-- Stop a launch with ERR_RECIPE_FLAG (R171 ACTION 1) on every target cluster, those that are ending or have ended among them. -/
def stopLaunch (l : Launch) (s : State) : State :=
  let stop (cl : Fin 48) (t : State) : State := (endCluster cl 0x40 t).modCluster cl fun c => { c with ending := c.ending.map recipeStatus }
  let s1 := forAll (maskList l.mask) (fun cl t => if (t.cluster cl).launch = some l.id then stop cl t else t) s
  setLaunch { l with phase := 1, ended := l.ended.map fun x => (x.1, recipeStatus x.2) } s1

/-- Halt a launch for replay (R177 step 2). -/
def pauseLaunch (l : Launch) (s : State) : State :=
  let halt (cl : Fin 48) (t : State) : State :=
    let t1 := forAll (stationsOf cl) (fun x => haltCommanded x.1 x.2) t
    t1.modCluster cl fun c => { c with sk := { c.sk with st := .stopped } }
  setLaunch { l with phase := 2 } (forAll (maskList l.mask) halt s)

/-- What follows a trigger by the core's ACTION (R171, R173, R178). -/
def watchAct (c : Fin 384) (s : State) : State :=
  match launchOf s (clusterOf c) with
  | none => s
  | some l0 =>
    let l : Launch := { l0 with recipe := some (l0.recipe.getD c.val) }
    let a := (s.core c).watch.action
    if l.phase ≠ 0 then setLaunch l s
    else if a = 1 then stopLaunch l s
    else if a = 2 && l.retaining then pauseLaunch l s
    else if a = 2 && l.replayed then stopLaunch l (refuseReplay l.mask s)
    else setLaunch l s

/-- One trigger of one core (R170): the WATCH event, and the RECIPE_FLAG record on the core's first of the launch. -/
def watchTrigger (c : Fin 384) (t : Fin 3) (s : State) : State :=
  let co := s.core c
  let s1 := s.setCore c { co with watch := { trigOne t co.watch with eventSent := true } }
  let s2 := { skPost (clusterOf c) 6 (c.val % 8) 0 (2 ^ t.val + 256 * (c.val % 8)) s1 with watchTotal := s.watchTotal + 1 }
  let l := launchOf s (clusterOf c)
  let data := [BitVec.ofNat 8 (2 ^ t.val), 0, 0, 0] ++ leBytes (match l with
    | some x => x.ring.val
    | none => 0) 2 ++ leBytes (match l with
    | some x => x.idx
    | none => 0) 2
  let s3 := if co.watch.eventSent then s2 else postEvent 0x0101 1 (BitVec.ofNat 32 c.val) data s2
  watchAct c s3

/-- Test the watch of a core after its counts changed (R169). -/
def watchCheck (c : Fin 384) (s : State) : State := forAll (watchTests (s.core c)) (fun t => watchTrigger c t) s

/-- Take a new base, and clear the trigger bits when armed (R169). -/
def takeBase (co : Core) : Core :=
  { co with watch := { co.watch with
      baseSat := co.satCnt, baseUfz := co.ufzCnt, baseEdge := co.edgeCnt, baseBlock := co.watch.blockCnt } }

/-! ### Raising flags (R66, R132) -/

/-- Count events in a core's counters (R66, R65). -/
def countEv (ev : Ev) (co : Core) : Core :=
  { co with
    satCnt := satAdd co.satCnt ev.sat, ufzCnt := satAdd co.ufzCnt ev.ufz, psnCnt := satAdd co.psnCnt ev.psn,
    edgeCnt := satAdd co.edgeCnt ev.edge, watch := { co.watch with blockCnt := satAdd co.watch.blockCnt ev.blk } }

/-- An instruction of a station raised events: counters, sticky flags, the instruction's own flags, the watch. -/
def raiseEv (c : Fin 384) (k : Fin 8) (uid : Nat) (ev : Ev) (s : State) : State :=
  let s1 := s.modCore c (countEv ev)
  let mark (i : Inflight) : Inflight := if i.uid = uid then { i with raised := i.raised ||| ev.bits } else i
  let s2 := s1.modStation c k fun st => { st with flags := st.flags ||| ev.bits, inflight := st.inflight.map mark }
  watchCheck c s2

end Sys2Proof.Machine
end

