-- ==== Sys2Proof/Machine/Station.lean ====
section
/-! DEFINITION. Stations: tokens, the firing rule (R127), pre-fire exceptions (R130, R137), and the CTRL and SYNC instructions
(R116, R117). An instruction's effect on registers takes place as it fires (log 9). -/
namespace Sys2Proof.Machine
open Sys2Proof

/-! ### Registers and tokens -/

/-- A scalar register; s0 reads as zero (R106). -/
def regRead (rs : Vector Word 16) (r : BitVec 4) : Word := if r = 0 then 0 else rs[r.toNat]

/-- Write a scalar register; writes to s0 are discarded (R106). -/
def regWrite (rs : Vector Word 16) (r : BitVec 4) (v : Word) : Vector Word 16 := if r = 0 then rs else rs.set r.toNat v

/-- A vector register of a station by its local number (R106). -/
def vregIx (k : Fin 8) (v : BitVec 3) : Fin 64 := ix 64 (8 * k.val + v.toNat)

/-- Pop a token at its consumer: the credit returns to the producer, over the wires for a remote one (R107, R109). -/
def popToken (c : Fin 384) (q : Fin 32) (s : State) : State :=
  let t := (s.core c).queues[q]
  let t1 : TokenQueue := { t with tokens := t.tokens.tail, credits := if t.prod = 0x20 then t.credits else t.credits + 1 }
  let s1 := s.modCore c fun co => { co with queues := co.queues.set q t1 }
  if t.prod = 0x20 then s1.setWires (s1.wires ++ [⟨t.peerCore.toNat, t.peerQ, 0, true⟩]) else s1

/-- Spend a credit of a queue at its producer (R107). -/
def spendCredit (c : Fin 384) (q : Fin 32) (s : State) : State :=
  s.modCore c fun co => { co with queues := co.queues.set q { co.queues[q] with credits := co.queues[q].credits - 1 } }

/-- Return a credit that was reserved and not spent. -/
def returnCredit (c : Fin 384) (q : Fin 32) (s : State) : State :=
  s.modCore c fun co => { co with queues := co.queues.set q { co.queues[q] with credits := co.queues[q].credits + 1 } }

/-- Deliver a token whose credit is spent already: into the queue, or over the wires from a proxy queue (R109). -/
def sendToken (c : Fin 384) (q : Fin 32) (v : Word) (s : State) : State :=
  let t := (s.core c).queues[q]
  if t.cons = 0x20 then s.setWires (s.wires ++ [⟨t.peerCore.toNat, t.peerQ, v, false⟩])
  else s.modCore c fun co => { co with queues := co.queues.set q { t with tokens := t.tokens ++ [v] } }

/-- Push a token, spending a credit. -/
def pushToken (c : Fin 384) (q : Fin 32) (v : Word) (s : State) : State := sendToken c q v (spendCredit c q s)

/-! ### What an instruction reads and writes -/

/-- Offset register value as a row number. -/
def offReg (rs : Vector Word 16) (r : BitVec 4) : Nat := (regRead rs r).toNat

/-- COPY's shape: rows read, elements read, rows written, elements written (R492). -/
def copyShape (src dst : Entry) (rows : Half) : Nat × Nat × Nat × Nat :=
  let r := if rows = 0 then src.rows else rows.toNat
  if src.xpose ≠ dst.xpose then (r, src.cols, src.cols, r) else (r, src.cols, r, src.cols)

/-- Elements of a register access: 64 or 128 (R118). -/
def laneCount (lanes : Bool) : Nat := if lanes then 128 else 64

/-- Tiles in a row of 64-row tiles, a partial tile at the edge among them (R192). -/
def tilesPerRow (cols : Nat) : Nat := max 1 ((cols + 63) / 64)

/-- The tile row and tile column of tile i of a source (log 16). -/
def tileAt (cols i : Nat) : Nat × Nat := (i / tilesPerRow cols, i % tilesPerRow cols)

/-- Whether TRANSPOSE leaves its tiles transposed: each XPOSE of its entries transposes them once more (R114, R192). -/
def tileTurns (src dst : Entry) : Bool := src.xpose = dst.xpose

/-- Where tile p of the source goes. -/
def tileTo (src dst : Entry) (p : Nat × Nat) : Nat × Nat := if tileTurns src dst then (p.2, p.1) else p

/-- Elements of a row of a source as HADAMARD takes them, through XPOSE (R114). -/
def viewCols (e : Entry) (off : Nat) : Nat := if e.xpose then e.rows - off else e.cols

/-- Blocks of b elements in a row of n (log 16). -/
def blocksPerRow (n b : Nat) : Nat := max 1 (n / b)

/-- The row and element of block i of b elements (log 16). -/
def hadamardAt (n b i : Nat) : Nat × Nat := (i / blocksPerRow n b, (i % blocksPerRow n b) * b)

/-- HADAMARD's block size. -/
def XnetOp.size (x : XnetOp) : Nat := 2 ^ x.log2b.toNat

/-- Rows and elements of a HADAMARD's region: rows of whole blocks, the last one perhaps of fewer. -/
def hadamardShape (src : Entry) (off : Nat) (x : XnetOp) : Nat × Nat :=
  let per := blocksPerRow (viewCols src off) x.size
  ((x.count.toNat + per - 1) / per, min x.count.toNat per * x.size)

/-- Tile rows and tile columns of a TRANSPOSE's source. -/
def transposeShape (src : Entry) (x : XnetOp) : Nat × Nat :=
  let per := tilesPerRow src.cols
  ((x.count.toNat + per - 1) / per, min x.count.toNat per)

/-- The masked arrays in ascending order. -/
def maskedArrays (m : BitVec 4) : List (Fin 4) := (List.finRange 4).filter fun a => m.getLsbD a.val

/-- A part of an instruction's access to local store: what passes the exchange network in one turn, or all that does not pass it
(R95, R99). -/
structure Part where
  net : Bool
  reads : List Range
  writes : List Range

/-- Reads of rows [i0, i0 + ni) and elements [j0, j0 + nj) of a region: tile by tile through XPOSE. -/
def viewParts (e : Entry) (off i0 ni j0 nj : Nat) : List Part :=
  if e.xpose then
    (List.range ((ni + 63) / 64)).flatMap fun p => (List.range ((nj + 63) / 64)).map fun q =>
      ⟨true, e.viewSpan off (i0 + 64 * p) (min 64 (ni - 64 * p)) (j0 + 64 * q) (min 64 (nj - 64 * q)), []⟩
  else [⟨false, e.viewSpan off i0 ni j0 nj, []⟩]

/-- COPY's parts: straight in one; transposed tile by tile; rotated block by block; both, 64 destination rows at a time (R99, R192). -/
def copyParts (a b : Entry) (ra rb : Nat) (h : Nat × Nat × Nat × Nat) : List Part :=
  let rows (n : Nat) (f : Nat → List Range) : List Range := (List.range n).flatMap f
  let put (i j ni nj : Nat) : List Range := rows ni fun r => b.storeSpan (rb + i + r) j nj
  let given (i j ni nj : Nat) : List Range := rows ni fun r => b.givenSpan (rb + i + r) j nj
  let get (i j ni nj : Nat) : List Range := rows ni fun r => a.span (ra + i + r) j nj
  let turn := a.xpose ≠ b.xpose
  if turn && b.rotL = 0 then
    (List.range ((h.1 + 63) / 64)).flatMap fun p => (List.range ((h.2.1 + 63) / 64)).map fun q =>
      let n := min 64 (h.1 - 64 * p)
      let m := min 64 (h.2.1 - 64 * q)
      ⟨true, get (64 * p) (64 * q) n m ++ given (64 * q) (64 * p) m n, put (64 * q) (64 * p) m n⟩
  else if turn then
    (List.range ((h.2.2.1 + 63) / 64)).map fun q =>
      let m := min 64 (h.2.2.1 - 64 * q)
      ⟨true, get 0 (64 * q) h.1 m ++ given (64 * q) 0 m h.2.2.2, put (64 * q) 0 m h.2.2.2⟩
  else if b.rotL ≠ 0 then
    let w := 2 ^ b.rotL
    (List.range h.1).flatMap fun i => (List.range ((h.2.1 + w - 1) / w)).map fun j =>
      ⟨true, get i (w * j) 1 (min w (h.2.1 - w * j)) ++ given i (w * j) 1 (min w (h.2.1 - w * j)),
        put i (w * j) 1 (min w (h.2.1 - w * j))⟩
  else [⟨false, get 0 0 h.1 h.2.1 ++ given 0 0 h.2.2.1 h.2.2.2, put 0 0 h.2.2.1 h.2.2.2⟩]

/-- A tile of TRANSPOSE: what exists of it in the source is read, what exists of it in the destination written (R192). -/
def tilePart (src dst : Entry) (ra rb : Nat) (p : Nat × Nat) : Part :=
  let q := tileTo src dst p
  let rows (e : Entry) (r : Nat) (t : Nat × Nat) : Nat := min 64 (e.rows - (r + 64 * t.1))
  let cols (e : Entry) (t : Nat × Nat) : Nat := min 64 (e.cols - 64 * t.2)
  let ranges (e : Entry) (r : Nat) (t : Nat × Nat) (f : Nat → Nat → Nat → List Range) : List Range :=
    (List.range (rows e r t)).flatMap fun i => f (r + 64 * t.1 + i) (64 * t.2) (cols e t)
  ⟨true, ranges src ra p src.span ++ ranges dst rb q dst.givenSpan, ranges dst rb q dst.storeSpan⟩

/-- A HADAMARD's parts: block by block, or all in one turn where the stored rows cross the blocks. -/
def hadamardParts (src dst : Entry) (ra rb : Nat) (x : XnetOp) : List Part :=
  let n := viewCols src ra
  let at_ (t : Nat) : Nat × Nat := hadamardAt n x.size t
  let get (t : Nat) : List Range := src.viewSpan ra (at_ t).1 1 (at_ t).2 x.size
  if dst.xpose then
    let h := hadamardShape src ra x
    let ranges (f : Nat → Nat → Nat → List Range) : List Range := (List.range h.2).flatMap fun j => f (rb + j) 0 h.1
    if x.count = 0 then []
    else [⟨true, (List.range x.count.toNat).flatMap get ++ ranges dst.givenSpan, ranges dst.storeSpan⟩]
  else (List.range x.count.toNat).map fun t =>
    ⟨true, get t ++ dst.givenSpan (rb + (at_ t).1) (at_ t).2 x.size, dst.storeSpan (rb + (at_ t).1) (at_ t).2 x.size⟩

/-- What a register access reaches: one row, or through XPOSE one element of each of the rows that exist (R192). -/
def vmRows (e : Entry) (off col n : Nat) : List Nat := (List.range n).filterMap fun j =>
  if off + col + j < e.rows then some (off + col + j) else none

/-- The parts of an instruction's access, from the registers at firing; a pass's or matrix-vector operation's output apart. -/
def partsOf (co : Core) (rs : Vector Word 16) : CoreOp → List Part
  | .sload _ sa imm => [⟨false, [((regRead rs sa).toNat + imm.toNat, 4)], []⟩]
  | .sstore _ sa imm => [⟨false, [], [((regRead rs sa).toNat + imm.toNat, 4)]⟩]
  | .vload m =>
    let e := co.entry m.opnd
    let col := (regRead rs m.col).toNat
    if e.xpose then [⟨true, (vmRows e (offReg rs m.off) col (laneCount m.lanes)).flatMap fun r => e.span r 0 1, []⟩]
    else [⟨false, e.span (offReg rs m.off) col (laneCount m.lanes), []⟩]
  | .vstore m =>
    let e := co.entry m.opnd
    let col := (regRead rs m.col).toNat
    let n := laneCount m.lanes
    if e.xpose then
      let rows := vmRows e (offReg rs m.off) col n
      [⟨true, rows.flatMap fun r => e.givenSpan r 0 1, rows.flatMap fun r => e.storeSpan r 0 1⟩]
    else [⟨false, e.givenSpan (offReg rs m.off) col n, e.storeSpan (offReg rs m.off) col n⟩]
  | .copy src dst so do_ rows =>
    let a := co.entry src
    let b := co.entry dst
    copyParts a b (offReg rs so) (offReg rs do_) (copyShape a b rows)
  | .pass p =>
    let n := (maskedArrays p.mask).length
    viewParts (co.entry p.a) (offReg rs p.aOff) 0 (64 * n) 0 p.k.toNat
      ++ viewParts (co.entry p.b) (offReg rs p.bOff) 0 p.k.toNat 0 64
      ++ (if p.biasMode = 1 then viewParts (co.entry p.bias) (offReg rs p.biasOff) 0 (64 * n) 0 64
          else if p.biasMode = 2 then viewParts (co.entry p.bias) (offReg rs p.biasOff) 0 n 0 64 else [])
  | .mv m =>
    (if m.xKeep then [] else viewParts (co.entry m.x) (offReg rs m.xOff) 0 1 0 m.k.toNat)
      ++ viewParts (co.entry m.w) (offReg rs m.wOff) 0 m.k.toNat 0 m.n.toNat
  | .transpose x =>
    let a := co.entry x.src
    (List.range x.count.toNat).map fun t => tilePart a (co.entry x.dst) (offReg rs x.srcOff) (offReg rs x.dstOff) (tileAt a.cols t)
  | .hadamard x => hadamardParts (co.entry x.src) (co.entry x.dst) (offReg rs x.srcOff) (offReg rs x.dstOff) x
  | .send x => [⟨false, [((co.entry x.opnd).rowAddr (offReg rs x.off), x.len.toNat)], []⟩]
  | .recv x => [⟨false, [], [((co.entry x.opnd).rowAddr (offReg rs x.off), x.len.toNat)]⟩]
  | _ => []

/-- The byte ranges an instruction reads, from the registers at firing. -/
def readsOf (co : Core) (rs : Vector Word 16) (o : CoreOp) : List Range := (partsOf co rs o).flatMap Part.reads

/-- The scale bytes that the output of a pass or a matrix-vector operation reads under SCALE_GIVEN (R63). -/
def outGiven (co : Core) (rs : Vector Word 16) : CoreOp → List Range
  | .pass p =>
    if p.hold || p.drain then []
    else (co.entry p.out).regionSpan Entry.givenSpan (offReg rs p.outOff) (64 * (maskedArrays p.mask).length) 64
  | .mv m => if m.hold || m.drain then [] else (co.entry m.y).regionSpan Entry.givenSpan (offReg rs m.yOff) 1 m.n.toNat
  | _ => []

/-- The byte ranges an instruction writes, from the registers at firing. -/
def writesOf (co : Core) (rs : Vector Word 16) (o : CoreOp) : List Range :=
  (partsOf co rs o).flatMap Part.writes ++ match o with
    | .pass p =>
      if p.hold || p.drain then []
      else (co.entry p.out).regionSpan Entry.storeSpan (offReg rs p.outOff) (64 * (maskedArrays p.mask).length) 64
    | .mv m => if m.hold || m.drain then [] else (co.entry m.y).regionSpan Entry.storeSpan (offReg rs m.yOff) 1 m.n.toNat
    | _ => []

/-- The peer's bytes of a transfer whose peer is this core (R125). -/
def ownPeer (c : Fin 384) (rs : Vector Word 16) (x : XferOp) : List Range :=
  if x.peer.toNat = c.val then [(x.peerAddr.toNat + (regRead rs x.peerOff).toNat, x.len.toNat)] else []

/-- The local-store bytes of its core that an instruction reads, for condition 5 of R127. -/
def hazardReads (c : Fin 384) (co : Core) (rs : Vector Word 16) (o : CoreOp) : List Range :=
  readsOf co rs o ++ outGiven co rs o ++ match o with
    | .recv x => ownPeer c rs x
    | _ => []

/-- The local-store bytes of its core that an instruction writes, for condition 5 of R127. -/
def hazardWrites (c : Fin 384) (co : Core) (rs : Vector Word 16) (o : CoreOp) : List Range :=
  writesOf co rs o ++ match o with
    | .send x => ownPeer c rs x
    | _ => []

/-- Register numbers: scalars are 0 to 15, the station's vector registers 16 to 23. -/
def vnum (v : BitVec 3) : Nat := 16 + v.toNat

/-- The registers a vector operation reads (R123). -/
def vecReads (op : BitVec 4) (v : VecOp) : List Nat :=
  let a := if v.aDq then [] else [vnum v.va]
  let b := if v.bScal then [v.sb.toNat] else [vnum v.vb]
  match op.toNat with
  | 3 => a ++ b ++ [vnum v.vc]
  | 7 => a ++ b ++ [vnum v.vc]
  | 14 => a ++ b ++ [vnum v.vc, v.sb.toNat]
  | n => if n ≤ 6 then a ++ b else a

/-- The registers an instruction reads, besides OUT_VAL. -/
def regReads : CoreOp → List Nat
  | .alu _ sa sb _ u _ => if u then [sa.toNat] else [sa.toNat, sb.toNat]
  | .br sa sb _ _ => [sa.toNat, sb.toNat]
  | .loop sa _ => [sa.toNat]
  | .copy _ _ a b _ => [a.toNat, b.toNat]
  | .vload m => [m.off.toNat, m.col.toNat]
  | .vstore m => [m.off.toNat, m.col.toNat, vnum m.v]
  | .sload _ sa _ => [sa.toNat]
  | .sstore sd sa _ => [sd.toNat, sa.toNat]
  | .pass p => [p.aOff.toNat, p.bOff.toNat, p.outOff.toNat, p.biasOff.toNat]
  | .mv m => [m.xOff.toNat, m.wOff.toNat, m.yOff.toNat]
  | .vec op v => vecReads op v
  | .transpose x => [x.srcOff.toNat, x.dstOff.toNat]
  | .hadamard x => [x.srcOff.toNat, x.dstOff.toNat]
  | .send x => [x.off.toNat, x.peerOff.toNat]
  | .recv x => [x.off.toNat, x.peerOff.toNat]
  | _ => []

/-- The registers an instruction writes at or after its firing. -/
def regWrites : CoreOp → List Nat
  | .alu sd _ _ _ _ _ => [sd.toNat]
  | .li sd _ => [sd.toNat]
  | .loop sa _ => [sa.toNat]
  | .flags sd _ => [sd.toNat]
  | .vload m => [vnum m.v]
  | .sload sd _ _ => [sd.toNat]
  | .vec op v => if op = 14 then [vnum v.vd, vnum v.vc] else [vnum v.vd]
  | _ => []

/-! ### Pre-fire exceptions (R130, R137) -/

/-- Formats an entry may have for a class: PASS and MV operands take VF4 to VF16 (R48); a bias VW32 or VF16 (R79); rotations
take VF16 or VW32 (R98); others any of the five, except that VF16 lanes take no VW32 (R48). A narrowing store needs a scale mode that is not reserved. -/
def entryIllegal (co : Core) : CoreOp → Bool
  | .copy s d _ _ _ => badFmt (co.entry s) || badStore (co.entry d)
  | .vload m => badFmt (co.entry m.opnd) || (m.lanes && (co.entry m.opnd).fmt = 4)
  | .vstore m => badStore (co.entry m.opnd)
  | .pass p =>
    3 < (co.entry p.a).fmt || 3 < (co.entry p.b).fmt
      || (p.biasMode ≠ 0 && (co.entry p.bias).fmt ≠ 3 && (co.entry p.bias).fmt ≠ 4)
      || (!p.hold && !p.drain && badStore (co.entry p.out))
  | .mv m =>
    (!m.xKeep && 3 < (co.entry m.x).fmt) || 3 < (co.entry m.w).fmt || (!m.hold && !m.drain && badStore (co.entry m.y))
  | .transpose x => badFmt (co.entry x.src) || badStore (co.entry x.dst)
  | .hadamard x => ((co.entry x.src).fmt ≠ 3 && (co.entry x.src).fmt ≠ 4) || badStore (co.entry x.dst)
  | .send x => badFmt (co.entry x.opnd)
  | .recv x => badFmt (co.entry x.opnd)
  | _ => false
where
  badFmt (e : Entry) : Bool := 4 < e.fmt
  badStore (e : Entry) : Bool := 4 < e.fmt || (scaled e.fmt && e.mode = 3)

/-- A region of n rows at row off past its entry's ROWS: the address of the first row past ROWS (R130, R137). -/
def rowsPast (e : Entry) (off n : Nat) : Option Nat := if e.rows < off + n then some (e.rowAddr e.rows) else none

/-- A region of n rows of tiles past its entry's ROWS: a tile at the edge may be partial, but not missing (R192). -/
def tilesPast (e : Entry) (off n : Nat) : Option Nat := if n = 0 then none else rowsPast e off (64 * (n - 1) + 1)

/-- OUT_OF_RANGE by regions and row lengths, in the order of R137's table after the address test. -/
def regionFault (co : Core) (rs : Vector Word 16) : CoreOp → Option Nat
  | .copy s d so do_ rows =>
    let a := co.entry s
    let b := co.entry d
    let h := copyShape a b rows
    (rowsPast a (offReg rs so) h.1).orElse fun _ => (rowsPast b (offReg rs do_) h.2.2.1).orElse fun _ =>
      if b.cols < h.2.2.2 then some h.2.2.2 else none
  | .transpose x =>
    let a := co.entry x.src
    let b := co.entry x.dst
    let n := transposeShape a x
    (tilesPast a (offReg rs x.srcOff) n.1).orElse fun _ =>
      tilesPast b (offReg rs x.dstOff) (tileTo a b n).1
  | .hadamard x =>
    let a := co.entry x.src
    let b := co.entry x.dst
    let h := hadamardShape a (offReg rs x.srcOff) x
    (rowsPast a (offReg rs x.srcOff) (if a.xpose then h.2 else h.1)).orElse fun _ =>
      rowsPast b (offReg rs x.dstOff) (if b.xpose then h.2 else h.1)
  | .send x => xfer (co.entry x.opnd) x
  | .recv x => xfer (co.entry x.opnd) x
  | _ => none
where
  xfer (e : Entry) (x : XferOp) : Option Nat :=
    let a := e.rowAddr (offReg rs x.off)
    if e.rowAddr e.rows < a + x.len.toNat then some (e.rowAddr e.rows) else none

/-- The ranges whose bytes must lie below the end of local store: reads and writes of the core, and the peer's bytes. -/
def rangeFault (co : Core) (rs : Vector Word 16) (o : CoreOp) : Option Nat :=
  let peer (x : XferOp) : List Range := [(x.peerAddr.toNat + (regRead rs x.peerOff).toNat, x.len.toNat)]
  outOfRange (readsOf co rs o ++ outGiven co rs o ++ writesOf co rs o ++ match o with
    | .send x => peer x
    | .recv x => peer x
    | _ => [])

/-- Rows of an entry that a region of ni rows and nj elements reaches, through XPOSE. -/
def Entry.reach (e : Entry) (ni nj : Nat) : Nat := if e.xpose then nj else ni

/-- MISALIGNED with its DETAIL (R130, R137): BASE and ROW_STRIDE first, then K, COL, scalar address, LENGTH, rotation. -/
def misalignFault (co : Core) (rs : Vector Word 16) : CoreOp → Option Nat
  | .vload m => vm m
  | .vstore m => vm m
  | .sload _ sa imm => sc ((regRead rs sa).toNat + imm.toNat)
  | .sstore _ sa imm => sc ((regRead rs sa).toNat + imm.toNat)
  | .copy s d so do_ rows =>
    let a := co.entry s
    let b := co.entry d
    let h := copyShape a b rows
    (a.misaligned (offReg rs so) h.1).orElse fun _ => (b.misaligned (offReg rs do_) h.2.2.1).orElse fun _ =>
      if b.rotL ≠ 0 && h.2.2.2 % 2 ^ b.rotL ≠ 0 then
        some (b.rowAddr (offReg rs do_) + fmtOffset b.fmt (h.2.2.2 - h.2.2.2 % 2 ^ b.rotL))
      else none
  | .pass p =>
    let a := co.entry p.a
    let n := 64 * (maskedArrays p.mask).length
    (view p.a p.aOff n p.k.toNat).orElse fun _ => (view p.b p.bOff p.k.toNat 64).orElse fun _ =>
      (if p.biasMode ≠ 0 then view p.bias p.biasOff (if p.biasMode = 2 then n / 64 else n) 64 else none).orElse fun _ =>
      (if !p.hold && !p.drain then view p.out p.outOff n 64 else none).orElse fun _ =>
      if a.fmt ≤ 2 && p.k.toNat % 32 ≠ 0 then some p.k.toNat else none
  | .mv m =>
    (if m.xKeep then none else view m.x m.xOff 1 m.k.toNat).orElse fun _ =>
      (view m.w m.wOff m.k.toNat m.n.toNat).orElse fun _ =>
      if !m.hold && !m.drain then view m.y m.yOff 1 m.n.toNat else none
  | .transpose x =>
    let a := co.entry x.src
    let b := co.entry x.dst
    let n := transposeShape a x
    (a.misaligned (offReg rs x.srcOff) (64 * n.1)).orElse fun _ => b.misaligned (offReg rs x.dstOff) (64 * (tileTo a b n).1)
  | .hadamard x =>
    let h := hadamardShape (co.entry x.src) (offReg rs x.srcOff) x
    (view x.src x.srcOff h.1 h.2).orElse fun _ => view x.dst x.dstOff h.1 h.2
  | .send x => xf x
  | .recv x => xf x
  | _ => none
where
  view (i : Byte) (off : BitVec 4) (ni nj : Nat) : Option Nat :=
    (co.entry i).misaligned (offReg rs off) ((co.entry i).reach ni nj)
  vm (m : VMoveOp) : Option Nat :=
    let e := co.entry m.opnd
    (if e.xpose then e.misaligned (offReg rs m.off + (regRead rs m.col).toNat) (laneCount m.lanes)
      else e.misaligned (offReg rs m.off) 1).orElse fun _ =>
      if (regRead rs m.col).toNat % laneCount m.lanes ≠ 0 then some (regRead rs m.col).toNat else none
  sc (a : Nat) : Option Nat := if a % 4 ≠ 0 then some a else none
  xf (x : XferOp) : Option Nat :=
    let e := co.entry x.opnd
    (e.misaligned (offReg rs x.off) ((x.len.toNat + e.rowStride - 1) / e.rowStride)).orElse fun _ => if x.len.toNat % 64 ≠ 0 then some x.len.toNat else none

/-- A hold rule of R120 or R122 is broken. -/
def chainFault (co : Core) (k : Fin 8) : CoreOp → Bool
  | .pass p => (maskedArrays p.mask).any fun a =>
      match co.arrays[a].heldBy with
      | some h => !(h.1 = k && p.accContinue && h.2 = p.mask)
      | none => p.accContinue
  | .mv m =>
    match co.mvu.heldBy with
    | some h => !(h = k && m.cont)
    | none => m.cont
  | _ => false

/-- The queue a pop or push names without being bound to this station (R130). -/
def popFault (co : Core) (k : Fin 8) (i : CoreInstr) : Option Nat :=
  ([i.inA, i.inB].filterMap id).findSome? fun q =>
    if co.queues[ix 32 q.toNat].cons.toNat = k.val then none else some q.toNat

def pushFault (co : Core) (k : Fin 8) (i : CoreInstr) : Option Nat :=
  ([i.outA, i.outB].filterMap id).findSome? fun q =>
    if co.queues[ix 32 q.toNat].prod.toNat = k.val then none else some q.toNat

/-- The exception of lowest code that the operands raise, with its DETAIL (R130). -/
def operandFault (co : Core) (k : Fin 8) (rs : Vector Word 16) (i : CoreInstr) : Option (Nat × Nat) :=
  ((rangeFault co rs i.op).orElse fun _ => regionFault co rs i.op).map (Prod.mk 2) |>.orElse fun _ =>
  (misalignFault co rs i.op).map (Prod.mk 3) |>.orElse fun _ =>
  (pushFault co k i).map (Prod.mk 4) |>.orElse fun _ =>
  if chainFault co k i.op then some (5, 0) else none

/-! ### Firing (R127) -/

/-- Whether the tokens an instruction pops are there; popping one queue twice needs two. -/
def tokensReady (co : Core) (i : CoreInstr) : Bool :=
  match i.inA, i.inB with
  | some a, some b =>
    let n := if a = b then 2 else 1
    n ≤ co.queues[ix 32 a.toNat].tokens.length && n ≤ co.queues[ix 32 b.toNat].tokens.length
  | some a, none => 1 ≤ co.queues[ix 32 a.toNat].tokens.length
  | none, some b => 1 ≤ co.queues[ix 32 b.toNat].tokens.length
  | none, none => true

/-- Whether the credits an instruction reserves are there. -/
def creditsReady (co : Core) (i : CoreInstr) : Bool :=
  match i.outA, i.outB with
  | some a, some b =>
    let n := if a = b then 2 else 1
    n ≤ co.queues[ix 32 a.toNat].credits && n ≤ co.queues[ix 32 b.toNat].credits
  | some a, none => 1 ≤ co.queues[ix 32 a.toNat].credits
  | none, some b => 1 ≤ co.queues[ix 32 b.toNat].credits
  | none, none => true

/-- Whether the unit has a free issue slot (R127 condition 3). -/
def slotFree (s : State) (c : Fin 384) : CoreOp → Bool
  | .pass p => (maskedArrays p.mask).all fun a => (s.core c).arrays[a].issued.length < 2
  | .mv _ => (s.core c).mvu.slots < 2
  | .vec _ _ => (s.core c).vecIssued < 4
  | .vload _ => (s.core c).loadIssued < 8
  | .sload _ _ _ => (s.core c).loadIssued < 8
  | .vstore _ => (s.core c).storeIssued < 8
  | .sstore _ _ _ => (s.core c).storeIssued < 8
  | .copy _ _ _ _ _ => (s.core c).loadIssued < 8 && (s.core c).storeIssued < 8
  | .transpose _ => (s.core c).xnetIssued.length < 4
  | .hadamard _ => (s.core c).xnetIssued.length < 4
  | .send _ => ((s.cluster (clusterOf c)).pq[3]).length < 64
  | .recv _ => ((s.cluster (clusterOf c)).pq[3]).length < 64
  | _ => true

/-- The registers of an in-flight instruction, as it read them at firing. -/
def Inflight.regVec (i : Inflight) : Vector Word 16 := Vector.ofFn fun (j : Fin 16) => i.regs.getD j.val 0

/-- Whether an in-flight instruction will still write a register of the list (R127 condition 4). -/
def regHazard (fl : List Inflight) (regs : List Nat) : Bool :=
  fl.any fun f => !f.moved && match opOf f.word with
    | some o => (regWrites o).any fun r => r ≠ 0 && regs.contains r
    | none => false

/-- Whether an in-flight instruction's local-store bytes clash (R127 condition 5). -/
def memHazard (c : Fin 384) (co : Core) (fl : List Inflight) (rd wr : List Range) : Bool :=
  fl.any fun f => match opOf f.word with
    | some o =>
      let w := hazardWrites c co f.regVec o
      anyMeet w rd || anyMeet w wr || anyMeet (hazardReads c co f.regVec o) wr
    | none => false

/-- The registers an instruction reads or writes, OUT_VAL and popped ones included. -/
def touched (i : CoreInstr) : List Nat :=
  regReads i.op ++ regWrites i.op ++ (if i.outA.isSome || i.outB.isSome then [i.outVal.toNat] else [])
    ++ (if i.inA.isSome then [14] else []) ++ (if i.inB.isSome then [15] else [])

/-- A VEC instruction that takes A from the drain queue. -/
def takesDq : CoreOp → Bool
  | .vec _ v => v.aDq
  | _ => false

/-- Whether the row at the head of the drain queue is this station's. -/
def dqReady (co : Core) (k : Fin 8) : Bool :=
  match co.drainQ with
  | r :: _ => r.stn = k
  | [] => false

/-- Conditions 2, 3, 5, 6, 7 and 8 of R127. -/
def readyToFire (s : State) (c : Fin 384) (k : Fin 8) (i : CoreInstr) (rs : Vector Word 16) : Bool :=
  let co := s.core c
  let fl := (s.station c k).inflight
  creditsReady co i && slotFree s c i.op && !memHazard c co fl (hazardReads c co rs i.op) (hazardWrites c co rs i.op)
    && fl.length < 16 && (!takesDq i.op || dqReady co k) && (i.op ≠ .quiesce || fl.isEmpty)

/-- The scalar registers once the named tokens are popped (R112). -/
def poppedRegs (co : Core) (i : CoreInstr) (rs : Vector Word 16) : Vector Word 16 :=
  let rs1 := match i.inA with
    | some q => rs.set 14 (co.queues[ix 32 q.toNat].tokens.headD 0)
    | none => rs
  match i.inB with
  | some q =>
    let ts := co.queues[ix 32 q.toNat].tokens
    rs1.set 15 (if i.inA = some q then ts.tail.headD 0 else ts.headD 0)
  | none => rs1

/-- The ranks of an instruction's reads and writes (R93): drain and store writes 1, array operands and bias 2, matrix-vector weights and
vector-engine loads and stores 3. The spec's ranking does not name the reads of COPY, SLOAD, TRANSPOSE and HADAMARD and the
activation vector of MV: they take 3, the scale bytes a store reads take its own rank (DESIGN CHOICE, log 46). -/
def ranksOf : CoreOp → Nat × Nat
  | .pass _ => (2, 1)
  | .vstore _ => (3, 3)
  | _ => (3, 1)

/-- The requests of one part of an access, a read grant for each line written in part among them (R92). -/
def Part.reqs (p : Part) (o : PortOwner) (rank : Nat × Nat) : List PortReq :=
  let req (r : Nat) (wr : Bool) (l : Nat) : PortReq :=
    { owner := o, rank := r, line := l, write := wr, waited := 0, urgent := false, net := p.net }
  (linesOf p.reads).map (req rank.1 false) ++ (partialLines p.writes).map (req rank.2 false) ++ (linesOf p.writes).map (req rank.2 true)

/-- Whether the core's own units carry an instruction's accesses: the porter presents those of a transfer (R125). -/
def ownAccess : CoreOp → Bool
  | .send _ => false
  | .recv _ => false
  | _ => true

/-- The requests an instruction presents to the ports at its firing (R93, R94). A drain's writes are presented as it drains, what passes
the exchange network as its stream takes the network. -/
def portReqs (co : Core) (key : Fin 8 × Nat) (rs : Vector Word 16) (o : CoreOp) : List PortReq :=
  if ownAccess o then ((partsOf co rs o).filter fun p => !p.net).flatMap fun p => p.reqs (.stn key.1 key.2) (ranksOf o) else []

/-- The requests of the tiles and blocks an instruction passes through the exchange network, turn by turn (R99). -/
def netPieces (co : Core) (key : Fin 8 × Nat) (rs : Vector Word 16) (o : CoreOp) : List (List PortReq) :=
  (((partsOf co rs o).filter Part.net).map fun p => p.reqs (.stn key.1 key.2) (ranksOf o)).filter fun l => !l.isEmpty

/-- Take the issue slot of the instruction's unit (R127). -/
def takeSlots (key : Fin 8 × Nat) (o : CoreOp) (co : Core) : Core :=
  match o with
  | .pass p =>
    { co with arrays := Vector.ofFn fun (a : Fin 4) =>
        let u := co.arrays[a]
        if p.mask.getLsbD a.val then { u with issued := u.issued ++ [key] } else u }
  | .mv _ => { co with mvu := { co.mvu with issued := co.mvu.issued ++ [key], slots := co.mvu.slots + 1 } }
  | .vec _ _ => { co with vecIssued := co.vecIssued + 1 }
  | .vload _ => { co with loadIssued := co.loadIssued + 1 }
  | .sload _ _ _ => { co with loadIssued := co.loadIssued + 1 }
  | .vstore _ => { co with storeIssued := co.storeIssued + 1 }
  | .sstore _ _ _ => { co with storeIssued := co.storeIssued + 1 }
  | .copy _ _ _ _ _ => { co with loadIssued := co.loadIssued + 1, storeIssued := co.storeIssued + 1 }
  | .transpose _ => { co with xnetIssued := co.xnetIssued ++ [key] }
  | .hadamard _ => { co with xnetIssued := co.xnetIssued ++ [key] }
  | _ => co

/-- Take or end the hold of a chain at firing: HOLD keeps the masked units for this station, a pass without it ends the
hold (R120, R122). -/
def setHolds (k : Fin 8) (o : CoreOp) (co : Core) : Core :=
  match o with
  | .pass p =>
    { co with arrays := Vector.ofFn fun (a : Fin 4) =>
        let u := co.arrays[a]
        if p.mask.getLsbD a.val then { u with heldBy := if p.hold then some (k, p.mask) else none } else u }
  | .mv m => { co with mvu := { co.mvu with heldBy := if m.hold then some k else none } }
  | _ => co

/-- The firing itself: pops, reserves, advances, and records the instruction in flight (R127). -/
def fireAt (c : Fin 384) (k : Fin 8) (i : CoreInstr) (w : InstrWord) (s : State) : State :=
  let co := s.core c
  let st := s.station c k
  let rs := poppedRegs co i st.regs
  let s1 := forAll ([i.inA, i.inB].filterMap id) (fun q => popToken c (ix 32 q.toNat)) s
  let s2 := forAll ([i.outA, i.outB].filterMap id) (fun q => spendCredit c (ix 32 q.toNat)) s1
  let arr := match i.op with
    | .pass p => (maskedArrays p.mask).length
    | _ => 0
  let key := (k, st.nextUid)
  let stored := match i.op with
    | .vstore m => co.vregs[vregIx k m.v].toList
    | _ => []
  let fl : Inflight :=
    { uid := st.nextUid, pc := st.pc, word := w, regs := rs.toList ++ stored, outVal := regRead rs i.outVal, started := false,
      streaming := false, left := arr, raised := 0, marked := false, remote := none, mute := false, moved := false,
      granted := false, seen := [], pieces := netPieces co key rs i.op }
  s2.modCore c fun co =>
    let st := co.stns[k]
    let st1 : Station :=
      { st with
        regs := rs, pc := st.pc + 1, inflight := st.inflight ++ [fl], nextUid := st.nextUid + 1,
        wdogFrom := s.clusterTime (clusterOf c) }
    let co1 := setHolds k i.op (takeSlots key i.op (addReqs (portReqs co key rs i.op) { co with stns := co.stns.set k st1 }))
    if fl.pieces.isEmpty then co1 else joinNet key co1

/-- The instruction word at an index of a core's instruction store (R106). -/
def Core.instrAt (co : Core) (pc : BitVec 12) : InstrWord := BitVec.ofNat 128 (co.istore.getLE (16 * pc.toNat) 16)

/-- A station takes a pre-fire exception (R130): nothing popped, no effect. -/
def preFire (c : Fin 384) (k : Fin 8) (code detail : Nat) (s : State) : State :=
  haltStation c k code (s.station c k).pc (BitVec.ofNat 32 detail) none s

/-- Firing of an instruction whose operation satisfies `kind`, followed by the effect it has at firing. Where the station
is not in RUN, its instruction is another one, or a condition of R127 fails, nothing happens (log 3); a pre-fire exception
halts the station. Where a pop names a queue bound elsewhere, codes 2 and 3 are looked for with s14 and s15 as they stand: the spec
does not say what a pop that cannot happen loads (DESIGN CHOICE, log 46). -/
def fireWith (c : Fin 384) (k : Fin 8) (kind : CoreOp → Bool) (eff : CoreInstr → Nat → State → State) (s : State) : State :=
  let co := s.core c
  let st := s.station c k
  if st.state ≠ .run || st.ending then s
  else
    let w := co.instrAt st.pc
    match decodeCore w with
    | none => preFire c k 1 0 s
    | some i =>
      if !kind i.op then s
      else if entryIllegal co i.op then preFire c k 1 0 s
      else match popFault co k i with
        | some q =>
          if regHazard st.inflight (touched i) then s
          else
            let f := ((operandFault co k st.regs i).filter fun f => f.1 < 4).getD (4, q)
            preFire c k f.1 f.2 s
        | none =>
          if !tokensReady co i || regHazard st.inflight (touched i) then s
          else
            let rs := poppedRegs co i st.regs
            match operandFault co k rs i with
            | some f => preFire c k f.1 f.2 s
            | none => if readyToFire s c k i rs then eff i st.nextUid (fireAt c k i w s) else s

/-- Write a scalar register of a station. -/
def setReg (c : Fin 384) (k : Fin 8) (r : BitVec 4) (v : Word) (s : State) : State :=
  s.modStation c k fun st => { st with regs := regWrite st.regs r v }

/-- Mark an in-flight instruction's own work as done. -/
def markMoved (c : Fin 384) (k : Fin 8) (uid : Nat) (s : State) : State :=
  s.modStation c k fun st => { st with inflight := st.inflight.map fun f => if f.uid = uid then { f with moved := true, started := true } else f }

/-! ### CTRL (R116) -/

/-- A CTRL ALU function; FN above 10 is not encodable. -/
def aluFn (fn : Nat) (a b : Word) : Word :=
  match fn with
  | 0 => a + b
  | 1 => a - b
  | 2 => a &&& b
  | 3 => a ||| b
  | 4 => a ^^^ b
  | 5 => a <<< (b.toNat % 32)
  | 6 => a >>> (b.toNat % 32)
  | 7 => a * b
  | 8 => if a.toNat ≤ b.toNat then a else b
  | 9 => if a.toNat ≤ b.toNat then b else a
  | 10 => if a.toInt < b.toInt then 1 else 0
  | 11 => a.sshiftRight (b.toNat % 32)
  | _ => BitVec.ofNat 32 (a.toNat * b.toNat / 2 ^ 32)

/-- A branch condition (R116). -/
def condHolds (c : Nat) (a b : Word) : Bool :=
  match c with
  | 0 => a = b
  | 1 => a ≠ b
  | 2 => a.toInt < b.toInt
  | 3 => b.toInt ≤ a.toInt
  | 4 => a.toNat < b.toNat
  | 5 => b.toNat ≤ a.toNat
  | _ => true

/-- STATION_NOP (R116): nothing beyond its pops and pushes. -/
def execStationNop (c : Fin 384) (k : Fin 8) (s : State) : Res :=
  .next (fireWith c k (· = .nop) (fun _ u => markMoved c k u) s)

/-- The effect of CTRL ALU. -/
def aluEff (c : Fin 384) (k : Fin 8) (i : CoreInstr) (u : Nat) (s : State) : State :=
  match i.op with
  | .alu sd sa sb fn ui imm =>
    let rs := (s.station c k).regs
    setReg c k sd (aluFn fn.toNat (regRead rs sa) (if ui then imm else regRead rs sb)) (markMoved c k u s)
  | _ => s

/-- STATION_ALU (R116). -/
def execStationAlu (c : Fin 384) (k : Fin 8) (s : State) : Res :=
  .next (fireWith c k (fun o => match o with | .alu _ _ _ _ _ _ => true | _ => false) (aluEff c k) s)

/-- The effect of LI. -/
def liEff (c : Fin 384) (k : Fin 8) (i : CoreInstr) (u : Nat) (s : State) : State :=
  match i.op with
  | .li sd imm => setReg c k sd imm (markMoved c k u s)
  | _ => s

/-- LI (R116). -/
def execLi (c : Fin 384) (k : Fin 8) (s : State) : Res :=
  .next (fireWith c k (fun o => match o with | .li _ _ => true | _ => false) (liEff c k) s)

/-- The effect of BR. -/
def brEff (c : Fin 384) (k : Fin 8) (i : CoreInstr) (u : Nat) (s : State) : State :=
  match i.op with
  | .br sa sb cond t =>
    let rs := (s.station c k).regs
    let s1 := markMoved c k u s
    if condHolds cond.toNat (regRead rs sa) (regRead rs sb) then s1.modStation c k fun st => { st with pc := t } else s1
  | _ => s

/-- BR (R116). -/
def execBr (c : Fin 384) (k : Fin 8) (s : State) : Res :=
  .next (fireWith c k (fun o => match o with | .br _ _ _ _ => true | _ => false) (brEff c k) s)

/-- The effect of LOOP: SA = SA - 1, branch if SA is not 0. -/
def loopEff (c : Fin 384) (k : Fin 8) (i : CoreInstr) (u : Nat) (s : State) : State :=
  match i.op with
  | .loop sa t =>
    let v := regRead (s.station c k).regs sa - 1
    let s1 := setReg c k sa v (markMoved c k u s)
    if regRead (s1.station c k).regs sa ≠ 0 then s1.modStation c k fun st => { st with pc := t } else s1
  | _ => s

/-- LOOP (R116). -/
def execLoopStn (c : Fin 384) (k : Fin 8) (s : State) : Res :=
  .next (fireWith c k (fun o => match o with | .loop _ _ => true | _ => false) (loopEff c k) s)

/-- STATION_END (R116): the station fires nothing more and is DONE once nothing is in flight. -/
def execStationEnd (c : Fin 384) (k : Fin 8) (s : State) : Res :=
  .next (fireWith c k (· = .endStn) (fun _ u t => (markMoved c k u t).modStation c k fun st => { st with ending := true }) s)

/-- TRAP (R116): the exception follows at completion (R126, R131). -/
def execTrapStn (c : Fin 384) (k : Fin 8) (s : State) : Res :=
  .next (fireWith c k (fun o => match o with | .trap _ => true | _ => false) (fun _ u => markMoved c k u) s)

/-- The effect of FLAGS: SD[2:0] = SAT, UFZ, PSN; CLEAR clears them. -/
def flagsEff (c : Fin 384) (k : Fin 8) (i : CoreInstr) (u : Nat) (s : State) : State :=
  match i.op with
  | .flags sd clear =>
    let st := s.station c k
    let s1 := setReg c k sd (st.flags.setWidth 32) (markMoved c k u s)
    if clear then s1.modStation c k fun st => { st with flags := 0 } else s1
  | _ => s

/-- FLAGS (R116). -/
def execFlagsStn (c : Fin 384) (k : Fin 8) (s : State) : Res :=
  .next (fireWith c k (fun o => match o with | .flags _ _ => true | _ => false) (flagsEff c k) s)

/-! ### SYNC (R117) -/

/-- JOIN (R117). -/
def execJoinStn (c : Fin 384) (k : Fin 8) (s : State) : Res :=
  .next (fireWith c k (· = .join) (fun _ u => markMoved c k u) s)

/-- QUIESCE (R117, R127 condition 8). -/
def execQuiesce (c : Fin 384) (k : Fin 8) (s : State) : Res :=
  .next (fireWith c k (· = .quiesce) (fun _ u => markMoved c k u) s)

/-- Arrivals at a crier channel (R154): the one that reaches THRESHOLD makes the channel fire. -/
def crierArrive (cl : Fin 48) (ch : Fin 64) (n : Nat) (s : State) : State :=
  s.modCluster cl fun cu =>
    let x := cu.crier[ch]
    let cnt := x.count + BitVec.ofNat 16 n
    { cu with crier := cu.crier.set ch { x with
        count := cnt, firing := x.firing || (x.threshold ≠ 0 && x.threshold.toNat ≤ cnt.toNat) } }

/-- RAISE (R117): one arrival at a crier channel of the cluster. -/
def execRaiseStn (c : Fin 384) (k : Fin 8) (s : State) : Res :=
  .next (fireWith c k (fun o => match o with | .raise _ => true | _ => false) (fun i u t => match i.op with
    | .raise ch => crierArrive (clusterOf c) ch.toFin 1 (markMoved c k u t)
    | _ => t) s)

/-- NOTIFY (R117, R141): a NOTIFY event with CODE. -/
def execNotifyStn (c : Fin 384) (k : Fin 8) (s : State) : Res :=
  .next (fireWith c k (fun o => match o with | .notify _ => true | _ => false) (fun i u t => match i.op with
    | .notify code => skPost (clusterOf c) 2 (c.val % 8) k.val code.toNat (markMoved c k u t)
    | _ => t) s)

end Sys2Proof.Machine
end

