-- ==== Sys2Proof/Machine/Move.lean ====
section
/-! DEFINITION. MOVE and XNET instructions (R118, R124, R492, R159, R160): they fire, present their port requests, and move their
data when the last request is granted (log 9). Retention for VK1 replay (R174). -/
namespace Sys2Proof.Machine
open Sys2Proof

/-- The lanes of a vector register as numbers: 64 VW32 or 128 VF16 codes (R88). -/
def lanesOf (l16 : Bool) (v : Vector Word 64) : List Nat :=
  if l16 then v.toList.flatMap fun w => [w.toNat % 65536, w.toNat / 65536] else v.toList.map BitVec.toNat

/-- A vector register from lane codes (R88). -/
def regOfLanes (l16 : Bool) (ls : List Nat) : Vector Word 64 :=
  Vector.ofFn fun (i : Fin 64) =>
    if l16 then BitVec.ofNat 32 (ls.getD (2 * i.val) 0 % 65536 + 65536 * (ls.getD (2 * i.val + 1) 0))
    else BitVec.ofNat 32 (ls.getD i.val 0)

/-- A lane's format code. -/
def laneFmt (l16 : Bool) : Nat := if l16 then 3 else 4

/-- The code of an exactly loaded element in a lane format (R67). -/
def laneCode (f : Nat) (x : FNum) : Nat :=
  match x with
  | .poison => poisonCode f
  | .fin n e => (storeQ f false false n 1 e 0).1

/-- Bytes a retained record takes (R174): the source's rows and elements in its own format, its scales as stored. -/
def recordBytes (src : Nat) (plane : Bool) (rows cols : Nat) : Nat :=
  64 + rows * (fmtBytes src cols + if plane then (cols + 31) / 32 else 0)

/-- A record's numbers: its entry, its place, its values. -/
def Retained.key (r : Retained) : List Int :=
  let num (x : FNum) : List Int := match x with
    | .fin n e => [1, n, e]
    | .poison => [0, 0, 0]
  r.entry.map (fun w => (w.toNat : Int)) ++ [r.row, r.col, b2n r.rot, r.rows, r.cols].map Int.ofNat ++ r.vals.flatMap num

/-- Retain a narrowing store under SCALE_GIVEN in a retaining launch (R173, R174): the record is appended to the retention area of
local store, in a layout of the module's own (log 45). `n` is its size. -/
def retain (e : Entry) (narrow : Bool) (n : Nat) (r : Retained) (co : Core) : Core :=
  let w := co.watch
  if !w.retaining || !e.plane || e.mode ≠ 1 || !narrow || w.retainFull then co
  else if w.replayLimit.toNat < w.replayBase.toNat + w.replayUsed.toNat + n then { co with watch := { w with retainFull := true } }
  else
    let co1 := co.lsWrite (w.replayBase.toNat + w.replayUsed.toNat) ((List.range n).map (Config.recordByte r.key))
    { co1 with watch := { w with replayUsed := satAdd w.replayUsed n, retained := w.retained ++ [r] } }

/-- The eight words of an operand-table entry. -/
def Core.entryWords (co : Core) (i : Byte) : List Word := (List.range 8).map fun j => co.optab.word (32 * i.toNat + 4 * j)

/-- Whether a copy keeps format and scale plane under SCALE_GIVEN, so that it writes the codes unchanged (R67). An implicit plane is
none: such a copy stores with the unit scale (R40). -/
def sameCodes (a b : Entry) (ra rb : Nat) : Bool :=
  a.fmt = b.fmt && scaled a.fmt && a.xpose = b.xpose && b.rotL = 0
    && a.plane && b.plane && b.mode = 1 && a.scaleStride = b.scaleStride && a.scaleAddr ra 0 = b.scaleAddr rb 0

/-- The codes a copy writes unchanged (R67); an element that loads as poison is stored as one (R46, R62). Code 1000 of VF4 and −8 of VI4
are unchanged too, which R36, R37 and R44 deny every store: the spec does not say which rule gives way (DESIGN CHOICE, log 46). -/
def keptCodes (f : Nat) (code : Nat → Nat) (xs : List FNum) : List Nat :=
  xs.mapIdx fun j x => if x.isPoison then poisonCode f else code j

/-- Copy n elements of a row with their codes unchanged: each poison element counts as it is decoded and as it is stored (R66). -/
def copyCodes (a b : Entry) (ra rb n : Nat) (r : Stored) : Stored :=
  let xs := (List.range n).map (r.seen.elem a ra)
  let cs := keptCodes a.fmt (codeAt r.seen.ls a.fmt (a.rowAddr ra)) xs
  let put (co : Core) (i : Nat) : Core := co.putBlock b rb (32 * i) ((cs.drop (32 * i)).take 32)
  { r with co := (List.range ((n + 31) / 32)).foldl put r.co, ev := r.ev.add { Ev.none with psn := 2 * psnCount xs } }

/-- COPY's data movement (R492): load, transpose, rotate each destination row, store. A rotated element is a VW32 value. ROT_LOG2B values
other than 0 and 6 to 12 have no meaning in R113; they rotate blocks of 2^ROT_LOG2B elements (DESIGN CHOICE, log 46). -/
def copyMove (src dst : Entry) (words : List Word) (ra rb : Nat) (h : Nat × Nat × Nat × Nat) (r : Stored) : Stored :=
  if sameCodes src dst ra rb then (List.range h.1).foldl (fun r i => copyCodes src dst (ra + i) (rb + i) h.2.1 r) r
  else
    let rows := (List.range h.1).map fun i => (List.range h.2.1).map (r.seen.elem src (ra + i))
    let out := if src.xpose ≠ dst.xpose then transposed h.2.1 rows else rows
    let from_ := if dst.rotL = 0 then src.fmt else 4
    let co1 := retain dst (narrows from_ dst.fmt) (recordBytes src.fmt src.plane h.1 h.2.1)
      { entry := words, row := rb, col := 0, rot := dst.rotL ≠ 0, rows := h.2.2.1, cols := h.2.2.2, vals := out.flatten } r.co
    let rot := out.map fun x => if dst.rotL = 0 then (x, Ev.none) else rotRow dst.rotL dst.rotSeed dst.rotT x
    let ev := rot.foldl (fun e x => e.add x.2) { Ev.none with psn := psnCount rows.flatten }
    storeRows dst from_ rb (rot.map fun x => x.1) ({ r with co := co1 }.raise ev)

/-- A tile of TRANSPOSE's source: elements beyond its extents read as zero (R192). -/
def loadTile (co : Core) (src : Entry) (ra : Nat) (p : Nat × Nat) : List (List FNum) :=
  (List.range 64).map fun i => (List.range 64).map fun j =>
    if ra + 64 * p.1 + i < src.rows && 64 * p.2 + j < src.cols then co.elem src (ra + 64 * p.1 + i) (64 * p.2 + j) else FNum.zero

/-- Store a tile of the destination: elements beyond its extents are not written (R192). -/
def putTile (dst : Entry) (from_ rb : Nat) (q : Nat × Nat) (tile : List (List FNum)) (r : Stored) : Stored :=
  let rows := (tile.take (dst.rows - (rb + 64 * q.1))).map fun x => x.take (dst.cols - 64 * q.2)
  (List.range rows.length).foldl (fun r i => storeRow dst from_ (rb + 64 * q.1 + i) (64 * q.2) (rows.getD i []) r) r

/-- XNET TRANSPOSE's movement: tile (p, q) of the source goes to tile (q, p) of the destination, transposed (R124, log 16); an XPOSE of
either entry turns it once more (R114). -/
def transposeMove (src dst : Entry) (ra rb count : Nat) (r : Stored) : Stored :=
  (List.range count).foldl (fun r t =>
    let p := tileAt src.cols t
    let tile := loadTile r.seen src ra p
    putTile dst src.fmt rb (tileTo src dst p) (if tileTurns src dst then transposed 64 tile else tile)
      (r.raise { Ev.none with psn := psnCount tile.flatten })) r

/-- XNET HADAMARD's movement: COUNT blocks rotated, the VW32 result stored through the destination entry (R124, R159); through XPOSE the
stored rows are the region's columns (R192). -/
def hadamardMove (src dst : Entry) (ra rb : Nat) (x : XnetOp) (r : Stored) : Stored :=
  let n := viewCols src ra
  let blocks := (List.range x.count.toNat).map fun t =>
    let p := hadamardAt n x.size t
    let xs := (List.range x.size).map fun j => r.seen.view src ra p.1 (p.2 + j)
    let z := rotBlock x.log2b.toNat src.rotSeed x.inverse xs
    (p, z.1, z.2.add { Ev.none with psn := psnCount xs })
  let r1 := r.raise (blocks.foldl (fun e q => e.add q.2.2) Ev.none)
  if dst.xpose then
    (List.range (hadamardShape src ra x).2).foldl (fun r j =>
      let column := blocks.filterMap fun q => if q.1.2 ≤ j then q.2.1[j - q.1.2]? else none
      storeRow dst 4 (rb + j) 0 column r) r1
  else blocks.foldl (fun r q => storeRow dst 4 (rb + q.1.1) q.1.2 q.2.1 r) r1

/-- VLOAD's register (R118); through XPOSE a row that does not exist reads as zero (R192). -/
def vloadLanes (co : Core) (e : Entry) (off col : Nat) (l16 : Bool) : List Nat × Ev :=
  let xs := (List.range (laneCount l16)).map fun j =>
    if e.xpose && e.rows ≤ off + col + j then FNum.zero else co.view e off 0 (col + j)
  (xs.map (laneCode (laneFmt l16)), { Ev.none with psn := psnCount xs })

/-- VSTORE's movement (R118): through XPOSE one element to each of the rows that exist (R192). -/
def vstoreMove (e : Entry) (words : List Word) (off col : Nat) (l16 : Bool) (lanes : List Nat) (r : Stored) : Stored :=
  let f := laneFmt l16
  let xs := lanes.map (codeNum f)
  let ys := if e.xpose then xs.take (e.rows - (off + col)) else xs
  let rec_ : Retained :=
    if e.xpose then { entry := words, row := off + col, col := 0, rot := false, rows := ys.length, cols := 1, vals := ys }
    else { entry := words, row := off, col := col, rot := false, rows := 1, cols := ys.length, vals := ys }
  let r1 := { r with co := retain e (narrows f e.fmt) (recordBytes f false 1 ys.length) rec_ r.co }
  if e.xpose then storeRows e f (off + col) (ys.map fun x => [x]) r1 else storeRow e f off col ys r1

/-- VSTORE's vector register, as it stood at firing (R127 condition 4 guards it no longer). -/
def Inflight.stored (f : Inflight) : Vector Word 64 := Vector.ofFn fun (j : Fin 64) => f.regs.getD (16 + j.val) 0

/-- The movement of an in-flight MOVE or XNET instruction (R94): loads see each line as its grant delivered it. -/
def moveData (co : Core) (k : Fin 8) (f : Inflight) (o : CoreOp) : Stored :=
  let rs := f.regVec
  let r := Stored.start co co.stns[k].lfsr (co.seenBy f.seen)
  match o with
  | .vload m =>
    let x := vloadLanes r.seen (co.entry m.opnd) (offReg rs m.off) (regRead rs m.col).toNat m.lanes
    { r with co := { co with vregs := co.vregs.set (vregIx k m.v) (regOfLanes m.lanes x.1) }, ev := x.2 }
  | .vstore m => vstoreMove (co.entry m.opnd) (co.entryWords m.opnd) (offReg rs m.off) (regRead rs m.col).toNat m.lanes
      (lanesOf m.lanes f.stored) r
  | .sload sd sa imm =>
    let v := r.seen.ls.word ((regRead rs sa).toNat + imm.toNat)
    { r with co := { co with stns := co.stns.set k { co.stns[k] with regs := regWrite co.stns[k].regs sd v } } }
  | .sstore sd sa imm => { r with co := co.lsWrite ((regRead rs sa).toNat + imm.toNat) (leBytes (regRead rs sd).toNat 4) }
  | .copy s d so do_ rows =>
    let a := co.entry s
    let b := co.entry d
    copyMove a b (co.entryWords d) (offReg rs so) (offReg rs do_) (copyShape a b rows) r
  | .transpose x => transposeMove (co.entry x.src) (co.entry x.dst) (offReg rs x.srcOff) (offReg rs x.dstOff) x.count.toNat r
  | .hadamard x => hadamardMove (co.entry x.src) (co.entry x.dst) (offReg rs x.srcOff) (offReg rs x.dstOff) x r
  | _ => r

/-- The movement takes place: data, the uncorrected mark of what it read and of the scales it was given, events (R63, R94, R126, R130). -/
def moveNow (c : Fin 384) (k : Fin 8) (f : Inflight) (s : State) : State :=
  match opOf f.word with
  | none => s
  | some o =>
    let co := s.core c
    let r := moveData co k f o
    let bad := r.bad || r.seen.anyMarked (readsOf co f.regVec o)
    let upd (x : Inflight) : Inflight := if x.uid = f.uid then { x with moved := true, marked := x.marked || bad } else x
    let s1 := s.setCore c r.co
    let s2 := s1.modStation c k fun st => { st with lfsr := r.g, inflight := st.inflight.map upd }
    raiseEv c k f.uid r.ev s2

/-- Whether an owner has requests at the ports of a core. -/
def Core.asks (co : Core) (o : PortOwner) : Bool := co.lports.toList.any fun p => p.reqs.any fun r => r.owner = o

/-- Whether an instruction still has requests at the ports, or tiles or blocks to pass through the network. -/
def hasReqs (co : Core) (k : Fin 8) (uid : Nat) : Bool :=
  co.asks (.stn k uid) || co.stns[k].inflight.any fun f => f.uid = uid && !f.pieces.isEmpty

/-- An instruction with no port request moves its data, of which there is none, as it fires; it holds no issue slot. -/
def memFired (c : Fin 384) (k : Fin 8) (_i : CoreInstr) (u : Nat) (s : State) : State :=
  if hasReqs (s.core c) k u then s
  else match (s.station c k).inflight.find? fun f => f.uid = u with
    | some f => moveNow c k f ((markMoved c k u s).modCore c (freeSlots k f))
    | none => s

/-- An exchange operation waits in its unit's issue queue; with COUNT 0 it has nothing to move. -/
def xnetFired (c : Fin 384) (k : Fin 8) (i : CoreInstr) (u : Nat) (s : State) : State :=
  let none_ : Bool := match i.op with
    | .transpose x => x.count = 0
    | .hadamard x => x.count = 0
    | _ => false
  if none_ then memFired c k i u s else s

/-- COPY_INSTRUCTION (R118, R492). -/
def execCopyInstruction (c : Fin 384) (k : Fin 8) (s : State) : Res :=
  .next (fireWith c k (fun o => match o with | .copy _ _ _ _ _ => true | _ => false) (memFired c k) s)

/-- VLOAD (R118). -/
def execVload (c : Fin 384) (k : Fin 8) (s : State) : Res :=
  .next (fireWith c k (fun o => match o with | .vload _ => true | _ => false) (memFired c k) s)

/-- VSTORE (R118). -/
def execVstore (c : Fin 384) (k : Fin 8) (s : State) : Res :=
  .next (fireWith c k (fun o => match o with | .vstore _ => true | _ => false) (memFired c k) s)

/-- SLOAD (R118). -/
def execSload (c : Fin 384) (k : Fin 8) (s : State) : Res :=
  .next (fireWith c k (fun o => match o with | .sload _ _ _ => true | _ => false) (memFired c k) s)

/-- SSTORE (R118). -/
def execSstore (c : Fin 384) (k : Fin 8) (s : State) : Res :=
  .next (fireWith c k (fun o => match o with | .sstore _ _ _ => true | _ => false) (memFired c k) s)

/-- TRANSPOSE (R124, R97). -/
def execXnetTranspose (c : Fin 384) (k : Fin 8) (s : State) : Res :=
  .next (fireWith c k (fun o => match o with | .transpose _ => true | _ => false) (xnetFired c k) s)

/-- HADAMARD (R124, R98, R158). -/
def execXnetHadamard (c : Fin 384) (k : Fin 8) (s : State) : Res :=
  .next (fireWith c k (fun o => match o with | .hadamard _ => true | _ => false) (xnetFired c k) s)

/-! ### XFER (R125) -/

/-- The cluster's porter gets the transfer on its station command queue. -/
def xferPost (c : Fin 384) (k : Fin 8) (i : CoreInstr) (u : Nat) (s : State) : State :=
  let post (isSend : Bool) (x : XferOp) : State :=
    let rs := (s.station c k).regs
    let cmd : XferCmd :=
      { isSend := isSend, core := c, stn := k, uid := u, localAddr := ((s.core c).entry x.opnd).rowAddr (offReg rs x.off),
        peer := x.peer.toNat, peerAddr := x.peerAddr.toNat + (regRead rs x.peerOff).toNat, len := x.len.toNat }
    s.modCluster (clusterOf c) fun cu => { cu with pq := cu.pq.set 3 (cu.pq[3] ++ [⟨0, some cmd⟩]) }
  match i.op with
  | .send x => post true x
  | .recv x => post false x
  | _ => s

/-- SEND (R125). -/
def execXferSend (c : Fin 384) (k : Fin 8) (s : State) : Res :=
  .next (fireWith c k (fun o => match o with | .send _ => true | _ => false) (xferPost c k) s)

/-- RECV (R125). -/
def execXferRecv (c : Fin 384) (k : Fin 8) (s : State) : Res :=
  .next (fireWith c k (fun o => match o with | .recv _ => true | _ => false) (xferPost c k) s)

end Sys2Proof.Machine
end

