-- ==== Sys2Proof/Machine/Array.lean ====
section
/-! DEFINITION. Array passes and the matrix-vector unit (R71 to R87, R119 to R122): issue, streaming, bias preload, drain. -/
namespace Sys2Proof.Machine
open Sys2Proof

/-- Cells of an accumulator bank after a streaming run: for each cell its exact terms in reduction-index order (R51, R52).
Answers the bank, the cells that counted SAT, and how many turned poison. `old` are the cells that counted before. -/
def runCells (start : Vector Word 4096) (old : List Nat) (chain : Bool) (n : Nat) (terms : Nat → List FNum) :
    Vector Word 4096 × List Nat × Nat :=
  let res := (List.range n).map fun i => accAdd (start.toList.getD i 0) false (terms i)
  let bank := Vector.ofFn fun (i : Fin 4096) => match res[i.val]? with
    | some r => r.1
    | none => start[i]
  let sat := (List.range n).filter fun i => (res.getD i (0, false)).2 && !old.contains i
  let wasPoison (i : Nat) : Bool := chain && (vwNum (start.toList.getD i 0)).isPoison
  let psn := ((List.range n).filter fun i => (vwNum (res.getD i (0, false)).1).isPoison && !wasPoison i).length
  (bank, old ++ sat, psn)

/-- The number of gated terms (R73). -/
def gatedCount (n : Nat) (terms : Nat → List FNum) : Nat :=
  (List.range n).foldl (fun acc i => acc + ((terms i).filter FNum.isZero).length) 0

/-- The operands of one array of a pass (R74, R76, R120): 64 rows of A at its rank, 64 columns of B. -/
def passTerms (co : Core) (p : PassOp) (rs : Vector Word 16) (rank : Nat) : Nat → List FNum :=
  let a := co.entry p.a
  let b := co.entry p.b
  let k := p.k.toNat
  fun cell => (List.range k).map fun t =>
    FNum.mul (co.view a (offReg rs p.aOff) (64 * rank + cell / 64) t) (co.view b (offReg rs p.bOff) t (cell % 64))

/-- Poison codes the load path decodes for a pass: A per array, B once (R66, R75). -/
def passLoads (co : Core) (p : PassOp) (rs : Vector Word 16) (n : Nat) : Nat :=
  let a := (List.range (64 * n)).flatMap fun i => (List.range p.k.toNat).map fun t => co.view (co.entry p.a) (offReg rs p.aOff) i t
  let b := (List.range p.k.toNat).flatMap fun t => (List.range 64).map fun j => co.view (co.entry p.b) (offReg rs p.bOff) t j
  psnCount a + psnCount b

/-- Whether the bias of a pass stands ready on an array, or none is named (R72, R79). -/
def biasReady (p : PassOp) (key : Fin 8 × Nat) (u : ArrayUnit) : Bool :=
  p.biasMode = 0 || match u.bias with
    | some b => b.stn = key.1 && b.uid = key.2 && b.cols = 64
    | none => false

/-- One array streams a pass: a bias still in the shadow becomes active, then every product is added (R71, R72, R81); its stalled and
starved handshakes count (R80, R102). -/
def streamArray (key : Fin 8 × Nat) (p : PassOp) (terms : Nat → List FNum) (stall starve : Nat) (u : ArrayUnit) : ArrayUnit × Ev :=
  let swap := match u.bias with
    | some b => b.stn = key.1 && b.uid = key.2
    | none => false
  let start := if swap then u.shadow else u.active
  let r := runCells start (if p.accContinue then u.satCells else []) p.accContinue 4096 terms
  let n := if p.accContinue then r.2.1.length - u.satCells.length else r.2.1.length
  ({ u with
      active := r.1, shadow := if swap then u.active else u.shadow, bias := if swap then none else u.bias,
      issued := u.issued.filter (· ≠ key), streaming := some key, satCells := r.2.1,
      macCnt := satAdd u.macCnt (4096 * p.k.toNat), gatedCnt := satAdd u.gatedCnt (gatedCount 4096 terms),
      stallCnt := satAdd u.stallCnt stall, starveCnt := satAdd u.starveCnt starve },
    { Ev.none with sat := n, psn := r.2.2 })

/-- Stream a pass on every masked array in ascending order, which is its rank (R120), from the lines its reads delivered (R94). -/
def streamPass (co seen : Core) (key : Fin 8 × Nat) (p : PassOp) (rs : Vector Word 16) (m : StreamMeas) : Core × Ev :=
  let ms := maskedArrays p.mask
  let r := (List.range ms.length).foldl (fun (acc : Core × Ev) rank =>
    match ms[rank]? with
    | some a =>
      let x := streamArray key p (passTerms seen p rs rank) (m.stall.getD a.val 0) (m.starve.getD a.val 0) acc.1.arrays[a]
      ({ acc.1 with arrays := acc.1.arrays.set a x.1 }, acc.2.add x.2)
    | none => acc) (co, Ev.none)
  ({ r.1 with bWaitCnt := satAdd r.1.bWaitCnt m.bWait, bStarveCnt := satAdd r.1.bStarveCnt m.bStarve },
    r.2.add { Ev.none with psn := passLoads seen p rs ms.length })

/-- The pass whose products an array holds unswapped. -/
def ArrayUnit.prior (u : ArrayUnit) : Option (Fin 8 × Nat) := u.streaming.orElse fun _ => u.finished

/-- Whether a masked array can take the first element of a pass: it heads the issue queue, an earlier pass that it follows can swap into
a shadow that has drained, and the bias is in place (R72, R78, R80). A pass that does not follow waits for the swap. -/
def arrayReady (p : PassOp) (key : Fin 8 × Nat) (u : ArrayUnit) : Bool :=
  u.issued.head? = some key && biasReady p key u
    && (p.accContinue || u.prior = none || (u.drain = none && (u.streaming.isSome || u.follower = some key)))

/-- A matrix-vector operation streams (R84 to R86, R122). -/
def streamMv (co seen : Core) (key : Fin 8 × Nat) (m : MvOp) (rs : Vector Word 16) : Core × Ev :=
  let u := co.mvu
  let x := if m.xKeep then u.x else (List.range m.k.toNat).map fun t => seen.view (co.entry m.x) (offReg rs m.xOff) 0 t
  let w := co.entry m.w
  let wAt (t j : Nat) : FNum := seen.view w (offReg rs m.wOff) t j
  let terms (j : Nat) : List FNum := (List.range m.k.toNat).map fun t => FNum.mul (x.getD t FNum.zero) (wAt t j)
  let r := runCells (if m.cont then u.accs else Vector.replicate 4096 0) (if m.cont then u.satCells else []) m.cont m.n.toNat
    terms
  let n := if m.cont then r.2.1.length - u.satCells.length else r.2.1.length
  let loads := (if m.xKeep then 0 else psnCount x)
    + psnCount ((List.range m.k.toNat).flatMap fun t => (List.range m.n.toNat).map (wAt t))
  let u1 : Mvu :=
    { u with
      x := x, accs := r.1, issued := u.issued.filter (· ≠ key), streaming := some key, satCells := r.2.1,
      macCnt := satAdd u.macCnt (m.k.toNat * m.n.toNat), gatedCnt := satAdd u.gatedCnt (gatedCount m.n.toNat terms) }
  ({ co with mvu := u1 }, { Ev.none with sat := n, psn := r.2.2 + loads })

/-- Change one in-flight instruction. -/
def modInflight (c : Fin 384) (k : Fin 8) (uid : Nat) (g : Inflight → Inflight) (s : State) : State :=
  s.modStation c k fun st => { st with inflight := st.inflight.map fun f => if f.uid = uid then g f else f }

/-- PASS (R119): issued to its masked arrays. -/
def execArrayPass (c : Fin 384) (k : Fin 8) (s : State) : Res :=
  .next (fireWith c k (fun o => match o with | .pass _ => true | _ => false) (fun _ _ t => t) s)

/-- MV (R122): issued to the matrix-vector unit. -/
def execMv (c : Fin 384) (k : Fin 8) (s : State) : Res :=
  .next (fireWith c k (fun o => match o with | .mv _ => true | _ => false) (fun _ _ t => t) s)

/-- Whether two instructions are segments of one chain: passes of one mask, or matrix-vector operations, the earlier with HOLD (R120). -/
def sameChain (earlier later : InstrWord) : Bool :=
  match opOf earlier, opOf later with
  | some (.pass p), some (.pass q) => p.hold && q.accContinue && p.mask = q.mask
  | some (.mv m), some (.mv n) => m.hold && n.cont
  | _, _ => false

/-- Started, and streaming for a pass or MV. An earlier segment of the same chain has all its products (R72). -/
def startFlags (c : Fin 384) (k : Fin 8) (g : Inflight) (stream marked : Bool) (s : State) : State :=
  s.modStation c k fun st => { st with inflight := st.inflight.map fun f =>
    if f.uid = g.uid then { f with started := true, streaming := stream, marked := f.marked || marked }
    else { f with streaming := f.streaming && !(stream && sameChain f.word g.word) } }

/-- The products of a pass are all added: every masked array holds it as finished and counts it (R102). The pass issued there by now
follows it (R78; log 9). -/
def finishPass (key : Fin 8 × Nat) (co : Core) : Core :=
  { co with arrays := co.arrays.map fun u =>
      if u.streaming = some key then
        { u with streaming := none, finished := some key, follower := u.issued.head?, passCnt := satAdd u.passCnt 1 }
      else u }

/-- The swap of an array (R72): the shadow holds the sums of the pass, the active bank the bias loaded for the next or +0. -/
def swapArray (key : Fin 8 × Nat) (word : InstrWord) (outRow : Word) (rank : Nat) (u : ArrayUnit) : ArrayUnit :=
  let ready : Bool := match u.bias with
    | some b => b.cols = 64
    | none => false
  { u with
    shadow := u.active, active := if ready then u.shadow else Vector.replicate 4096 0, finished := none, follower := none,
    satCells := [], bias := if ready then none else u.bias,
    drain := some { stn := key.1, uid := key.2, word := word, outRow := outRow, rank := rank, lowest := rank = 0, cols := 0, buf := [] } }

/-- The pass whose products an array holds has all of them, and where `swap` says so the array swaps (R72, R78). A pass with HOLD does
neither. -/
def retirePass (c : Fin 384) (a : Fin 4) (swap : ArrayUnit → Bool) (s : State) : State :=
  match (s.core c).arrays[a].prior with
  | none => s
  | some key =>
    match (s.station c key.1).inflight.find? fun f => f.uid = key.2 with
    | none => s
    | some f =>
      match opOf f.word with
      | some (.pass p) =>
        if p.hold then s
        else
          let rank := ((maskedArrays p.mask).filter fun b => b < a).length
          let s1 := modInflight c key.1 key.2 (fun f => { f with streaming := false }) (s.modCore c (finishPass key))
          let u := (s1.core c).arrays[a]
          if swap u then
            s1.modCore c fun co =>
              { co with arrays := co.arrays.set a (swapArray key f.word (regRead f.regVec p.outOff) rank co.arrays[a]) }
          else s1
      | _ => s

/-- A unit starts an issued instruction (R127). -/
def startUnit (c : Fin 384) (k : Fin 8) (f : Inflight) (m : StreamMeas) (s : State) : State :=
  let co := s.core c
  let key := (k, f.uid)
  let rs := f.regVec
  let seen := co.seenBy f.seen
  match opOf f.word with
  | some (.pass p) =>
    if hasReqs co k f.uid || !(maskedArrays p.mask).all (fun a => arrayReady p key co.arrays[a]) then s
    else
      let s1 := if p.accContinue then s else forAll (maskedArrays p.mask) (fun a => retirePass c a fun _ => true) s
      let r := streamPass (s1.core c) seen key p rs m
      let bad := seen.anyMarked (readsOf co rs (.pass p))
      raiseEv c k f.uid r.2 (startFlags c k f true bad (s1.setCore c r.1))
  | some (.mv o) =>
    if hasReqs co k f.uid || co.mvu.issued.head? ≠ some key || !(o.cont || (co.mvu.streaming = none && co.mvu.finished = none))
    then s
    else
      let r := streamMv (freeMvSlot (!f.granted) co) seen key o rs
      let out : Part := ⟨(co.entry o.y).xpose, outGiven co rs (.mv o), writesOf co rs (.mv o)⟩
      let bad := seen.anyMarked (readsOf co rs (.mv o))
      raiseEv c k f.uid r.2 (startFlags c k f true bad (s.setCore c (askStore key out r.1)))
  | some (.vec _ _) => startFlags c k f false false (s.modCore c (freeSlots k f))
  | some (.transpose _) => startXnet
  | some (.hadamard _) => startXnet
  | _ => s
where
  startXnet : State :=
    let co := s.core c
    let key := (k, f.uid)
    if co.xnetOwner ≠ none || co.xnetWait.head? ≠ some key then s
    else (startFlags c k f false false (s.modCore c (freeSlots k f))).modCore c netTurn
  /-- The requests of an output to the store path, through the network if its entry transposes. -/
  askStore (key : Fin 8 × Nat) (out : Part) (co : Core) : Core :=
    let rq := out.reqs (.stn key.1 key.2) (1, 1)
    if rq.isEmpty then co
    else if out.net then joinNet key (co.modFlight key fun f => { f with pieces := f.pieces ++ [rq] })
    else addReqs rq co

/-- UNIT_START (R127): the unit starts the n-th in-flight instruction of the station and frees its issue slot; the operand carries the
handshakes that a pass's start was stalled and its streams starved (R80, R102; log 13). -/
def execUnitStart (c : Fin 384) (k : Fin 8) (n : Nat) (m : StreamMeas) (s : State) : Res :=
  match (s.station c k).inflight[n]? with
  | some f => if f.started then .next s else .next (startUnit c k f m s)
  | none => .next s

/-! ### Drain (R78, R82, R121) -/

/-- Column j of a bank, row 0 first. -/
def bankCol (v : Vector Word 4096) (j : Nat) : List Word := (List.range 64).map fun i => v.toList.getD (64 * i + j) 0

/-- Store a drained 64 x 64 tile through the output entry (R55, R82, R96). -/
def storeTile (e : Entry) (words : List Word) (row rank : Nat) (tile : List (List FNum)) (r : Stored) : Stored :=
  let at_ : Nat × Nat := if e.xpose then (row, 64 * rank) else (row + 64 * rank, 0)
  let rows := if e.xpose then transposed 64 tile else tile
  let co1 := retain e (narrows 4 e.fmt) (recordBytes 4 false 64 64)
    { entry := words, row := at_.1, col := at_.2, rot := false, rows := 64, cols := 64, vals := rows.flatten } r.co
  (List.range 64).foldl (fun r j => storeRow e 4 (at_.1 + j) at_.2 (rows.getD j []) r) { r with co := co1 }

/-- What a drained tile reads and writes. -/
def tileOut (e : Entry) (row rank : Nat) : Part :=
  let ranges (f : Nat → Nat → Nat → List Range) : List Range :=
    if e.xpose then (List.range 64).flatMap fun j => f (row + j) (64 * rank) 64
    else (List.range 64).flatMap fun i => f (row + 64 * rank + i) 0 64
  ⟨e.xpose, ranges e.givenSpan, ranges e.storeSpan⟩

/-- Whether the rows of a lower masked array of the same pass have still to go (R121). -/
def lowerWaiting (co : Core) (a : Fin 4) (key : Fin 8 × Nat) : Bool :=
  (List.finRange 4).any fun b => b < a && (co.arrays[b].finished = some key || match co.arrays[b].drain with
    | some d => d.stn = key.1 && d.uid = key.2
    | none => false)

/-- A drain waits for its route: the handshakes of the wait count (R96, R102, R121). -/
def drainWait (c : Fin 384) (a : Fin 4) (wait : Nat) (s : State) : State :=
  s.modCore c fun co => { co with arrays := co.arrays.set a { co.arrays[a] with outWaitCnt := satAdd co.arrays[a].outWaitCnt wait } }

/-- The last column has reached the bottom edge: the tile goes to the store path or the drain queue, if there is space. -/
def drainEnd (c : Fin 384) (a : Fin 4) (d : DrainRun) (p : PassOp) (cols : List (List Word)) (wait : Nat) (s : State) : State :=
  let co := s.core c
  let rows : List (List Word) := (List.range 64).map fun i => cols.map fun col => col.getD i 0
  let co0 : Core := { co with arrays := co.arrays.set a { co.arrays[a] with drain := none } }
  let less (f : Inflight) : Inflight := { f with left := f.left - 1 }
  if lowerWaiting co a (d.stn, d.uid) then drainWait c a wait s
  else if p.drain then
    if 64 < co.drainQ.length + 64 then drainWait c a wait s
    else
      let stn := ix 8 p.dqStn.toNat
      modInflight c d.stn d.uid less (s.setCore c { co0 with drainQ := co0.drainQ ++ rows.map fun r => { vals := r, stn := stn } })
  else
    let e := co.entry p.out
    let r := storeTile e (co.entryWords p.out) d.outRow.toNat d.rank (rows.map fun x => x.map vwNum)
      (Stored.start co0 co.stns[d.stn].lfsr co)
    let co1 := startUnit.askStore (d.stn, d.uid) (tileOut e d.outRow.toNat d.rank) r.co
    let done (f : Inflight) : Inflight := { less f with marked := f.marked || r.bad }
    let s1 := modInflight c d.stn d.uid done (s.setCore c co1)
    raiseEv c d.stn d.uid r.ev (s1.modStation c d.stn fun st => { st with lfsr := r.g })

/-- One drain step of array a: the end of the streaming, with the swap unless a pass that follows makes it with its first element (R72), then
one column at a time (R78). A follower that its station's RESET has discarded makes no swap: the array swaps at once. -/
def drainStep (c : Fin 384) (a : Fin 4) (wait : Nat) (s : State) : State :=
  let u := (s.core c).arrays[a]
  match u.drain with
  | some d =>
    match opOf d.word with
    | some (.pass p) =>
      let col := bankCol u.shadow d.cols
      if d.cols = 63 then drainEnd c a d p (d.buf ++ [col]) wait s
      else s.modCore c fun co => { co with arrays := co.arrays.set a { u with drain := some { d with cols := d.cols + 1, buf := d.buf ++ [col] } } }
    | _ => s
  | none => retirePass c a (fun u => match u.follower with
    | some x => !u.issued.contains x
    | none => true) s

/-- PASS_DRAIN (R78): the next step of array a's drain; the operand carries the handshakes that a drain finding no credit waits (R80,
R102; log 13). -/
def execPassDrain (c : Fin 384) (a : Fin 4) (wait : Nat) (s : State) : Res := .next (drainStep c a wait s)

/-- The bias of column j for an array of a pass (R79, R120), row 0 first: a row broadcast is one value. -/
def biasCol (seen : Core) (e : Entry) (p : PassOp) (off rank j : Nat) : List FNum :=
  if p.biasMode = 2 then [seen.view e off rank j] else (List.range 64).map fun i => seen.view e off (64 * rank + i) j

/-- Replace column j of a bank; a column of one value repeats it. -/
def setBankCol (v : Vector Word 4096) (j : Nat) (col : List Word) : Vector Word 4096 :=
  Vector.ofFn fun (n : Fin 4096) => if n.val % 64 = j then col.getD (n.val / 64) (col.headD 0) else v[n]

/-- Whether column j of an array's shadow is free for the bias of a pass (R78 to R81): behind the drain of the pass before the one that
streams or that it follows; a pass that follows none waits until the drain is complete. -/
def biasFree (u : ArrayUnit) (key : Fin 8 × Nat) (j : Nat) : Bool :=
  match u.drain with
  | some d => u.prior.isSome && j < d.cols
  | none => u.finished = none || u.follower = some key

/-- Preload the next column of the bias of the next issued pass into the shadow, once that column has drained (R79). -/
def biasStep (c : Fin 384) (a : Fin 4) (s : State) : State :=
  let co := s.core c
  let u := co.arrays[a]
  match u.issued.head? with
  | none => s
  | some key =>
    match (s.station c key.1).inflight.find? fun f => f.uid = key.2 with
    | none => s
    | some f =>
      match opOf f.word with
      | some (.pass p) =>
        let run : Option BiasRun := match u.bias with
          | some b => if b.stn = key.1 && b.uid = key.2 then some b else none
          | none => some { stn := key.1, uid := key.2, cols := 0 }
        match run with
        | none => s
        | some b =>
          if p.biasMode = 0 || b.cols = 64 || !biasFree u key b.cols || hasReqs co key.1 key.2 then s
          else
            let rank := ((maskedArrays p.mask).filter fun x => x < a).length
            let col := biasCol (co.seenBy f.seen) (co.entry p.bias) p (offReg f.regVec p.biasOff) rank b.cols
            let u1 : ArrayUnit :=
              { u with
                shadow := setBankCol u.shadow b.cols (col.map fun x => BitVec.ofNat 32 (laneCode 4 x)),
                bias := some { b with cols := b.cols + 1 } }
            raiseEv c key.1 key.2 { Ev.none with psn := psnCount col } (s.setCore c { co with arrays := co.arrays.set a u1 })
      | _ => s

/-- BIAS_PRELOAD (R79). -/
def execBiasPreload (c : Fin 384) (a : Fin 4) (s : State) : Res := .next (biasStep c a s)

/-- The output of a matrix-vector operation goes to the store path (R86, R122). -/
def mvStore (c : Fin 384) (k : Fin 8) (f : Inflight) (m : MvOp) (s : State) : State :=
  let co := s.core c
  let e := co.entry m.y
  let row := offReg f.regVec m.yOff
  let n := m.n.toNat
  let ys := (co.mvu.accs.toList.take n).map vwNum
  let co0 : Core := { co with mvu := { co.mvu with finished := none, streaming := none } }
  let co1 := retain e (narrows 4 e.fmt) (recordBytes 4 false 1 n)
    { entry := co.entryWords m.y, row := row, col := 0, rot := false, rows := if e.xpose then n else 1, cols := if e.xpose then 1 else n,
      vals := ys } co0
  let r := storeRegion e row n [ys] (Stored.start co1 co.stns[k].lfsr (co.seenBy f.seen))
  let done (f : Inflight) : Inflight := { f with streaming := false, moved := true, marked := f.marked || r.bad }
  raiseEv c k f.uid r.ev (modInflight c k f.uid done ((s.setCore c r.co).modStation c k fun st => { st with lfsr := r.g }))

/-- The output of a matrix-vector operation enters the drain queue, if it has space: rows of 64 values (R121). Where N is not a multiple
of 64 the last row is filled with +0: the spec does not say what stands there (DESIGN CHOICE, log 46). -/
def mvQueue (c : Fin 384) (k : Fin 8) (f : Inflight) (m : MvOp) (s : State) : Option State :=
  let co := s.core c
  let rows := chunks 64 (co.mvu.accs.toList.take m.n.toNat)
  if 64 < co.drainQ.length + rows.length then none
  else
    let q := rows.map fun r => ({ vals := (r ++ List.replicate 64 0).take 64, stn := ix 8 m.dqStn.toNat } : DqRow)
    some (modInflight c k f.uid (fun f => { f with streaming := false, moved := true })
      (s.setCore c { co with drainQ := co.drainQ ++ q, mvu := { co.mvu with finished := none, streaming := none } }))

end Sys2Proof.Machine
end

