-- ==== Sys2Proof/Machine/Vec.lean ====
section
/-! DEFINITION. The vector engine (R88 to R90, R123): lane operations, reductions, the online softmax step. -/
namespace Sys2Proof.Machine
open Sys2Proof

/-- Lane results with their events. -/
def laneMap (g : Nat → Nat × Ev) (n : Nat) : List Nat × Ev :=
  let rs := (List.range n).map g
  (rs.map fun r => r.1, rs.foldl (fun e r => e.add r.2) Ev.none)

/-- The A operand: a vector register or the head of the drain queue (R121, R123). -/
def vecA (co : Core) (k : Fin 8) (v : VecOp) : List Nat :=
  if v.aDq then (match co.drainQ with
    | r :: _ => r.vals.map BitVec.toNat
    | [] => [])
  else lanesOf v.lanes co.vregs[vregIx k v.va]

/-- The B operand: a register, or a scalar broadcast to every lane (R123). -/
def vecB (co : Core) (k : Fin 8) (v : VecOp) (rs : Vector Word 16) : List Nat :=
  if v.bScal then
    List.replicate (laneCount v.lanes) ((regRead rs v.sb).toNat % (if v.lanes then 2 ^ 16 else 2 ^ 32))
  else lanesOf v.lanes co.vregs[vregIx k v.vb]

/-- Convert (R88): SUB 0 VW32 to VF16, SUB 1 VF16 to VW32, over lanes 0 to 63. -/
def vecConvertLanes (sub : Nat) (v : Vector Word 64) : List Nat × Ev × Bool :=
  if sub = 0 then
    let r := laneMap (fun i => laneRound 3 (codeNum 4 ((lanesOf false v).getD i 0))) 64
    (r.1 ++ List.replicate 64 0, r.2, true)
  else
    let r := laneMap (fun i => laneRound 4 (codeNum 3 ((lanesOf true v).getD i 0))) 64
    (r.1, r.2, false)

/-- Reduce (R88, R123): SUB 0 sum, 1 sum of squares, 2 max, 3 min. -/
def vecReduceLanes (sub f : Nat) (a : List Nat) : Nat × Ev :=
  let xs := a.map (codeNum f)
  if xs.any FNum.isPoison then (poisonCode f, { Ev.none with lanePsn := true })
  else if sub ≤ 1 then
    let terms := if sub = 0 then xs else xs.map fun x => FNum.mul x x
    let r := accAdd 0 false terms
    let e := { Ev.none with sat := b2n r.2, ufz := b2n (f = 4 && r.1 = 0 && accFlush 0 terms) }
    if f = 3 then let q := laneRound 3 (vwNum r.1); (q.1, e.add q.2) else (r.1.toNat, e)
  else
    let pick (x y : FNum) : FNum := if sub = 2 then (if FNum.lt x y then y else x) else (if FNum.lt y x then y else x)
    laneRound f (xs.tail.foldl pick (xs.headD FNum.zero))

/-- The online softmax step (R90): x, mv and s; answers mv', s' and the lane values. -/
def softmaxStep (x : List Nat) (mv sm : Nat) : Nat × Nat × List Nat × Ev :=
  let m := laneRound 4 ((x.map (codeNum 4)).foldl (fun a b =>
    if a.isPoison || b.isPoison then FNum.poison else if FNum.lt a b then b else a) (codeNum 4 mv))
  let d := laneOp 1 4 mv m.1 0
  let e := laneExp2 4 d.1
  let r := laneOp 2 4 sm e.1 0
  let ts := laneMap (fun l => laneOp 1 4 (x.getD l 0) m.1 0) 64
  let ps := laneMap (fun l => laneExp2 4 (ts.1.getD l 0)) 64
  let acc := accAdd (BitVec.ofNat 32 r.1) false (ps.1.map (codeNum 4))
  let ev := (((((m.2.add d.2).add e.2).add r.2).add ts.2).add ps.2).add
    { Ev.none with sat := b2n acc.2, lanePsn := (vwNum acc.1).isPoison }
  (m.1, acc.1.toNat, ps.1, ev)

/-- The lane results of operations 0 to 12 but convert. -/
def vecLanes (op : Nat) (sub f : Nat) (a b c : List Nat) : List Nat × Ev :=
  let n := if f = 3 then 128 else 64
  let at_ (l : List Nat) (i : Nat) : Nat := l.getD i 0
  laneMap (fun i =>
    match op with
    | 6 => laneCmp sub f (at_ a i) (at_ b i)
    | 7 => laneSel f (at_ a i) (at_ b i) (at_ c i)
    | 9 => laneRecip f (at_ a i)
    | 10 => laneRsqrt f (at_ a i)
    | 11 => laneExp2 f (at_ a i)
    | 12 => laneExp f (at_ a i)
    | _ => laneOp op f (at_ a i) (at_ b i) (at_ c i)) n

/-- The registers a vector instruction leaves, and its events. -/
def vecResult (co : Core) (k : Fin 8) (op : Nat) (v : VecOp) (rs : Vector Word 16) :
    Vector (Vector Word 64) 64 × Ev :=
  let f := laneFmt v.lanes
  let a := vecA co k v
  let vd := vregIx k v.vd
  let vc := vregIx k v.vc
  if op = 8 then
    let src := if v.aDq then regOfLanes false a else co.vregs[vregIx k v.va]
    let r := vecConvertLanes v.sub.toNat src
    (co.vregs.set vd (regOfLanes r.2.2 r.1), r.2.1)
  else if op = 13 then
    let r := vecReduceLanes v.sub.toNat f a
    (co.vregs.set vd (regOfLanes v.lanes [r.1]), r.2)
  else if op = 14 then
    let i := (regRead rs v.sb).toNat % 32
    let b := vecB co k v rs
    let r := softmaxStep a (b.getD (2 * i) 0) (b.getD (2 * i + 1) 0)
    let regs := co.vregs.set vd (regOfLanes false r.2.2.1)
    let old := regs[vc]
    let new : Vector Word 64 := Vector.ofFn fun (j : Fin 64) =>
      if j.val = 2 * i then BitVec.ofNat 32 r.1 else if j.val = 2 * i + 1 then BitVec.ofNat 32 r.2.1 else old[j]
    (regs.set vc new, r.2.2.2)
  else
    let r := vecLanes op v.sub.toNat f a (vecB co k v rs) (lanesOf v.lanes co.vregs[vc])
    (co.vregs.set vd (regOfLanes v.lanes r.1), r.2)

/-- The effect of a vector instruction at its firing: registers, the row it takes from the drain queue, flags (log 9). -/
def vecEff (c : Fin 384) (k : Fin 8) (i : CoreInstr) (u : Nat) (s : State) : State :=
  match i.op with
  | .vec op v =>
    let co := s.core c
    let r := vecResult co k op.toNat v (s.station c k).regs
    let s1 := s.setCore c { co with vregs := r.1, drainQ := if v.aDq then co.drainQ.tail else co.drainQ }
    raiseEv c k u r.2 (modInflight c k u (fun f => { f with moved := true }) s1)
  | _ => s

/-- Firing of the vector operation with a given OP (R123). -/
def fireVec (op : BitVec 4) (c : Fin 384) (k : Fin 8) (s : State) : State :=
  fireWith c k (fun o => match o with
    | .vec p _ => p = op
    | _ => false) (vecEff c k) s

/-- VEC_ADD (R123): add. -/
def execVecAdd (c : Fin 384) (k : Fin 8) (s : State) : Res := .next (fireVec 0 c k s)

/-- VEC_SUBTRACT (R123): subtract. -/
def execVecSubtract (c : Fin 384) (k : Fin 8) (s : State) : Res := .next (fireVec 1 c k s)

/-- VEC_MULTIPLY (R123): multiply. -/
def execVecMultiply (c : Fin 384) (k : Fin 8) (s : State) : Res := .next (fireVec 2 c k s)

/-- VEC_FMA (R123): fused multiply-add. -/
def execVecFma (c : Fin 384) (k : Fin 8) (s : State) : Res := .next (fireVec 3 c k s)

/-- VEC_MIN (R123): minimum. -/
def execVecMin (c : Fin 384) (k : Fin 8) (s : State) : Res := .next (fireVec 4 c k s)

/-- VEC_MAX (R123): maximum. -/
def execVecMax (c : Fin 384) (k : Fin 8) (s : State) : Res := .next (fireVec 5 c k s)

/-- VEC_COMPARE (R123): compare. -/
def execVecCompare (c : Fin 384) (k : Fin 8) (s : State) : Res := .next (fireVec 6 c k s)

/-- VEC_SELECT (R123): select. -/
def execVecSelect (c : Fin 384) (k : Fin 8) (s : State) : Res := .next (fireVec 7 c k s)

/-- VEC_CONVERT (R123): convert. -/
def execVecConvert (c : Fin 384) (k : Fin 8) (s : State) : Res := .next (fireVec 8 c k s)

/-- VEC_RECIPROCAL (R123): reciprocal. -/
def execVecReciprocal (c : Fin 384) (k : Fin 8) (s : State) : Res := .next (fireVec 9 c k s)

/-- VEC_RSQRT (R123): reciprocal square root. -/
def execVecRsqrt (c : Fin 384) (k : Fin 8) (s : State) : Res := .next (fireVec 10 c k s)

/-- VEC_EXP2 (R123): exp2. -/
def execVecExp2 (c : Fin 384) (k : Fin 8) (s : State) : Res := .next (fireVec 11 c k s)

/-- VEC_EXP (R123): exp. -/
def execVecExp (c : Fin 384) (k : Fin 8) (s : State) : Res := .next (fireVec 12 c k s)

/-- VEC_REDUCE (R123): reduce. -/
def execVecReduce (c : Fin 384) (k : Fin 8) (s : State) : Res := .next (fireVec 13 c k s)

/-- VEC_SOFTMAX_STEP (R123): online softmax step. -/
def execVecSoftmaxStep (c : Fin 384) (k : Fin 8) (s : State) : Res := .next (fireVec 14 c k s)

end Sys2Proof.Machine
end

