-- ==== Sys2Proof/Machine/Completion.lean ====
section
/-! DEFINITION. Port grants with local-store protection (R93, R196 to R199), completion of instructions (R126, R111, R131),
tokens and credits between cores (R109, R110), the station watchdog (R134). -/
namespace Sys2Proof.Machine
open Sys2Proof

/-! ### Local-store protection -/

/-- The mat and row of a line (R195). -/
def matRow (line : Nat) : Nat × Nat := (line * 512 / 2 ^ 21 % 128, line * 512 / 2 ^ 13 % 256)

/-- A row enters repair (R199). -/
def needRepair (t : Fin 4) (line : Nat) (co : Core) : Core :=
  let sl := co.slices[t]
  if sl.repairs.contains (matRow line) || sl.unrepaired.contains (matRow line) then co
  else { co with slices := co.slices.set t { sl with repairs := sl.repairs ++ [matRow line] } }

/-- A sector of a line newly gets its poison bit (R197, R204). -/
def lsPoisonSector (line : Nat) (x : Fin 16) (co : Core) : Core :=
  let sec := line * 8 + x.val % 8
  if co.lsPoison.contains sec then co
  else { co with lsPoison := insSorted sec co.lsPoison, lsUe := satAdd co.lsUe 1 }

/-- What a read of a line finds (R196, R197, R199, R204): every corrected word and every sector that newly gets its poison bit counts. -/
def lsFind (t : Fin 4) (line : Nat) (e : Ecc) (co : Core) : Core :=
  let co1 : Core := { co with lsCe := satAdd co.lsCe e.corrected }
  let co2 := if e.again || !e.bad.isEmpty then needRepair t line co1 else co1
  e.bad.foldl (fun co x => lsPoisonSector line x co) co2

/-! ### Port grants (R93) -/

/-- Whether request a is served before request b: urgent ones first, oldest first, then by rank. -/
def reqBefore (a b : PortReq) : Bool :=
  if a.urgent && b.urgent then b.waited < a.waited || (a.waited = b.waited && a.rank < b.rank)
  else if a.urgent ≠ b.urgent then a.urgent else a.rank < b.rank

/-- The request a port grants: the first that no other precedes. -/
def pickReq (rs : List PortReq) : Option Nat :=
  rs.findIdx? fun a => rs.all fun b => !reqBefore b a

/-- The first grant of a load-path or store-path operation starts it, the first slice granted frees the issue slot of a
matrix-vector operation (R127). -/
def startByGrant (c : Fin 384) (k : Fin 8) (f : Inflight) (r : PortReq) (s : State) : State :=
  let path : State := if f.started then s else modInflight c k f.uid (fun x => { x with started := true }) (s.modCore c (freeSlots k f))
  match opOf f.word with
  | some (.copy _ _ _ _ _) => path
  | some (.vload _) => path
  | some (.vstore _) => path
  | some (.sload _ _ _) => path
  | some (.sstore _ _ _) => path
  | some (.mv m) =>
    let w := linesOf (((s.core c).entry m.w).viewSpan (offReg f.regVec m.wOff) 0 m.k.toNat 0 m.n.toNat)
    if f.granted || r.write || !w.contains r.line then s
    else modInflight c k f.uid (fun x => { x with granted := true }) (s.modCore c (freeMvSlot true))
  | _ => s

/-- A read grant delivers its line (R94). -/
def deliverLine (c : Fin 384) (k : Fin 8) (uid : Nat) (r : PortReq) (s : State) : State :=
  if r.write then s
  else
    let l := (s.core c).readLine r.line
    modInflight c k uid (fun x => { x with seen := x.seen.filter (·.line ≠ r.line) ++ [l] }) s

/-- The last request of a tile or block of a stream has been granted: the network passes on, and the handshakes for which the stream held
it count (R99, R102). -/
def endPiece (c : Fin 384) (key : Fin 8 × Nat) (r : PortReq) (busy : Nat) (s : State) : State :=
  let co := s.core c
  let more := co.lports.toList.any fun p => p.reqs.any fun x => x.owner = r.owner && x.net
  if !r.net || more then s
  else
    let left := co.stns[key.1].inflight.any fun f => f.uid = key.2 && !f.pieces.isEmpty
    s.setCore c (leaveNet key left { co with xnetBusyCnt := satAdd co.xnetBusyCnt busy })

/-- A write grant of a matrix-vector operation: its last product has been added (R100). -/
def mvWriting (c : Fin 384) (k : Fin 8) (f : Inflight) (r : PortReq) (s : State) : State :=
  match opOf f.word with
  | some (.mv _) =>
    if !r.write then s
    else
      let key := (k, f.uid)
      let s1 := s.modCore c fun co =>
        if co.mvu.streaming = some key then { co with mvu := { co.mvu with streaming := none, finished := some key } } else co
      modInflight c k f.uid (fun x => { x with streaming := false }) s1
  | _ => s

/-- The last grant of an instruction lets it move its data (log 9). -/
def lastGrant (c : Fin 384) (k : Fin 8) (uid : Nat) (s : State) : State :=
  match (s.station c k).inflight.find? fun f => f.uid = uid with
  | none => s
  | some f =>
    if hasReqs (s.core c) k uid || f.moved then s
    else match opOf f.word with
      | some (.pass _) => s
      | some (.mv m) => if f.started && !m.hold && !m.drain then mvStore c k f m s else s
      | some _ => moveNow c k f s
      | none => s

/-- What a grant does for the instruction that asked. -/
def grantTo (c : Fin 384) (k : Fin 8) (uid : Nat) (r : PortReq) (busy : Nat) (s : State) : State :=
  match (s.station c k).inflight.find? fun f => f.uid = uid with
  | none => s
  | some f => lastGrant c k uid (endPiece c (k, uid) r busy (mvWriting c k f r (startByGrant c k f r (deliverLine c k uid r s))))

/-- What a descriptor's read finds counts for it: n corrections, and the sectors of a space that come marked (R265). -/
def noteRead (o : TxnOwner) (n space : Nat) (bad : List Nat) (s : State) : State :=
  match o with
  | .desc r idx => modCtx r idx (fun c => { c with corr := c.corr + n, bad := c.bad ++ bad.map fun x => (space, x) }) s
  | _ => s

/-- What a grant does for an access from outside the core: a porter command's read has its line (R94), a descriptor its corrections. -/
def grantExt (c : Fin 384) (o : TxnOwner) (r : PortReq) (e : Ecc) (s : State) : State :=
  if r.write then s
  else match o with
    | .porter cl id =>
      let l := (s.core c).readLine r.line
      let upd (x : PorterRun) : PorterRun :=
        if x.id = id then { x with seen := x.seen.filter (fun y => !(y.1 = c && y.2.line = r.line)) ++ [(c, l)] } else x
      s.modCluster cl fun cu => { cu with prun := cu.prun.map upd }
    | _ => noteRead o e.corrected c.val (e.bad.map fun x => r.line * 8 + x.val % 8) s

/-- One handshake of a port: the highest-ranked or most urgent request is granted, every other waits (R93); a read finds what it finds
(R197). -/
def grantPort (c : Fin 384) (t : Fin 4) (e : Ecc) (busy : Nat) (s : State) : State :=
  let p := (s.core c).lports[t]
  match pickReq p.reqs with
  | none => s
  | some n =>
    match p.reqs[n]? with
    | none => s
    | some r =>
      let rest := (p.reqs.eraseIdx n).map fun x => { x with waited := x.waited + 1 }
      let p1 : LsPort := { reqs := rest, grantCnt := satAdd p.grantCnt 1, urgentCnt := satAdd p.urgentCnt (b2n r.urgent) }
      let s1 := s.modCore c fun co =>
        let co1 : Core := { co with lports := co.lports.set t p1 }
        if r.write then co1 else lsFind t r.line e co1
      match r.owner with
      | .stn k uid => grantTo c k uid r busy s1
      | .ext o => grantExt c o r e s1

/-- PORT_REQUEST_URGENT (R93): the n-th waiting request of a port that has waited 32 handshakes becomes urgent. -/
def execPortRequestUrgent (c : Fin 384) (t : Fin 4) (n : Nat) (s : State) : Res :=
  let up (r : PortReq) : PortReq := if 32 ≤ r.waited then { r with urgent := true } else r
  .next (s.modCore c fun co => { co with lports := co.lports.set t { co.lports[t] with reqs := co.lports[t].reqs.modify n up } })

/-! ### Completion (R126, R131) -/

/-- Whether a core by its index is in service (R130 REMOTE, R203, R472). -/
def coreServes (s : State) (n : Nat) : Bool :=
  n < 384 && (s.cluster (clusterOf (ix 384 n))).inService && !(s.core (ix 384 n)).retired

/-- Whether an in-flight instruction has reached the point of R126, its queue space aside. -/
def reached (co : Core) (k : Fin 8) (f : Inflight) : Bool :=
  match opOf f.word with
  | some (.pass p) => f.started && (p.hold || (f.left = 0 && !hasReqs co k f.uid))
  | some (.mv m) => f.started && (m.hold || m.drain || (f.moved && !hasReqs co k f.uid))
  | some (.vec _ _) => f.started
  | some (.send _) => f.moved || f.remote.isSome
  | some (.recv _) => f.moved || f.remote.isSome
  | some _ => f.moved && !hasReqs co k f.uid
  | none => true

/-- Tokens into one queue arrive in program order (R111): an earlier instruction still to push there holds this one. -/
def pushHeld (st : Station) (f : Inflight) : Bool :=
  !f.mute && st.inflight.any fun g => g.uid < f.uid && !g.mute && (outQueues g.word).any fun q => (outQueues f.word).contains q

/-- A peer of a queue push that is out of service (R130). -/
def pushPeerOut (s : State) (c : Fin 384) (f : Inflight) : Option Nat :=
  (outQueues f.word).findSome? fun q =>
    let t := (s.core c).queues[q]
    if t.cons = 0x20 && !coreServes s t.peerCore.toNat then some t.peerCore.toNat else none

/-- The post-fire exception a completing instruction raises, of lowest code (R130, R137). -/
def postFault (st : Station) (f : Inflight) (peerOut : Option Nat) : Option (Nat × Word) :=
  if f.raised &&& st.haltMask ≠ 0 then some (6, f.raised.setWidth 32)
  else if f.marked && st.haltUncorr then some (7, 0)
  else match f.remote.orElse fun _ => peerOut with
    | some p => some (8, BitVec.ofNat 32 p)
    | none => match opOf f.word with
      | some (.trap code) => some (10, code.setWidth 32)
      | _ => none

/-- A station whose END has fired is DONE once nothing is in flight (R116, R141). -/
def checkDone (c : Fin 384) (k : Fin 8) (s : State) : State :=
  let st := s.station c k
  if st.state = .run && st.ending && st.inflight.isEmpty then
    skPost (clusterOf c) 1 (c.val % 8) k.val 0 (s.setStation c k { st with state := .done, ending := false })
  else s

/-- The units let go of an instruction that completes: a held chain keeps its accumulators (R120, R122). -/
def releaseUnit (key : Fin 8 × Nat) (co : Core) : Core :=
  { co with
    arrays := co.arrays.map fun u => if u.streaming = some key then { u with streaming := none } else u,
    mvu := if co.mvu.streaming = some key then { co.mvu with streaming := none, finished := none }
      else if co.mvu.finished = some key then { co.mvu with finished := none } else co.mvu }

/-- Completion of an instruction that has reached it: effects end, tokens, exception (R126, R131). -/
def completeNow (c : Fin 384) (k : Fin 8) (f : Inflight) (s : State) : State :=
  let st := s.station c k
  let out := pushPeerOut s c f
  let noPush := f.mute || f.remote.isSome || out.isSome
  let qs := outQueues f.word
  let s1 := s.modCore c (releaseUnit (k, f.uid))
  let s2 := s1.modStation c k fun st => { st with
    inflight := st.inflight.filter fun g => g.uid ≠ f.uid, stuck := if noPush then st.stuck ++ qs else st.stuck }
  let s3 := if noPush then s2 else forAll qs (fun q => sendToken c q f.outVal) s2
  let s4 := match postFault st f out with
    | some x => haltStation c k x.1 f.pc x.2 (some f.uid) s3
    | none => s3
  checkDone c k s4

/-- INSTRUCTION_COMPLETE (R126): the n-th in-flight instruction of a station. -/
def execInstructionComplete (c : Fin 384) (k : Fin 8) (n : Nat) (s : State) : Res :=
  match (s.station c k).inflight[n]? with
  | none => .next s
  | some f =>
    if !reached (s.core c) k f || pushHeld (s.station c k) f then .next s
    else match opOf f.word with
      | some (.mv m) =>
        if m.drain && !m.hold && !f.moved then
          match mvQueue c k f m s with
          | some s1 => .next (completeNow c k f s1)
          | none => .next s
        else .next (completeNow c k f s)
      | _ => .next (completeNow c k f s)

/-! ### Between cores (R109, R110) -/

/-- The first token or credit on its way to a queue. -/
def wireIx (s : State) (c : Fin 384) (q : Fin 32) (credit : Bool) : Option Nat :=
  s.wires.findIdx? fun w => w.core = c.val && w.q = q && w.credit = credit

/-- REMOTE_TOKEN_ARRIVAL (R110). -/
def execRemoteTokenArrival (c : Fin 384) (q : Fin 32) (s : State) : Res :=
  match wireIx s c q false with
  | none => .next s
  | some n =>
    let v := match s.wires[n]? with
      | some w => w.val
      | none => 0
    let add (t : TokenQueue) : TokenQueue := { t with tokens := t.tokens ++ [v] }
    .next ((s.setWires (s.wires.eraseIdx n)).modCore c fun co => { co with queues := co.queues.set q (add co.queues[q]) })

/-- REMOTE_CREDIT_RETURN (R109). -/
def execRemoteCreditReturn (c : Fin 384) (q : Fin 32) (s : State) : Res :=
  match wireIx s c q true with
  | none => .next s
  | some n => .next (returnCredit c q (s.setWires (s.wires.eraseIdx n)))

/-- STATION_WATCHDOG (R134, R130): the interval of STN_WDOG has passed in market time since the last firing. -/
def execStationWatchdog (c : Fin 384) (k : Fin 8) (s : State) : Res :=
  let st := s.station c k
  let now := s.clusterTime (clusterOf c)
  if st.state = .run && st.wdog ≠ 0 && (st.wdog.toNat * 1000 : Int) ≤ (now - st.wdogFrom).toInt then .next (preFire c k 9 0 s)
  else .next s

end Sys2Proof.Machine
end

