-- ==== Sys2Proof/Machine/Counters.lean ====
section
/-! DEFINITION. The counter block of a core (R102 to R105, R165 to R169, R204, R205), its reads and its writes. -/
namespace Sys2Proof.Machine
open Sys2Proof

/-- Half of a 64-bit counter. -/
def halfOf (x : Dword) (hi : Bool) : Word := if hi then bits x 32 32 else bits x 0 32

/-- Unused spare rows of a mat (R202, R200): at least 4 at shipment, at most 8; a replaced mat has the spare mat's. -/
def spareRows (c : Fin 384) (t : Fin 4) (co : Core) (mat : Nat) : Nat :=
  let sl := co.slices[t]
  let m := if sl.replacedMat = some mat then 72 else mat
  4 + Config.extraSpareRows c.val t.val m % 5 - (sl.rowsUsed.filter fun r => r.1 = mat).length

/-- LS_SPARE (R205). -/
def lsSpare (c : Fin 384) (co : Core) : Word :=
  let rows := (List.finRange 4).flatMap fun t => (List.range 72).map (spareRows c t co)
  let mats := ((List.finRange 4).filter fun t => !co.slices[t].matSpent).length
  BitVec.ofNat 32 (rows.foldl min 8 + 16 * mats + 256 * b2n co.retire + 512 * b2n co.retired)

/-- WATCH_STATUS (R168). -/
def watchStatus (w : Watch) : Word :=
  BitVec.ofNat 32 (b2n w.satTrig + 2 * b2n w.ufzTrig + 4 * b2n w.edgeTrig + 8 * b2n w.retaining + 16 * b2n w.retainFull
    + 32 * b2n w.replayed + 64 * b2n w.refused + 65536 * w.trigCnt.toNat)

/-- A word of an array's counters (R102). -/
def arrWord (u : ArrayUnit) (o : Nat) : Word :=
  if o = 0 then u.passCnt
  else if o / 8 = 1 then halfOf u.macCnt (o % 8 = 4)
  else if o / 8 = 2 then halfOf u.gatedCnt (o % 8 = 4)
  else if o / 8 = 3 then halfOf u.stallCnt (o % 8 = 4)
  else if o / 8 = 4 then halfOf u.outWaitCnt (o % 8 = 4)
  else if o / 8 = 5 then halfOf u.starveCnt (o % 8 = 4)
  else 0

/-- A word of the counter block at a byte offset that is a multiple of 4 (R102, R165, R204). -/
def ctrWord (c : Fin 384) (co : Core) (o : Nat) : Word :=
  let hi := o % 8 = 4
  let w := co.watch
  if o < 0x100 then arrWord co.arrays[ix 4 (o / 64)] (o % 64)
  else if o < 0x120 then
    (if o < 0x108 then halfOf co.bWaitCnt hi else if o < 0x110 then halfOf co.bStarveCnt hi
     else if o < 0x118 then halfOf co.mvu.macCnt hi else halfOf co.mvu.gatedCnt hi)
  else if o < 0x140 then halfOf co.lports[ix 4 ((o - 0x120) / 8)].grantCnt hi
  else if o < 0x160 then halfOf co.lports[ix 4 ((o - 0x140) / 8)].urgentCnt hi
  else if o < 0x168 then halfOf co.xnetBusyCnt hi
  else match o with
    | 0x180 => co.satCnt
    | 0x184 => co.ufzCnt
    | 0x188 => co.psnCnt
    | 0x18C => co.edgeCnt
    | 0x190 => BitVec.ofNat 32 (w.action.toNat + 256 * w.edgeFrac.toNat)
    | 0x194 => w.satThr
    | 0x198 => w.ufzThr
    | 0x19C => w.edgeMin
    | 0x1A0 => w.blockCnt
    | 0x1A4 => watchStatus w
    | 0x1B0 => w.replayBase.setWidth 32
    | 0x1B4 => w.replayLimit.setWidth 32
    | 0x1B8 => w.replayUsed
    | 0x1C0 => co.lsCe
    | 0x1C4 => co.lsUe
    | 0x1C8 => co.lsRepair
    | 0x1CC => lsSpare c co
    | _ => 0

/-- Clear the counters of one array (R104). -/
def clearArr (u : ArrayUnit) : ArrayUnit :=
  { u with passCnt := 0, macCnt := 0, gatedCnt := 0, stallCnt := 0, outWaitCnt := 0, starveCnt := 0 }

/-- A write of CNT_CLEAR (R104, R169). -/
def cntClear (v : Word) (co : Core) : Core :=
  let co1 : Core :=
    { co with arrays := Vector.ofFn fun (a : Fin 4) => if v.getLsbD a.val then clearArr co.arrays[a] else co.arrays[a] }
  let co2 : Core :=
    if v.getLsbD 4 then
      { co1 with
        bWaitCnt := 0, bStarveCnt := 0, xnetBusyCnt := 0, mvu := { co1.mvu with macCnt := 0, gatedCnt := 0 },
        lports := co1.lports.map fun p => { p with grantCnt := 0, urgentCnt := 0 } }
    else co1
  if v.getLsbD 5 then takeBase { co2 with satCnt := 0, ufzCnt := 0, psnCnt := 0, edgeCnt := 0 } else co2

/-- WATCH_CTRL.ARM (R168, R169): new bases, trigger bits cleared. -/
def watchArm (co : Core) : Core :=
  let co1 := takeBase co
  { co1 with watch := { co1.watch with satTrig := false, ufzTrig := false, edgeTrig := false } }

/-- A write to the counter block; read-only words take none (R104, R165). -/
def ctrWrite (o : Nat) (v : Word) (co : Core) : Core :=
  let w := co.watch
  match o with
  | 0x190 => { co with watch := { w with action := bits v 0 2, edgeFrac := bits v 8 8 } }
  | 0x194 => { co with watch := { w with satThr := v } }
  | 0x198 => { co with watch := { w with ufzThr := v } }
  | 0x19C => { co with watch := { w with edgeMin := v } }
  | 0x1A8 => if v.getLsbD 0 then watchArm co else co
  | 0x1B0 => { co with watch := { w with replayBase := bits v 0 28 } }
  | 0x1B4 => { co with watch := { w with replayLimit := bits v 0 28 } }
  | 0x1F8 => cntClear v co
  | _ => co

end Sys2Proof.Machine
end

