-- ==== Sys2Proof/Machine/Stall.lean ====
section
/-! DEFINITION. The stallkeeper (R138 to R143), its commands to stations (R133) and its control registers (R142, R384, R412). -/
namespace Sys2Proof.Machine
open Sys2Proof

/-- A stallkeeper register; g0 reads as zero (R138). -/
def Stallkeeper.reg (k : Stallkeeper) (r : BitVec 5) : Word := if r = 0 then 0 else k.g[r.toNat]

/-- Write a stallkeeper register. -/
def Stallkeeper.setG (k : Stallkeeper) (r : BitVec 5) (v : Word) : Stallkeeper :=
  if r = 0 then k else { k with g := k.g.set r.toNat v }

/-- Change a cluster's stallkeeper. -/
def State.modSk (s : State) (cl : Fin 48) (f : Stallkeeper → Stallkeeper) : State :=
  s.modCluster cl fun c => { c with sk := f c.sk }

/-! ### The address space (R138) -/

/-- Whether every station of a core is IDLE or HALTED. -/
def allStopped (co : Core) : Bool := co.stns.toList.all fun st => st.state = .idle || st.state = .halted

/-- A word of a station's control block (R135 to R137). -/
def stnWord (st : Station) (o : Nat) : Word :=
  match o with
  | 0x00 => BitVec.ofNat 32 (st.entry.toNat + 2 ^ 15 * b2n st.enable + 2 ^ 16 * st.haltMask.toNat + 2 ^ 19 * b2n st.haltUncorr)
  | 0x04 => st.wdog.setWidth 32
  | 0x08 =>
    let code := match st.state with
      | .idle => 0
      | .run => 1
      | .halted => 2
      | .done => 3
    BitVec.ofNat 32 (code + 8 * min 31 st.inflight.length + 2 ^ 8 * st.pc.toNat + 2 ^ 20 * st.flags.toNat)
  | 0x0C => BitVec.ofNat 32 (st.excCode.toNat + 2 ^ 8 * b2n st.excPost + 2 ^ 9 * st.excPc.toNat + 2 ^ 21 * st.excLost.toNat)
  | 0x10 => st.excDetail
  | _ => 0

/-- Write a word of a station's control block, in IDLE or HALTED only (R135). -/
def stnWrite (o : Nat) (v : Word) (st : Station) : Station :=
  if st.state ≠ .idle && st.state ≠ .halted then st
  else match o with
    | 0x00 => { st with entry := bits v 0 12, enable := v.getLsbD 15, haltMask := bits v 16 3, haltUncorr := v.getLsbD 19 }
    | 0x04 => { st with wdog := bits v 0 16 }
    | _ => st

/-- The bits of an operand-table word that hold (R113, R7). -/
def optabMask (i : Nat) (v : Word) : Word :=
  match i % 8 with
  | 1 => v &&& 0x7FFFFFFF
  | 3 => v &&& 0x0FFFFFFF
  | 4 => v &&& 0x00FFFFFF
  | 6 => v &&& 0x000000FF
  | 7 => 0
  | _ => v

/-- The bits of a queue-map word that hold (R108, R7). -/
def qmapMask (i : Nat) (v : Word) : Word :=
  match i % 4 with
  | 0 => v &&& 0x3FFFFFFF
  | 1 => v &&& 0x00001F1F
  | _ => v

/-- A word of a core's window; none outside the map (R138). -/
def windowRead (c : Fin 384) (co : Core) (o : Nat) : Option Word :=
  if o < 0x10000 then some (co.istore.word o)
  else if o < 0x12000 then some (co.optab.word (o - 0x10000))
  else if o < 0x12200 then some (co.qmap.word (o - 0x12000))
  else if o < 0x13000 then none
  else if o < 0x13200 then some (stnWord co.stns[ix 8 ((o - 0x13000) / 64)] (o % 64))
  else if o < 0x14000 then none
  else if o < 0x14200 then some (ctrWord c co (o - 0x14000))
  else if o < 0x18000 then none
  else if o < 0x1C000 then
    let r := (o - 0x18000) / 256
    some (if co.stns[ix 8 (r / 8)].state = .run then 0 else co.vregs[ix 64 r].toList.getD (o % 256 / 4) 0)
  else none

/-- Write a word of a core's window; none outside the map. -/
def windowWrite (co : Core) (o : Nat) (v : Word) : Option Core :=
  if o < 0x10000 then some (if allStopped co then { co with istore := co.istore.putLE o 4 v.toNat } else co)
  else if o < 0x12000 then
    let a := o - 0x10000
    some (if allStopped co then { co with optab := co.optab.putLE a 4 (optabMask (a / 4) v).toNat } else co)
  else if o < 0x12200 then
    let a := o - 0x12000
    some (if allStopped co then { co with qmap := co.qmap.putLE a 4 (qmapMask (a / 4) v).toNat } else co)
  else if o < 0x13000 then none
  else if o < 0x13200 then
    let k := ix 8 ((o - 0x13000) / 64)
    some { co with stns := co.stns.set k (stnWrite (o % 64) v co.stns[k]) }
  else if o < 0x14000 then none
  else if o < 0x14200 then some (ctrWrite (o - 0x14000) v co)
  else if o < 0x18000 then none
  else if o < 0x1C000 then
    let r := (o - 0x18000) / 256
    some (if co.stns[ix 8 (r / 8)].state = .run then co
      else { co with vregs := co.vregs.set (ix 64 r) (co.vregs[ix 64 r].setIfInBounds (o % 256 / 4) v) })
  else none

/-- A word of a crier channel (R154). -/
def crierWord (x : CrierChan) (o : Nat) : Word :=
  if o = 0 then BitVec.ofNat 32 (x.threshold.toNat + 65536 * b2n x.skEvent)
  else if o = 4 then BitVec.ofNat 32 (x.targets[0].toNat + 65536 * x.targets[1].toNat)
  else if o = 8 then BitVec.ofNat 32 (x.targets[2].toNat + 65536 * x.targets[3].toNat)
  else BitVec.ofNat 32 (x.count.toNat + 65536 * x.gen.toNat)

/-- Porter tags that running commands hold: one for each transaction, one for a command that opens none (R150). -/
def Cluster.tags (cu : Cluster) : Nat := (cu.prun.map fun r => max 1 r.txns).foldl (· + ·) 0

/-- A word of the stallkeeper's address space; none outside the map or misaligned (R138, R143). Porter status: word 0 the
tags held, words 1 to 4 the entries waiting per queue (log 17). -/
def skRead (s : State) (cl : Fin 48) (a : Nat) : Option Word :=
  let cu := s.cluster cl
  if a % 4 ≠ 0 then none
  else if a < 0x10000 then some (cu.sk.imem.word a)
  else if a < 0x50000 then some (cu.sk.dmem.word (a - 0x10000))
  else if a < 0x10000000 then none
  else if a < 0x10800000 then
    let c := coreOf cl ((a - 0x10000000) / 0x100000)
    windowRead c (s.core c) (a % 0x100000)
  else if a < 0x20000000 then none
  else if a < 0x20000400 then some (crierWord cu.crier[ix 64 ((a - 0x20000000) / 16)] (a % 16))
  else if a = 0x21000000 then some (BitVec.ofNat 32 cu.tags)
  else if 0x21000004 ≤ a && a ≤ 0x21000010 then some (BitVec.ofNat 32 (cu.pq[ix 4 ((a - 0x21000004) / 4)]).length)
  else none

/-- A write of a crier channel's word; 1 written to COUNT is one arrival (R154). -/
def crierWrite (cl : Fin 48) (ch : Fin 64) (o : Nat) (v : Word) (s : State) : State :=
  let upd (f : CrierChan → CrierChan) : State :=
    s.modCluster cl fun cu => { cu with crier := cu.crier.set ch (f cu.crier[ch]) }
  if o = 0 then upd fun x => { x with threshold := bits v 0 16, skEvent := v.getLsbD 16 }
  else if o = 4 then upd fun x => { x with targets := (x.targets.set 0 (bits v 0 16)).set 1 (bits v 16 16) }
  else if o = 8 then upd fun x => { x with targets := (x.targets.set 2 (bits v 0 16)).set 3 (bits v 16 16) }
  else if bits v 0 16 = (1 : Half) then crierArrive cl ch 1 s
  else upd fun x => { x with count := bits v 0 16 }

/-- Store a word in the stallkeeper's address space; none outside the map or misaligned. -/
def skWrite (s : State) (cl : Fin 48) (a : Nat) (v : Word) : Option State :=
  if a % 4 ≠ 0 then none
  else if a < 0x10000 then some (s.modSk cl fun k => { k with imem := k.imem.putLE a 4 v.toNat })
  else if a < 0x50000 then some (s.modSk cl fun k => { k with dmem := k.dmem.putLE (a - 0x10000) 4 v.toNat })
  else if a < 0x10000000 then none
  else if a < 0x10800000 then
    let c := coreOf cl ((a - 0x10000000) / 0x100000)
    (windowWrite (s.core c) (a % 0x100000) v).map fun co => watchCheck c (s.setCore c co)
  else if a < 0x20000000 then none
  else if a < 0x20000400 then some (crierWrite cl (ix 64 ((a - 0x20000000) / 16)) (a % 16) v s)
  else if 0x21000000 ≤ a && a ≤ 0x21000010 then some s
  else none

/-! ### Station commands (R133) -/

/-- RESET of a station, in every state: its in-flight work, holds, requests and reserved credits go (R133). -/
def resetStation (c : Fin 384) (k : Fin 8) (s : State) : State :=
  let st := s.station c k
  let back := st.stuck ++ st.inflight.flatMap fun f => outQueues f.word
  let mineB (u : ArrayUnit) : ArrayUnit :=
    let u1 : ArrayUnit := match u.bias with
      | some b => if b.stn = k then { u with bias := none } else u
      | none => u
    let keep (x : Option (Fin 8 × Nat)) : Option (Fin 8 × Nat) := x.filter fun y => y.1 ≠ k
    { u1 with
      finished := keep u1.finished, follower := keep u1.follower, drain := u1.drain.filter fun d => d.stn ≠ k, issued := u1.issued.filter fun y => y.1 ≠ k }
  let st1 : Station :=
    { st with
      state := .idle, regs := Vector.replicate 16 0, flags := 0, inflight := [], stuck := [], ending := false,
      excCode := 0, excPost := false, excPc := 0, excLost := 0, excDetail := 0 }
  let freeAll (co : Core) : Core :=
    (st.inflight.filter fun f => !f.started).foldl (fun co f => freeSlots k f co) co
  let clean (co : Core) : Core :=
    let co1 := dropReqs (fun o => o.1 = k) (dropHolds k (abandonStreams k (freeAll co)))
    { co1 with
      stns := co1.stns.set k st1, arrays := co1.arrays.map mineB,
      mvu := { co1.mvu with finished := co1.mvu.finished.filter fun y => y.1 ≠ k, issued := co1.mvu.issued.filter fun y => y.1 ≠ k } }
  let dropXfer (cu : Cluster) : Cluster :=
    let keep (p : PorterCmd) : Bool := match p.xfer with
      | some x => !(x.core = c && x.stn = k)
      | none => true
    { cu with pq := cu.pq.set 3 (cu.pq[3].filter keep) }
  forAll back (fun q => returnCredit c q) ((s.modCore c clean).modCluster (clusterOf c) dropXfer)

/-- START puts an IDLE station in RUN at ENTRY (R133). -/
def startStation (c : Fin 384) (k : Fin 8) (s : State) : State :=
  let now := s.clusterTime (clusterOf c)
  s.modStation c k fun st => if st.state = .idle then { st with state := .run, pc := st.entry, wdogFrom := now } else st

/-- RESUME leaves HALTED: at STN_EXC's PC after a pre-fire exception, at the following instruction after a post-fire one. -/
def resumeStation (c : Fin 384) (k : Fin 8) (s : State) : State :=
  let now := s.clusterTime (clusterOf c)
  let go (st : Station) : Station :=
    if st.state = .halted then
      { st with
        state := .run, pc := if st.excPost then st.excPc + 1 else st.excPc, wdogFrom := now,
        excCode := 0, excPost := false, excPc := 0, excLost := 0, excDetail := 0 }
    else st
  checkDone c k (s.modStation c k go)

/-! ### Execution -/

/-- Advance the pc by one instruction. -/
def skNext (cl : Fin 48) (s : State) : State := s.modSk cl fun k => { k with pc := k.pc + 4 }

/-- Set a register and go on. -/
def skSet (cl : Fin 48) (r : BitVec 5) (v : Word) (s : State) : State := skNext cl (s.modSk cl fun k => k.setG r v)

/-- The stallkeeper stops, and ends the launch on its cluster with ERR_MALFORMED (R143). -/
def skStop (cl : Fin 48) (s : State) : State := endCluster cl stMalformed s

/-- END statuses other than those R149 names are taken as ERR_MALFORMED. -/
def endStatus (x : Byte) : Byte :=
  if x = stOk || x = stCorrected || x = stUncorrected || x = stTimeout || x = stMalformed || x = stRecipe then x else stMalformed

/-- Whether an event whose bit is set in a mask is pending (R140, R141). -/
def eventPending (k : Stallkeeper) (mask : Word) : Bool := k.events.any fun e => mask.getLsbD (e.toNat % 256 % 32)

/-- The interval of STOP_CAPTURE (R413). -/
def intervalOf (st : Option IStart) (stop : Dword) (hold : Bool) : Word :=
  match st with
  | none => 0x80000000
  | some x =>
    let h := b2n (x.hold || hold)
    let d := (stop - x.val).toInt
    if x.stepped || d < 0 then BitVec.ofNat 32 (2 ^ 31 + 2 ^ 29 * h)
    else if d = 0 then BitVec.ofNat 32 (2 ^ 30 + 2 ^ 29 * h)
    else BitVec.ofNat 32 (min d.toNat (2 ^ 29 - 1) + 2 ^ 29 * h)

/-- What a read of NORM_FACTOR finds (R384, R386): the code, or none while it waits. -/
def normLook (s : State) (id : Word) : Option Word × Bool :=
  match s.coll.norms.find? fun n => n.id = id with
  | some n => if n.status = 1 then (some n.factor, true) else if n.status = 2 then (some 0x7FFFFFFF, true) else (none, true)
  | none => (none, false)

/-- CSRR (R140 to R142, R384, R412). Registers not defined or write-only read as zero (R6, R7; log 17). -/
def csrRead (cl : Fin 48) (gd : BitVec 5) (i : Half) (s : State) : State :=
  let k := s.sk cl
  match i.toNat with
  | 0x01 => skSet cl gd (k.events.headD 0) (s.modSk cl fun k => { k with events := k.events.tail })
  | 0x10 => skSet cl gd k.timer s
  | 0x14 =>
    let t := s.clusterTime cl
    skSet cl gd (halfOf t false) (s.modSk cl fun k => { k with nowHi := halfOf t true })
  | 0x15 => skSet cl gd k.nowHi s
  | 0x17 => skSet cl gd k.interval s
  | 0x20 => skSet cl gd k.normSel s
  | 0x21 =>
    let r := normLook s k.normSel
    match r.1 with
    | some v => skSet cl gd v (s.modSk cl fun k => { k with normSince := none })
    | none =>
      if r.2 then s.modSk cl fun k => { k with normSince := none }
      else s.modSk cl fun k => { k with normSince := some (k.normSince.getD s.ns) }
  | _ => skSet cl gd 0 s

/-- CSRW (R142, R384, R412). -/
def csrWrite (cl : Fin 48) (i : Half) (v : Word) (s : State) : State :=
  let now := s.clusterTime cl
  let hold := s.time.holdover
  let upd (f : Stallkeeper → Stallkeeper) : State := skNext cl (s.modSk cl f)
  match i.toNat with
  | 0x10 => upd fun k => { k with timer := v, timerArmed := true }
  | 0x11 => upd fun k => { k with start := some ⟨now, hold, false⟩ }
  | 0x12 => upd fun k => { k with startLo := v }
  | 0x13 => upd fun k => { k with start := some ⟨v ++ k.startLo, hold, false⟩ }
  | 0x16 => upd fun k => { k with interval := intervalOf k.start now hold }
  | 0x20 => upd fun k => { k with normSel := v }
  | _ => upd id

/-- The 64-byte porter command or the broadcast record at a data address; none outside data memory. -/
def dataAt (k : Stallkeeper) (a n : Nat) : Option (List Byte) :=
  if 0x10000 ≤ a && a + n ≤ 0x50000 then some (k.dmem.getBytes (a - 0x10000) n) else none

/-- CCTL (R133, R140): the command waits while an INJECT finds its queue full. -/
def cctl (cl : Fin 48) (ga gb gd : Word) (fn : Nat) (s : State) : State :=
  let c := coreOf cl (bits ga 0 3).toNat
  let k := ix 8 (bits ga 3 3).toNat
  match fn with
  | 0 => skNext cl (startStation c k s)
  | 1 => skNext cl (haltCommanded c k s)
  | 2 => skNext cl (resumeStation c k s)
  | 3 => skNext cl (resetStation c k s)
  | _ =>
    let q := ix 32 (bits gb 0 5).toNat
    let t := (s.core c).queues[q]
    if t.prod = 0x20 then
      let pc := ix 384 t.peerCore.toNat
      if (s.core pc).queues[t.peerQ].credits = 0 then s else skNext cl (sendToken c q gd (spendCredit pc t.peerQ s))
    else if t.credits = 0 then s else skNext cl (pushToken c q gd s)

/-- PCMD (R140, R150, R151): posts a porter command, or waits while its queue is full. PCMD feeds queues 0 to 2: one that names queue 3
posts nothing (DESIGN CHOICE, log 46). -/
def pcmd (cl : Fin 48) (ga : Word) (imm : Half) (s : State) : State :=
  let q := ix 4 (bits imm 0 2).toNat
  match dataAt (s.sk cl) ga.toNat 64 with
  | none => skStop cl s
  | some bs =>
    if q = 3 then skNext cl s
    else if 64 ≤ ((s.cluster cl).pq[q]).length then s
    else skNext cl (s.modCluster cl fun cu => { cu with
      pq := cu.pq.set q (cu.pq[q] ++ [⟨BitVec.ofNat 512 (leNat bs), none⟩]) })

/-- CCMD (R155): posts a broadcast. -/
def ccmd (cl : Fin 48) (ga : Word) (s : State) : State :=
  match dataAt (s.sk cl) ga.toNat 24 with
  | none => skStop cl s
  | some bs =>
    let b : Broadcast :=
      { src := leNat (bs.take 2), coreMask := bs.getD 2 0, chan := ix 64 (bs.getD 3 0).toNat, addr := leNat ((bs.drop 4).take 4),
        len := leNat ((bs.drop 8).take 4), clusters := BitVec.ofNat 48 (leNat ((bs.drop 12).take 8)) }
    skNext cl (s.modCluster cl fun cu => { cu with bcasts := cu.bcasts ++ [b] })

/-- WAIT (R140): goes on when a selected event is pending, else sleeps. -/
def skSleep (cl : Fin 48) (mask : Word) (s : State) : State :=
  if eventPending (s.sk cl) mask then skNext cl s else s.modSk cl fun k => { k with st := .wait, waitMask := mask }

/-- A signed offset in instructions from the branch itself (R139; log 17). -/
def branchTo {w : Nat} (pc : Word) (off : BitVec w) : Word := pc + BitVec.ofInt 32 (4 * off.toInt)

/-- An address: register plus sign-extended immediate. -/
def effAddr (ga : Word) (imm : Half) : Word := ga + imm.signExtend 32

/-- One stallkeeper operation (R140). -/
def skExec (cl : Fin 48) (o : SkOp) (s : State) : State :=
  let k := s.sk cl
  match o with
  | .alu gd ga gb fn => skSet cl gd (aluFn fn.toNat (k.reg ga) (k.reg gb)) s
  | .addi gd ga i => skSet cl gd (k.reg ga + i.signExtend 32) s
  | .andi gd ga i => skSet cl gd (k.reg ga &&& i.setWidth 32) s
  | .ori gd ga i => skSet cl gd (k.reg ga ||| i.setWidth 32) s
  | .lui gd _ i => skSet cl gd (i ++ 0#16) s
  | .lw gd ga i => match skRead s cl (effAddr (k.reg ga) i).toNat with
    | some v => skSet cl gd v s
    | none => skStop cl s
  | .sw gd ga i => match skWrite s cl (effAddr (k.reg ga) i).toNat (k.reg gd) with
    | some t => skNext cl t
    | none => skStop cl s
  | .branch c ga gb i =>
    if condHolds c.toNat (k.reg ga) (k.reg gb) then s.modSk cl fun k => { k with pc := branchTo k.pc i } else skNext cl s
  | .jal off => s.modSk cl fun k => { k.setG 31 (k.pc + 4) with pc := branchTo k.pc off }
  | .jr _ ga i => s.modSk cl fun k => { k with pc := effAddr (k.reg ga) i }
  | .csrr gd _ i => csrRead cl gd i s
  | .csrw _ ga i => csrWrite cl i (k.reg ga) s
  | .wait _ ga _ => skSleep cl (k.reg ga) s
  | .cctl gd ga gb fn => cctl cl (k.reg ga) (k.reg gb) (k.reg gd) fn.toNat s
  | .pcmd _ ga i => pcmd cl (k.reg ga) i s
  | .ccmd _ ga _ => ccmd cl (k.reg ga) s
  | .endSk _ _ i => endCluster cl (endStatus (bits i 0 8)) s

/-- The instruction at the pc; none where the pc leaves instruction memory or is off a word. -/
def skFetch (k : Stallkeeper) : Option Word :=
  if k.pc.toNat % 4 = 0 && k.pc.toNat < 0x10000 then some (k.imem.word k.pc.toNat) else none

/-- The stallkeeper executes its next instruction where it is in RUN and that instruction is of the kind commanded; an
illegal one stops it (R143). -/
def skStep (cl : Fin 48) (kind : Stallkeeper → SkOp → Bool) (s : State) : State :=
  let k := s.sk cl
  if k.st ≠ .run then s
  else match (skFetch k).bind decodeSk with
    | none => skStop cl s
    | some o => if kind k o then skExec cl o s else s

/-- Whether an operation writes a control register. -/
def writesCsr (n : Nat) (o : SkOp) : Bool :=
  match o with
  | .csrw _ _ i => i.toNat = n
  | _ => false

/-- Whether an operation reads a control register. -/
def readsCsr (n : Nat) (o : SkOp) : Bool :=
  match o with
  | .csrr _ _ i => i.toNat = n
  | _ => false

/-- The address and value of a store. -/
def storeOf (k : Stallkeeper) (o : SkOp) : Option (Nat × Word) :=
  match o with
  | .sw gd ga i => some ((effAddr (k.reg ga) i).toNat, k.reg gd)
  | _ => none

/-- Whether a store writes a counter-block register of some core of the cluster, with a bit of a mask set. -/
def storesCtr (o : Nat) (mask : Word) (k : Stallkeeper) (i : SkOp) : Bool :=
  match storeOf k i with
  | some x => 0x10000000 ≤ x.1 && x.1 < 0x10800000 && x.1 % 0x100000 = 0x14000 + o && x.2 &&& mask ≠ 0
  | none => false

/-- Whether a store writes 1 to a crier channel's COUNT. -/
def storesCount (k : Stallkeeper) (i : SkOp) : Bool :=
  match storeOf k i with
  | some x => 0x20000000 ≤ x.1 && x.1 < 0x20000400 && x.1 % 16 = 12 && bits x.2 0 16 = (1 : Half)
  | none => false

/-- SK_ALU (R140). gd = ga FN gb. -/
def execSkAlu (cl : Fin 48) (s : State) : Res := .next (skStep cl (fun _ o => match o with
  | .alu _ _ _ _ => true
  | _ => false) s)

/-- ADDI (R140).  -/
def execAddi (cl : Fin 48) (s : State) : Res := .next (skStep cl (fun _ o => match o with
  | .addi _ _ _ => true
  | _ => false) s)

/-- ANDI (R140).  -/
def execAndi (cl : Fin 48) (s : State) : Res := .next (skStep cl (fun _ o => match o with
  | .andi _ _ _ => true
  | _ => false) s)

/-- ORI (R140).  -/
def execOri (cl : Fin 48) (s : State) : Res := .next (skStep cl (fun _ o => match o with
  | .ori _ _ _ => true
  | _ => false) s)

/-- LUI (R140).  -/
def execLui (cl : Fin 48) (s : State) : Res := .next (skStep cl (fun _ o => match o with
  | .lui _ _ _ => true
  | _ => false) s)

/-- LW (R140).  -/
def execLw (cl : Fin 48) (s : State) : Res := .next (skStep cl (fun _ o => match o with
  | .lw _ _ _ => true
  | _ => false) s)

/-- SW (R140).  -/
def execSw (cl : Fin 48) (s : State) : Res := .next (skStep cl (fun _ o => match o with
  | .sw _ _ _ => true
  | _ => false) s)

/-- BEQ (R140).  -/
def execBeq (cl : Fin 48) (s : State) : Res := .next (skStep cl (fun _ o => match o with
  | .branch c _ _ _ => c = 0
  | _ => false) s)

/-- BNE (R140).  -/
def execBne (cl : Fin 48) (s : State) : Res := .next (skStep cl (fun _ o => match o with
  | .branch c _ _ _ => c = 1
  | _ => false) s)

/-- BLT (R140).  -/
def execBlt (cl : Fin 48) (s : State) : Res := .next (skStep cl (fun _ o => match o with
  | .branch c _ _ _ => c = 2
  | _ => false) s)

/-- BGE (R140).  -/
def execBge (cl : Fin 48) (s : State) : Res := .next (skStep cl (fun _ o => match o with
  | .branch c _ _ _ => c = 3
  | _ => false) s)

/-- BLTU (R140).  -/
def execBltu (cl : Fin 48) (s : State) : Res := .next (skStep cl (fun _ o => match o with
  | .branch c _ _ _ => c = 4
  | _ => false) s)

/-- BGEU (R140).  -/
def execBgeu (cl : Fin 48) (s : State) : Res := .next (skStep cl (fun _ o => match o with
  | .branch c _ _ _ => c = 5
  | _ => false) s)

/-- JAL (R140).  -/
def execJal (cl : Fin 48) (s : State) : Res := .next (skStep cl (fun _ o => match o with
  | .jal _ => true
  | _ => false) s)

/-- JR (R140).  -/
def execJr (cl : Fin 48) (s : State) : Res := .next (skStep cl (fun _ o => match o with
  | .jr _ _ _ => true
  | _ => false) s)

/-- CSRR (R140). Any control register. -/
def execCsrr (cl : Fin 48) (s : State) : Res := .next (skStep cl (fun _ o => match o with
  | .csrr _ _ _ => true
  | _ => false) s)

/-- CSRW (R140). Any control register. -/
def execCsrw (cl : Fin 48) (s : State) : Res := .next (skStep cl (fun _ o => match o with
  | .csrw _ _ _ => true
  | _ => false) s)

/-- WAIT (R140).  -/
def execSkWait (cl : Fin 48) (s : State) : Res := .next (skStep cl (fun _ o => match o with
  | .wait _ _ _ => true
  | _ => false) s)

/-- WAIT_WAKE (R140): a selected event is pending, and the waiting stallkeeper goes on. -/
def execWaitWake (cl : Fin 48) (s : State) : Res :=
  let k := s.sk cl
  if k.st = .wait && eventPending k k.waitMask then .next (skNext cl (s.modSk cl fun k => { k with st := .run })) else .next s

/-- CCTL_START (R133).  -/
def execCctlStart (cl : Fin 48) (s : State) : Res := .next (skStep cl (fun _ o => match o with
  | .cctl _ _ _ fn => fn = 0
  | _ => false) s)

/-- CCTL_HALT (R133).  -/
def execCctlHalt (cl : Fin 48) (s : State) : Res := .next (skStep cl (fun _ o => match o with
  | .cctl _ _ _ fn => fn = 1
  | _ => false) s)

/-- CCTL_RESUME (R133).  -/
def execCctlResume (cl : Fin 48) (s : State) : Res := .next (skStep cl (fun _ o => match o with
  | .cctl _ _ _ fn => fn = 2
  | _ => false) s)

/-- CCTL_RESET (R133).  -/
def execCctlReset (cl : Fin 48) (s : State) : Res := .next (skStep cl (fun _ o => match o with
  | .cctl _ _ _ fn => fn = 3
  | _ => false) s)

/-- INJECT (R133).  -/
def execCctlInject (cl : Fin 48) (s : State) : Res := .next (skStep cl (fun _ o => match o with
  | .cctl _ _ _ fn => fn = 4
  | _ => false) s)

/-- PCMD (R140, R151).  -/
def execPcmd (cl : Fin 48) (s : State) : Res := .next (skStep cl (fun _ o => match o with
  | .pcmd _ _ _ => true
  | _ => false) s)

/-- CCMD (R155).  -/
def execCcmd (cl : Fin 48) (s : State) : Res := .next (skStep cl (fun _ o => match o with
  | .ccmd _ _ _ => true
  | _ => false) s)

/-- SK_END (R149).  -/
def execSkEnd (cl : Fin 48) (s : State) : Res := .next (skStep cl (fun _ o => match o with
  | .endSk _ _ _ => true
  | _ => false) s)

/-- EVT_POP (R141).  -/
def execEvtPop (cl : Fin 48) (s : State) : Res := .next (skStep cl (fun _ o => readsCsr 0x01 o) s)

/-- TIMER_ARM (R142).  -/
def execTimerArm (cl : Fin 48) (s : State) : Res := .next (skStep cl (fun _ o => writesCsr 0x10 o) s)

/-- TIMER_EVENT (R142): the armed timer has reached its market time. -/
def execTimerEvent (cl : Fin 48) (s : State) : Res :=
  let k := s.sk cl
  if k.timerArmed && (halfOf (s.clusterTime cl) false - k.timer).toNat < 2 ^ 31 then
    .next (skPost cl 5 0 0 0 (s.modSk cl fun k => { k with timerArmed := false }))
  else .next s

/-- START_CAPTURE (R412, R413).  -/
def execStartCapture (cl : Fin 48) (s : State) : Res := .next (skStep cl (fun _ o => writesCsr 0x11 o) s)

/-- START_LO (R412, R413).  -/
def execStartLo (cl : Fin 48) (s : State) : Res := .next (skStep cl (fun _ o => writesCsr 0x12 o) s)

/-- START_HI (R412, R413).  -/
def execStartHi (cl : Fin 48) (s : State) : Res := .next (skStep cl (fun _ o => writesCsr 0x13 o) s)

/-- NOW_LO (R412, R413).  -/
def execNowLo (cl : Fin 48) (s : State) : Res := .next (skStep cl (fun _ o => readsCsr 0x14 o) s)

/-- STOP_CAPTURE (R412, R413).  -/
def execStopCapture (cl : Fin 48) (s : State) : Res := .next (skStep cl (fun _ o => writesCsr 0x16 o) s)

/-- NORM_SEL (R384).  -/
def execNormSel (cl : Fin 48) (s : State) : Res := .next (skStep cl (fun _ o => writesCsr 0x20 o) s)

/-- NORM_FACTOR (R384).  -/
def execNormFactor (cl : Fin 48) (s : State) : Res := .next (skStep cl (fun _ o => readsCsr 0x21 o) s)

/-- NORM_FACTOR_TIMEOUT (R384): no NORM_REDUCE of the NORM_ID has started within 100 ms of the read, which returns poison. -/
def execNormFactorTimeout (cl : Fin 48) (s : State) : Res :=
  let k := s.sk cl
  match k.normSince, (skFetch k).bind decodeSk with
  | some t, some (.csrr gd _ i) =>
    if k.st = .run && i = 0x21 && t + 100000000 ≤ s.ns && (normLook s k.normSel).2 = false then
      .next (skSet cl gd 0x7FFFFFFF (s.modSk cl fun k => { k with normSince := none }))
    else .next s
  | _, _ => .next s

/-- CRIER_COUNT_WRITE (R154).  -/
def execCrierCountWrite (cl : Fin 48) (s : State) : Res := .next (skStep cl (fun k o => storesCount k o) s)

/-- WATCH_ARM (R169).  -/
def execWatchArm (cl : Fin 48) (s : State) : Res := .next (skStep cl (fun k o => storesCtr 0x1A8 1 k o) s)

/-- CNT_CLEAR (R104).  -/
def execCntClear (cl : Fin 48) (s : State) : Res := .next (skStep cl (fun k o => storesCtr 0x1F8 0x3F k o) s)

end Sys2Proof.Machine
end

