-- ==== Sys2Proof/Machine/Space.lean ====
section
/-! DEFINITION. The four address spaces (R152) with their uncorrected marks (R197, R208, R216), GDDR7 requests (R210, R220,
R221), and transactions toward partners (R310, R320, R344). -/
namespace Sys2Proof.Machine
open Sys2Proof

/-- Where an address points (R152). -/
inductive Place where
  | ls (c : Fin 384) (a : Nat)
  | gddr (a : Nat)
  | remote (m : Half) (low : BitVec 44)
  | host (a : Nat)
  | bad
deriving DecidableEq, Repr

/-- Bytes of GDDR7 in service (R210). -/
def gdCapacity (s : State) : Nat := s.gddr.activeCh.toNat * 2 ^ 22 * 960

/-- An address within a module: remote space 0 or 1 of R152, which R310 carries as well. -/
def innerPlace (space : Nat) (low : BitVec 40) : Place :=
  if space = 0 then
    if bits low 37 3 = 0 && (bits low 28 9).toNat < 384 then .ls (ix 384 (bits low 28 9).toNat) (bits low 0 28).toNat else .bad
  else if space = 1 then (if bits low 38 2 = 0 then .gddr (bits low 0 38).toNat else .bad)
  else .bad

/-- An address of R152; a remote address that names this module is its own memory. -/
def placeOf (s : State) (d : Dword) : Place :=
  match (bits d 60 4).toNat with
  | 0 => if (bits d 48 9).toNat < 384 then .ls (ix 384 (bits d 48 9).toNat) (bits d 0 28).toNat else .bad
  | 1 => .gddr (bits d 0 38).toNat
  | 2 =>
    let p := innerPlace (bits d 40 4).toNat (bits d 0 40)
    if p = .bad then .bad
    else if s.mach.bound && bits d 44 16 = s.mach.logical then p
    else .remote (bits d 44 16) (bits d 0 44)
  | 3 => .host (bits d 0 57).toNat
  | _ => .bad

/-- Move a place by bytes. -/
def Place.plus (p : Place) (n : Nat) : Place :=
  match p with
  | .ls c a => .ls c (a + n)
  | .gddr a => .gddr (a + n)
  | .remote m low => .remote m (low + BitVec.ofNat 44 n)
  | .host a => .host (a + n)
  | .bad => .bad

/-- DETAIL of a core out of service (R265). -/
def coreOutDetail (s : State) (c : Fin 384) : Half :=
  if (s.core c).retired then 0x0300 else BitVec.ofNat 16 (clusterOf c).val

/-- Why n bytes at a place cannot be reached: status and DETAIL; a place of another module is judged by that module. -/
def placeFault (s : State) (p : Place) (n : Nat) : Option (Byte × Half) :=
  match p with
  | .ls c a =>
    if lsEnd < a + n then some (stMalformed, 0) else if !coreServes s c.val then some (stDegraded, coreOutDetail s c) else none
  | .gddr a => if gdCapacity s < a + n then some (stMalformed, 0) else none
  | .remote _ _ => if s.mach.bound && s.mach.unbinding.isNone then none else some (stDegraded, 0x0200)
  | .host _ => none
  | .bad => some (stMalformed, 0)

/-! ### GDDR7 (R210, R216, R220) -/

/-- The channel, group and narrow key of a usable address (R210). -/
def gdChan (s : State) (a : Nat) : Option (Fin 50) :=
  (List.finRange 50).find? fun ch =>
    let c := s.gddr.chans[ch]
    c.mapped && s.gddr.activeCh ≠ 0 && c.slot.toNat = a / 960 % s.gddr.activeCh.toNat

/-- Whether the address's channel is FAILED (R216). -/
def gdFailed (s : State) (a : Nat) : Bool :=
  s.gddr.failedCh ≠ 0 && match gdChan s a with
    | some ch => s.gddr.chans[ch].state = 4
    | none => false

/-- Whether a channel's queue has room (R220). -/
def Channel.room (c : Channel) (narrow : Bool) : Bool := if narrow then c.narrow.length < 64 else c.burst.length < 512

/-- The requests that wait before a channel are accepted while their queue has room, in their order (R220). The queues bind before the
tags do: 25 channels of 576 entries hold 14,400 of a hub's 32,768 tags (log 18). -/
def Channel.takeIn (now : Nat) (c : Channel) : Channel :=
  c.waiting.foldl (fun c x =>
    let r : GReq := { x.2 with at_ := now, seq := c.accepted }
    if !c.room x.1 then { c with waiting := c.waiting ++ [x] }
    else if x.1 then { c with narrow := c.narrow ++ [r], accepted := c.accepted + 1 }
    else { c with burst := c.burst ++ [r], accepted := c.accepted + 1 }) { c with waiting := [] }

/-- A request comes to a channel. -/
def Channel.present (now : Nat) (narrow : Bool) (r : GReq) (c : Channel) : Channel :=
  Channel.takeIn now { c with waiting := c.waiting ++ [(narrow, r)] }

/-- The request for bytes lo to hi of group g: the sectors it covers, and those a write covers in part (R209). -/
def groupReq (owner : TxnOwner) (cls : Nat) (write : Bool) (g lo hi : Nat) : GReq :=
  let cnt := (hi + 63) / 64 - lo / 64
  { cls := cls, group := g, write := write, at_ := 0, urgent := false, owner := owner, lo := lo / 64, cnt := cnt,
    merge := if write then (List.range' (lo / 64) cnt).filter fun x => 64 * x < lo || hi < 64 * x + 64 else [], tries := 0, seq := 0 }

/-- Present the requests of a transfer to their channels, one per group (R220, log 18). -/
def gdAccept (owner : TxnOwner) (cls : Nat) (narrow write : Bool) (a n : Nat) (s : State) : State :=
  if n = 0 || s.gddr.activeCh = 0 then s
  else forAll (List.range ((a + n - 1) / 960 - a / 960 + 1)) (fun i t =>
    let u := a / 960 + i
    match gdChan t (u * 960) with
    | none => t
    | some ch =>
      let r := groupReq owner cls write (u / t.gddr.activeCh.toNat) (max a (u * 960) - u * 960) (min (a + n) (u * 960 + 960) - u * 960)
      t.setChan ch (t.gddr.chans[ch].present t.ns narrow r)) s

/-! ### Reads and writes with marks -/

/-- A byte with its uncorrected mark. -/
abbrev MByte := Byte × Bool

/-- The bytes of a read, marks dropped. -/
def plain (bs : List MByte) : List Byte := bs.map fun b => b.1

/-- Read n bytes at a place of this module or its host (R197, R208, R216). -/
def readPlace (s : State) (p : Place) (n : Nat) : List MByte :=
  match p with
  | .ls c a => (List.range n).map fun i => ((s.core c).ls.get (a + i), (s.core c).marked (a + i))
  | .gddr a => (List.range n).map fun i =>
      (s.gddr.mem.get (a + i), s.gddr.poison.contains ((a + i) / 64) || gdFailed s (a + i))
  | .host a => (s.host.getBytes a n).map fun b => (b, false)
  | _ => []

/-- The marks of a memory's sectors after a write: a sector wholly written takes the written marks, one partly written keeps
its own and gains those (R197, R209). -/
def newMarks (old : List Nat) (a : Nat) (bs : List MByte) : List Nat :=
  let n := bs.length
  let keep := old.filter fun x => !(wholeSectors a n).contains x
  (sectorsOf a n).foldl (fun acc x =>
    let mine := (bs.drop (64 * x - a)).take (64 * x + 64 - max a (64 * x))
    if mine.any fun b => b.2 then insSorted x acc else acc) keep

/-- Write bytes at a place of this module or its host. -/
def writePlace (p : Place) (bs : List MByte) (s : State) : State :=
  let data := bs.map fun b => b.1
  match p with
  | .ls c a => s.modCore c fun co => { co with ls := co.ls.putBytes a data, lsPoison := newMarks co.lsPoison a bs }
  | .gddr a =>
    if s.gddr.failedCh = 0 then
      s.setGddr { s.gddr with mem := s.gddr.mem.putBytes a data, poison := newMarks s.gddr.poison a bs }
    else
      forAll (List.range bs.length) (fun i t =>
        if gdFailed t (a + i) then t
        else t.setGddr { t.gddr with mem := t.gddr.mem.put (a + i) (data.getD i 0) })
        (s.setGddr { s.gddr with poison := newMarks s.gddr.poison a bs })
  | .host a => s.setHost (s.host.putBytes a data)
  | _ => s

/-- Sectors of a read that came marked (R265 DETAIL). -/
def markedSectors (a : Nat) (bs : List MByte) : Nat :=
  ((sectorsOf a bs.length).filter fun x =>
    ((bs.drop (64 * x - a)).take (64 * x + 64 - max a (64 * x))).any fun b => b.2).length

/-- The offset of a place within its space. -/
def Place.off : Place → Nat
  | .ls _ a => a
  | .gddr a => a
  | .host a => a
  | _ => 0

/-- Present an access from outside a core to its local-store ports, at the rank of porter accesses (R93). -/
def lsAccept (owner : TxnOwner) (write : Bool) (c : Fin 384) (a n : Nat) (s : State) : State :=
  let p : Part := { net := false, reads := if write then [] else [(a, n)], writes := if write then [(a, n)] else [] }
  if n = 0 then s else s.modCore c (addReqs (p.reqs (.ext owner) (4, 4)))

/-- The requests an access makes at the memory interfaces (R220) and at the ports of local stores (R93). -/
def acceptAt (owner : TxnOwner) (cls : Nat) (write : Bool) (p : Place) (n : Nat) (s : State) : State :=
  match p with
  | .gddr a => gdAccept owner cls false write a n s
  | .ls c a => lsAccept owner write c a n s
  | _ => s

/-- Whether an owner still waits for a read of GDDR7 or an access to a local store (log 18). -/
def asking (s : State) (o : TxnOwner) : Bool :=
  (s.gddr.chans.toList.any fun c => (c.burst ++ c.narrow ++ c.waiting.map Prod.snd).any fun r => r.owner = o && !r.write)
    || s.cores.toList.any fun co => co.lports.toList.any fun p => p.reqs.any fun r => r.owner = .ext o

/-- An owner's work goes on once its requests have been served (R208, R216, log 18). -/
def onceServed (o : TxnOwner) (go : State → State) (s : State) : State := if asking s o then s else go s

/-- What a move presents before it takes effect: its reads, and its writes to a local store (log 18). -/
def askMove (owner : TxnOwner) (cls : Nat) (src dst : Place) (n : Nat) (s : State) : State :=
  let s1 := acceptAt owner cls false src n s
  match dst with
  | .ls c a => lsAccept owner true c a n s1
  | _ => s1

/-- What reads and writes of several places present before they take effect. -/
def askAll (owner : TxnOwner) (cls : Nat) (reads writes : List (Place × Nat)) (s : State) : State :=
  let s1 := reads.foldl (fun t x => acceptAt owner cls false x.1 x.2 t) s
  writes.foldl (fun t x => askMove owner cls .bad x.1 x.2 t) s1

/-- What a move presents as it takes effect: its writes to GDDR7, visible from then on (R224). -/
def landAt (owner : TxnOwner) (cls : Nat) (dst : Place) (n : Nat) (s : State) : State :=
  match dst with
  | .gddr a => gdAccept owner cls false true a n s
  | _ => s

/-- What writes of several places present as they take effect. -/
def landAll (owner : TxnOwner) (cls : Nat) (writes : List (Place × Nat)) (s : State) : State :=
  writes.foldl (fun t x => landAt owner cls x.1 x.2 t) s

/-! ### Frames and transactions toward partners -/

/-- A MESSAGE frame with every field zero. -/
def blankFrame : Frame :=
  { typ := 1, vc := 0, ordered := false, version := 0, seq := 0, seqRsv := 0, ack := 0, nak := false, ackValid := false, ackRsv := 0,
    pool := 0, freed := 0, creditValid := false, creditRsv := 0, dest := 0, src := 0, tag := 0, tagRsv := false, op := 0, len := 0,
    space := 0, addr := 0, count := 1, cls := 0, hops := 0, poison := false, routeRsv := 0, destEpoch := 0,
    payload := List.replicate 224 0 }

/-- The epoch last recorded for an address, 0 when none (R344). -/
def epochOf (s : State) (m : Half) : Half :=
  match s.mach.epochs.find? fun e => e.1 = m with
  | some e => e.2
  | none => 0

/-- Record an epoch for an address (R343, R344). -/
def recordEpoch (m e : Half) (s : State) : State :=
  s.setMach { s.mach with epochs := (m, e) :: s.mach.epochs.filter fun x => x.1 ≠ m }

/-- Put a frame of this module in its local injection queue, pool 4 VC + CLASS (R317). -/
def inject (f : Frame) (s : State) : State :=
  let q := ix 16 (4 * (f.vc.toNat % 4) + f.cls.toNat)
  let f1 : Frame := { f with src := s.mach.logical }
  s.setMach { s.mach with inject := s.mach.inject.set q (s.mach.inject[q] ++ [⟨f1, none, false⟩]) }

/-- The first tag from t on that is not in use. -/
def firstTag (used : List (BitVec 15)) : Nat → BitVec 15 → BitVec 15
  | 0, t => t
  | n + 1, t => if used.contains t then firstTag used n (t + 1) else t

/-- Tags that transactions, collective steps and norm reductions use. -/
def usedTags (s : State) : List (BitVec 15) :=
  s.mach.txns.map (fun x => x.tag) ++ s.coll.groups.flatMap (fun g => g.steps.map fun x => x.tag) ++ s.coll.runs.map fun x => x.tag

/-- A tag that is not in use. -/
def freeTag (s : State) : BitVec 15 := firstTag (usedTags s) (usedTags s).length s.mach.nextTag

/-- Transactions a module may have in flight (R320); an operation that would open more waits, as if it had not begun. -/
def fitTxns (s t : State) : State := if t.mach.txns.length ≤ max 32768 s.mach.txns.length then t else s

/-- The address that stands for a command's own staging buffer. -/
def stageAddr : Dword := 0xF000000000000000

/-- Record a transaction in flight and take its tag. -/
def openTxn (dest : Half) (isRead : Bool) (owner : TxnOwner) (dst : Dword) (len : Nat) (s : State) : State :=
  let t : Txn := { tag := freeTag s, dest := dest, isRead := isRead, owner := owner, at_ := s.ns, dstAddr := dst, len := len, got := 0, sent := false, held := [] }
  s.setMach { s.mach with txns := s.mach.txns ++ [t], nextTag := freeTag s + 1 }

/-- Bytes in one frame (R310). -/
def frameBytes : Nat := 224

/-- The frames of a WRITE transaction (R320, R321). -/
def writeFrames (s : State) (dest : Half) (tag : BitVec 15) (low : BitVec 44) (ordered : Bool) (bs : List MByte) : List Frame :=
  let parts := chunks frameBytes bs
  (List.range parts.length).map fun i =>
    let part := parts.getD i []
    { blankFrame with
      vc := 0, op := 0x01, dest := dest, tag := tag, len := BitVec.ofNat 8 part.length, ordered := ordered,
      cls := if ordered then 1 else 0, space := bits low 40 4,
      addr := (bits low 0 40).setWidth 44 + BitVec.ofNat 44 (frameBytes * i), count := BitVec.ofNat 16 parts.length,
      poison := part.any fun b => b.2, destEpoch := epochOf s dest, payload := fit frameBytes (part.map fun b => b.1) }

/-- Start a WRITE transaction toward a partner. -/
def startWrite (owner : TxnOwner) (dest : Half) (low : BitVec 44) (bs : List MByte) (s : State) : State :=
  let tag := freeTag s
  let s1 := openTxn dest false owner 0 bs.length s
  (writeFrames s dest tag low false bs).foldl (fun t f => inject f t) s1

/-- Start a READ transaction toward a partner; its data goes to `dst`. -/
def startRead (owner : TxnOwner) (dest : Half) (low : BitVec 44) (dst : Dword) (len : Nat) (s : State) : State :=
  let tag := freeTag s
  let f : Frame :=
    { blankFrame with
      vc := 0, op := 0x02, dest := dest, tag := tag, len := 4, space := bits low 40 4, addr := (bits low 0 40).setWidth 44,
      destEpoch := epochOf s dest, payload := fit frameBytes (leBytes len 4) }
  inject f (openTxn dest true owner dst len s)

/-- A response frame toward a requester; it carries this module's epoch (R344; log 33). -/
def respFrame (s : State) (op : Byte) (dest : Half) (tag : BitVec 15) (body : List Byte) : Frame :=
  { blankFrame with
    vc := 1, op := op, dest := dest, tag := tag, len := BitVec.ofNat 8 body.length, destEpoch := bits s.boot.epoch 0 16,
    payload := fit frameBytes body }

/-- Where a request points (R310). -/
def framePlace (f : Frame) : Place :=
  if bits f.addr 40 4 ≠ (0 : BitVec 4) then .bad else innerPlace f.space.toNat (bits f.addr 0 40)

/-- READ_DATA frames answer a READ, poisoned where their bytes came marked (R320, R321). -/
def answerRead (f : Frame) (s : State) : State :=
  let n := leNat (f.payload.take 4)
  let parts := if n = 0 then [[]] else chunks frameBytes (readPlace s (framePlace f) n)
  forAll (List.range parts.length) (fun i t =>
    let part := parts.getD i []
    inject { respFrame s 0x12 f.src f.tag (plain part) with
      addr := BitVec.ofNat 44 (frameBytes * i), count := BitVec.ofNat 16 parts.length, poison := part.any fun b => b.2 } t) s

/-- Partners' READs whose requests have been served are answered, oldest first (R208, R216, log 18). -/
def servePeers (s : State) : State :=
  forAll s.mach.serving (fun f t =>
    if asking t (.peer f.src f.tag) then t else answerRead f (t.setMach { t.mach with serving := t.mach.serving.erase f })) s

/-- LOCAL_STORE_PORT_GRANT (R93): `e` is what a read finds in the line, `busy` the handshakes for which a stream that ends a tile or block
held the exchange network (R102; log 13). -/
def execLocalStorePortGrant (c : Fin 384) (t : Fin 4) (e : Ecc) (busy : Nat) (s : State) : Res := .next (servePeers (grantPort c t e busy s))

end Sys2Proof.Machine
end

