-- ==== Sys2Proof/Machine/Porter.lean ====
section
/-! DEFINITION. The porter (R150 to R153, R125) and the crier (R154, R155). -/
namespace Sys2Proof.Machine
open Sys2Proof

/-! ### Command fields (R151) -/

def pOp (w : DescWord) : Nat := (bits w 0 8).toNat
def pOrdered (w : DescWord) : Bool := w.getLsbD 8
def pToken (w : DescWord) : Bool := w.getLsbD 9
def pEvent (w : DescWord) : Bool := w.getLsbD 10
def pTag (w : DescWord) : Nat := (bits w 16 16).toNat
def pTokCore (w : DescWord) : Nat := (bits w 32 9).toNat
def pTokQueue (w : DescWord) : Fin 32 := ix 32 (bits w 41 5).toNat
def pSrc (w : DescWord) : Dword := bits w 64 64
def pDst (w : DescWord) : Dword := bits w 128 64
def pLen (w : DescWord) : Nat := (bits w 192 32).toNat
def pRows (w : DescWord) : Nat := (bits w 224 32).toNat
def pSrcStride (w : DescWord) : Nat := (bits w 256 32).toNat
def pDstStride (w : DescWord) : Nat := (bits w 288 32).toNat
def pTokVal (w : DescWord) : Word := bits w 320 32

/-- Whether the porter has a tag for one transaction more: 256 of its own, or one of the shared 4,096 (R150). -/
def tagFree (s : State) (cl : Fin 48) : Bool :=
  let shared := ((List.finRange 48).map fun x => (s.cluster x).tags - 256).foldl (· + ·) 0
  (s.cluster cl).tags < 256 || shared < 4096

/-- Whether a token target exists and belongs to the porter (R153). -/
def tokenBound (s : State) (w : DescWord) : Bool :=
  pTokCore w < 384 && (s.core (ix 384 (pTokCore w))).queues[pTokQueue w].prod = 0x11

/-- Whether a token target has a credit. -/
def tokenCredit (s : State) (w : DescWord) : Bool :=
  0 < (s.core (ix 384 (pTokCore w))).queues[pTokQueue w].credits

/-- Whether the head of a queue can start: its order, its tag, its token's credit (R150, R151, R153). -/
def headReady (s : State) (cl : Fin 48) (q : Fin 4) : Bool :=
  let cu := s.cluster cl
  match cu.pq[q] with
  | [] => false
  | p :: _ =>
    (p.xfer.isSome || !pOrdered p.word || !(cu.prun.any fun r => r.q = q && r.id = cu.pLast[q]))
      && (p.xfer.isSome || !pToken p.word || !tokenBound s p.word || tokenCredit s p.word)

/-- The queue the porter serves next, round-robin (R150). -/
def pickQueue (s : State) (cl : Fin 48) : Option (Fin 4) :=
  let f := (s.cluster cl).pNext
  ([f, f + 1, f + 2, f + 3] : List (Fin 4)).find? (headReady s cl)

/-- An XFER's fields as a move between local stores (R125). -/
def xferPlaces (x : XferCmd) : Place × Place × Nat :=
  let here := Place.ls x.core x.localAddr
  let there : Place := if x.peer < 384 then .ls (ix 384 x.peer) x.peerAddr else .bad
  if x.isSend then (here, there, x.len) else (there, here, x.len)

/-- Whether an OP is defined (R151). -/
def pKnown (w : DescWord) : Bool := 1 ≤ pOp w && pOp w ≤ 5

/-- A command leaves its queue and takes a tag, reserving its token's credit. One that cannot run carries its error. -/
def porterStart (cl : Fin 48) (q : Fin 4) (p : PorterCmd) (rest : List PorterCmd) (s : State) : State :=
  let cu := s.cluster cl
  let bad := p.xfer.isNone && (!pKnown p.word || (pToken p.word && !tokenBound s p.word))
  let r : PorterRun :=
    { id := cu.pCount + 1, cmd := p, q := q, txns := 0, moved := bad, code := if bad then some (stMalformed.setWidth 16) else none,
      stage := [], staged := false, marked := false, asked := 0, seen := [], began := false }
  let s1 := s.setCluster cl { cu with
    pq := cu.pq.set q rest, pNext := q + 1, pCount := cu.pCount + 1, pLast := cu.pLast.set q (cu.pCount + 1), prun := cu.prun ++ [r] }
  if p.xfer.isNone && pToken p.word && tokenBound s p.word then spendCredit (ix 384 (pTokCore p.word)) (pTokQueue p.word) s1
  else s1

/-- Whether a cluster's transfers are held: it dozes, or a request for Doze or Sleep is deferred or entered (R450, R451). -/
def heldOff (s : State) (cl : Fin 48) : Bool :=
  (s.cpwr cl).mode = .doze || s.pwr.mstate ≠ 0 || match s.pwr.deferral with
    | some d => d.state = 4 || d.mask.getLsbD cl.val
    | none => false

/-- PORTER_COMMAND_START (R150). -/
def execPorterCommandStart (cl : Fin 48) (s : State) : Res :=
  if !tagFree s cl || heldOff s cl then .next s
  else match pickQueue s cl with
    | none => .next s
    | some q => match (s.cluster cl).pq[q] with
      | [] => .next s
      | p :: rest => .next (porterStart cl q p rest s)

/-- Change one running command. -/
def modRun (cl : Fin 48) (id : Nat) (f : PorterRun → PorterRun) (s : State) : State :=
  s.modCluster cl fun cu => { cu with prun := cu.prun.map fun r => if r.id = id then f r else r }

/-- Longest part of a transfer one transaction carries (R320). -/
def txnBytes : Nat := 14679840

/-- Move n bytes from one place to another, as read in a state v; remote ends become transactions (R151, R153, R320). The number of
transactions opened is answered with the state. -/
def transfer (owner : TxnOwner) (cls : Nat) (src dst : Place) (dstWord : Dword) (n : Nat) (v s : State) : State × Nat :=
  match src, dst with
  | .remote m low, _ =>
    ((List.range ((n + txnBytes - 1) / txnBytes)).foldl (fun t i =>
      startRead owner m (low + BitVec.ofNat 44 (txnBytes * i)) (dstWord + BitVec.ofNat 64 (txnBytes * i))
        (min txnBytes (n - txnBytes * i)) t) s, (n + txnBytes - 1) / txnBytes)
  | _, .remote m low =>
    let parts := chunks txnBytes (readPlace v src n)
    ((List.range parts.length).foldl (fun t i =>
      startWrite owner m (low + BitVec.ofNat 44 (txnBytes * i)) (parts.getD i []) t) s, parts.length)
  | _, _ => (landAt owner cls dst n (writePlace dst (readPlace v src n) s), 0)

/-- The first reason a list of (place, bytes) cannot be reached. -/
def placesFault (s : State) (l : List (Place × Nat)) : Option (Byte × Half) := l.findSome? fun x => placeFault s x.1 x.2

/-- A running command fails. -/
def failRun (cl : Fin 48) (id : Nat) (status : Byte) (s : State) : State :=
  modRun cl id (fun r => { r with moved := true, code := some (status.setWidth 16) }) s

/-- The rows the bytes of a GATHER list name. -/
def gatherList (bs : List Byte) : List Dword := (chunks 8 bs).map fun x => BitVec.ofNat 64 (leNat x)

/-- The places a command reads and those it writes, each with its bytes (R151). -/
def runRanges (s : State) (r : PorterRun) : List (Place × Nat) × List (Place × Nat) :=
  let w := r.cmd.word
  match r.cmd.xfer with
  | some x =>
    let p := xferPlaces x
    ([(p.1, p.2.2)], [(p.2.1, p.2.2)])
  | none =>
    if pOp w = 1 then ([(placeOf s (pSrc w), pLen w)], [(placeOf s (pDst w), pLen w)])
    else if pOp w = 2 then
      ((List.range (pRows w)).map fun i => (placeOf s (pSrc w + BitVec.ofNat 64 (i * pSrcStride w)), pLen w),
        (List.range (pRows w)).map fun i => (placeOf s (pDst w + BitVec.ofNat 64 (i * pDstStride w)), pLen w))
    else if pOp w = 3 then
      let list : List (Place × Nat) := [(placeOf s (pSrc w), 8 * pLen w)]
      (list ++ (gatherList (gatherBytes s r)).map fun d => (placeOf s d, 32), [(placeOf s (pDst w), 32 * pLen w)])
    else if pOp w = 4 then ([], [(placeOf s (pDst w), pLen w)])
    else ([], [])
where
  gatherBytes (s : State) (r : PorterRun) : List Byte :=
    match placeOf s (pSrc r.cmd.word) with
    | .remote _ _ => r.stage.getBytes 0 (8 * pLen r.cmd.word)
    | p => plain (readPlace s p (8 * pLen r.cmd.word))

/-- Whether two accesses meet in sectors of GDDR7. -/
def gdMeet (a b : Place × Nat) : Bool :=
  match a.1, b.1 with
  | .gddr x, .gddr y => rangesMeet (x / 64 * 64, (x + a.2 + 63) / 64 * 64 - x / 64 * 64) (y / 64 * 64, (y + b.2 + 63) / 64 * 64 - y / 64 * 64)
  | _, _ => false

/-- Whether a command must wait before it presents its requests: another command of its porter has presented requests to sectors
the two share, one of them writing, and has not moved its data yet (R224: one requester's requests take effect in the order of
acceptance; log 18). -/
def runBlocked (s : State) (cl : Fin 48) (r : PorterRun) : Bool :=
  let mine := runRanges s r
  (s.cluster cl).prun.any fun q => q.id ≠ r.id && q.asked ≠ 0 && !q.moved &&
    let his := runRanges s q
    mine.2.any (fun x => his.1.any (gdMeet x) || his.2.any (gdMeet x)) || mine.1.any fun x => his.2.any (gdMeet x)

/-- A command presents its k-th batch of requests, once, when nothing blocks it. -/
def askRun (cl : Fin 48) (r : PorterRun) (k : Nat) (ask : State → State) (s : State) : State :=
  if k < r.asked then s else ask (modRun cl r.id (fun r => { r with asked := k + 1 }) s)

/-- A running command does its transfers once its requests have been served (R94: its reads of local store return what their grants
delivered), or fails before any of them. -/
def runTransfers (cl : Fin 48) (r : PorterRun) (moves : List (Place × Place × Dword × Nat)) (s : State) : State :=
  let o : TxnOwner := .porter cl r.id
  match placesFault s (moves.flatMap fun m => [(m.1, m.2.2.2), (m.2.1, m.2.2.2)]) with
  | some f => failRun cl r.id f.1 s
  | none =>
    if r.asked = 0 && runBlocked s cl r then s
    else
      let s1 := askRun cl r 0 (fun t => moves.foldl (fun t m => askMove o 0 m.1 m.2.1 m.2.2.2 t) t) s
      onceServed o (fun t =>
        let v := seenState r t
        let bad := moves.any fun m => (readPlace v m.1 m.2.2.2).any Prod.snd
        let x := moves.foldl (fun (a : State × Nat) m =>
          let y := transfer o 0 m.1 m.2.1 m.2.2.1 m.2.2.2 v a.1
          (y.1, a.2 + y.2)) (t, 0)
        fitTxns t (modRun cl r.id (fun r => { r with moved := true, began := true, marked := r.marked || bad, txns := r.txns + x.2 }) x.1)) s1
where
  seenState (r : PorterRun) (t : State) : State :=
    match t.cluster cl |>.prun.find? fun q => q.id = r.id with
    | some q => q.seen.foldl (fun t x => t.modCore x.1 fun co => co.seenBy [x.2]) t
    | none => t

/-- The n-th running command, if its transfer is still to make and its OP is the one named. -/
def runAt (s : State) (cl : Fin 48) (n op : Nat) : Option PorterRun :=
  match (s.cluster cl).prun[n]? with
  | some r => if r.moved then none else if r.cmd.xfer.isSome then (if op = 1 then some r else none)
      else if pOp r.cmd.word = op then some r else none
  | none => none

/-- PORTER_MOVE (R151), which also carries a station's SEND or RECV (R125). -/
def execPorterMove (cl : Fin 48) (n : Nat) (s : State) : Res :=
  match runAt s cl n 1 with
  | none => .next s
  | some r => match r.cmd.xfer with
    | some x =>
      let p := xferPlaces x
      .next (runTransfers cl r [(p.1, p.2.1, 0, p.2.2)] s)
    | none =>
      let w := r.cmd.word
      .next (runTransfers cl r [(placeOf s (pSrc w), placeOf s (pDst w), pDst w, pLen w)] s)

/-- PORTER_MOVE_2D (R151): ROWS rows, the strides added to the byte addresses. -/
def execPorterMove2d (cl : Fin 48) (n : Nat) (s : State) : Res :=
  match runAt s cl n 2 with
  | none => .next s
  | some r =>
    let w := r.cmd.word
    .next (runTransfers cl r ((List.range (pRows w)).map fun i =>
      let d := pDst w + BitVec.ofNat 64 (i * pDstStride w)
      (placeOf s (pSrc w + BitVec.ofNat 64 (i * pSrcStride w)), placeOf s d, d, pLen w)) s)

/-- A row of a GATHER lies in GDDR7, aligned to 32 bytes, or the command fails (R225). -/
def rowFault (s : State) (d : Dword) : Option (Byte × Half) :=
  match placeOf s d with
  | .gddr a => if a % 32 ≠ 0 then some (stMalformed, 1) else placeFault s (.gddr a) 32
  | _ => some (stMalformed, 0)

/-- What a GATHER presents: its rows through the narrow path, its writes to a local store (R151, R225). -/
def askRows (owner : TxnOwner) (cls : Nat) (rows : List Dword) (dst : Place) (s : State) : State :=
  let s1 := rows.foldl (fun t d => match placeOf t d with
    | .gddr p => gdAccept owner cls true false p 32 t
    | _ => t) s
  match dst with
  | .ls c a => lsAccept owner true c a (32 * rows.length) s1
  | _ => s1

/-- Pack 32-byte rows at a destination (R151, R225, R261). -/
def gatherRows (owner : TxnOwner) (cls : Nat) (rows : List Dword) (dst : Dword) (s : State) : State × Nat :=
  let bs := rows.flatMap fun d => readPlace s (placeOf s d) 32
  match placeOf s dst with
  | .remote m low =>
    let parts := chunks txnBytes bs
    ((List.range parts.length).foldl (fun t i =>
      startWrite owner m (low + BitVec.ofNat 44 (txnBytes * i)) (parts.getD i []) t) s, parts.length)
  | q => (landAt owner cls q bs.length (writePlace q bs s), 0)

/-- Read a GATHER list from a partner into the command's staging buffer, once. -/
def fetchList (cl : Fin 48) (r : PorterRun) (s : State) : State :=
  if r.txns ≠ 0 then s
  else
    let x := transfer (.porter cl r.id) 0 (placeOf s (pSrc r.cmd.word)) .bad stageAddr (8 * pLen r.cmd.word) s s
    fitTxns s (modRun cl r.id (fun r => { r with txns := x.2 }) x.1)

/-- The rows of a GATHER are read and packed, once their requests have been served, or the command fails. -/
def gatherRun (cl : Fin 48) (r : PorterRun) (bs : List Byte) (s : State) : State :=
  let o : TxnOwner := .porter cl r.id
  let rows := gatherList bs
  let d := pDst r.cmd.word
  match rows.findSome? (rowFault s) with
  | some f => failRun cl r.id f.1 s
  | none =>
    onceServed o (fun t =>
      let x := gatherRows o 0 rows d t
      fitTxns t (modRun cl r.id (fun r => { r with moved := true, began := true, txns := r.txns + x.2 }) x.1))
      (askRun cl r 1 (askRows o 0 rows (placeOf s d)) s)

/-- PORTER_GATHER (R151, R225): the list, then its rows. -/
def execPorterGather (cl : Fin 48) (n : Nat) (s : State) : Res :=
  match runAt s cl n 3 with
  | none => .next s
  | some r =>
    let w := r.cmd.word
    let lp := placeOf s (pSrc w)
    let far : Bool := match lp with
      | .remote _ _ => true
      | _ => false
    match (placeFault s lp (8 * pLen w)).orElse fun _ => placeFault s (placeOf s (pDst w)) (32 * pLen w) with
    | some f => .next (failRun cl r.id f.1 s)
    | none =>
      if far && !r.staged && pLen w ≠ 0 then .next (fetchList cl r s)
      else if far then .next (if r.asked < 2 && runBlocked s cl r then s else gatherRun cl r (r.stage.getBytes 0 (8 * pLen w)) s)
      else if r.asked < 2 && runBlocked s cl r then .next s
      else .next (onceServed (.porter cl r.id) (fun t => gatherRun cl r (plain (readPlace t lp (8 * pLen w))) t)
        (askRun cl r 0 (acceptAt (.porter cl r.id) 0 false lp (8 * pLen w)) s))

/-- An 8-byte pattern repeated over n bytes (R151). -/
def patternBytes (pat : Dword) (n : Nat) : List MByte :=
  (List.range n).map fun i => ((bits pat (8 * (i % 8)) 8 : Byte), false)

/-- PORTER_FILL (R151). -/
def execPorterFill (cl : Fin 48) (n : Nat) (s : State) : Res :=
  match runAt s cl n 4 with
  | none => .next s
  | some r =>
    let w := r.cmd.word
    let o : TxnOwner := .porter cl r.id
    let p := placeOf s (pDst w)
    match placeFault s p (pLen w) with
    | some f => .next (failRun cl r.id f.1 s)
    | none =>
      let bs := patternBytes (pSrc w) (pLen w)
      match p with
      | .remote m low =>
        let parts := chunks txnBytes bs
        let s1 := (List.range parts.length).foldl (fun t i =>
          startWrite o m (low + BitVec.ofNat 44 (txnBytes * i)) (parts.getD i []) t) s
        .next (fitTxns s (modRun cl r.id (fun r => { r with moved := true, began := true, txns := r.txns + parts.length }) s1))
      | _ =>
        if r.asked = 0 && runBlocked s cl r then .next s
        else .next (onceServed o (fun t =>
          landAt o 0 p (pLen w) (writePlace p bs (modRun cl r.id (fun r => { r with moved := true }) t)))
          (askRun cl r 0 (askMove o 0 .bad p (pLen w)) s))

/-- PORTER_SIGNAL (R151): no data. -/
def execPorterSignal (cl : Fin 48) (n : Nat) (s : State) : Res :=
  match runAt s cl n 5 with
  | none => .next s
  | some r => .next (modRun cl r.id (fun r => { r with moved := true }) s)

/-- Whether a command's writes show its launch's effects outside the launch (R176). -/
def exposes (s : State) (cl : Fin 48) (p : PorterCmd) : Bool :=
  let outside (c : Nat) : Bool := match launchOf s cl with
    | some l => !l.mask.getLsbD (c / 8)
    | none => true
  match p.xfer with
  | some x => x.isSend && outside x.peer
  | none => (bits (pDst p.word) 60 4 : BitVec 4) ≠ 0 && pOp p.word ≠ 5

/-- Note that a launch's effects are no longer private. -/
def noteExposed (cl : Fin 48) (s : State) : State :=
  match launchOf s cl with
  | some l => setLaunch { l with exposed := true } s
  | none => s

/-- A finished command leaves the porter: its token and event, or its error (R153); a station's transfer reaches its
instruction (R126, R130). -/
def porterDone (cl : Fin 48) (r : PorterRun) (s : State) : State :=
  let s1 := s.modCluster cl fun cu => { cu with prun := cu.prun.filter fun x => x.id ≠ r.id }
  let w := r.cmd.word
  let tc := ix 384 (pTokCore w)
  match r.cmd.xfer, r.code with
  | some x, none =>
    let s2 := modInflight x.core x.stn x.uid (fun f => { f with moved := true, marked := f.marked || r.marked }) s1
    if exposes s cl r.cmd then noteExposed cl s2 else s2
  | some x, some _ =>
    let s2 := modInflight x.core x.stn x.uid (fun f => { f with remote := some x.peer }) s1
    if r.began && exposes s cl r.cmd then noteExposed cl s2 else s2
  | none, none =>
    let s2 := if pToken w then sendToken tc (pTokQueue w) (pTokVal w) s1 else s1
    let s3 := if pEvent w then skPost cl 3 0 0 (pTag w) s2 else s2
    if exposes s cl r.cmd then noteExposed cl s3 else s3
  | none, some code =>
    let s2 := if pToken w && tokenBound s w then returnCredit tc (pTokQueue w) s1 else s1
    let s3 := skPost cl 3 0 0 code.toNat s2
    if r.began && exposes s cl r.cmd then noteExposed cl s3 else s3

/-- PORTER_COMMAND_COMPLETE (R153): the transfer is made, and neither a transaction nor a request of it is outstanding. -/
def execPorterCommandComplete (cl : Fin 48) (n : Nat) (s : State) : Res :=
  match (s.cluster cl).prun[n]? with
  | some r => if r.moved && r.txns = 0 && !asking s (.porter cl r.id) then .next (porterDone cl r s) else .next s
  | none => .next s

/-! ### The crier -/

/-- A target's core and queue. -/
def targetQueue (t : Half) : Fin 384 × Fin 32 := (ix 384 (bits t 0 9).toNat, ix 32 (bits t 9 5).toNat)

/-- Reserve the credits of the token targets of a list; none when one is missing (R154). -/
def reserveTargets : List Half → State → Option State
  | [], s => some s
  | t :: ts, s =>
    if bits t 14 2 = (1 : BitVec 2) then
      let x := targetQueue t
      let q := (s.core x.1).queues[x.2]
      if (bits t 0 9).toNat < 384 && q.prod = 0x12 && 0 < q.credits then reserveTargets ts (spendCredit x.1 x.2 s) else none
    else reserveTargets ts s

/-- Serve one target: a token valued GEN, or an arrival at another channel (R154). -/
def serveTarget (gen : Half) (t : Half) (s : State) : State :=
  if bits t 14 2 = (1 : BitVec 2) then
    let x := targetQueue t
    sendToken x.1 x.2 (gen.setWidth 32) s
  else if bits t 14 2 = (2 : BitVec 2) && (bits t 6 6).toNat < 48 then
    crierArrive (ix 48 (bits t 6 6).toNat) (ix 64 (bits t 0 6).toNat) 1 s
  else s

/-- CRIER_FIRE (R154): a channel that has reached THRESHOLD fires once every token target has a credit. -/
def execCrierFire (cl : Fin 48) (ch : Fin 64) (s : State) : Res :=
  let x := (s.cluster cl).crier[ch]
  if !x.firing then .next s
  else match reserveTargets x.targets.toList s with
    | none => .next s
    | some s1 =>
      let gen := x.gen + 1
      let left := BitVec.ofNat 16 (x.count.toNat - x.threshold.toNat)
      let again : Bool := x.threshold ≠ 0 && x.threshold.toNat ≤ left.toNat
      let s2 := s1.modCluster cl fun cu => { cu with crier := cu.crier.set ch { x with count := left, gen := gen, firing := again } }
      let s3 := if x.skEvent then skPost cl 4 0 0 ch.val s2 else s2
      .next (x.targets.toList.foldl (fun t y => serveTarget gen y t) s3)

/-- Whether a broadcast's range is one R155 allows. -/
def bcastOk (b : Broadcast) : Bool := b.src < 384 && b.len % 64 = 0 && b.len ≤ 65536 && b.addr + b.len ≤ lsEnd

/-- Copy a broadcast's bytes to every destination core (R155). -/
def bcastCopy (b : Broadcast) (s : State) : State :=
  let bs := readPlace s (.ls (ix 384 b.src) b.addr) b.len
  forAll ((maskList b.clusters).flatMap fun cl => ((List.range 8).filter fun j => b.coreMask.getLsbD j).map fun j => coreOf cl j)
    (fun c t => if coreServes t c.val then writePlace (.ls c b.addr) bs t else t) s

/-- CRIER_BROADCAST_COMPLETE (R155). -/
def execCrierBroadcastComplete (cl : Fin 48) (n : Nat) (s : State) : Res :=
  match (s.cluster cl).bcasts[n]? with
  | none => .next s
  | some b =>
    let s1 := s.modCluster cl fun cu => { cu with bcasts := cu.bcasts.eraseIdx n }
    if bcastOk b then .next (crierArrive cl b.chan 1 (bcastCopy b s1)) else .next s1

end Sys2Proof.Machine
end

