-- ==== Sys2Proof/Machine/Rings.lean ====
section
/-! DEFINITION. The ring engine (R248 to R273): doorbells, fetch, arbitration and the checks before a start, completion records,
ring resets; and the ends of bindings, sessions and debug that they cause (R299, R307). -/
namespace Sys2Proof.Machine
open Sys2Proof

/-! ### Descriptor fields (R259, R261) -/

def dOp (w : DescWord) : Nat := (bits w 0 8).toNat
def dFence (w : DescWord) : Bool := w.getLsbD 8
def dCont (w : DescWord) : Bool := w.getLsbD 9
def dIrq (w : DescWord) : Bool := w.getLsbD 10
def dOrder (w : DescWord) : Bool := w.getLsbD 11
def dSeq (w : DescWord) : Half := bits w 16 16
def dTag (w : DescWord) : Half := bits w 32 16
def dUnits (w : DescWord) : Nat := (bits w 48 16).toNat
def dW2 (w : DescWord) : Word := bits w 64 32
def dW3 (w : DescWord) : Word := bits w 96 32

/-- The 64-bit operand at a byte offset of the descriptor. -/
def dQ (w : DescWord) (off : Nat) : Dword := bits w (8 * off) 64

/-- Operand units an opcode takes, none for an unknown one (R261). -/
def unitsOf (op : Nat) : Option Nat :=
  match op with
  | 0x01 => some 0 | 0x02 => some 0 | 0x08 => some 3 | 0x09 => some 0 | 0x10 => some 2 | 0x11 => some 1 | 0x12 => some 2
  | 0x20 => some 1 | 0x21 => some 2 | 0x30 => some 2 | 0x31 => some 1 | 0x40 => some 3 | 0x41 => some 2 | 0x42 => some 1
  | 0x43 => some 2 | 0x44 => some 2 | 0x50 => some 1 | 0x51 => some 1 | 0x60 => some 1 | 0x61 => some 0 | 0x62 => some 0
  | 0x63 => some 0 | 0x70 => some 1 | 0x71 => some 0
  | _ => none

/-- The session right a descriptor needs, as a bit of the rights (R261, R292). -/
def rightOf (w : DescWord) : BitVec 5 :=
  let op := dOp w
  if op = 0x50 then 2
  else if 0x60 ≤ op && op ≤ 0x63 then 4
  else if op = 0x70 then (if bits (dW2 w) 0 8 = (0 : Byte) then 1 else 8)
  else if op ∈ [0x10, 0x11, 0x12, 0x20, 0x21, 0x30, 0x31, 0x40, 0x41, 0x42, 0x43, 0x44] then 1
  else 0

/-- Opcodes that always act as if FENCE were set (R260). -/
def fenced (w : DescWord) : Bool :=
  dFence w || dOp w ∈ [0x08, 0x09, 0x62, 0x63] || (dOp w = 0x50 && bits (dW3 w) 0 3 ≠ (0 : BitVec 3))

/-- Opcodes that make no memory effect (R260; log 22). -/
def effectless (op : Nat) : Bool := op ∈ [0x01, 0x02, 0x08, 0x09, 0x31, 0x41, 0x71]

/-- Slots of a ring (R250). -/
def Ring.size (g : Ring) : Nat := 2 ^ g.log2.toNat

/-- Whether a ring's STATE is UNBOUND, BOUND or HALTED. -/
def Ring.live (g : Ring) : Bool := g.state = .unbound || g.state = .bound || g.state = .halted

/-- INFLIGHT (R252). -/
def Ring.inflight (g : Ring) : Nat := (g.started.filter fun c => c.ran).length

/-- A number as the SOURCE of an event. -/
def src (n : Nat) : Word := BitVec.ofNat 32 n

/-! ### Sessions' ends (R299, R307) -/

/-- An access through the debug port that is in progress completes with its data discarded, and the next scan reports it (R33). -/
def cutAccess (s : State) : State :=
  if s.pins.dbgBusy then { s with pins := { s.pins with dbgBusy := false, dbgCut := true }, out := { s.out with scan := [] } } else s

/-- Debug ends with a cause: 0 ENABLE written 0, 1 session end, 2 reset (R307, R479). -/
def endDebug (cause : Byte) (s : State) : State :=
  if s.sec.dbgActive then
    cutAccess (ledgerAdd 0x0804 1 0 [BitVec.ofNat 8 s.sec.dbgSlot.val, cause] (s.setSec { s.sec with dbgActive := false }))
  else s

/-- The session with a tag ends, and debug under it (R299). -/
def endSession (tag : Half) (s : State) : State :=
  let s1 := s.setSec { s.sec with sessions := s.sec.sessions.filter fun x => x.tag ≠ tag }
  if s.sec.dbgTag = tag then endDebug 1 s1 else s1

/-- A ring's binding ends with a cause; the session ends with its last binding (R299). A halt is cleared (R267). -/
def endBinding (r : Fin 256) (cause : Nat) (s : State) : State :=
  match (s.ring r).tag with
  | none => s
  | some t =>
    let s1 := s.modRing r fun g =>
      { g with tag := none, state := if g.state = .bound || g.state = .halted then .unbound else g.state }
    let s2 := postEvent 0x0205 0 (src r.val) [BitVec.ofNat 8 cause] s1
    if s2.rings.toList.any fun g => g.tag = some t then s2 else endSession t s2

/-! ### Ring resets (R271) -/

/-- A launch a ring started receives ABORT on every cluster that still runs it (R141). -/
def abortLaunch (l : Launch) (s : State) : State :=
  forAll (maskList l.mask) (fun cl t =>
    if (t.cluster cl).launch = some l.id && (t.cluster cl).ending.isNone then skPost cl 7 0 0 0 t else t) s

/-- A ring reset starts: descriptors fetched and not started are dropped, started ones run on without a record, the binding ends. -/
def ringReset (r : Fin 256) (cause bindCause : Nat) (again : Bool) (s : State) : State :=
  let g := s.ring r
  if !g.live then s
  else
    let on := (g.started.filter fun c => c.run).length
    let gone := g.fetched.length + (g.started.filter fun c => !c.ran).length
    let s1 := s.setRing r { g with
      fetched := [], started := g.started.filter fun c => c.run, resetCause := BitVec.ofNat 8 cause,
      dropped := gone, reEnable := again, urgent := false, ableSince := none, mirrors := [], irqHeld := false }
    let s2 := forAll (s1.launches.filter fun l => l.ring = r) abortLaunch s1
    let s3 := endBinding r bindCause s2
    let s4 := s3.modRing r fun g => { g with state := .resetting }
    postEvent 0x0203 1 (src r.val)
      ([BitVec.ofNat 8 cause, 0] ++ leBytes gone 2 ++ leBytes on 4) s4

/-- A ring starts counting from 0 (R250, R255). -/
def Ring.restart (g : Ring) : Ring :=
  { g with
    state := .unbound, tail := 0, head := 0, fetchIdx := 0, epochTaken := false, interval := 200, lastRead := 0, outstanding := 0,
    tailAt := 0, mirrors := [], refused := [], fetched := [], startIdx := 0, started := [], ableSince := none, urgent := false }

/-- A write of RING_CFG (R250, R253, R267, R488). -/
def ringCfgWrite (r : Fin 256) (w : Word) (s : State) : State :=
  let off := (s.ring r).state = .disabled
  let s1 := s.modRing r fun g => { g with log2 := if off then bits w 2 5 else g.log2, prio := bits w 7 2 }
  let s2 := if w.getLsbD 1 then ringReset r 0 1 false s1 else s1
  let g := s2.ring r
  if !w.getLsbD 0 then s2.setRing r { g with enable := false }
  else if !off then s2.setRing r { g with enable := true }
  else if s.boot.recovery && r ≠ 0 then s2
  else if 4 ≤ g.log2.toNat && g.log2.toNat ≤ 16 then s2.setRing r { g.restart with enable := true, activeAt := s.ns }
  else s2.setRing r { g with cfgErr := true }

/-- RING_ENABLE (R250). -/
def execRingEnable (r : Fin 256) (w : Word) (s : State) : Res := .next (if w.getLsbD 0 then ringCfgWrite r w s else s)

/-- RING_DISABLE (R250). -/
def execRingDisable (r : Fin 256) (w : Word) (s : State) : Res := .next (if w.getLsbD 0 then s else ringCfgWrite r w s)

/-- RING_RESET (R271). -/
def execRingReset (r : Fin 256) (w : Word) (s : State) : Res := .next (if w.getLsbD 1 then ringCfgWrite r w s else s)

/-- RING_RESET_COMPLETE (R271): no started descriptor is left. -/
def execRingResetComplete (r : Fin 256) (s : State) : Res :=
  let g := s.ring r
  if g.state ≠ .resetting || !g.started.isEmpty then .next s
  else if g.reEnable then .next (s.setRing r { g.restart with reEnable := false, activeAt := s.ns })
  else .next (s.setRing r { g with state := .disabled, enable := false })

/-- RING_IDLE_DISABLE (R267): a ring asked to disable is idle. -/
def execRingIdleDisable (r : Fin 256) (s : State) : Res :=
  let g := s.ring r
  if g.live && !g.enable && g.fetched.isEmpty && g.started.isEmpty && g.tail = BitVec.ofNat 32 g.fetchIdx then
    .next ((endBinding r 5 s).modRing r fun g => { g with state := .disabled })
  else .next s

/-! ### Doorbells (R254 to R258) -/

/-- The rings whose doorbell words share a line with one, itself included. -/
def lineRings (s : State) (r : Fin 256) : List (Fin 256) :=
  (List.finRange 256).filter fun x => (s.ring x).live && (s.ring x).dbAddr.toNat / 8 = (s.ring r).dbAddr.toNat / 8

/-- The next watch interval (R256). -/
def nextInterval (g : Ring) (ns : Nat) : Nat :=
  if !g.fetched.isEmpty || !g.started.isEmpty || (g.tailAt ≠ 0 && ns < g.tailAt + 10000) then 200
  else if g.interval < 400 then 400
  else min 20000 (if 12800 ≤ g.interval then 20000 else 2 * g.interval)

/-- A read of a ring's line is issued. -/
def issueRead (r : Fin 256) (s : State) : State :=
  forAll (lineRings s r) (fun x t => t.modRing x fun g =>
    { g with lastRead := t.ns, outstanding := g.outstanding + 1, interval := nextInterval g t.ns }) s

/-- DOORBELL_WATCH_TIMER (R256): the line's interval has passed and its reads in flight allow another. -/
def execDoorbellWatchTimer (r : Fin 256) (s : State) : Res :=
  let g := s.ring r
  let iv := (lineRings s r).foldl (fun a x => min a (s.ring x).interval) g.interval
  if g.live && s.pwr.mstate = 0 && g.lastRead + iv ≤ s.ns && (g.outstanding = 0 || (iv = 200 && g.outstanding < 8)) then
    .next (issueRead r s)
  else .next s

/-- MIRROR_TAIL_WRITE (R257, R491). -/
def execMirrorTailWrite (r : Fin 256) (off size : Nat) (w : Word) (s : State) : Res :=
  if off ≠ 0 || size ≠ 4 || !(s.ring r).live then .next s
  else .next ((issueRead r s).modRing r fun g =>
    { g with mirrors := g.mirrors ++ [(w, (s.ring r).outstanding)], interval := 200 })

/-- The tail a doorbell read returned is taken, or refused while it would pass the ring's size (R255). -/
def takeTail (r : Fin 256) (tail : Word) (s : State) : State :=
  let g := s.ring r
  if g.size < (tail - g.head).toNat then
    if g.refused.contains tail then s.setRing r { g with dbInvalid := true }
    else postEvent 0x0204 1 (src r.val) (leBytes tail.toNat 4)
      (s.setRing r { g with dbInvalid := true, refused := tail :: g.refused })
  else if tail = g.tail then s
  else s.setRing r { g with tail := tail, tailAt := s.ns, interval := 200 }

/-- DOORBELL_READ_RETURN (R255, R257): the ring's oldest outstanding read returns; epoch first, then the tail. A mirror write's value is
held against the read it prompted. -/
def execDoorbellReadReturn (r : Fin 256) (w : Dword) (s : State) : Res :=
  let g := s.ring r
  let tail : Word := bits w 0 32
  let epoch : Half := bits w 32 16
  if !g.live || g.outstanding = 0 then .next s
  else
    let bad := g.mirrors.any fun x => x.2 = 0 && x.1 ≠ tail
    let s1 := s.setRing r { g with
      outstanding := g.outstanding - 1, mirrors := (g.mirrors.filter fun x => x.2 ≠ 0).map fun x => (x.1, x.2 - 1), mirrorMismatch := g.mirrorMismatch || bad }
    if !g.epochTaken then .next (takeTail r tail (s1.modRing r fun g => { g with epochTaken := true, epoch := epoch }))
    else if epoch ≠ g.epoch then .next (ringReset r 1 1 true s1)
    else .next (takeTail r tail s1)

/-! ### Starting descriptors (R258, R260, R268, R269) -/

/-- Whether the FENCE and ORDER_DATA waits of a ring's next descriptor are satisfied (R260). -/
def waitsDone (g : Ring) (w : DescWord) : Bool :=
  (!fenced w || g.started.isEmpty) && (!dOrder w || g.started.all fun c => c.effects)

/-- Whether a ring's next descriptor may start, contexts aside (R268). -/
def ringAble (g : Ring) : Bool :=
  match g.fetched with
  | [] => false
  | w :: _ => g.live && waitsDone g w && g.inflight < 64

/-- Note since when a ring's next descriptor has been able to start. -/
def noteAble (r : Fin 256) (s : State) : State :=
  s.modRing r fun g => { g with ableSince := if ringAble g then some (g.ableSince.getD s.ns) else none }

/-- DESCRIPTOR_FETCH_RETURN (R258): at most 16 slots, none past the end of the ring or the tail. -/
def execDescriptorFetchReturn (r : Fin 256) (slots : List DescWord) (s : State) : Res :=
  let g := s.ring r
  let n := min (min 16 slots.length) (min (g.tail - BitVec.ofNat 32 g.fetchIdx).toNat (g.size - g.fetchIdx % g.size))
  if !g.live || n = 0 then .next s
  else .next (noteAble r (s.setRing r { g with
    fetched := g.fetched ++ slots.take n, fetchIdx := g.fetchIdx + n, activeAt := s.ns, interval := 200 }))

/-- Descriptor contexts in use (R268). -/
def contextsUsed (s : State) : Nat :=
  s.rings.toList.foldl (fun a g => a + (g.started.filter fun c => c.run).length) 0

/-- The earliest of two rings by the time they became able. -/
def older (s : State) (a b : Fin 256) : Fin 256 :=
  if (s.ring b).ableSince.getD s.ns < (s.ring a).ableSince.getD s.ns then b else a

/-- A 65th pipeline send on one GROUP_ID and PEER waits to start (R369). -/
def sendsFull (s : State) (w : DescWord) : Bool :=
  let sends (w : DescWord) : Bool := dOp w = 0x30 && bits (dW2 w) 0 4 = (4 : BitVec 4)
  let same (c : DescCtx) : Bool := c.run && sends c.word && dW3 c.word = dW3 w && (bits c.word 320 16 : Half) = bits w 320 16
  sends w && 64 ≤ s.rings.toList.foldl (fun a g => a + (g.started.filter same).length) 0

/-- Whether a ring's next descriptor may start but for the engine's choice: on a HALTED ring only one with CONTINUE_ON_ERROR (R270). -/
def nextAble (s : State) (r : Fin 256) : Bool :=
  ringAble (s.ring r) && match (s.ring r).fetched with
    | w :: _ => !sendsFull s w && ((s.ring r).state ≠ .halted || dCont w)
    | [] => false

/-- The ring the engine starts next: urgent ones oldest first, else the highest PRIORITY, round-robin (R269). -/
def pickRing (s : State) : Option (Fin 256) :=
  let able := (List.finRange 256).filter (nextAble s)
  match able.filter fun r => (s.ring r).urgent with
  | u :: us => some (us.foldl (older s) u)
  | [] =>
    let top := able.foldl (fun a r => min a (s.ring r).prio.toNat) 4
    let same := able.filter fun r => (s.ring r).prio.toNat = top
    let last := s.pcie.rr[ix 4 top]
    match same.filter fun r => last < r with
    | r :: _ => some r
    | [] => same.head?

/-- Reserved values of a field that selects what an opcode does (R261, R455). -/
def selectorFault (w : DescWord) : Option (Byte × Half) :=
  let op := dOp w
  if op = 0x70 && 3 < (bits (dW2 w) 0 8).toNat then some (stMalformed, 8)
  else if op = 0x30 && (5 < (bits (dW2 w) 0 4).toNat || 2 < (bits (dW2 w) 4 4).toNat) then some (stMalformed, 8)
  else if op = 0x50 && 4 < (bits (dW3 w) 0 3).toNat then some (stMalformed, 0x0C)
  else none

/-- The checks every descriptor passes before its start; several failures answer the highest status (R265, R267, R289). -/
def headerFault (s : State) (r : Fin 256) (i : Nat) (w : DescWord) : Option (Byte × Half) :=
  let g := s.ring r
  let op := dOp w
  let opens := op = 0x08
  match unitsOf op with
  | none => some (stUnsupported, 0)
  | some u =>
    if s.boot.recovery && !(op ∈ [0x51, 0x60, 0x61, 0x62]) then some (stUnsupported, 0)
    else if opens && g.state ≠ .unbound then some (stMalformed, 0)
    else if dSeq w ≠ BitVec.ofNat 16 i then some (stMalformed, 2)
    else if opens && dTag w ≠ 0 then some (stMalformed, 4)
    else if dUnits w ≠ u then some (stMalformed, 6)
    else if (selectorFault w).isSome then selectorFault w
    else if opens || s.boot.recovery then none
    else match g.tag with
      | none => some (stNoSession, 0)
      | some t =>
        match s.sec.sessions.find? fun x => x.tag = t with
        | none => some (stNoSession, 0)
        | some x =>
          if rightOf w &&& ~~~x.rights ≠ 0 then some (stRights, (rightOf w).setWidth 16)
          else if dTag w ≠ t then some (stNoSession, 1)
          else none

/-- A context for a ring's next descriptor. -/
def newCtx (s : State) (g : Ring) (w : DescWord) (fault : Option (Byte × Half)) (ran : Bool) : DescCtx :=
  { idx := g.startIdx, word := w, run := fault.isNone, done := fault.isSome, status := (fault.getD (0, 0)).1,
    detail := (fault.getD (0, 0)).2, result := 0, effects := fault.isSome || effectless (dOp w), early := false,
    time := s.time.mt, hold := s.time.holdover, era := s.time.era, since := s.ns, ran := ran, order := s.pcie.starts, asked := 0,
    issued := false, corr := 0, stage := [], staged := false, snap := [], bad := [], tds := [] }

/-- A ring's next descriptor leaves the fetched ones with a context. -/
def takeNext (r : Fin 256) (w : DescWord) (fault : Option (Byte × Half)) (ran : Bool) (s : State) : State :=
  let g := s.ring r
  let s1 := s.setRing r { g with
    fetched := g.fetched.tail, startIdx := g.startIdx + 1, started := g.started ++ [newCtx s g w fault ran],
    urgent := false, ableSince := none }
  noteAble r (s1.setPcie { s.pcie with starts := s.pcie.starts + 1, rr := s.pcie.rr.set (ix 4 g.prio.toNat) r })

/-- A started FENCE with CONTINUE_ON_ERROR that will clear the halt (R270). -/
def clearing (g : Ring) : Bool := g.started.any fun c => c.run && dOp c.word = 0x02 && dCont c.word

/-- Whether the ring engine starts descriptors: not while Sleep is asked for, entered or left (R452 to R454). -/
def engineOpen (s : State) : Bool :=
  s.pwr.mstate = 0 && match s.pwr.deferral with
    | some d => d.state ≠ 4
    | none => true

/-- RING_URGENT (R269): 50 µs able without starting, a context being free all the while. -/
def execRingUrgent (r : Fin 256) (s : State) : Res :=
  match (s.ring r).ableSince with
  | some t =>
    let since := s.rings.toList.foldl (fun a g => max a g.freedAt) t
    .next (if since + 50000 ≤ s.ns && contextsUsed s < 1024 then s.modRing r fun g => { g with urgent := true } else s)
  | none => .next s

/-! ### Ending descriptors (R263 to R266, R268, R270) -/

/-- A descriptor ends with its status; on a resetting ring it leaves without a record (R271). -/
def finishDesc (r : Fin 256) (idx : Nat) (status : Byte) (detail : Half) (result : Dword) (s : State) : State :=
  if (s.ring r).state = .resetting then
    s.modRing r fun g => { g with
      started := g.started.filter fun c => c.idx ≠ idx, freedAt := if 1024 ≤ contextsUsed s then s.ns else g.freedAt }
  else
    noteAble r ((modCtx r idx (fun c => { c with
      run := false, done := true, effects := true, status := status, detail := detail, result := result }) s).modRing r fun g =>
      { g with freedAt := if 1024 ≤ contextsUsed s then s.ns else g.freedAt })

/-- Every memory effect of a descriptor is visible, its end not yet reached (R260). -/
def effectsDone (r : Fin 256) (idx : Nat) (s : State) : State := noteAble r (modCtx r idx (fun c => { c with effects := true }) s)

/-- The started descriptor an operation names: position n of a ring, running, its work not yet under way, with an opcode. -/
def descAt (s : State) (r : Fin 256) (n op : Nat) : Option DescCtx :=
  match (s.ring r).started[n]? with
  | some c => if c.run && !c.issued && dOp c.word = op then some c else none
  | none => none

/-- A descriptor's work is under way; its status so far is kept. -/
def issueDesc (r : Fin 256) (idx : Nat) (status : Byte) (detail : Half) (result : Dword) (s : State) : State :=
  modCtx r idx (fun c => { c with issued := true, status := status, detail := detail, result := result }) s

/-- A descriptor presents its k-th batch of requests, once. -/
def askDesc (r : Fin 256) (c : DescCtx) (k : Nat) (ask : State → State) (s : State) : State :=
  if k < c.asked then s else ask (modCtx r c.idx (fun c => { c with asked := k + 1 }) s)

/-- Whether a status leaves the ring running. -/
def goodStatus (x : Byte) : Bool := x = stOk || x = stCorrected

/-- The 16 bytes of a record (R263). -/
def cplBytes (g : Ring) (c : DescCtx) (halt irq : Bool) : List Byte :=
  leBytes (dSeq c.word).toNat 2
    ++ [c.status, BitVec.ofNat 8 (b2n (c.idx / g.size % 2 = 0) + 2 * b2n halt + 4 * b2n c.early + 8 * b2n irq)]
    ++ leBytes g.epoch.toNat 2 ++ leBytes c.detail.toNat 2 ++ leBytes c.result.toNat 8

/-- An interrupt of a ring falls due: sent, or held within MOD of the last one (R264). -/
def ringIrq (r : Fin 256) (s : State) : State :=
  let g := s.ring r
  let held : Bool := match g.lastIrq with
    | some t => s.ns < t + 1000 * g.mod_.toNat
    | none => false
  if held then s.setRing r { g with irqHeld := true }
  else sendMsi g.vector.toNat (s.setRing r { g with irqHeld := false, lastIrq := some s.ns })

/-- A descriptor whose reads had sectors corrected completes OK_CORRECTED in place of OK (R265). -/
def corrected (c : DescCtx) : DescCtx :=
  if c.status = stOk && c.corr ≠ 0 then { c with status := stCorrected, detail := BitVec.ofNat 16 (min c.corr 0xFFFF) } else c

/-- The record of a ring's oldest descriptor is written (R263, R264, R270). -/
def writeRecord (r : Fin 256) (c0 : DescCtx) (s : State) : State :=
  let g := s.ring r
  let c := corrected c0
  let halt := g.state = .bound && !goodStatus c.status
  let irq := dIrq c.word || g.irqAll || halt
  let rest := g.started.tail.map fun x =>
    if halt && x.ran then { x with early := true }
    else if halt && !dCont x.word then { x with status := stHalted, detail := dSeq c.word } else x
  let s1 := s.setHost (s.host.putBytes (g.cplBase.toNat * 4096 + 16 * (c.idx % g.size)) (cplBytes g c halt irq))
  let s2 := s1.setRing r { g with
    started := rest, head := g.head + 1, activeAt := s.ns, state := if halt then .halted else g.state,
    haltSeq := if halt then dSeq c.word else g.haltSeq }
  let s3 := if halt then postEvent 0x0202 1 (src r.val) (leBytes (dSeq c.word).toNat 2 ++ [c.status]) s2 else s2
  noteAble r (if irq then ringIrq r s3 else s3)

/-- COMPLETION_RECORD_WRITE (R268): the oldest started descriptor has ended. -/
def execCompletionRecordWrite (r : Fin 256) (s : State) : Res :=
  match (s.ring r).started with
  | [] => .next s
  | c :: _ => if c.done && (s.ring r).live then .next (writeRecord r c s) else .next s

/-- MSIX_MODERATION_EXPIRY (R264). -/
def execMsixModerationExpiry (r : Fin 256) (s : State) : Res :=
  let g := s.ring r
  if g.irqHeld && g.lastIrq.getD 0 + 1000 * g.mod_.toNat ≤ s.ns then
    .next (sendMsi g.vector.toNat (s.setRing r { g with irqHeld := false, lastIrq := some s.ns }))
  else .next s

/-! ### The host interface (R245, R275, R278, R490) -/

/-- FLR, hot reset and link loss reset the host interface; the event ring goes first (R245, R488). -/
def hostReset (s : State) : State :=
  let s1 := s.setEvt { s.evt with enable := false }
  let s2 := forAll (List.finRange 256) (fun r => ringReset r 2 4 false) s1
  s2.setPcie { s2.pcie with entries := s2.pcie.entries.map fun e => { e with mask := true } }

/-- FLR (R245). -/
def execPcieFlr (s : State) : Res := .next (hostReset s)

/-- HOT_RESET (R245). -/
def execHotReset (s : State) : Res := .next (hostReset s)

/-- PCIE_LINK_LOSS (R245). -/
def execPcieLinkLoss (s : State) : Res := .next (hostReset s)

/-- A write of EVT_RING_CFG (R275). -/
def evtCfgWrite (w : Word) (s : State) : State :=
  let e := s.evt
  if e.enable then s.setEvt { e with enable := w.getLsbD 0 }
  else
    let l : BitVec 5 := bits w 1 5
    if w.getLsbD 0 && 6 ≤ l.toNat && l.toNat ≤ 16 then
      s.setEvt { e with enable := true, log2 := l, w := 0, c := 0, lost := 0, spell := 0, full := false }
    else s.setEvt { e with log2 := l }

/-- EVENT_RING_ENABLE (R275). -/
def execEventRingEnable (w : Word) (s : State) : Res := .next (if w.getLsbD 0 then evtCfgWrite w s else s)

/-- EVT_FULL_POLL (R278): 20 µs after the last read the consumed count is read again; room writes one OVERFLOW. -/
def execEvtFullPoll (consumed : Word) (s : State) : Res :=
  let e := s.evt
  if !e.enable || !e.full || s.ns < e.lastRead + 20000 then .next s
  else
    let s1 := s.setHost (s.host.putLE (e.dbAddr.toNat * 8) 4 consumed.toNat)
    let c := e.c + (consumed - BitVec.ofNat 32 e.c).toNat
    if 2 ^ e.log2.toNat ≤ e.w - c then .next (s1.setEvt { e with lastRead := s.ns })
    else
      let data := leBytes (min e.spell (2 ^ 32 - 1)) 4
      let s2 := s1.setEvt { e with c := c, full := false, spell := 0, lastRead := s.ns }
      .next (evtCheckFull (evtWrite 0x0201 1 0 data (ledgerAdd 0x0201 1 0 data s2)))

/-- A vector is unmasked: the one held message is sent and the pending bit clears (R490). -/
def unmaskVector (v : Fin 512) (s : State) : State :=
  let e := s.pcie.entries[v]
  let s1 := s.setPcie { s.pcie with entries := s.pcie.entries.set v { e with mask := false, pend := e.pend && s.pcie.funcMask } }
  if e.pend && !s.pcie.funcMask then sendMsi v.val s1 else s1

/-- MSIX_UNMASK (R490). -/
def execMsixUnmask (v : Fin 512) (s : State) : Res := .next (unmaskVector v s)

/-! ### Descriptors without an engine (R261, R270, R414) -/

/-- NOP (R261). -/
def execNopDesc (r : Fin 256) (n : Nat) (s : State) : Res :=
  match descAt s r n 0x01 with
  | some c => .next (finishDesc r c.idx stOk 0 0 s)
  | none => .next s

/-- Whether a FENCE still waits: an earlier descriptor of its ring, or one started before it in its scope (R261; log 23). -/
def fenceWaits (s : State) (r : Fin 256) (c : DescCtx) : Bool :=
  let scope := (bits (dW2 c.word) 0 2).toNat
  let inScope (x : Fin 256) : Bool := x = r || scope = 2 || (scope = 1 && (s.ring x).tag = (s.ring r).tag)
  (List.finRange 256).any fun x => inScope x && (s.ring x).started.any fun d => d.order < c.order

/-- FENCE (R261, R270): with CONTINUE_ON_ERROR on a HALTED ring it clears the halt. -/
def execFenceDesc (r : Fin 256) (n : Nat) (s : State) : Res :=
  match descAt s r n 0x02 with
  | none => .next s
  | some c =>
    let g := s.ring r
    if bits (dW2 c.word) 0 2 = (3 : BitVec 2) then .next (finishDesc r c.idx stMalformed 8 0 s)
    else if fenceWaits s r c then .next s
    else if dCont c.word && g.state = .halted then
      .next (finishDesc r c.idx stOk 0 (BitVec.ofNat 64 (g.haltSeq.toNat + 65536)) (s.setRing r { g with state := .bound }))
    else .next (finishDesc r c.idx stOk 0 0 s)

/-- TIME_MARK (R414): the market time at the descriptor's start, with the holdover bit and ERA. -/
def execTimeMark (r : Fin 256) (n : Nat) (s : State) : Res :=
  match descAt s r n 0x71 with
  | some c => .next (finishDesc r c.idx stOk (BitVec.ofNat 16 (b2n c.hold + 256 * c.era.toNat)) c.time s)
  | none => .next s

end Sys2Proof.Machine
end

