-- ==== Sys2Proof/Machine/Sha.lean ====
section
/-! DEFINITION. SHA-256, SHA-384, HMAC and HKDF over SHA-384 (R284, R285, R293, R296, R390), CRC-32C and CRC-16/CCITT
(R144, R283, R310, R364, R479). -/
namespace Sys2Proof.Machine
open Sys2Proof

/-- Bytes of a word, most significant first. -/
def beBytes (v n : Nat) : List Byte := (leBytes v n).reverse

/-- Split a list into pieces of n; the fuel is the list's length. -/
def piecesGo {α : Type} (n : Nat) : Nat → List α → List (List α)
  | 0, _ => []
  | f + 1, l => if l.isEmpty then [] else l.take n :: piecesGo n f (l.drop n)

def pieces {α : Type} (n : Nat) (l : List α) : List (List α) := piecesGo n l.length l

/-- A message padded to blocks of `blk` bytes with its bit length in `lenB` bytes. -/
def shaPad (blk lenB : Nat) (m : List Byte) : List Byte :=
  let z := (blk - (m.length + 1 + lenB) % blk) % blk
  m ++ [0x80] ++ List.replicate z 0 ++ beBytes (8 * m.length) lenB

/-- Round constants of SHA-256: cube roots of the first 64 primes. -/
def sha256K : List (BitVec 32) :=
  [0x428A2F98, 0x71374491, 0xB5C0FBCF, 0xE9B5DBA5, 0x3956C25B, 0x59F111F1, 0x923F82A4, 0xAB1C5ED5]
    ++ [0xD807AA98, 0x12835B01, 0x243185BE, 0x550C7DC3, 0x72BE5D74, 0x80DEB1FE, 0x9BDC06A7, 0xC19BF174]
    ++ [0xE49B69C1, 0xEFBE4786, 0x0FC19DC6, 0x240CA1CC, 0x2DE92C6F, 0x4A7484AA, 0x5CB0A9DC, 0x76F988DA]
    ++ [0x983E5152, 0xA831C66D, 0xB00327C8, 0xBF597FC7, 0xC6E00BF3, 0xD5A79147, 0x06CA6351, 0x14292967]
    ++ [0x27B70A85, 0x2E1B2138, 0x4D2C6DFC, 0x53380D13, 0x650A7354, 0x766A0ABB, 0x81C2C92E, 0x92722C85]
    ++ [0xA2BFE8A1, 0xA81A664B, 0xC24B8B70, 0xC76C51A3, 0xD192E819, 0xD6990624, 0xF40E3585, 0x106AA070]
    ++ [0x19A4C116, 0x1E376C08, 0x2748774C, 0x34B0BCB5, 0x391C0CB3, 0x4ED8AA4A, 0x5B9CCA4F, 0x682E6FF3]
    ++ [0x748F82EE, 0x78A5636F, 0x84C87814, 0x8CC70208, 0x90BEFFFA, 0xA4506CEB, 0xBEF9A3F7, 0xC67178F2]

/-- Round constants of SHA-384: cube roots of the first 80 primes. -/
def sha512K : List (BitVec 64) :=
  [0x428A2F98D728AE22, 0x7137449123EF65CD, 0xB5C0FBCFEC4D3B2F, 0xE9B5DBA58189DBBC]
    ++ [0x3956C25BF348B538, 0x59F111F1B605D019, 0x923F82A4AF194F9B, 0xAB1C5ED5DA6D8118]
    ++ [0xD807AA98A3030242, 0x12835B0145706FBE, 0x243185BE4EE4B28C, 0x550C7DC3D5FFB4E2]
    ++ [0x72BE5D74F27B896F, 0x80DEB1FE3B1696B1, 0x9BDC06A725C71235, 0xC19BF174CF692694]
    ++ [0xE49B69C19EF14AD2, 0xEFBE4786384F25E3, 0x0FC19DC68B8CD5B5, 0x240CA1CC77AC9C65]
    ++ [0x2DE92C6F592B0275, 0x4A7484AA6EA6E483, 0x5CB0A9DCBD41FBD4, 0x76F988DA831153B5]
    ++ [0x983E5152EE66DFAB, 0xA831C66D2DB43210, 0xB00327C898FB213F, 0xBF597FC7BEEF0EE4]
    ++ [0xC6E00BF33DA88FC2, 0xD5A79147930AA725, 0x06CA6351E003826F, 0x142929670A0E6E70]
    ++ [0x27B70A8546D22FFC, 0x2E1B21385C26C926, 0x4D2C6DFC5AC42AED, 0x53380D139D95B3DF]
    ++ [0x650A73548BAF63DE, 0x766A0ABB3C77B2A8, 0x81C2C92E47EDAEE6, 0x92722C851482353B]
    ++ [0xA2BFE8A14CF10364, 0xA81A664BBC423001, 0xC24B8B70D0F89791, 0xC76C51A30654BE30]
    ++ [0xD192E819D6EF5218, 0xD69906245565A910, 0xF40E35855771202A, 0x106AA07032BBD1B8]
    ++ [0x19A4C116B8D2D0C8, 0x1E376C085141AB53, 0x2748774CDF8EEB99, 0x34B0BCB5E19B48A8]
    ++ [0x391C0CB3C5C95A63, 0x4ED8AA4AE3418ACB, 0x5B9CCA4F7763E373, 0x682E6FF3D6B2B8A3]
    ++ [0x748F82EE5DEFB2FC, 0x78A5636F43172F60, 0x84C87814A1F0AB72, 0x8CC702081A6439EC]
    ++ [0x90BEFFFA23631E28, 0xA4506CEBDE82BDE9, 0xBEF9A3F7B2C67915, 0xC67178F2E372532B]
    ++ [0xCA273ECEEA26619C, 0xD186B8C721C0C207, 0xEADA7DD6CDE0EB1E, 0xF57D4F7FEE6ED178]
    ++ [0x06F067AA72176FBA, 0x0A637DC5A2C898A6, 0x113F9804BEF90DAE, 0x1B710B35131C471B]
    ++ [0x28DB77F523047D84, 0x32CAAB7B40C72493, 0x3C9EBE0A15C9BEBC, 0x431D67C49C100D4C]
    ++ [0x4CC5D4BECB3E42B6, 0x597F299CFC657E2A, 0x5FCB6FAB3AD6FAEC, 0x6C44198C4A475817]

/-- Initial value of SHA-256. -/
def sha256Iv : List (BitVec 32) :=
  [0x6A09E667, 0xBB67AE85, 0x3C6EF372, 0xA54FF53A, 0x510E527F, 0x9B05688C, 0x1F83D9AB, 0x5BE0CD19]

/-- Initial value of SHA-384. -/
def sha384Iv : List (BitVec 64) :=
  [0xCBBB9D5DC1059ED8, 0x629A292A367CD507, 0x9159015A3070DD17, 0x152FECD8F70E5939]
    ++ [0x67332667FFC00B31, 0x8EB44A8768581511, 0xDB0C2E0D64F98FA7, 0x47B5481DBEFA4FA4]

/-- The message schedule of SHA-256, newest word first. -/
def sha256Sched : Nat → List (BitVec 32) → List (BitVec 32)
  | 0, x => x
  | n + 1, x =>
    let p := x.getD 14 0
    let q := x.getD 1 0
    let s0 := p.rotateRight 7 ^^^ p.rotateRight 18 ^^^ (p >>> 3)
    let s1 := q.rotateRight 17 ^^^ q.rotateRight 19 ^^^ (q >>> 10)
    sha256Sched n ((x.getD 15 0 + s0 + x.getD 6 0 + s1) :: x)

/-- One round of SHA-256 on a, b, c, d, e, f, g, h. -/
def sha256Round (st : List (BitVec 32)) (kw : BitVec 32) : List (BitVec 32) :=
  match st with
  | [a, b, c, d, e, f, g, h] =>
    let s1 := e.rotateRight 6 ^^^ e.rotateRight 11 ^^^ e.rotateRight 25
    let t1 := h + s1 + ((e &&& f) ^^^ (~~~e &&& g)) + kw
    let s0 := a.rotateRight 2 ^^^ a.rotateRight 13 ^^^ a.rotateRight 22
    [t1 + s0 + ((a &&& b) ^^^ (a &&& c) ^^^ (b &&& c)), a, b, c, d + t1, e, f, g]
  | _ => st

/-- One block of SHA-256. -/
def sha256Block (h : List (BitVec 32)) (blk : List Byte) : List (BitVec 32) :=
  let ws := (pieces 4 blk).map fun b => BitVec.ofNat 32 (beNat b)
  let kw := List.zipWith (· + ·) sha256K (sha256Sched 48 ws.reverse).reverse
  List.zipWith (· + ·) h (kw.foldl sha256Round h)

/-- The message schedule of SHA-512, newest word first. -/
def sha512Sched : Nat → List (BitVec 64) → List (BitVec 64)
  | 0, x => x
  | n + 1, x =>
    let p := x.getD 14 0
    let q := x.getD 1 0
    let s0 := p.rotateRight 1 ^^^ p.rotateRight 8 ^^^ (p >>> 7)
    let s1 := q.rotateRight 19 ^^^ q.rotateRight 61 ^^^ (q >>> 6)
    sha512Sched n ((x.getD 15 0 + s0 + x.getD 6 0 + s1) :: x)

/-- One round of SHA-512 on a, b, c, d, e, f, g, h. -/
def sha512Round (st : List (BitVec 64)) (kw : BitVec 64) : List (BitVec 64) :=
  match st with
  | [a, b, c, d, e, f, g, h] =>
    let s1 := e.rotateRight 14 ^^^ e.rotateRight 18 ^^^ e.rotateRight 41
    let t1 := h + s1 + ((e &&& f) ^^^ (~~~e &&& g)) + kw
    let s0 := a.rotateRight 28 ^^^ a.rotateRight 34 ^^^ a.rotateRight 39
    [t1 + s0 + ((a &&& b) ^^^ (a &&& c) ^^^ (b &&& c)), a, b, c, d + t1, e, f, g]
  | _ => st

/-- One block of SHA-512. -/
def sha512Block (h : List (BitVec 64)) (blk : List Byte) : List (BitVec 64) :=
  let ws := (pieces 8 blk).map fun b => BitVec.ofNat 64 (beNat b)
  let kw := List.zipWith (· + ·) sha512K (sha512Sched 64 ws.reverse).reverse
  List.zipWith (· + ·) h (kw.foldl sha512Round h)

/-- SHA-256 of a message, 32 bytes. -/
def sha256 (m : List Byte) : List Byte :=
  ((pieces 64 (shaPad 64 8 m)).foldl sha256Block sha256Iv).flatMap fun w => beBytes w.toNat 4

/-- SHA-384 of a message, 48 bytes. -/
def sha384 (m : List Byte) : List Byte :=
  (((pieces 128 (shaPad 128 16 m)).foldl sha512Block sha384Iv).take 6).flatMap fun w => beBytes w.toNat 8

/-- HMAC-SHA-384 (R293, R296). -/
def hmac384 (key m : List Byte) : List Byte :=
  let k := fit 128 (if 128 < key.length then sha384 key else key)
  sha384 (k.map (· ^^^ 0x5C) ++ sha384 (k.map (· ^^^ 0x36) ++ m))

/-- HKDF-SHA-384 with an empty salt, one block of output (R293). -/
def hkdf384 (ikm info : List Byte) (n : Nat) : List Byte :=
  (hmac384 (hmac384 (List.replicate 48 0) ikm) (info ++ [1])).take n

/-- One byte of CRC-32C, reflected (polynomial 0x1EDC6F41). -/
def crc32Step (c : Word) (b : Byte) : Word :=
  let one (x : Word) : Word := if x.getLsbD 0 then (x >>> 1) ^^^ 0x82F63B78 else x >>> 1
  one (one (one (one (one (one (one (one (c ^^^ b.setWidth 32))))))))

/-- CRC-32C of a byte string. -/
def crc32c (m : List Byte) : Word := ~~~(m.foldl crc32Step 0xFFFFFFFF)

/-- One byte of CRC-16/CCITT (polynomial 0x1021, most significant bit first). -/
def crc16Step (c : Half) (b : Byte) : Half :=
  let one (x : Half) : Half := if x.getLsbD 15 then (x <<< 1) ^^^ 0x1021 else x <<< 1
  one (one (one (one (one (one (one (one (c ^^^ (b.setWidth 16 <<< 8)))))))))

/-- CRC-16/CCITT with initial value 0xFFFF. -/
def crc16 (m : List Byte) : Half := m.foldl crc16Step 0xFFFF

/-- The bytes of an ASCII string. -/
def ascii (s : String) : List Byte := s.toList.map fun c => BitVec.ofNat 8 c.toNat

end Sys2Proof.Machine
end

