-- ==== Sys2Proof/Machine/Launch.lean ====
section
/-! DEFINITION. Program images (R144 to R146), launches from their start to their end (R147 to R149, R169, R170 to R172) and VK1
replay (R173 to R178). -/
namespace Sys2Proof.Machine
open Sys2Proof

/-! ### Operand checks shared by descriptors (R210, R265) -/

/-- Why n bytes at an operand's address cannot be reached; a malformed address answers the operand's byte offset. -/
def opFault (s : State) (d : Dword) (n off : Nat) : Option (Byte × Half) :=
  match placeFault s (placeOf s d) n with
  | some f => some (if f.1 = stMalformed then (f.1, BitVec.ofNat 16 off) else f)
  | none => none

/-- A record lies in host memory or GDDR7. -/
def recordFault (s : State) (d : Dword) (n off : Nat) : Option (Byte × Half) :=
  match placeOf s d with
  | .host _ => none
  | .gddr _ => opFault s d n off
  | _ => some (stMalformed, BitVec.ofNat 16 off)

/-- Of several failures the numerically highest status is reported, the first of its kind (R265). -/
def worst (fs : List (Option (Byte × Half))) : Option (Byte × Half) :=
  fs.foldl (fun a f => match a, f with
    | some x, some y => if x.1 < y.1 then some y else some x
    | none, y => y
    | x, none => x) none

/-- A failed check as a condition. -/
def failIf (c : Bool) (status : Byte) (detail : Nat) : Option (Byte × Half) :=
  if c then some (status, BitVec.ofNat 16 detail) else none

/-- The number at a byte offset of a record. -/
def fieldAt (bs : List Byte) (off n : Nat) : Nat := leNat ((bs.drop off).take n)

/-! ### Images -/

/-- A section of an image (R145). -/
structure Section where
  typ : Nat
  cores : Byte
  offset : Nat
  size : Nat
  dest : Nat
deriving DecidableEq, Repr

/-- Section i of an image's table. -/
def sectionAt (img : List Byte) (i : Nat) : Section :=
  let b := img.drop (0x40 + 32 * i)
  { typ := fieldAt b 0 1, cores := BitVec.ofNat 8 (fieldAt b 1 1), offset := fieldAt b 8 4, size := fieldAt b 12 4,
    dest := fieldAt b 16 4 }

def sectionsOf (img : List Byte) : List Section := (List.range (fieldAt img 6 2)).map (sectionAt img)

/-- Entry size and target memory size of a section type; none for a reserved one (R145, R138, R106). -/
def sectionShape (t : Nat) : Option (Nat × Nat) :=
  match t with
  | 1 => some (4, 0x10000)
  | 2 => some (4, 0x40000)
  | 3 => some (16, 0x10000)
  | 4 => some (32, 0x2000)
  | 5 => some (16, 0x200)
  | 6 => some (64, 0x200)
  | 7 => some (64, lsEnd)
  | _ => none

/-- A section that R146 allows in an image of n bytes. -/
def sectionOk (n : Nat) (x : Section) : Bool :=
  match sectionShape x.typ with
  | some y => x.offset + x.size ≤ n && x.dest + x.size ≤ y.2 && x.size % y.1 = 0
  | none => false

/-- Two sections of one core that write overlapping bytes (R146). -/
def sectionsClash (a b : Section) : Bool :=
  a.typ = b.typ && 3 ≤ a.typ && a.cores &&& b.cores ≠ 0 && rangesMeet (a.dest, a.size) (b.dest, b.size)

/-- Whether no entry of a list clashes with a later one. -/
def pairwiseOk (xs : List Section) : Bool :=
  (List.range xs.length).all fun i => (xs.drop (i + 1)).all fun y => match xs[i]? with
    | some x => !sectionsClash x y
    | none => true

/-- Whether a header and its sections are those of R144 to R146, the descriptor's LENGTH included. -/
def imageOk (img : List Byte) (len : Nat) : Bool :=
  let n := fieldAt img 6 2
  64 ≤ len && fieldAt img 0 4 = 0x50324B56 && fieldAt img 4 2 = 1 && 1 ≤ n && n ≤ 64 && fieldAt img 8 4 = len && len ≤ 2 ^ 30
    && 0x40 + 32 * n ≤ len && ((img.drop 0x1C).take 36).all (· = 0)
    && (crc32c (img.take 0x14 ++ [0, 0, 0, 0] ++ img.drop 0x18)).toNat = fieldAt img 0x14 4
    && (sectionsOf img).all (sectionOk len) && pairwiseOk (sectionsOf img)

/-- Write bytes over a memory and keep only the bits that hold of each word touched. -/
def putMasked (mask : Nat → Word → Word) (m : Memory) (a : Nat) (bs : List Byte) : Memory :=
  (List.range ((a + bs.length + 3) / 4 - a / 4)).foldl (fun m i =>
    m.putLE (4 * (a / 4 + i)) 4 (mask (a / 4 + i) (m.word (4 * (a / 4 + i)))).toNat) (m.putBytes a bs)

/-- The control block area of a core as bytes. -/
def stnBytes (co : Core) : List Byte :=
  co.stns.toList.flatMap fun st => (List.range 16).flatMap fun i => leBytes (stnWord st (4 * i)).toNat 4

/-- Write bytes over the station control blocks (R135). -/
def loadStations (a : Nat) (bs : List Byte) (co : Core) : Core :=
  let old := stnBytes co
  let area := old.take a ++ bs ++ old.drop (a + bs.length)
  let go (k : Fin 8) : Station :=
    let b := area.drop (64 * k.val)
    let w0 := BitVec.ofNat 32 (fieldAt b 0 4)
    { co.stns[k] with
      entry := bits w0 0 12, enable := w0.getLsbD 15, haltMask := bits w0 16 3, haltUncorr := w0.getLsbD 19,
      wdog := BitVec.ofNat 16 (fieldAt b 4 2) }
  { co with stns := Vector.ofFn go }

/-- Put a section into one core. -/
def loadCore (x : Section) (bs : List MByte) (c : Fin 384) (s : State) : State :=
  match x.typ with
  | 3 => s.modCore c fun co => { co with istore := co.istore.putBytes x.dest (plain bs) }
  | 4 => s.modCore c fun co => { co with optab := putMasked optabMask co.optab x.dest (plain bs) }
  | 5 => s.modCore c fun co => { co with qmap := putMasked qmapMask co.qmap x.dest (plain bs) }
  | 6 => s.modCore c (loadStations x.dest (plain bs))
  | 7 => writePlace (.ls c x.dest) bs s
  | _ => s

/-- Put a section into a cluster. -/
def loadSection (img : List MByte) (cl : Fin 48) (x : Section) (s : State) : State :=
  let bs := (img.drop x.offset).take x.size
  if x.typ = 1 then s.modSk cl fun k => { k with imem := k.imem.putBytes x.dest (plain bs) }
  else if x.typ = 2 then s.modSk cl fun k => { k with dmem := k.dmem.putBytes x.dest (plain bs) }
  else forAll ((List.range 8).filter fun j => x.cores.getLsbD j) (fun j => loadCore x bs (coreOf cl j)) s

/-- The cores sections name. -/
def imageCores (xs : List Section) : Byte := xs.foldl (fun a x => if 3 ≤ x.typ then a ||| x.cores else a) 0

/-- Copy an image into a cluster. -/
def loadImage (img : List MByte) (cl : Fin 48) (s : State) : State :=
  let bs := plain img
  let xs := sectionsOf bs
  (xs.foldl (fun t x => loadSection img cl x t) s).modCluster cl fun c =>
    { c with
      handle := BitVec.ofNat 32 (fieldAt bs 0x10 4), entry := BitVec.ofNat 32 (fieldAt bs 0x18 4),
      imgCores := imageCores xs, loaded := true }

/-- The first cluster of a mask out of service (R473). -/
def maskOut (s : State) (m : BitVec 48) : Option (Byte × Half) :=
  match (maskList m).find? fun cl => !(s.cluster cl).inService with
  | some cl => some (stDegraded, BitVec.ofNat 16 cl.val)
  | none => none

/-- Whether a retired core is among those an image names (R474). -/
def retiredIn (s : State) (m : BitVec 48) (cores : Fin 48 → Byte) : Option (Byte × Half) :=
  failIf ((maskList m).any fun cl => (List.range 8).any fun j => (cores cl).getLsbD j && (s.core (coreOf cl j)).retired)
    stDegraded 0x0300

/-- Whether any cluster of a mask runs a launch. -/
def maskBusy (s : State) (m : BitVec 48) : Bool := (maskList m).any fun cl => (s.cluster cl).launch.isSome

/-- Why a PROGRAM_LOAD is refused (R146, R265). -/
def programFault (s : State) (w : DescWord) : Option (Byte × Half) :=
  let m : BitVec 48 := bits (dQ w 0x18) 0 48
  let len := (dW2 w).toNat
  let bs := plain (readPlace s (placeOf s (dQ w 0x10)) len)
  let ok := imageOk bs len
  (worst [maskOut s m, recordFault s (dQ w 0x10) len 0x10]).orElse fun _ =>
    worst [failIf (!ok) stMalformed 0x8000, failIf (s.sec.feature.toNat < fieldAt bs 0x0C 4) stUnsupported 1,
      if ok then retiredIn s m fun _ => imageCores (sectionsOf bs) else none]

/-- PROGRAM_LOAD (R146): checked whole, then read and copied into every cluster of the mask once none of them runs a launch. -/
def execProgramLoad (r : Fin 256) (n : Nat) (s : State) : Res :=
  match descAt s r n 0x20 with
  | none => .next s
  | some c =>
    let m : BitVec 48 := bits (dQ c.word 0x18) 0 48
    let len := (dW2 c.word).toNat
    let p := placeOf s (dQ c.word 0x10)
    let load (t : State) : State :=
      let img := readPlace t p len
      let k := markedSectors p.off img
      finishDesc r c.idx (if k = 0 then stOk else stUncorrected) (BitVec.ofNat 16 (min k 0xFFFF)) 0 (forAll (maskList m) (loadImage img) t)
    if maskBusy s m then .next s
    else match programFault s c.word with
      | some x => .next (finishDesc r c.idx x.1 x.2 0 s)
      | none => .next (onceServed (.desc r c.idx) load (askDesc r c 0 (acceptAt (.desc r c.idx) 2 false p len) s))

/-! ### Starting a launch (R148) -/

/-- A queue map entry (R108). -/
structure QEntry where
  prod : Byte
  cons : Byte
  peerCore : Nat
  peerQ : Nat
  depth : Nat
  init : Nat
  base : Word
  step : Word
deriving DecidableEq, Repr

def Core.qentry (co : Core) (q : Fin 32) : QEntry :=
  let w (i : Nat) : Word := co.qmap.word (16 * q.val + 4 * i)
  { prod := bits (w 0) 0 8, cons := bits (w 0) 8 8, peerCore := (bits (w 0) 16 9).toNat, peerQ := (bits (w 0) 25 5).toNat,
    depth := (bits (w 1) 0 5).toNat, init := (bits (w 1) 8 5).toNat, base := w 2, step := w 3 }

/-- Whether a queue's pair, if it has one, is bound as R109 asks within a mask. -/
def pairOk (s : State) (m : BitVec 48) (c : Fin 384) (q : Fin 32) : Bool :=
  let e := (s.core c).qentry q
  let inside := e.peerCore < 384 && m.getLsbD (e.peerCore / 8)
  let p := (s.core (ix 384 e.peerCore)).qentry (ix 32 e.peerQ)
  let back := inside && p.peerCore = c.val && p.peerQ = q.val && p.depth = e.depth
  (e.cons ≠ 0x20 || (back && p.prod = 0x20 && e.init = 0)) && (e.prod ≠ 0x20 || (back && p.cons = 0x20 && p.init = 0))

/-- The cores of a mask. -/
def maskCores (m : BitVec 48) : List (Fin 384) := (maskList m).flatMap fun cl => (List.range 8).map (coreOf cl)

def pairsOk (s : State) (m : BitVec 48) : Bool :=
  (maskCores m).all fun c => (List.finRange 32).all fun q => pairOk s m c q

/-- The seed of a station's generator (R58), shifted 64 times. -/
def seedLfsr (seed : Dword) (c : Fin 384) (k : Fin 8) : Dword :=
  let x : Dword := seed ^^^ BitVec.ofNat 64 (c.val * 65536) ^^^ BitVec.ofNat 64 (k.val * 256)
  (List.range 64).foldl (fun y _ => (lfsrShift y).2) (if x = 0 then 1 else x)

/-- A queue as its map entry sets it at LAUNCH; a proxy's credits follow the consuming side (R109). A DEPTH outside 1 to 16 is taken as it
stands, and an INIT above DEPTH leaves no credit (DESIGN CHOICE, log 46). -/
def setQueue (s : State) (c : Fin 384) (q : Fin 32) : TokenQueue :=
  let e := (s.core c).qentry q
  let far := ((s.core (ix 384 e.peerCore)).qentry (ix 32 e.peerQ)).init
  let proxy := e.cons = 0x20
  { prod := e.prod, cons := e.cons, peerCore := BitVec.ofNat 9 e.peerCore, peerQ := ix 32 e.peerQ, depth := e.depth,
    tokens := if proxy then [] else (List.range e.init).map fun i => e.base + BitVec.ofNat 32 i * e.step,
    credits := e.depth - (if proxy then far else e.init) }

/-- Step 2 of R148 on a core; the watch of R169 takes its base. -/
def resetCore (seed : Dword) (retaining replayed : Bool) (c : Fin 384) (s : State) : State :=
  let s1 := forAll (List.finRange 8) (fun k => resetStation c k) s
  let seedStn (k : Fin 8) (st : Station) : Station := { st with state := .idle, flags := 0, lfsr := seedLfsr seed c k }
  s1.modCore c fun co =>
    let co1 : Core := { co with
      stns := Vector.ofFn fun k => seedStn k co.stns[k],
      queues := Vector.ofFn fun q => setQueue s c q,
      drainQ := [] }
    takeBase { co1 with watch := { co1.watch with
      satTrig := false, ufzTrig := false, edgeTrig := false, retaining := retaining, retainFull := false, replayed := replayed,
      refused := false, trigCnt := 0, replayUsed := 0, retained := [], eventSent := false } }

/-- The point a cluster in Run holds outside surge (R431). -/
def heldPoint (s : State) (cl : Fin 48) : Nat := min (requestOf s) (min (s.cpwr cl).capLimit (s.cpwr cl).thermLimit)

/-- Steps 3 and 4 of R148 on a cluster: the stallkeeper starts at ENTRY, enabled stations enter RUN (log 24). -/
def startCluster (id : Nat) (arg : Word) (cl : Fin 48) (s : State) : State :=
  let s1 := s.modCluster cl fun c => { c with
    launch := some id, ending := none, crier := c.crier.map fun x => { x with gen := 0 },
    sk := { c.sk with
      st := .run, pc := c.entry,
      g := Vector.ofFn fun i => if i.val = 1 then BitVec.ofNat 32 cl.val else if i.val = 2 then arg else 0,
      events := [], timerArmed := false, normSince := none } }
  let s2 := forAll (stationsOf cl) (fun x t => if (t.station x.1 x.2).enable then startStation x.1 x.2 t else t) s1
  s2.setCpwr cl { s2.cpwr cl with mode := .run, op := heldPoint s cl }

/-- Steps 2 to 4 of R148 over a mask; tokens on their way to its cores are gone. -/
def startClusters (id : Nat) (m : BitVec 48) (seed : Dword) (arg : Word) (retaining replayed : Bool) (s : State) : State :=
  let s1 := s.setWires (s.wires.filter fun w => !m.getLsbD (w.core / 8))
  forAll (maskList m) (startCluster id arg) (forAll (maskCores m) (resetCore seed retaining replayed) s1)

/-- A launch retains only if ACTION reads 2 on every core of every target cluster (R173). -/
def retains (s : State) (m : BitVec 48) : Bool := (maskCores m).all fun c => (s.core c).watch.action = 2

/-- Whether an earlier LAUNCH that a ring has started still waits for a cluster of a mask (R148). -/
def launchWaits (s : State) (order : Nat) (m : BitVec 48) : Bool :=
  s.rings.toList.any fun g => g.started.any fun c =>
    dOp c.word = 0x21 && c.run && !c.issued && c.order < order && (bits (dQ c.word 0x10) 0 48 : BitVec 48) &&& m ≠ 0

/-- LAUNCH (R148): checked once no earlier launch runs on a target cluster, then every target cluster starts. -/
def execLaunchDesc (r : Fin 256) (n : Nat) (s : State) : Res :=
  match descAt s r n 0x21 with
  | none => .next s
  | some c =>
    let m : BitVec 48 := bits (dQ c.word 0x10) 0 48
    let handle := dW2 c.word
    let seed := dQ c.word 0x18
    if maskBusy s m || launchWaits s c.order m then .next s
    else
      let f := worst [maskOut s m, retiredIn s m fun cl => (s.cluster cl).imgCores,
        failIf ((maskList m).any fun cl => !(s.cluster cl).loaded || (s.cluster cl).handle ≠ handle) stMalformed 8,
        failIf (!pairsOk s m) stMalformed 0x8000]
      match f with
      | some x => .next (finishDesc r c.idx x.1 x.2 0 s)
      | none =>
        let l : Launch :=
          { id := c.order, ring := r, idx := c.idx, handle := handle, mask := m, seed := seed, arg := dW3 c.word,
            timeout := bits (dQ c.word 0x20) 0 16, start := s.ns, ended := [], recipe := none, phase := 0, abortAt := none,
            retaining := retains s m, replayed := false, exposed := false, failed := none }
        .next (startClusters c.order m seed (dW3 c.word) l.retaining false
          (issueDesc r c.idx stOk 0 0 (s.setLaunches (s.launches ++ [l]))))

/-! ### Ending a launch (R149, R170 to R172) -/

/-- LAUNCH_TIMEOUT (R149): TIMEOUT has elapsed since step 1 and each cluster still running receives ABORT. -/
def execLaunchTimeout (l : Nat) (s : State) : Res :=
  match s.launches[l]? with
  | none => .next s
  | some x =>
    if x.timeout = 0 || x.abortAt.isSome || s.ns < x.start + 1000000 * x.timeout.toNat then .next s
    else .next (abortLaunch x (setLaunch { x with abortAt := some s.ns } s))

/-- LAUNCH_FORCED_END (R149): 1 ms after ABORT a cluster still running is ended with ERR_TIMEOUT. -/
def execLaunchForcedEnd (l : Nat) (cl : Fin 48) (s : State) : Res :=
  match s.launches[l]? with
  | none => .next s
  | some x => match x.abortAt with
    | none => .next s
    | some t =>
      if t + 1000000 ≤ s.ns && (s.cluster cl).launch = some x.id && (s.cluster cl).ending.isNone then
        .next (endCluster cl stTimeout s)
      else .next s

/-- Whether every in-flight instruction, porter command and crier broadcast of a cluster has completed (R149). -/
def drained (s : State) (cl : Fin 48) : Bool :=
  let c := s.cluster cl
  (stationsOf cl).all (fun x => (s.station x.1 x.2).inflight.isEmpty) && c.prun.isEmpty && c.pq.toList.all (fun q => q.isEmpty)
    && c.bcasts.isEmpty

/-- Whether a core of a cluster has triggered in the launch. -/
def triggered (s : State) (cl : Fin 48) : Bool := (List.range 8).any fun j => (s.core (coreOf cl j)).watch.trigCnt ≠ 0

/-- A cluster's END status with the recipe flag of R171. -/
def clusterStatus (s : State) (cl : Fin 48) (x : Byte) : Byte := if goodStatus x && triggered s cl then stRecipe else x

/-- CLUSTER_LAUNCH_END (R149): an ending cluster has drained. -/
def execClusterLaunchEnd (cl : Fin 48) (s : State) : Res :=
  match (s.cluster cl).ending, launchOf s cl with
  | some x, some l =>
    if l.phase = 2 || !drained s cl then .next s
    else
      let s1 := s.modCluster cl fun c => { c with launch := none, ending := none }
      let s2 := s1.setCpwr cl { s1.cpwr cl with idleSince := s.ns }
      .next (rearm (setLaunch { l with ended := l.ended ++ [(cl.val, clusterStatus s cl x)] } s2))
  | _, _ => .next s

/-- The status, DETAIL and RESULT of a launch whose clusters have all ended: at least ERR_TIMEOUT once TIMEOUT has elapsed, and at least
ERR_RECIPE_FLAG once a core has triggered (R149, R172, R266, R472). -/
def launchResult (l : Launch) : Byte × Half × Dword :=
  let high := l.ended.foldl (fun (a : Byte) x => if a < x.2 then x.2 else a) (if l.abortAt.isSome then stTimeout else stOk)
  let top := if l.recipe.isSome && high < stRecipe then stRecipe else high
  let mask := l.ended.foldl (fun (a : Nat) x => if x.2 = stOk then a else a + 2 ^ x.1) 0
  let detail : Half := match l.failed with
    | some f => if f.1 = top then f.2 else 0
    | none => if top = stRecipe then BitVec.ofNat 16 (l.recipe.getD 0) else 0
  (top, detail, BitVec.ofNat 64 mask)

/-- LAUNCH_COMPLETE (R149): every target cluster has ended. -/
def execLaunchComplete (l : Nat) (s : State) : Res :=
  match s.launches[l]? with
  | none => .next s
  | some x =>
    if (maskList x.mask).all fun cl => x.ended.any fun e => e.1 = cl.val then
      let y := launchResult x
      .next (finishDesc x.ring x.idx y.1 y.2.1 y.2.2 (s.setLaunches (s.launches.eraseIdx l)))
    else .next s

/-! ### VK1 replay (R176 to R178) -/

/-- Write the scales a retained record's values give (R177 step 4, R64). -/
def rescale (x : Retained) (co : Core) : Core :=
  let e := entryOfWords fun j => x.entry.getD j 0
  (List.range x.rows).foldl (fun co i =>
    let vs := (x.vals.drop (x.cols * i)).take x.cols
    let row := if x.rot then (rotRow e.rotL e.rotSeed e.rotT vs).1 else vs
    let blocks := chunks 32 row
    (List.range blocks.length).foldl (fun (co : Core) b =>
      co.lsWrite (e.scaleAddr (x.row + i) (x.col + 32 * b)) [amaxScale e.fmt (blocks.getD b [])]) co) co

/-- Whether a halted launch may be replayed (R176). -/
def mayReplay (s : State) (l : Launch) : Bool :=
  l.retaining && !l.replayed && !l.exposed && (maskCores l.mask).all (fun c => !(s.core c).watch.retainFull)
    && (maskList l.mask).all fun cl => (s.cluster cl).launch = some l.id || (s.cluster cl).launch = none

/-- The REPLAYED record of R277. -/
def replayedEvent (l : Launch) (s : State) : State :=
  postEvent 0x0102 0 (src (l.recipe.getD 0)) ([0, 0, 0, 0] ++ leBytes l.ring.val 2 ++ leBytes (l.idx % 65536) 2) s

/-- VK1_REPLAY (R177): the halted launch has drained; its scales are recomputed and it restarts, or it stops (R176). -/
def execVk1Replay (l : Nat) (s : State) : Res :=
  match s.launches[l]? with
  | none => .next s
  | some x =>
    if x.phase ≠ 2 || !(maskList x.mask).all (drained s) then .next s
    else if mayReplay s x then
      let s1 := forAll (maskCores x.mask) (fun c t => t.modCore c fun co =>
        co.watch.retained.foldl (fun co y => rescale y co) co) s
      let s2 := setLaunch { x with phase := 0, ended := [], recipe := none, retaining := false, replayed := true } s1
      .next (replayedEvent x (startClusters x.id x.mask x.seed x.arg false true s2))
    else
      .next (stopLaunch x (refuseReplay x.mask s))

end Sys2Proof.Machine
end

