-- ==== Sys2Proof/Machine/Repair.lean ====
section
/-! DEFINITION. Local-store scrub and repair in the field (R198 to R205), and resources leaving service (R203, R473, R474). -/
namespace Sys2Proof.Machine
open Sys2Proof

/-- LS_SCRUB_READ (R198): the slice's scrubber presents the read of its next line to the port, at the rank of porter accesses, in Run and
Idle only; what it finds comes with the grant. -/
def execLsScrubRead (c : Fin 384) (t : Fin 4) (s : State) : Res :=
  let m := (s.cpwr (clusterOf c)).mode
  if s.pwr.mstate = 2 || (m ≠ .run && m ≠ .idle) then .next s
  else .next (s.modCore c fun co =>
    let sl := co.slices[t]
    let r : PortReq :=
      { owner := .ext .none, rank := 4, line := 4 * sl.scrubLine + t.val, write := false, waited := 0, urgent := false, net := false }
    addReqs [r] { co with slices := co.slices.set t { sl with scrubLine := (sl.scrubLine + 1) % 73728 } })

/-- The LS_REPAIR record and its ledger entry (R202, R277). -/
def repairEvent (c : Fin 384) (kind t mat : Nat) (s : State) : State :=
  let d := [BitVec.ofNat 8 kind, BitVec.ofNat 8 t, BitVec.ofNat 8 mat]
  ledgerAdd 0x0303 0 (BitVec.ofNat 16 c.val) d (postEvent 0x0303 0 (src c.val) d s)

/-- Change a tier slice of a core. -/
def modSlice (c : Fin 384) (t : Fin 4) (f : TierSlice → TierSlice) (s : State) : State :=
  s.modCore c fun co => { co with slices := co.slices.set t (f co.slices[t]) }

/-- ROW_REPAIR (R199, R203): the oldest failing row moves to a spare row; with no spare of any kind left it stays unrepaired
and the core is marked for retirement. -/
def execRowRepair (c : Fin 384) (t : Fin 4) (s : State) : Res :=
  let co := s.core c
  match co.slices[t].repairs with
  | [] => .next s
  | x :: rest =>
    if 0 < spareRows c t co x.1 then
      let s1 := modSlice c t (fun sl => { sl with repairs := rest, rowsUsed := sl.rowsUsed ++ [x] }) s
      .next (repairEvent c 0 t.val x.1 (s1.modCore c fun co => { co with lsRepair := satAdd co.lsRepair 1 }))
    else if co.slices[t].matSpent then
      let s1 := modSlice c t (fun sl => { sl with repairs := rest, unrepaired := sl.unrepaired ++ [x] }) s
      .next (s1.modCore c fun co => { co with retire := true })
    else .next s

/-- MAT_REPLACEMENT (R200): the mat of the oldest failing row has no spare row and moves to the slice's spare mat. -/
def execMatReplacement (c : Fin 384) (t : Fin 4) (s : State) : Res :=
  let co := s.core c
  match co.slices[t].repairs with
  | [] => .next s
  | x :: rest =>
    if 0 < spareRows c t co x.1 || co.slices[t].matSpent then .next s
    else
      let s1 := modSlice c t (fun sl => { sl with
        repairs := rest, matSpent := true, replacedMat := some x.1, rowsUsed := sl.rowsUsed.filter fun y => y.1 ≠ x.1 }) s
      .next (repairEvent c 1 t.val x.1 (s1.modCore c fun co => { co with lsRepair := satAdd co.lsRepair 1 }))

/-- A cluster leaves service (R473, R474, R481). -/
def clusterOut (cl : Fin 48) (cause : Byte) (s : State) : State :=
  if !(s.cluster cl).inService then s
  else postEvent 0x0705 2 (src cl.val) [cause] (setDegraded (s.modCluster cl fun c => { c with inService := false }))

/-- CORE_RETIREMENT (R203): a marked core leaves service while its cluster runs no launch. -/
def execCoreRetirement (c : Fin 384) (s : State) : Res :=
  let co := s.core c
  let cl := clusterOf c
  if !co.retire || co.retired || (s.cluster cl).launch.isSome then .next s
  else
    let s1 := setDegraded (postEvent 0x0103 2 (src c.val) [] (s.setCore c { co with retired := true }))
    if (List.range 8).all fun j => (s1.core (coreOf cl j)).retired then .next (clusterOut cl 4 s1) else .next s1

end Sys2Proof.Machine
end

