-- ==== Sys2Proof/Machine/Gddr7.lean ====
section
/-! DEFINITION. GDDR7 channels in service (R216 to R224), the memory block's registers (R231 to R236) and the traffic generators
(R226 to R229, R237 to R241). -/
namespace Sys2Proof.Machine
open Sys2Proof

/-- Change a channel. -/
def modChan (ch : Fin 50) (f : Channel → Channel) (s : State) : State := s.setChan ch (f (s.chan ch))

/-! ### What a read finds (R208, R235) -/

/-- The key of a data sector of a channel's group: its usable address divided by 64 (R210). -/
def sectorKey (s : State) (ch : Fin 50) (g sec : Nat) : Nat := (g * s.gddr.activeCh.toNat + (s.chan ch).slot.toNat) * 15 + sec

/-- A sector was corrected: counted, with an event at each multiple of 2^CE_EVT_LOG2 (R208, R231, R233). -/
def countCorrected (ch : Fin 50) (k : Nat) (s : State) : State :=
  let c := s.chan ch
  let n := satAdd c.corrected k
  let s1 := s.setChan ch { c with corrected := n }
  let log := s.gddr.ceEvtLog2.toNat
  if log ≠ 0 && c.ceEvtEn && n ≠ c.corrected && n.toNat / 2 ^ log ≠ c.corrected.toNat / 2 ^ log then
    postEvent 0x0301 0 (src ch.val) (leBytes n.toNat 4) s1
  else s1

/-- The sectors of its group that a request reads: those of a read, those a write covers in part (R209). -/
def GReq.reads (r : GReq) : List Nat := if r.write then r.merge else List.range' r.lo r.cnt

/-- Whether a write that a channel has accepted and not yet served covers a whole sector: what a read finds there is overwritten (R224). -/
def overwritten (c : Channel) (g x : Nat) : Bool :=
  (c.burst ++ c.narrow).any fun w => w.write && w.group = g && w.lo ≤ x && x < w.lo + w.cnt && !w.merge.contains x

/-- The sectors a request newly finds uncorrectable (R208). -/
def gdBad (s : State) (ch : Fin 50) (r : GReq) (e : Ecc) : List Nat :=
  (e.bad.map Fin.val).filter fun x => r.reads.contains x && x < 15 && !overwritten (s.chan ch) r.group x

/-- What a request finds as it is served (R208, R235): corrected sectors are counted, uncorrectable ones get their poison bits, and
sectors that come marked are counted as delivered so. -/
def gdFind (ch : Fin 50) (r : GReq) (e : Ecc) (s : State) : State :=
  let s1 := if e.corrected = 0 then s else countCorrected ch (min e.corrected r.reads.length) s
  let bad := gdBad s ch r e
  let s2 := if (s.chan ch).mapped then
      s1.setGddr { s1.gddr with poison := bad.foldl (fun m x => insSorted (sectorKey s ch r.group x) m) s1.gddr.poison }
    else s1
  let marked := r.reads.filter fun x => bad.contains x || ((s.chan ch).mapped && s2.gddr.poison.contains (sectorKey s ch r.group x))
  modChan ch (fun c => { c with uncorrected := satAdd c.uncorrected marked.length }) s2

/-! ### Command issue (R222, R224) -/

/-- The requests of a channel, each with its queue: false burst, true narrow. -/
def chanReqs (c : Channel) : List (Bool × GReq) := c.burst.map (false, ·) ++ c.narrow.map (true, ·)

/-- Whether a is served before b: urgent and older, else class, else the queue whose turn it is, else row hit, else older. -/
def gdBefore (c : Channel) (a b : Bool × GReq) : Bool :=
  let hit (x : Bool × GReq) : Bool := c.openRow = some x.2.group
  let turn (x : Bool × GReq) : Bool := x.1 ≠ c.lastNarrow
  if a.2.urgent && b.2.urgent then a.2.seq < b.2.seq
  else if a.2.urgent ≠ b.2.urgent then a.2.urgent
  else if a.2.cls ≠ b.2.cls then a.2.cls < b.2.cls
  else if turn a ≠ turn b then turn a
  else if !a.1 && hit a ≠ hit b then hit a
  else a.2.seq < b.2.seq

/-- Whether request b must be issued before request a: it is older, they meet in a sector, and one requester made both, or both
write (R224). -/
def gdFirst (b a : GReq) : Bool :=
  b.seq < a.seq && b.group = a.group && b.lo < a.lo + a.cnt && a.lo < b.lo + b.cnt
    && ((b.owner = a.owner && b.owner ≠ .none) || (b.write && a.write))

/-- The request to issue in place of one that an older one must go before. -/
def gdSettle (xs : List (Bool × GReq)) : Nat → Bool × GReq → Bool × GReq
  | 0, a => a
  | n + 1, a => match xs.find? fun b => gdFirst b.2 a.2 with
    | some b => gdSettle xs n b
    | none => a

/-- The request a channel issues next: the one nothing precedes, or an older one that must go before it. -/
def pickGd (c : Channel) : Option (Bool × GReq) :=
  let xs := chanReqs c
  (xs.find? fun a => xs.all fun b => !gdBefore c b a).map (gdSettle xs xs.length)

/-- Whether a channel serves its queues now. -/
def chanServes (s : State) (ch : Fin 50) : Bool :=
  !s.gddr.selfRefresh && s.gddr.rateTarget.isNone && !(s.chan ch).sr

/-- A request leaves its queue for the device, and those that wait before the channel move up. -/
def takeReq (now : Nat) (x : Bool × GReq) (c : Channel) : Channel :=
  Channel.takeIn now { c with
    burst := c.burst.filter fun r => r.seq ≠ x.2.seq, narrow := c.narrow.filter fun r => r.seq ≠ x.2.seq,
    lastNarrow := x.1, openRow := some x.2.group }

/-- GDDR7_REQUEST_URGENT (R222): the n-th request of a channel, burst queue first, of class 1 to 3, has waited 4,096 ns. -/
def execGddr7RequestUrgent (ch : Fin 50) (n : Nat) (s : State) : Res :=
  let c := s.chan ch
  let up (x : GReq) : GReq := if 1 ≤ x.cls && x.at_ + 4096 ≤ s.ns then { x with urgent := true } else x
  if n < c.burst.length then .next (s.setChan ch { c with burst := c.burst.modify n up })
  else .next (s.setChan ch { c with narrow := c.narrow.modify (n - c.burst.length) up })

/-- Retries of a request (R233). -/
def edcLimit (c : Channel) : Nat := if c.edcRetry = 0 then 1 else min 8 c.edcRetry.toNat

/-- One retry more of a request. -/
def addTry (seq : Nat) (r : GReq) : GReq := if r.seq = seq then { r with tries := r.tries + 1 } else r

/-- GDDR7_EDC_RETRY (R216): the request the channel is serving is retried; a failed last retry takes a channel in service out of
it, and the request is then served as every later one. -/
def execGddr7EdcRetry (ch : Fin 50) (ok : Bool) (s : State) : Res :=
  let c := s.chan ch
  if c.state = 0 || !chanServes s ch then .next s
  else match pickGd c with
    | none => .next s
    | some x =>
      if edcLimit c ≤ x.2.tries then .next s
      else
        let c1 : Channel := { c with
          retries := satAdd c.retries 1, burst := c.burst.map (addTry x.2.seq), narrow := c.narrow.map (addTry x.2.seq),
          tg := if c.tg.state = 1 then { c.tg with edcSeen := true } else c.tg }
        if ok || c.state ≠ 1 || x.2.tries + 1 < edcLimit c then .next (s.setChan ch c1)
        else
          let s2 := s.setChan ch { c1 with state := 4, cause := 7 }
          let s3 := s2.setGddr { s2.gddr with failedCh := s2.gddr.failedCh + 1 }
          .next (setDegraded (postEvent 0x0302 2 (src ch.val) [7] s3))

/-- GDDR7_SCRUB_READ (R219, R221): the channel's scrubber presents the read of its next group at class 3; what it finds comes as the read
is served. -/
def execGddr7ScrubRead (ch : Fin 50) (s : State) : Res :=
  let c := s.chan ch
  if !s.gddr.scrubEn || c.state ≠ 1 || !c.mapped || s.gddr.selfRefresh || s.pwr.mstate = 2 then .next s
  else .next (s.setChan ch ({ c with scrubGroup := (c.scrubGroup + 1) % 2 ^ 22 }.present s.ns false
    (groupReq .none 3 false c.scrubGroup 0 960)))

/-! ### Data rate (R218, R231) -/

/-- The rate that every limit allows; a higher code is a lower rate. -/
def rateWanted (g : Gddr) : BitVec 2 := BitVec.ofNat 2 (max g.rateMax.toNat (max g.capRate.toNat g.thermRate.toNat))

/-- Ask for the rate the limits allow. -/
def askRate (g : Gddr) : Gddr := { g with rateTarget := if rateWanted g = g.rate then none else some (rateWanted g) }

/-- GDDR7_RATE_CHANGE (R218): the channels relock at the rate asked for; in self refresh it waits for the exit. -/
def execGddr7RateChange (s : State) : Res :=
  match s.gddr.rateTarget with
  | none => .next s
  | some x =>
    if s.gddr.selfRefresh then .next s
    else .next ((s.setGddr { s.gddr with rate := x, rateTarget := none }).setTime
      { s.time with fifoPhy := Vector.replicate 50 4 })

/-- A write of MEM_CTRL (R231). -/
def memCtrlWrite (w : Word) (s : State) : State :=
  let g := askRate { s.gddr with rateMax := bits w 0 2, scrubEn := w.getLsbD 2, ceEvtLog2 := bits w 8 5 }
  let clear (c : Channel) : Channel := { c with corrected := 0, uncorrected := 0, retries := 0 }
  s.setGddr { g with chans := if w.getLsbD 3 then g.chans.map clear else g.chans }

/-- MEM_CNT_CLEAR (R231). -/
def execMemCntClear (w : Word) (s : State) : Res :=
  .next (if w.getLsbD 3 && !s.boot.recovery then memCtrlWrite w s else s)

/-! ### Traffic generators (R226 to R229, R238 to R241) -/

/-- One shift of the pseudo-random register (R239): the output bit and the next state. -/
def tgShift (x : Word) : Bool × Word :=
  let y := x >>> 1
  (x.getLsbD 0, if x.getLsbD 0 then y ^^^ 0x80200003 else y)

/-- Bytes of the pseudo-random stream, first output in the lowest bit of the first byte (log 25). -/
def tgStream : Nat → Word → List Byte
  | 0, _ => []
  | n + 1, x =>
    let r := (List.range 8).foldl (fun (a : Nat × Word) i =>
      let y := tgShift a.2
      (a.1 + b2n y.1 * 2 ^ i, y.2)) (0, x)
    BitVec.ofNat 8 r.1 :: tgStream n r.2

/-- The n bytes a generator writes to a group (R239; log 25). -/
def tgPattern (p : Dword) (g n : Nat) : List Byte :=
  let v : Word := bits p 32 32
  let words (f : Nat → Word) : List Byte := (List.range (n / 4)).flatMap fun i => leBytes (f i).toNat 4
  match (bits p 0 4).toNat with
  | 1 => tgStream n ((if v = 0 then 1 else v) ^^^ BitVec.ofNat 32 g)
  | 2 => words fun i => BitVec.ofNat 32 (2 ^ (i % 32))
  | 3 => words fun i => ~~~ BitVec.ofNat 32 (2 ^ (i % 32))
  | 4 => words fun _ => BitVec.ofNat 32 g
  | _ => words fun _ => v

/-- First group and groups per pass of TG_ADDR (R240). -/
def tgStart (t : TrafficGen) : Nat := (bits t.addr 0 22).toNat
def tgCountOf (t : TrafficGen) : Nat := (bits t.addr 32 23).toNat

/-- Whether a mode writes, and whether it reads (R238). -/
def tgWrites (t : TrafficGen) : Bool := t.mode = 1 || t.mode = 3
def tgReads (t : TrafficGen) : Bool := t.mode = 2 || t.mode = 3 || t.mode = 4

/-- Usable address of a mapped channel's group (R210). -/
def groupAddr (s : State) (ch : Fin 50) (g : Nat) : Nat := (g * s.gddr.activeCh.toNat + (s.chan ch).slot.toNat) * 960

/-- The check sector of a group of data (R207): the check bits of its 15 sectors, its poison bits and the bits over them. -/
def checkSector (data : List Byte) (poison : Nat) : List Byte :=
  let words := (chunks 64 data).flatMap fun x => leBytes (Config.sectorCheck (leNat x)).toNat 4
  words ++ leBytes (poison + 2 ^ 15 * (Config.groupCheck (leNat words + 2 ^ 480 * poison)).toNat) 4

/-- The 1,024 bytes of a device group (R207, R227): what raw mode wrote; a mapped channel's data and check sector; a spare's zeros;
of a device that failed training, bytes the spec does not state. -/
def groupBytes (s : State) (ch : Fin 50) (g : Nat) : List Byte :=
  let c := s.chan ch
  if c.rawGroups.contains g then s.gddr.raw.getBytes (ch.val * 2 ^ 32 + g * 1024) 1024
  else if c.mapped then
    let data := s.gddr.mem.getBytes (groupAddr s ch g) 960
    let poison := (List.range 15).foldl (fun a x => a + 2 ^ x * b2n (s.gddr.poison.contains (sectorKey s ch g x))) 0
    data ++ checkSector data poison
  else if c.state = 2 || c.state = 5 then List.replicate 960 0 ++ checkSector (List.replicate 960 0) 0
  else (List.range 1024).map fun i => Config.devByte ch.val g i

/-- A generator write of one group: usable memory in mapped mode, device bytes otherwise (R227, R229). -/
def tgWriteGroup (ch : Fin 50) (s : State) (g : Nat) : State :=
  let c := s.chan ch
  if c.tg.raw || !c.mapped then
    let s1 := modChan ch (fun c => { c with rawGroups := insSorted g c.rawGroups }) s
    s1.setGddr { s1.gddr with raw := s1.gddr.raw.putBytes (ch.val * 2 ^ 32 + g * 1024) (tgPattern c.tg.pattern g 1024) }
  else writePlace (.gddr (groupAddr s ch g)) ((tgPattern c.tg.pattern g 960).map fun b => (b, false)) s

/-- The group a pass takes next: by WALK, a pseudo-random walk taking any group it has not visited (R238; log 25). -/
def tgGroup (t : TrafficGen) (s : State) : Nat × State :=
  let i := t.visited.length
  if t.walk = 1 then (tgStart t + tgCountOf t - 1 - i, s)
  else if t.walk = 2 then
    let rest := (List.range' (tgStart t) (tgCountOf t)).filter fun g => !t.visited.contains g
    (rest.getD ((Config.freeWord s.free).toNat % (tgCountOf t - i)) 0, s.setFree (s.free + 1))
  else (tgStart t + i, s)

/-- The generator presents the requests of its next group, at class 3 (R221, R228); a write is visible from then on (R224). -/
def tgNext (ch : Fin 50) (s : State) : State :=
  let t := (s.chan ch).tg
  if t.state ≠ 1 || t.stopAsked || tgCountOf t ≤ t.visited.length || !(tgWrites t || tgReads t) then s
  else
    let x := tgGroup t s
    let size := if t.raw || !(s.chan ch).mapped then 1024 else 960
    let ask (wr : Bool) (s : State) : State :=
      s.setChan ch ((s.chan ch).present s.ns false (groupReq .gen 3 wr x.1 0 size))
    let s1 := if tgWrites t then ask true (tgWriteGroup ch x.2 x.1) else x.2
    if tgReads t then ask false s1 else s1

/-- Bits, by DQ lane, in which a group differs from the pattern (R228). -/
def tgDiffs (s : State) (ch : Fin 50) (g : Nat) : List Nat :=
  let t := (s.chan ch).tg
  let n := if t.raw || !(s.chan ch).mapped then 1024 else 960
  let got := (groupBytes s ch g).take n
  let want := tgPattern t.pattern g n
  let bad := (List.range (8 * n)).filter fun i => (got.getD (i / 8) 0).getLsbD (i % 8) ≠ (want.getD (i / 8) 0).getLsbD (i % 8)
  (List.range 32).map fun l => (bad.filter fun i => Config.dqLane i % 32 = l).length

/-- Add miscompares and corrections to the counts, saturating (R241). -/
def tgCount (t : TrafficGen) (lanes : List Nat) (ecc : Nat) : TrafficGen :=
  let cap (x : Nat) : Nat := min x (2 ^ 32 - 1)
  let cmp := t.mode = 2 || t.mode = 3
  let all := lanes.foldl (· + ·) 0
  { t with
    mismatch := t.mismatch || (cmp && lanes.any (· ≠ 0)),
    counts := (List.range 34).map fun i =>
      let old := t.counts.getD i 0
      if i < 32 then cap (old + (if cmp then lanes.getD i 0 else 0))
      else if i = 32 then cap (old + (if cmp then all else 0))
      else cap (old + (if t.mode = 4 then ecc else 0)) }

/-- A request of the generator is served: a read is compared as received, corrections count in an ECC scan, and the pass goes on with its
next group (R228, R238). -/
def tgServe (ch : Fin 50) (r : GReq) (e : Ecc) (s : State) : State :=
  let t := (s.chan ch).tg
  let plainRaw := t.raw || !(s.chan ch).mapped
  let s1 := if plainRaw || (s.chan ch).state = 4 then s else gdFind ch r e s
  if r.write && tgReads t then s1
  else
    let t1 := if r.write then t
      else tgCount t (tgDiffs s ch r.group) (if plainRaw then 0 else min e.corrected r.reads.length)
    tgNext ch (modChan ch (fun c => { c with tg := { t1 with visited := insSorted r.group t1.visited } }) s1)

/-- GDDR7_COMMAND_ISSUE (R222): one request leaves its queue and is served; on a FAILED channel a read delivers every sector marked
(R216, R235). -/
def execGddr7CommandIssue (ch : Fin 50) (e : Ecc) (s : State) : Res :=
  let c := s.chan ch
  if !chanServes s ch then .next s
  else match pickGd c with
    | none => .next s
    | some x =>
      let s1 := s.setChan ch (takeReq s.ns x c)
      if x.2.owner = .gen then .next (tgServe ch x.2 e s1)
      else if c.state = 4 then
        let k := if x.2.write then 0 else x.2.cnt
        .next (servePeers (noteRead x.2.owner 0 384 ((List.range' x.2.lo k).map (sectorKey s ch x.2.group))
          (modChan ch (fun c => { c with uncorrected := satAdd c.uncorrected k }) s1)))
      else
        .next (servePeers (noteRead x.2.owner (min e.corrected x.2.reads.length) 384 ((gdBad s1 ch x.2 e).map (sectorKey s ch x.2.group))
          (gdFind ch x.2 e s1)))

/-- Why a START is refused (R241); groups from START and COUNT of TG_ADDR. -/
def tgRefused (s : State) (c : Channel) : Bool :=
  let start := (bits c.tg.addr 0 22).toNat
  let count := (bits c.tg.addr 32 23).toNat
  (c.tg.raw && c.mapped && c.state ≠ 4) || (c.sr && c.state ≠ 2) || count = 0 || 2 ^ 22 < start + count || s.pwr.mstate = 2

/-- START of a run (R238, R241, R215). -/
def tgBegin (s : State) (c : Channel) : Channel :=
  if c.tg.state = 1 then c
  else if tgRefused s c then { c with tg := { c.tg with state := 3 } }
  else
    let t : TrafficGen := { c.tg with state := 1, passes := 0, edcSeen := false, stopAsked := false, visited := [] }
    if c.state = 2 then { c with state := 5, sr := false, tg := t } else { c with tg := t }

/-- CLEAR (R238); a run in progress stays running (log 25). -/
def tgWipe (t : TrafficGen) : TrafficGen :=
  { t with
    state := if t.state = 1 then 1 else 0, mismatch := false, edcSeen := false, passes := 0, counts := List.replicate 34 0 }

/-- A write of TG_CTRL (R226, R238): fields, CLEAR, START, STOP; ignored while debug is off. -/
def tgCtrlWrite (ch : Fin 50) (w : Word) (s : State) : State :=
  if !s.sec.dbgActive || s.boot.recovery then s
  else
    let c := s.chan ch
    let t : TrafficGen :=
      if c.tg.state = 1 then c.tg
      else { c.tg with mode := bits w 0 3, raw := w.getLsbD 3, walk := bits w 4 2, loop := w.getLsbD 6, laneSel := bits w 10 6 }
    let c1 : Channel := { c with tg := if w.getLsbD 9 then tgWipe t else t }
    let starts := w.getLsbD 7 && c1.tg.state ≠ 1
    let s1 := if starts then tgNext ch (s.setChan ch (tgBegin s c1)) else s.setChan ch c1
    if w.getLsbD 8 then modChan ch (fun c => if c.tg.state = 1 then { c with tg := { c.tg with stopAsked := true } } else c) s1 else s1

/-- TG_START (R238). -/
def execTgStart (ch : Fin 50) (w : Word) (s : State) : Res := .next (if w.getLsbD 7 then tgCtrlWrite ch w s else s)

/-- TG_STOP (R238). -/
def execTgStop (ch : Fin 50) (w : Word) (s : State) : Res := .next (if w.getLsbD 8 then tgCtrlWrite ch w s else s)

/-- TG_CLEAR (R238). -/
def execTgClear (ch : Fin 50) (w : Word) (s : State) : Res := .next (if w.getLsbD 9 then tgCtrlWrite ch w s else s)

/-- TG_RUN_DONE (R241): a pass, or the run a STOP ended, is over; the spare returns to self refresh (R215). `lanes` are the bits that
came wrong from the device although it holds them right, by lane (log 13). -/
def execTgRunDone (ch : Fin 50) (lanes : List Nat) (s : State) : Res :=
  let c := s.chan ch
  let t := c.tg
  let busy := (c.burst ++ c.waiting.map Prod.snd).any fun r => r.owner = .gen
  let whole : Bool := tgCountOf t ≤ t.visited.length || !(tgWrites t || tgReads t)
  if t.state ≠ 1 || busy || s.gddr.rateTarget.isSome || !(whole || t.stopAsked) then .next s
  else
    let again := t.loop && !t.stopAsked
    let t1 : TrafficGen := { tgCount t lanes 0 with
      passes := if whole then satAdd t.passes 1 else t.passes, state := if again then 1 else 2, stopAsked := false, visited := [] }
    .next (tgNext ch (modChan ch (fun c =>
      if again || c.state ≠ 5 then { c with tg := t1 } else { c with tg := t1, state := 2, sr := true }) s))

/-! ### Register words (R232 to R236, R241) -/

def memStatus (g : Gddr) : Word :=
  BitVec.ofNat 32 (g.rate.toNat + 4 * g.activeCh.toNat + 2 ^ 8 * b2n g.trained
    + 2 ^ 9 * b2n (g.trained && (g.activeCh.toNat < 48 || g.failedCh ≠ 0)) + 2 ^ 10 * b2n g.rateTarget.isSome
    + 2 ^ 11 * b2n g.selfRefresh + 2 ^ 12 * g.failedCh.toNat)

def memCtrl (g : Gddr) : Word := BitVec.ofNat 32 (g.rateMax.toNat + 4 * b2n g.scrubEn + 2 ^ 8 * g.ceEvtLog2.toNat)

def chCfg (c : Channel) : Word := BitVec.ofNat 32 (c.edcRetry.toNat + 16 * b2n c.ceEvtEn)

def chStatus (c : Channel) : Word :=
  BitVec.ofNat 32 (c.state.toNat + 8 * b2n c.sr + 16 * c.cause.toNat + 256 * c.ratesOk.toNat)

def chEccCnt (c : Channel) : Dword :=
  BitVec.ofNat 64 (c.corrected.toNat + 2 ^ 32 * c.uncorrected.toNat + 2 ^ 48 * c.retries.toNat)

def chMap (c : Channel) : Word := BitVec.ofNat 32 (c.slot.toNat + 64 * b2n c.mapped + 128 * b2n c.substitute)

def tgCtrl (t : TrafficGen) : Word :=
  BitVec.ofNat 32 (t.mode.toNat + 8 * b2n t.raw + 16 * t.walk.toNat + 64 * b2n t.loop + 1024 * t.laneSel.toNat)

def tgStatus (t : TrafficGen) : Word :=
  BitVec.ofNat 32 (t.state.toNat + 4 * b2n t.mismatch + 8 * b2n t.edcSeen + 65536 * t.passes.toNat)

def tgErrCnt (t : TrafficGen) : Word := BitVec.ofNat 32 (t.counts.getD t.laneSel.toNat 0)

end Sys2Proof.Machine
end

