-- ==== Sys2Proof/Machine/Desc.lean ====
section
/-! DEFINITION. Descriptors that move bytes (R225, R261, R493) and that reach a core's counter block (R104, R165, R261), and the
end of a descriptor's remote transactions (R320, R323). -/
namespace Sys2Proof.Machine
open Sys2Proof

/-- Whether a descriptor still waits for a transaction. -/
def descWaits (s : State) (r : Fin 256) (idx : Nat) : Bool := s.mach.txns.any fun t => t.owner = .desc r idx

/-- End a descriptor with its status, or keep the status until its transactions have ended. -/
def endOrWait (r : Fin 256) (idx : Nat) (status : Byte) (detail : Half) (result : Dword) (s : State) : State :=
  if descWaits s r idx then issueDesc r idx status detail result s else finishDesc r idx status detail result s

/-- Status of data read: marked sectors make ERR_DATA_UNCORRECTED (R265). -/
def readStatus (k : Nat) : Byte × Half := if k = 0 then (stOk, 0) else (stUncorrected, BitVec.ofNat 16 (min k 0xFFFF))

/-- The context of a descriptor by its index. -/
def ctxOf (s : State) (r : Fin 256) (idx : Nat) : Option DescCtx := (s.ring r).started.find? fun c => c.idx = idx

/-- A transaction ended with a status: its porter command or descriptor hears of it (R153, R265, R320, R323). -/
def txnEnded (t : Txn) (status : Byte) (detail : Half) (s : State) : State :=
  match t.owner with
  | .porter cl id => modRun cl id (fun r => { r with
      txns := r.txns - 1, staged := r.staged || (!r.moved && r.txns ≤ 1),
      moved := r.moved || !(goodStatus status || status = stUncorrected),
      code := if goodStatus status || status = stUncorrected then r.code else some (status.setWidth 16) }) s
  | .desc r idx =>
    match ctxOf s r idx with
    | none => s
    | some c =>
      let y := if c.status < status then (status, detail) else (c.status, c.detail)
      let s1 := modCtx r idx (fun c => { c with status := y.1, detail := y.2 }) s
      if descWaits s r idx then s1
      else if c.issued || !(goodStatus y.1 || y.1 = stUncorrected) then finishDesc r idx y.1 y.2 c.result s1
      else modCtx r idx (fun c => { c with staged := true }) s1
  | _ => s

/-- Read an operand from a partner into the descriptor's staging buffer, once. -/
def fetchOperand (r : Fin 256) (c : DescCtx) (d : Dword) (n : Nat) (s : State) : State :=
  if descWaits s r c.idx || c.staged then s
  else fitTxns s (transfer (.desc r c.idx) 2 (placeOf s d) .bad stageAddr n s s).1

/-- Go on with n bytes at an operand's address, once they have been read: from a partner into the staging buffer, or here by the
descriptor's k-th batch of requests, at a class. -/
def withOperand (r : Fin 256) (c : DescCtx) (k cls : Nat) (d : Dword) (n : Nat) (go : List MByte → State → State) (s : State) : State :=
  match placeOf s d with
  | .remote _ _ =>
    if c.staged then go ((c.stage.getBytes 0 n).map fun b => (b, c.status = stUncorrected)) s else fetchOperand r c d n s
  | p => onceServed (.desc r c.idx) (fun t => go (readPlace t p n) t) (askDesc r c k (acceptAt (.desc r c.idx) cls false p n) s)

/-- Why a byte-mode COPY is refused (R493, R265). -/
def copyByteFault (s : State) (w : DescWord) : Option (Byte × Half) :=
  worst [failIf (bits (dW2 w) 1 4 ≠ (0 : BitVec 4)) stMalformed 8, opFault s (dQ w 0x10) (dQ w 0x20).toNat 0x10,
    opFault s (dQ w 0x18) (dQ w 0x20).toNat 0x18]

/-- COPY_BYTE_MODE (R493): LENGTH bytes unchanged. -/
def execCopyByteMode (r : Fin 256) (n : Nat) (s : State) : Res :=
  match descAt s r n 0x10 with
  | none => .next s
  | some c =>
    let w := c.word
    let len := (dQ w 0x20).toNat
    let o : TxnOwner := .desc r c.idx
    let p := placeOf s (dQ w 0x10)
    let q := placeOf s (dQ w 0x18)
    if (dW2 w).getLsbD 0 then .next s
    else match copyByteFault s w with
      | some x => .next (finishDesc r c.idx x.1 x.2 0 s)
      | none =>
        .next (onceServed o (fun t =>
          let y := readStatus (markedSectors p.off (readPlace t p len))
          fitTxns t (endOrWait r c.idx y.1 y.2 0 (transfer o 2 p q (dQ w 0x18) len t t).1)) (askDesc r c 0 (askMove o 2 p q len) s))

/-- Why a GATHER is refused by its operands (R261, R265). -/
def gatherFault (s : State) (w : DescWord) : Option (Byte × Half) :=
  let count := (dW2 w).toNat
  worst [failIf (count = 0 || 2 ^ 24 < count) stMalformed 8, opFault s (dQ w 0x10) (8 * count) 0x10,
    opFault s (dQ w 0x18) (32 * count) 0x18]

/-- The rows of a GATHER's list are read and packed, or the descriptor is refused. -/
def gatherDesc (r : Fin 256) (c : DescCtx) (lb : List MByte) (s : State) : State :=
  let o : TxnOwner := .desc r c.idx
  let d := dQ c.word 0x18
  let rows := gatherList (plain lb)
  let bad (x : Dword) : Option (Byte × Half) := match rowFault s x with
    | some y => some (if y.1 = stMalformed then (y.1, 0x8000) else y)
    | none => none
  match rows.findSome? bad with
  | some x => finishDesc r c.idx x.1 x.2 0 s
  | none =>
    onceServed o (fun t =>
      let y := readStatus (markedSectors (placeOf t (dQ c.word 0x10)).off lb
        + (rows.map fun d => markedSectors (placeOf t d).off (readPlace t (placeOf t d) 32)).foldl (· + ·) 0)
      fitTxns t (endOrWait r c.idx y.1 y.2 0 (gatherRows o 2 rows d t).1)) (askDesc r c 1 (askRows o 2 rows (placeOf s d)) s)

/-- GATHER (R261, R225): 32-byte rows of GDDR7 packed at DST through the narrow path. -/
def execGatherDesc (r : Fin 256) (n : Nat) (s : State) : Res :=
  match descAt s r n 0x11 with
  | none => .next s
  | some c =>
    match gatherFault s c.word with
    | some x => .next (finishDesc r c.idx x.1 x.2 0 s)
    | none => .next (withOperand r c 0 2 (dQ c.word 0x10) (8 * (dW2 c.word).toNat) (gatherDesc r c) s)

/-- Write bytes at an operand's address; a remote one takes transactions. -/
def writeOut (owner : TxnOwner) (cls : Nat) (d : Dword) (bs : List MByte) (s : State) : State :=
  match placeOf s d with
  | .remote m low =>
    let parts := chunks txnBytes bs
    (List.range parts.length).foldl (fun t i =>
      startWrite owner m (low + BitVec.ofNat 44 (txnBytes * i)) (parts.getD i []) t) s
  | p => acceptAt owner cls true p bs.length (writePlace p bs s)

/-- Why a FILL is refused (R261, R265). -/
def fillFault (s : State) (w : DescWord) : Option (Byte × Half) :=
  worst [opFault s (dQ w 0x10) (dQ w 0x20).toNat 0x10, failIf ((dQ w 0x20).toNat % 8 ≠ 0) stMalformed 0x20]

/-- FILL (R261): an 8-byte pattern over LENGTH bytes. -/
def execFillDesc (r : Fin 256) (n : Nat) (s : State) : Res :=
  match descAt s r n 0x12 with
  | none => .next s
  | some c =>
    let w := c.word
    let len := (dQ w 0x20).toNat
    match fillFault s w with
    | some x => .next (finishDesc r c.idx x.1 x.2 0 s)
    | none =>
      .next (fitTxns s (endOrWait r c.idx stOk 0 0 (writeOut (.desc r c.idx) 2 (dQ w 0x10) (patternBytes (dQ w 0x18) len) s)))

/-! ### DIAG on counter blocks (R104, R165, R261) -/

/-- A core's counter block as bytes. -/
def ctrBytes (c : Fin 384) (co : Core) : List Byte := (List.range 128).flatMap fun i => leBytes (ctrWord c co (4 * i)).toNat 4

/-- Why a DIAG of a counter block is refused: its range, its core, its buffer (R261, R265). -/
def diagFault (s : State) (w : DescWord) : Option (Byte × Half) :=
  let o := (bits (dQ w 0x18) 0 32).toNat
  let l := (bits (dQ w 0x18) 32 32).toNat
  let core := (dW3 w).toNat
  worst [failIf (384 ≤ core) stMalformed 0x0C, opFault s (dQ w 0x10) l 0x10,
    failIf (o % 4 ≠ 0 || l % 4 ≠ 0 || l = 0 || 512 < l || 0x200 < o + l) stMalformed 0x18,
    if core < 384 && !coreServes s core then some (stDegraded, coreOutDetail s (ix 384 core)) else none]

/-- DIAG_READ_COUNTERS (R261). -/
def execDiagReadCounters (r : Fin 256) (n : Nat) (s : State) : Res :=
  match descAt s r n 0x70 with
  | none => .next s
  | some c =>
    let w := c.word
    if bits (dW2 w) 0 8 ≠ (0 : Byte) then .next s
    else match diagFault s w with
      | some x => .next (finishDesc r c.idx x.1 x.2 0 s)
      | none =>
        let o := (bits (dQ w 0x18) 0 32).toNat
        let l := (bits (dQ w 0x18) 32 32).toNat
        let core := ix 384 (dW3 w).toNat
        let bs := ((ctrBytes core (s.core core)).drop o).take l
        .next (fitTxns s (endOrWait r c.idx stOk 0 0 (writeOut (.desc r c.idx) 2 (dQ w 0x10) (bs.map fun b => (b, false)) s)))

/-- Write words over a counter block from byte offset o; read-only words take none. -/
def diagWrite (core : Fin 384) (o : Nat) (bs : List Byte) (s : State) : State :=
  (List.range (bs.length / 4)).foldl (fun t i =>
    watchCheck core (t.modCore core (ctrWrite (o + 4 * i) (BitVec.ofNat 32 (fieldAt bs (4 * i) 4))))) s

/-- DIAG_WRITE_COUNTERS (R261, R104, R165). -/
def execDiagWriteCounters (r : Fin 256) (n : Nat) (s : State) : Res :=
  match descAt s r n 0x70 with
  | none => .next s
  | some c =>
    let w := c.word
    if bits (dW2 w) 0 8 ≠ (1 : Byte) then .next s
    else
      let l := (bits (dQ w 0x18) 32 32).toNat
      match diagFault s w with
      | some x => .next (finishDesc r c.idx x.1 x.2 0 s)
      | none =>
        .next (withOperand r c 0 2 (dQ w 0x10) l (fun bs t =>
          let y := readStatus (markedSectors (placeOf t (dQ w 0x10)).off bs)
          finishDesc r c.idx y.1 y.2 0 (diagWrite (ix 384 (dW3 w).toNat) (bits (dQ w 0x18) 0 32).toNat (plain bs) t)) s)

end Sys2Proof.Machine
end

