-- ==== Sys2Proof/Machine/Sessions.lean ====
section
/-! DEFINITION. Nonces, sessions and lockout (R295 to R300), debug (R306, R307), the firmware descriptors (R302, R303) and the DOE
mailbox: key provisioning (R293, R294) and SPDM (R290, R291). -/
namespace Sys2Proof.Machine
open Sys2Proof

/-! ### Nonces (R295) -/

/-- NONCE_DRAW: an aligned 4-byte or 8-byte read of SESSION_NONCE draws into the next window. -/
def execNonceDraw (size : Nat) (s : State) : Res :=
  if size ≠ 4 && size ≠ 8 then .next (s.setOut { s.out with read := 0 })
  else
    let d := s.sec.draws
    let tag := BitVec.ofNat 16 (d % 4096 * 16 + d % 16)
    let f := s.fresh
    let s1 := f.2.setSec { s.sec with
      draws := d + 1, nonces := s.sec.nonces.set (ix 16 d) { val := f.1, tag := tag, live := true, at_ := s.ns } }
    .next (s1.setOut { s1.out with read := tag.setWidth 64 })

/-- Whether a nonce window is live: drawn, not used, not 10 s old. -/
def nonceLive (s : State) (x : NonceWin) : Bool := x.live && s.ns < x.at_ + 10000000000

/-- NONCE_EXPIRY. -/
def execNonceExpiry (t : Fin 16) (s : State) : Res :=
  let x := s.sec.nonces[t]
  if x.live && x.at_ + 10000000000 ≤ s.ns then .next (s.setSec { s.sec with nonces := s.sec.nonces.set t { x with live := false } })
  else .next s

/-! ### Sessions (R296 to R300) -/

/-- The message a proof covers (R296). -/
def proofMessage (nonce : BitVec 256) (tag : Half) (r : Fin 256) (epoch : Half) (slot : Nat) : List Byte :=
  ascii "VK2SESS1" ++ leBytes nonce.toNat 32 ++ leBytes tag.toNat 2 ++ leBytes r.val 2 ++ leBytes epoch.toNat 2
    ++ [BitVec.ofNat 8 slot, 0]

/-- A failed open counts; the 16th in a row starts a lockout (R300). -/
def countFail (r : Fin 256) (s : State) : State :=
  let x := s.sec
  if x.fails < 15 then s.setSec { x with fails := x.fails + 1 }
  else
    let s1 := s.setSec { x with fails := 0, lockUntil := some (s.ns + 2 ^ x.level * 1000000000), level := min 6 (x.level + 1) }
    postEvent 0x0206 2 (src r.val) (leBytes (2 ^ x.level) 4) s1

/-- Whether opens are locked out (R297, R300). -/
def lockedOut (s : State) : Bool := match s.sec.lockUntil with
  | some t => s.ns < t
  | none => false

/-- The first nonzero tag from t on that no live session has (R298). -/
def liveTag (l : List Session) : Nat → Half → Half
  | 0, t => t
  | n + 1, t => if t = 0 || l.any (fun x => x.tag = t) then liveTag l n (t + 1) else t

/-- Bind a ring to the session of a slot, created where none is live (R298). -/
def bindSession (r : Fin 256) (slot : Fin 8) (s : State) : Half × BitVec 5 × State :=
  let bind (t : Half) (s : State) : State := s.modRing r fun g => { g with tag := some t, state := .bound, activeAt := s.ns }
  let x := s.setSec { s.sec with fails := 0, level := 0 }
  match s.sec.sessions.find? fun y => y.slot = slot with
  | some y => (y.tag, y.rights, bind y.tag x)
  | none =>
    let f := x.fresh
    let t := liveTag s.sec.sessions (s.sec.sessions.length + 1) (bits f.1 0 16)
    let rights := s.sec.slots[slot].rights
    (t, rights, bind t (f.2.setSec { x.sec with sessions := x.sec.sessions ++ [⟨slot, t, rights⟩] }))

/-- Whether an earlier started descriptor of one of these opcodes still runs: they are served in order of start (R297, R302). -/
def earlierRuns (s : State) (ops : List Nat) (c : DescCtx) : Bool :=
  s.rings.toList.any fun g => g.started.any fun d => d.run && dOp d.word ∈ ops && d.order < c.order

/-- SESSION_OPEN (R297): refused while opens are locked out, and when it started during a lockout (R300). -/
def execSessionOpen (r : Fin 256) (n : Nat) (s : State) : Res :=
  match descAt s r n 0x08 with
  | none => .next s
  | some c =>
    let slot : Fin 8 := ix 8 (bits (dW2 c.word) 0 3).toNat
    let tag : Half := bits (dW3 c.word) 0 16
    let key := s.sec.slots[slot]
    if earlierRuns s [0x08] c then .next s
    else if lockedOut s || c.snap = [1] then .next (finishDesc r c.idx stAuth 1 0 s)
    else
      let hit := s.sec.nonces.toList.find? fun x => nonceLive s x && x.tag = tag
      let used (x : NonceWin) : NonceWin := if x.tag = tag then { x with live := false } else x
      let s1 := s.setSec { s.sec with nonces := s.sec.nonces.map used }
      let refuse (d : Half) : Res := .next (finishDesc r c.idx stAuth d 0 (countFail r s1))
      if !key.valid then refuse 3
      else match hit with
        | none => refuse 2
        | some x =>
          if hmac384 key.key (proofMessage x.val tag r (s.ring r).epoch slot.val) ≠ leBytes (bits c.word 128 384).toNat 48 then
            refuse 0
          else
            let y := bindSession r slot s1
            .next (finishDesc r c.idx stOk 0 (BitVec.ofNat 64 (y.1.toNat + 65536 * y.2.1.toNat)) y.2.2)

/-- SESSION_CLOSE (R299 cause 0). -/
def execSessionClose (r : Fin 256) (n : Nat) (s : State) : Res :=
  match descAt s r n 0x09 with
  | none => .next s
  | some c => .next (endBinding r 0 (finishDesc r c.idx stOk 0 0 s))

/-- SESSION_IDLE_TIMEOUT (R299 cause 2): 10 s with no descriptor fetched or in flight; paused in Sleep (R452). -/
def execSessionIdleTimeout (r : Fin 256) (s : State) : Res :=
  let g := s.ring r
  if g.tag.isSome && g.fetched.isEmpty && g.started.isEmpty && g.activeAt + 10000000000 ≤ s.ns && s.pwr.mstate = 0 then
    .next (endBinding r 2 s)
  else .next s

/-- LOCKOUT_EXPIRY (R300). -/
def execLockoutExpiry (s : State) : Res :=
  match s.sec.lockUntil with
  | some t => .next (if t ≤ s.ns then s.setSec { s.sec with lockUntil := none } else s)
  | none => .next s

/-! ### Debug (R307) -/

/-- A write of DEBUG_CTRL. -/
def debugCtrlWrite (w : Word) (s : State) : State :=
  let tag : Half := bits w 0 16
  let x : Security := { s.sec with dbgDenied := s.sec.dbgDenied && !w.getLsbD 18 }
  if !w.getLsbD 16 then
    let s1 := endDebug 0 (s.setSec x)
    s1.setSec { s1.sec with dbgTag := tag }
  else match x.sessions.find? fun y => y.tag = tag && y.rights.getLsbD 3 with
    | none => s.setSec { x with dbgDenied := true }
    | some y =>
      if x.debugLock then s.setSec { x with dbgDenied := true }
      else
        let same := x.dbgActive && x.dbgTag = tag
        let s1 := s.setSec { x with dbgActive := true, dbgTag := tag, dbgSlot := y.slot }
        if same then s1 else ledgerAdd 0x0803 1 0 [BitVec.ofNat 8 y.slot.val] s1

/-- DEBUG_ENABLE. -/
def execDebugEnable (w : Word) (s : State) : Res := .next (if w.getLsbD 16 then debugCtrlWrite w s else s)

/-- DEBUG_DISABLE. -/
def execDebugDisable (w : Word) (s : State) : Res := .next (if w.getLsbD 16 then s else debugCtrlWrite w s)

/-! ### Firmware (R283 to R285, R302, R303) -/

/-- Whether copy B of the boot record stands: it is valid, and newer than a valid copy A (R283). -/
def secondStands (x : Security) : Bool := x.recB.valid && (!x.recA.valid || x.recA.seqNo < x.recB.seqNo)

/-- The boot record that stands: the valid copy with the higher sequence number (R283). -/
def standing (x : Security) : BootRec := if secondStands x then x.recB else x.recA

/-- Write the boot record, with its CRC, over the copy that does not stand (R283). -/
def writeRec (b : BootRec) (x : Security) : Security :=
  let y : BootRec := { b with valid := true, seqNo := (standing x).seqNo + 1 }
  if secondStands x then { x with recA := y } else { x with recB := y }

/-- A flash slot: false is A. -/
def flashOf (x : Security) (slot : Bool) : Memory := if slot then x.flashB else x.flashA

def setFlash (slot : Bool) (m : Memory) (x : Security) : Security := if slot then { x with flashB := m } else { x with flashA := m }

def fwField (m : Memory) (off : Nat) : Nat := m.getLE off 4

/-- MAGIC and LENGTH of an image (R284, R285). -/
def fwShapeOk (m : Memory) : Bool :=
  fwField m 0 = 0x46574B56 && 0x160 ≤ fwField m 0x0C && fwField m 0x0C ≤ 2 ^ 26

/-- Key, signature and anti-rollback of an image (R285). -/
def fwSigned (x : Security) (m : Memory) : Bool :=
  let len := fwField m 0x0C
  let key := m.getBytes 0x20 97
  sha384 key = Config.fwKeyHash && Config.ecdsaVerify key (sha384 (m.getBytes 0 (len - 96))) (m.getBytes (len - 96) 96)
    && x.arbFused ≤ fwField m 8

/-- Whether the image in a slot verifies (R285). -/
def fwVerifies (x : Security) (slot : Bool) : Bool := fwShapeOk (flashOf x slot) && fwSigned x (flashOf x slot)

/-- The slot firmware descriptors act on: the one that did not boot; slot A in recovery (R302, R289). -/
def fwSlot (s : State) : Bool := !s.boot.recovery && !s.sec.bootSlot

def fwOps : List Nat := [0x60, 0x61, 0x62, 0x63]

/-- The boot record without marks on a slot (R303). -/
def unmark (slot : Bool) (b : BootRec) : BootRec :=
  { b with
    pending := if b.pending = some slot then none else b.pending, verified := if b.verified = some slot then none else b.verified }

/-- Why an FW_CHUNK is refused by its operands (R303, R265). -/
def chunkFault (s : State) (w : DescWord) : Option (Byte × Half) :=
  let off := (dW2 w).toNat
  let len := (dW3 w).toNat
  worst [failIf (off % 4096 ≠ 0 || 2 ^ 26 < off + len) stMalformed 8, failIf (len % 4096 ≠ 0 || 2 ^ 24 < len) stMalformed 0x0C,
    opFault s (dQ w 0x10) len 0x10]

/-- Bytes of an FW_CHUNK are programmed, the slot's marks cleared first (R303). -/
def programChunk (r : Fin 256) (c : DescCtx) (bs : List MByte) (s : State) : State :=
  let y := readStatus (markedSectors (placeOf s (dQ c.word 0x10)).off bs)
  let slot := fwSlot s
  let b := standing s.sec
  let x1 := if unmark slot b = b then s.sec else writeRec (unmark slot b) s.sec
  let x2 := setFlash slot ((flashOf x1 slot).putBytes (dW2 c.word).toNat (plain bs)) x1
  finishDesc r c.idx y.1 y.2 0 (s.setSec { x2 with fwState := 1 })

/-- FW_CHUNK (R303). -/
def execFwChunk (r : Fin 256) (n : Nat) (s : State) : Res :=
  match descAt s r n 0x60 with
  | none => .next s
  | some c =>
    if earlierRuns s fwOps c then .next s
    else match worst [failIf (s.sec.fwState = 4 && !s.boot.recovery) stMalformed 0, chunkFault s c.word] with
      | some x => .next (finishDesc r c.idx x.1 x.2 0 s)
      | none => .next (withOperand r c 0 2 (dQ c.word 0x10) (dW3 c.word).toNat (programChunk r c) s)

/-- FW_VERIFY (R303). -/
def execFwVerify (r : Fin 256) (n : Nat) (s : State) : Res :=
  match descAt s r n 0x61 with
  | none => .next s
  | some c =>
    let slot := fwSlot s
    let m := flashOf s.sec slot
    let result : Dword := if fwField m 0 = 0x46574B56 then BitVec.ofNat 64 (fwField m 4 + 2 ^ 32 * fwField m 8) else 0
    if earlierRuns s fwOps c then .next s
    else if 3 ≤ s.sec.fwState.toNat then .next (finishDesc r c.idx stMalformed 0 0 s)
    else match worst [failIf (!fwShapeOk m) stMalformed 0x8000, failIf (fwShapeOk m && !fwSigned s.sec m) stAuth 0,
        failIf (fwShapeOk m && !Config.featureAccepted (BitVec.ofNat 32 (fwField m 0x10))) stUnsupported 1] with
      | some x => .next (finishDesc r c.idx x.1 x.2 result s)
      | none =>
        let x := writeRec { standing s.sec with verified := some slot } s.sec
        .next (finishDesc r c.idx stOk 0 result (s.setSec { x with fwState := 2 }))

/-- FW_ACTIVATE (R303). -/
def execFwActivate (r : Fin 256) (n : Nat) (s : State) : Res :=
  match descAt s r n 0x62 with
  | none => .next s
  | some c =>
    if earlierRuns s fwOps c then .next s
    else if s.sec.fwState = 3 then .next (finishDesc r c.idx stOk 0 0 s)
    else if s.sec.fwState ≠ 2 then .next (finishDesc r c.idx stMalformed 0 0 s)
    else
      let x := writeRec { standing s.sec with pending := some (fwSlot s), tries := 0 } s.sec
      .next (finishDesc r c.idx stOk 0 0 (s.setSec { x with fwState := 3 }))

/-- FW_CONFIRM (R303): the record names the booted slot active, then the fuses are blown up to the image's ARB. -/
def execFwConfirm (r : Fin 256) (n : Nat) (s : State) : Res :=
  match descAt s r n 0x63 with
  | none => .next s
  | some c =>
    if earlierRuns s fwOps c then .next s
    else if s.sec.fwState ≠ 4 then .next (finishDesc r c.idx stMalformed 0 0 s)
    else
      let x := writeRec { standing s.sec with active := s.sec.bootSlot, pending := none, verified := none } s.sec
      let arb := max x.arbFused (min 64 (fwField (flashOf x x.bootSlot) 8))
      .next (finishDesc r c.idx stOk 0 0 (s.setSec { x with fwState := 0, arbFused := arb }))

/-! ### Key provisioning (R292 to R294) -/

/-- The bytes AUTH covers (R293). -/
def provBytes (o : ProvObject) : List Byte :=
  [o.op, o.slot, o.rights, o.policy] ++ leBytes o.counter.toNat 4 ++ [o.authSlot] ++ o.reserved ++ o.ephemeral ++ o.wrapped

/-- Whether the mailbox serves (R291). -/
def doeServes (s : State) : Bool := 9 ≤ s.boot.step.toNat && s.pwr.mstate = 0

def allZero (bs : List Byte) : Bool := bs.all (· = 0)

/-- The mailbox answers bytes. -/
def doeAnswer (bs : List Byte) (s : State) : State := s.setOut { s.out with doe := bs }

/-- The sessions of slots end, with cause 3 on every ring bound to them (R294, R299). -/
def endSlots (p : Fin 8 → Bool) (s : State) : State :=
  forAll (s.sec.sessions.filter fun x => p x.slot) (fun x t =>
    forAll ((List.finRange 256).filter fun r => (t.ring r).tag = some x.tag) (fun r => endBinding r 3) t) s

/-- The slot AUTH_SLOT names. -/
def authKey (s : State) (o : ProvObject) : KeySlot := s.sec.slots[ix 8 o.authSlot.toNat]

/-- The checks of an operation other than CLAIM, in order: form, state, authorisation, counter (R293, R294; log 26). -/
def provStatus (s : State) (o : ProvObject) (op : Byte) (formOk : Bool) : Byte :=
  let k := authKey s o
  if o.op ≠ op || 7 < o.slot.toNat || 7 < o.authSlot.toNat || !allZero o.ephemeral || !formOk then 4
  else if !s.sec.owned then 3
  else if !k.valid || !k.rights.getLsbD 4 || hmac384 k.key (provBytes o) ≠ o.auth then 1
  else if o.counter ≤ s.sec.counter then 2
  else 0

/-- Put a key in a slot, or empty it. -/
def setKey (slot : Fin 8) (k : KeySlot) (o : ProvObject) (s : State) : State :=
  s.setSec { s.sec with slots := s.sec.slots.set slot k, counter := o.counter }

/-- CLAIM (R294). -/
def execClaimKeys (o : ProvObject) (s : State) : Res :=
  if !doeServes s then .next s
  else if o.op ≠ 1 || 7 < o.slot.toNat || 7 < o.authSlot.toNat || !allZero o.auth then .next (doeAnswer [4] s)
  else if s.sec.owned then .next (doeAnswer [3] s)
  else if o.counter ≤ s.sec.counter then .next (doeAnswer [2] s)
  else match Config.aesUnwrap (hkdf384 (Config.ecdhModule o.ephemeral) (ascii "VK2CLAIM") 32) o.wrapped with
    | none => .next (doeAnswer [4] s)
    | some k =>
      let s1 := setKey 0 ⟨true, fit 32 k, 0x1F⟩ o s
      .next (doeAnswer [0] (s1.setSec { s1.sec with owned := true }))

/-- SET_SLOT (R294). -/
def execSetSlot (o : ProvObject) (s : State) : Res :=
  if !doeServes s then .next s
  else
    let st := provStatus s o 2 true
    if st ≠ 0 then .next (doeAnswer [st] s)
    else match Config.aesUnwrap (hkdf384 (authKey s o).key (ascii "VK2WRAP" ++ leBytes o.counter.toNat 4) 32) o.wrapped with
      | none => .next (doeAnswer [4] s)
      | some k =>
        let i := ix 8 o.slot.toNat
        .next (doeAnswer [0] (setKey i ⟨true, fit 32 k, bits o.rights 0 5⟩ o (endSlots (fun x => x = i) s)))

/-- CLEAR_SLOT (R294): refused where no slot with OWNER would be left. -/
def execClearSlot (o : ProvObject) (s : State) : Res :=
  if !doeServes s then .next s
  else
    let st := provStatus s o 3 (allZero o.wrapped)
    let i := ix 8 o.slot.toNat
    let left := (List.finRange 8).any fun k => k ≠ i && s.sec.slots[k].valid && s.sec.slots[k].rights.getLsbD 4
    if st ≠ 0 then .next (doeAnswer [st] s)
    else if !left then .next (doeAnswer [3] s)
    else .next (doeAnswer [0] (setKey i ⟨false, [], 0⟩ o (endSlots (fun x => x = i) s)))

/-- SET_POLICY (R294). -/
def execSetPolicy (o : ProvObject) (s : State) : Res :=
  if !doeServes s then .next s
  else
    let st := provStatus s o 4 (allZero o.wrapped)
    if st ≠ 0 then .next (doeAnswer [st] s)
    else .next (doeAnswer [0] (s.setSec { s.sec with debugLock := o.policy.getLsbD 0, counter := o.counter }))

/-- RELEASE (R294): every slot is emptied and every session ends. -/
def execReleaseKeys (o : ProvObject) (s : State) : Res :=
  if !doeServes s then .next s
  else
    let st := provStatus s o 5 (allZero o.wrapped)
    if st ≠ 0 then .next (doeAnswer [st] s)
    else
      let s1 := endSlots (fun _ => true) s
      .next (doeAnswer [0] (s1.setSec { s1.sec with
        slots := Vector.replicate 8 ⟨false, [], 0⟩, debugLock := false, owned := false, counter := o.counter }))

/-! ### SPDM 1.2 (R290, R291; log 10) -/

/-- An SPDM 1.2 message. -/
def spdmMsg (code p1 p2 : Nat) (body : List Byte) : List Byte :=
  [0x12, BitVec.ofNat 8 code, BitVec.ofNat 8 p1, BitVec.ofNat 8 p2] ++ body

/-- Answer a request and keep both in the transcript. -/
def spdmAnswer (req resp : List Byte) (s : State) : State :=
  doeAnswer resp (s.setSec { s.sec with transcript := s.sec.transcript ++ req ++ resp })

/-- ERROR with a code. -/
def spdmError (code data : Nat) (s : State) : State := doeAnswer (spdmMsg 0x7F code data []) s

/-- The 16 hexadecimal digits of the module's serial number (R290). -/
def serialDigits : List Byte :=
  (List.range 16).map fun i =>
    let d := Config.serial.toNat / 16 ^ (15 - i) % 16
    BitVec.ofNat 8 (if d < 10 then 0x30 + d else 0x37 + d)

/-- A certificate of R290, none of which expires. -/
def certificate (name : Nat) (serial : List Byte) : List Byte := Config.certificate name serial (ascii "99991231235959Z")

/-- The certificates of an SPDM slot, root first: the module's chain, and for the other slots one more, of the west hub die, the east hub
die or standby provisioning (R290). -/
def slotCerts (slot : Nat) : List (List Byte) :=
  [certificate 0 [], certificate 1 [], certificate 2 serialDigits]
    ++ (if slot = 1 then [certificate 3 []] else if slot = 2 then [certificate 4 []] else if slot = 3 then [certificate 5 []] else [])

/-- A slot's chain as SPDM lays it out: its length, the root's hash, the certificates (R290; log 10). -/
def certChain (slot : Nat) : List Byte :=
  let body := (slotCerts slot).flatten
  leBytes (52 + body.length) 2 ++ [0, 0] ++ sha384 (certificate 0 []) ++ body

/-- The slots with a chain (R290). -/
def spdmSlots (x : Security) : List Nat := if x.standbyCert then [0, 1, 2, 3] else [0, 1, 2]

/-- The running image's bytes. -/
def runningImage (x : Security) : List Byte :=
  let m := flashOf x x.bootSlot
  m.getBytes 0 (min (2 ^ 26) (fwField m 0x0C))

/-- Measurement block i, 1 to 3 (R291). -/
def measurement (x : Security) (i : Nat) : List Byte :=
  if i = 1 then sha384 (runningImage x)
  else if i = 2 then leBytes x.running.toNat 4 ++ leBytes (fwField (flashOf x x.bootSlot) 8) 4 ++ leBytes x.arbFused 4
  else [BitVec.ofNat 8 (b2n x.owned + 2 * b2n x.debugLock)]

/-- A measurement block with its index and length. -/
def measBlock (x : Security) (i : Nat) : List Byte :=
  let m := measurement x i
  [BitVec.ofNat 8 i, 1] ++ leBytes (m.length + 3) 2 ++ [BitVec.ofNat 8 (if i = 1 then 0 else 0x80 + i)] ++ leBytes m.length 2 ++ m

/-- GET_VERSION (R291): version 1.2; the transcript begins again. -/
def execGetVersion (s : State) : Res :=
  if !doeServes s then .next s
  else
    let s1 := s.setSec { s.sec with spdmVersion := true, spdmCaps := false, spdmAlgs := false, transcript := [] }
    .next (spdmAnswer [0x10, 0x84, 0, 0] [0x10, 0x04, 0, 0, 0, 1, 0x00, 0x12] s1)

/-- GET_CAPABILITIES (R291): CERT_CAP, CHAL_CAP, MEAS_CAP with signature. -/
def execGetCapabilities (s : State) : Res :=
  if !doeServes s then .next s
  else if !s.sec.spdmVersion then .next (spdmError 4 0 s)
  else .next (spdmAnswer (spdmMsg 0xE1 0 0 []) (spdmMsg 0x61 0 0 ([0, 0, 0, 0] ++ leBytes 0x16 4))
    (s.setSec { s.sec with spdmCaps := true }))

/-- NEGOTIATE_ALGORITHMS (R291): ECDSA P-384 and SHA-384 only. -/
def execNegotiateAlgorithms (asym hash : Word) (s : State) : Res :=
  if !doeServes s then .next s
  else if !s.sec.spdmCaps then .next (spdmError 4 0 s)
  else if !asym.getLsbD 7 || !hash.getLsbD 1 then .next (spdmError 1 0 s)
  else .next (spdmAnswer (spdmMsg 0xE3 0 0 (leBytes asym.toNat 4 ++ leBytes hash.toNat 4))
    (spdmMsg 0x63 0 0 (leBytes 0x80 4 ++ leBytes 0x02 4)) (s.setSec { s.sec with spdmAlgs := true }))

/-- GET_DIGESTS (R291). -/
def execGetDigests (s : State) : Res :=
  if !doeServes s then .next s
  else if !s.sec.spdmAlgs then .next (spdmError 4 0 s)
  else
    let slots := spdmSlots s.sec
    let mask := slots.foldl (fun a i => a + 2 ^ i) 0
    .next (spdmAnswer (spdmMsg 0x81 0 0 []) (spdmMsg 0x01 0 mask (slots.flatMap fun i => sha384 (certChain i))) s)

/-- GET_CERTIFICATE (R291): a portion of a slot's chain. -/
def execGetCertificate (slot : Fin 8) (off len : Half) (s : State) : Res :=
  if !doeServes s then .next s
  else if !s.sec.spdmAlgs then .next (spdmError 4 0 s)
  else
    let chain := certChain slot.val
    if !(spdmSlots s.sec).contains slot.val || chain.length < off.toNat then .next (spdmError 1 0 s)
    else
      let part := (chain.drop off.toNat).take len.toNat
      let rest := chain.length - off.toNat - part.length
      .next (spdmAnswer (spdmMsg 0x82 slot.val 0 (leBytes off.toNat 2 ++ leBytes len.toNat 2))
        (spdmMsg 0x02 slot.val 0 (leBytes part.length 2 ++ leBytes rest 2 ++ part)) s)

/-- The key a slot's chain certifies: module, west hub, east hub (R290). -/
def slotKey (slot : Nat) : Nat := if slot = 1 then 1 else if slot = 2 then 2 else 0

/-- A signed answer with a fresh nonce. -/
def signedAnswer (slot : Nat) (req head tail_ : List Byte) (s : State) : State :=
  let f := s.fresh
  let m := head ++ leBytes f.1.toNat 32 ++ tail_
  spdmAnswer req (m ++ Config.ecdsaSign (slotKey slot) (s.sec.transcript ++ req ++ m)) f.2

/-- CHALLENGE (R291). -/
def execSpdmChallenge (slot : Fin 8) (nonce : List Byte) (s : State) : Res :=
  if !doeServes s then .next s
  else if !s.sec.spdmAlgs then .next (spdmError 4 0 s)
  else if !(spdmSlots s.sec).contains slot.val then .next (spdmError 1 0 s)
  else .next (signedAnswer slot.val (spdmMsg 0x83 slot.val 0 nonce)
    (spdmMsg 0x03 slot.val (2 ^ slot.val) (sha384 (certChain slot.val))) [0, 0] s)

/-- GET_MEASUREMENTS (R291): the count, one block or all, signed on request. -/
def execGetMeasurements (op : Byte) (sign : Bool) (nonce : List Byte) (s : State) : Res :=
  if !doeServes s then .next s
  else if !s.sec.spdmAlgs then .next (spdmError 4 0 s)
  else if 3 < op.toNat && op ≠ 0xFF then .next (spdmError 1 0 s)
  else
    let which := if op = 0 then [] else if op = 0xFF then [1, 2, 3] else [op.toNat]
    let blocks := which.flatMap (measBlock s.sec)
    let head := spdmMsg 0x60 (if op = 0 then 3 else 0) 0 ([BitVec.ofNat 8 which.length] ++ leBytes blocks.length 3 ++ blocks)
    let req := spdmMsg 0xE0 (b2n sign) op.toNat nonce
    if sign then .next (signedAnswer 0 req head [0, 0] s)
    else
      let f := s.fresh
      .next (spdmAnswer req (head ++ leBytes f.1.toNat 32 ++ [0, 0]) f.2)

/-- SPDM_UNSUPPORTED_REQUEST (R291): ERROR UnsupportedRequest. -/
def execSpdmUnsupportedRequest (code : Byte) (s : State) : Res :=
  if !doeServes s then .next s else .next (spdmError 7 code.toNat s)

end Sys2Proof.Machine
end

