-- ==== Sys2Proof/Machine/Faults.lean ====
section
/-! DEFINITION. Cluster failure (R442, R471 to R473), seams in service (R469, R470) and the ledger (R477 to R480). -/
namespace Sys2Proof.Machine
open Sys2Proof

/-! ### Cluster failure -/

/-- A failing or lost cluster ends the launch that names it: every target cluster halts and ends it with ERR_DEGRADED, and its
DETAIL is the cluster (R472; log 27). -/
def failLaunch (cl : Fin 48) (s : State) : State :=
  match s.launches.find? fun l => l.mask.getLsbD cl.val with
  | none => s
  | some l =>
    let stop (x : Fin 48) (t : State) : State :=
      if (t.cluster x).launch = some l.id then
        (endCluster x stDegraded t).modCluster x fun c => { c with
          ending := some (if c.ending.getD stDegraded < stDegraded then stDegraded else c.ending.getD stDegraded) }
      else t
    let s1 := forAll (maskList l.mask) stop s
    setLaunch { l with phase := 1, failed := some (l.failed.getD (stDegraded, BitVec.ofNat 16 cl.val)) } s1

/-- Whether a cluster runs a launch. -/
def launching (s : State) (cl : Fin 48) : Bool := (s.cluster cl).launch.isSome

/-- The porter's transactions of a cluster complete without it (R471). -/
def orphanTxns (cl : Fin 48) (s : State) : State :=
  let go (t : Txn) : Txn := match t.owner with
    | .porter c _ => if c = cl then { t with owner := .none } else t
    | _ => t
  s.setMach { s.mach with txns := s.mach.txns.map go }

/-- A core's stations return to their reset state; local store and the stores a program is loaded into are kept (log 27). -/
def resetStations (c : Fin 384) (s : State) : State :=
  (forAll (List.finRange 8) (fun k => resetStation c k) s).modCore c fun co =>
    { co with stns := Vector.replicate 8 Station.reset, drainQ := [] }

/-- Stations, stallkeeper, porter and crier of a cluster return to their reset state, and the cluster is at OP0 (R442). -/
def resetCluster (cl : Fin 48) (s : State) : State :=
  let s1 := forAll (List.range 8) (fun j => resetStations (coreOf cl j)) s
  let s2 := s1.modCluster cl fun c => { c with
    sk := { Stallkeeper.reset with imem := c.sk.imem, dmem := c.sk.dmem, st := if c.launch.isSome then .stopped else .idle },
    pq := Vector.replicate 4 [], pNext := 0, prun := [], crier := Vector.replicate 64 CrierChan.reset, bcasts := [],
    lastAnswer := BitVec.ofNat 64 s.ns }
  (orphanTxns cl s2).setCpwr cl { s2.cpwr cl with mode := .run, op := 0, idleSince := s.ns }

/-- Failures of a cluster within the last second, now included. -/
def recentFailures (s : State) (cl : Fin 48) : List Nat := s.ns :: (s.cluster cl).failures.filter fun t => s.ns < t + 1000000000

/-- A cluster fails with a cause (1 droop, 2 silent): its launch ends, it resets, and its third failure within 1 s, or a reset that does not
complete within 50 µs, takes it out of service (R471 to R473). -/
def clusterFails (cl : Fin 48) (cause : Byte) (stuck : Bool) (s : State) : State :=
  let s1 := resetCluster cl (failLaunch cl s)
  let s2 := s1.modCluster cl fun c => { c with failures := recentFailures s cl }
  let s3 := postEvent 0x0703 2 (src cl.val) [cause, BitVec.ofNat 8 (b2n (launching s cl))] s2
  if stuck || 3 ≤ (recentFailures s cl).length then clusterOut cl 1 s3 else s3

/-- One cluster's poll: an answer is noted, silence of 1 ms is a failure. -/
def pollCluster (answered stuck : BitVec 48) (cl : Fin 48) (s : State) : State :=
  let c := s.cluster cl
  if !c.inService then s
  else if answered.getLsbD cl.val then s.modCluster cl fun c => { c with lastAnswer := BitVec.ofNat 64 s.ns }
  else if c.lastAnswer.toNat + 1000000 ≤ s.ns then clusterFails cl 2 (stuck.getLsbD cl.val) s
  else s

/-- CLUSTER_HEARTBEAT_POLL (R471): the clerk polls while the module has started and does not sleep; `stuck` are the
clusters whose reset does not complete. -/
def execClusterHeartbeatPoll (answered stuck : BitVec 48) (s : State) : Res :=
  if s.boot.step.toNat < 6 || s.pwr.mstate ≠ 0 || s.boot.recovery then .next s
  else .next (forAll (List.finRange 48) (pollCluster answered stuck) s)

/-! ### Seams (R469, R470) -/

/-- The clusters of a stack. -/
def stackClusters (st : Nat) : List (Fin 48) := (List.range 12).map fun i => ix 48 (12 * st + i)

/-- A stack goes out of service with a hub seam's last group (R470, R473; log 27). -/
def stackOut (st : Nat) (s : State) : State :=
  let lose (cl : Fin 48) (t : State) : State :=
    if !(t.cluster cl).inService then t
    else (failLaunch cl t).modCluster cl fun c => { c with inService := false }
  postEvent 0x0705 2 (src (0x40 + st)) [2] (setDegraded (forAll (stackClusters st) lose s))

/-- Groups of a seam in service. -/
def seamGroups (s : State) (sm : Fin 12) : Nat := (s.seams[sm].toList.filter fun g => !g.disabled).length

/-- Write a seam's group. -/
def setGroup (sm : Fin 12) (g : Fin 32) (x : SeamGroup) (s : State) : State :=
  { s with seams := s.seams.set sm (s.seams[sm].set g x) }

/-- SEAM_LANE_FAIL (R469, R470): the spare is switched in; a second lane disables the group. -/
def execSeamLaneFail (sm : Fin 12) (g : Fin 32) (lane : Fin 17) (s : State) : Res :=
  let x := s.seams[sm][g]
  if x.disabled || x.failed.contains lane then .next s
  else
    let off := !x.failed.isEmpty
    let s1 := setGroup sm g { x with failed := x.failed ++ [lane], disabled := off } s
    let s2 := postEvent 0x0704 1 (src sm.val) [BitVec.ofNat 8 g.val, BitVec.ofNat 8 lane.val, BitVec.ofNat 8 (seamGroups s1 sm)] s1
    if !off then .next s2
    else
      let s3 := setDegraded s2
      if sm.val < 8 && seamGroups s1 sm = 0 then .next (stackOut (sm.val / 2) s3) else .next s3

/-- SEAM_FLIT_REPLAY (R469): the flit is replayed in its group, and no flit is lost, repeated or reordered. -/
def execSeamFlitReplay (sm : Fin 12) (g : Fin 32) (s : State) : Res :=
  let x := s.seams[sm][g]
  if x.disabled then .next s else .next (setGroup sm g { x with replays := x.replays + 1 } s)

/-! ### The ledger (R477 to R480) -/

/-- The 32 bytes of an entry (R478). -/
def ledgerBytes (e : LedgerEntry) : List Byte :=
  let b :=
    if e.kind = 0x0807 then leBytes e.kind.toNat 2 ++ fit 28 e.data
    else leBytes e.kind.toNat 2 ++ [e.sev, e.flags] ++ leBytes e.seqNo.toNat 4 ++ leBytes e.time.toNat 8
      ++ leBytes e.boot.toNat 2 ++ leBytes e.source.toNat 2 ++ fit 10 e.data
  b ++ leBytes (crc16 b).toNat 2

/-- Entries a section holds. -/
def sectionSize (i : Nat) : Nat := if i = 0 then 32768 else if i = 1 then 65536 else 2048

/-- An entry reaches its sections in flash, the newest over the oldest (R477). -/
def flashEntry (l : Ledger) (e : LedgerEntry) : Ledger :=
  (ledgerSections e.kind e.sev.toNat e.source).foldl (fun l i =>
    let x := l.sections[ix 18 i] ++ [e]
    { l with sections := l.sections.set (ix 18 i) (x.drop (x.length - sectionSize i)) }) l

/-- LEDGER_FLUSH (R477). -/
def execLedgerFlush (s : State) : Res :=
  let l := s.ledger.buffer.foldl (fun l x => flashEntry l x.1) s.ledger
  .next (s.setLedger { l with buffer := [] })

/-- Every entry held, in flash or on its way to it. -/
def ledgerHeld (l : Ledger) : List LedgerEntry := l.sections.toList.flatten ++ l.buffer.map fun x => x.1

/-- The oldest held entry whose SEQ is a or comes after it (R480; log 28). -/
def ledgerFrom (l : Ledger) (a : Word) : Option LedgerEntry :=
  ((ledgerHeld l).filter fun e => (e.seqNo - a).toNat < 2 ^ 31).foldl (fun o e => match o with
    | none => some e
    | some x => if (e.seqNo - a).toNat < (x.seqNo - a).toNat then some e else some x) none

/-- A write of LEDGER_SEL loads an entry (R480). -/
def ledgerSelect (w : Word) (s : State) : State :=
  match ledgerFrom s.ledger w with
  | none => s.setLedger { s.ledger with sel := w, valid := false, skipped := false, data := List.replicate 32 0 }
  | some e => s.setLedger { s.ledger with sel := w, valid := true, skipped := e.seqNo ≠ w, data := ledgerBytes e }

/-- LEDGER_LOAD (R480). -/
def execLedgerLoad (w : Word) (s : State) : Res := .next (ledgerSelect w s)

end Sys2Proof.Machine
end

