-- ==== Sys2Proof/Machine/Straps.lean ====
section
/-! DEFINITION. The position straps (R21 to R24). -/
namespace Sys2Proof.Machine
open Sys2Proof

/-- The number of ones in a word. -/
def ones {w : Nat} (x : BitVec w) : Nat := (List.range w).foldl (fun a i => a + b2n (x.getLsbD i)) 0

/-- STRAP[5:0]. -/
def strapSlot (x : BitVec 18) : BitVec 6 := bits x 0 6

/-- STRAP[15:6]. -/
def strapBlock (x : BitVec 18) : BitVec 10 := bits x 6 10

/-- Whether group A counts odd (R22). -/
def strapA (x : BitVec 18) : Bool := (ones (strapSlot x) + b2n (x.getLsbD 16)) % 2 = 1

/-- Whether group B counts odd (R22). -/
def strapB (x : BitVec 18) : Bool := (ones (strapBlock x) + b2n (x.getLsbD 17)) % 2 = 1

/-- A standby slot (R22). -/
def strapStandby (x : BitVec 18) : Bool := strapA x && strapB x && (strapSlot x).toNat ≤ 3

/-- A strap error (R22). -/
def strapError (x : BitVec 18) : Bool := strapA x ≠ strapB x || (strapA x && strapB x && 3 < (strapSlot x).toNat)

/-- STRAP_STATUS (R24). -/
def strapStatus (b : Boot) : Word :=
  let x := b.straps
  BitVec.ofNat 32 ((strapSlot x).toNat + 2 ^ 6 * (strapBlock x).toNat + 2 ^ 16 * b2n (strapStandby x) + 2 ^ 17 * b2n (strapError x)
    + 2 ^ 18 * b2n (x.getLsbD 16) + 2 ^ 19 * b2n (x.getLsbD 17) + 2 ^ 20 * b2n b.changed)

end Sys2Proof.Machine
end

