-- ==== Sys2Proof/Machine/Link.lean ====
section
/-! DEFINITION. An Arcade port's link layer: frames, acknowledgement and replay (R310 to R315), credits (R317, R318), partner
violations and quarantine (R336 to R338), and its registers (R354 to R358). -/
namespace Sys2Proof.Machine
open Sys2Proof

/-! ### Frames as bytes (R310) -/

/-- The header bytes 0x00 to 0x1B of a frame. -/
def frameHeader (f : Frame) : List Byte :=
  [BitVec.ofNat 8 (f.typ.toNat + 16 * f.vc.toNat + 128 * b2n f.ordered), f.version]
    ++ leBytes (f.seq.toNat + 2 ^ 12 * f.seqRsv.toNat) 2
    ++ leBytes (f.ack.toNat + 2 ^ 12 * b2n f.nak + 2 ^ 13 * b2n f.ackValid + 2 ^ 14 * f.ackRsv.toNat) 2
    ++ leBytes (f.pool.toNat + 2 ^ 4 * f.freed.toNat + 2 ^ 12 * b2n f.creditValid + 2 ^ 13 * f.creditRsv.toNat) 2
    ++ leBytes f.dest.toNat 2 ++ leBytes f.src.toNat 2 ++ leBytes (f.tag.toNat + 2 ^ 15 * b2n f.tagRsv) 2
    ++ [f.op, f.len] ++ leBytes (f.addr.toNat + 2 ^ 44 * f.space.toNat + 2 ^ 48 * f.count.toNat) 8
    ++ leBytes (f.cls.toNat + 4 * f.hops.toNat + 2 ^ 8 * b2n f.poison + 2 ^ 9 * f.routeRsv.toNat + 2 ^ 16 * f.destEpoch.toNat) 4

/-- The 256 bytes of a frame: header, payload and the CRC-32C over both. -/
def frameImage (f : Frame) : List Byte :=
  let b := frameHeader f ++ fit 224 f.payload
  b ++ leBytes (crc32c b).toNat 4

/-- Whether 256 bytes received pass their CRC (R310). -/
def crcPasses (raw : List Byte) : Bool := raw.length = 256 && leNat (raw.drop 252) = (crc32c (raw.take 252)).toNat

/-- The first 32 bytes of a frame. -/
def frameHead (f : Frame) : List Byte := fit 32 (frameHeader f ++ f.payload)

/-- A number in a frame's payload. -/
def pay (f : Frame) (off n : Nat) : Nat := fieldAt f.payload off n

/-- This module's own Arcade version (R347). -/
def ownVersion : Byte := 0x21

/-! ### Sending -/

/-- Whether a port's sequence numbers are those of a haggle (R324). -/
def Port.haggling (p : Port) : Bool := p.state = 1 || p.state = 2 || p.state = 7

/-- The next SEQ a port expects. -/
def Port.expects (p : Port) : BitVec 12 := if p.haggling then p.hgRx else p.rxNext

/-- A frame with the port's version, acknowledgement and credit report; credits rotate over the pools (R311, R313, R318). -/
def Port.dress (p : Port) (f : Frame) : Frame :=
  let q := ix 16 p.sent.length
  { f with
    version := if p.verAgreed = 0 then ownVersion else p.verAgreed, ack := p.expects - 1, nak := p.nak, ackValid := p.ackValid,
    pool := BitVec.ofNat 4 q.val, freed := p.pools[q].freed, creditValid := p.state = 3 }

/-- Send an unsequenced frame. -/
def emit (pt : Fin 16) (f : Frame) (s : State) : State :=
  s.modPort pt fun p => { p with sent := p.sent ++ [p.dress f] }

/-- Send a HAGGLE frame under the haggle's own SEQ (R324). -/
def emitHaggle (pt : Fin 16) (f : Frame) (s : State) : State :=
  s.modPort pt fun p =>
    let f1 : Frame := { f with typ := 3, seq := p.hgTx }
    { p with sent := p.sent ++ [p.dress f1], hgTx := p.hgTx + 1, hgBuf := p.hgBuf ++ [⟨f1, s.ns⟩] }

/-- An IDLE frame: only what every frame carries (R311). -/
def idleFrame : Frame := { blankFrame with typ := 0, count := 0 }

/-- Whether a port sends frames now: its link is up, and it is neither silent nor retraining (R311, R338, R339). -/
def Port.sending (p : Port) : Bool :=
  p.enable && (p.state = 2 || p.state = 3 || p.state = 7 || (p.state = 1 && p.phase ≠ 0))

/-- Every frame received is answered by the next frame sent; with nothing else to send, that is an IDLE frame (R311, R312). -/
def answered (pt : Fin 16) (s t : State) : State :=
  if (t.port pt).sending && (t.port pt).sent.length = (s.port pt).sent.length then emit pt idleFrame t else t

/-- The pool of a frame: 4 VC + CLASS (R317). -/
def poolOf (f : Frame) : Fin 16 := ix 16 (4 * (f.vc.toNat % 4) + f.cls.toNat)

/-- Whether a MESSAGE frame may leave by a port: UP, room to replay, credit in its pool (R314, R317). -/
def Port.canSend (p : Port) (q : Fin 16) : Bool := p.state = 3 && p.buf.length < 512 && 0 < p.pools[q].credit

/-- Send a MESSAGE frame: it takes the next SEQ, spends a credit and stays in the replay buffer. -/
def emitMessage (pt : Fin 16) (f : Frame) (s : State) : State :=
  s.modPort pt fun p =>
    let f1 : Frame := { f with typ := 1, seq := p.txSeq }
    let q := poolOf f1
    let x := p.pools[q]
    { p with
      sent := p.sent ++ [p.dress f1], txSeq := p.txSeq + 1, buf := p.buf ++ [⟨f1, s.ns⟩],
      pools := p.pools.set q { x with credit := x.credit - 1, spent := x.spent + 1 } }

/-- Send every frame of a list of kept frames again. -/
def Port.resend (p : Port) (l : List TxEntry) : Port := l.foldl (fun p e => { p with sent := p.sent ++ [p.dress e.frame] }) p

/-- Replay the frames not acknowledged; each counts as sent now (R314). -/
def replayAll (pt : Fin 16) (s : State) : State :=
  s.modPort pt fun p =>
    let again (l : List TxEntry) : List TxEntry := l.map fun e => { e with sentAt := s.ns }
    if p.haggling then { p.resend p.hgBuf with hgBuf := again p.hgBuf, replays := satAdd p.replays 1 }
    else { p.resend p.buf with buf := again p.buf, replays := satAdd p.replays 1 }

/-! ### A port's state -/

def portEvent (pt : Fin 16) (kind : Half) (sev : Nat) (data : List Byte) (s : State) : State :=
  postEvent kind sev (src pt.val) data s

/-- The port goes DOWN with a cause of R351: its unacknowledged frames are gone, and it cannot resume (R340, R345, R354). -/
def portDown (pt : Fin 16) (cause : Byte) (s : State) : State :=
  let p := s.port pt
  let s1 := s.setPort pt { p with
    state := 0, phase := 0, txLanes := 0, rxLanes := 0, buf := [], hgBuf := [], resume := false, narrowed := false,
    retrySince := none, quarEnd := none, fruitless := 0 }
  if p.state = 0 then s1 else portEvent pt 0x0502 2 [cause] s1

/-- The port is BLOCKED with a cause of R355. -/
def portBlock (pt : Fin 16) (cause : BitVec 3) (s : State) : State :=
  portEvent pt 0x0506 2 [cause.setWidth 8] (s.modPort pt fun p => { p with state := 7, blockCause := cause })

/-- A full haggle starts; it goes on when the partner's signal is detected (R325). -/
def startHaggle (pt : Fin 16) (s : State) : State :=
  s.modPort pt fun p => { p with
    state := 1, phase := 0, hgTx := 0, hgRx := 0, hgBuf := [], nak := false, ackValid := false, samples := [], cert := [],
    certOk := false, certWanted := false, retrySince := none, quarEnd := none, txFailed := 0, rxFailed := 0,
    txLanes := 0, rxLanes := 0, narrowed := false, blockCause := 0, partnerBound := false, verAgreed := 0, nakReplay := none,
    fruitless := 0 }

/-- PORT_VIOL_CNT (R357). -/
def portViolCnt (p : Port) : Dword :=
  BitVec.ofNat 64 (p.viol[0].toNat + 2 ^ 8 * p.viol[1].toNat + 2 ^ 16 * p.viol[2].toNat + 2 ^ 24 * p.viol[3].toNat
    + 2 ^ 32 * p.viol[4].toNat + 2 ^ 40 * p.reproofs.toNat + 2 ^ 48 * p.quarantines.toNat)

/-! ### Violations (R336 to R338) -/

/-- The ledger entry of a violation with its continuation (R336, R479). -/
def violationEntry (pt : Fin 16) (code : Nat) (f : Frame) (s : State) : State :=
  let src16 := BitVec.ofNat 16 pt.val
  let again := ledgerRecent s.ledger s.ns 0x0806 src16
  let s1 := ledgerAdd 0x0806 1 src16 (BitVec.ofNat 8 code :: leBytes f.seq.toNat 2 ++ (frameHead f).take 7) s
  if again then s1 else ledgerAdd 0x0807 1 src16 ((frameHead f).drop 7) s1

/-- The answer to a violation, at most one per code per microsecond (R336). -/
def reproof (pt : Fin 16) (code : Nat) (f : Frame) (s : State) : State :=
  let p := s.port pt
  if p.reproofAt.any fun x => x.1 = code && s.ns < x.2 + 1000 then s
  else
    let body := [BitVec.ofNat 8 code, 0] ++ leBytes f.seq.toNat 2 ++ leBytes p.violTimes.length 4 ++ frameHead f
    emit pt { blankFrame with typ := 2, count := 0, len := BitVec.ofNat 8 body.length, payload := fit 224 body }
      (s.setPort pt { p with reproofAt := (code, s.ns) :: p.reproofAt.filter fun x => x.1 ≠ code })

/-- 64 violations within 1 ms: the port sends nothing for 10 ms (R338). -/
def quarantine (pt : Fin 16) (s : State) : State :=
  let p := s.port pt
  let p1 : Port := { p with
    state := 6, quarEnd := some (s.ns + 10000000), quarantines := satAdd p.quarantines 1, violTimes := [] }
  portEvent pt 0x0504 2 (leBytes (portViolCnt p1).toNat 8) (s.setPort pt p1)

/-- A partner violation: counted, logged, answered, and at the 64th within 1 ms the port is quarantined. -/
def violation (pt : Fin 16) (code : Nat) (answer : Bool) (f : Frame) (s : State) : State :=
  let p := s.port pt
  let c := ix 5 (code - 1)
  let times := s.ns :: p.violTimes.filter fun t => s.ns < t + 1000000
  let s1 := s.setPort pt { p with viol := p.viol.set c (satAdd p.viol[c] 1), violTimes := times }
  let s2 := violationEntry pt code f s1
  let s3 := if answer then reproof pt code f s2 else s2
  if 64 ≤ times.length then quarantine pt s3 else s3

/-! ### Checks of a received frame (R310, R320, R336, R406) -/

/-- Whether an OP is one of the VC's operations; those of time-base messages are 0x38 alone. -/
def opKnown (vc op : Nat) : Bool :=
  match vc with
  | 0 => op = 0x01 || op = 0x02
  | 1 => 0x11 ≤ op && op ≤ 0x13
  | 2 => 0x20 ≤ op && op ≤ 0x27
  | 3 => 0x30 ≤ op && op ≤ 0x32 || op = 0x38
  | _ => false

/-- Whether any reserved field of the header is nonzero. -/
def reservedSet (f : Frame) : Bool :=
  f.seqRsv ≠ 0 || f.ackRsv ≠ 0 || f.creditRsv ≠ 0 || f.tagRsv || f.routeRsv ≠ 0

/-- Whether any reserved field of the payload is nonzero (R324, R336, R374). -/
def payloadReserved (f : Frame) : Bool :=
  let zero (off n : Nat) : Bool := ((f.payload.drop off).take n).all (· = 0)
  if f.typ = 2 then !zero 1 1
  else if f.typ = 3 then 8 ≤ pay f 0x0D 1 || !zero 0x2C 8
  else if f.typ = 4 then 8 ≤ pay f 0x0D 1 || !zero 0x14 16 || !zero 0x2C 180
  else f.typ = 1 && f.vc = 2 && !zero 12 4

/-- The violation a frame's own content makes: 4, then 1, then 5 (log 31). -/
def frameFault (p : Port) (f : Frame) : Option Nat :=
  if 4 ≤ f.vc.toNat then some 4
  else if 5 ≤ f.typ.toNat || reservedSet f || payloadReserved f || 224 < f.len.toNat then some 1
  else if f.typ = 1 && (!opKnown f.vc.toNat f.op.toNat || f.count = 0) then some 1
  else if (f.typ = 0 || f.typ = 2 || f.typ = 4) && f.seq ≠ 0 then some 1
  else if f.typ = 0 && ((frameHeader f).drop 8 ++ f.payload).any (· ≠ 0) then some 1
  else if f.typ = 0 && f.ordered then some 1
  else if p.verAgreed ≠ 0 && f.version ≠ p.verAgreed then some 5
  else none

/-- What R313 says of a SEQ against the one expected. -/
inductive SeqAct where
  | accept | lost | duplicate | outside
deriving DecidableEq, Repr

def seqAct (e q : BitVec 12) : SeqAct :=
  let d := (q - e).toNat
  if d = 0 then .accept else if d ≤ 511 then .lost else if 3584 ≤ d then .duplicate else .outside

/-! ### What every frame carries: ACK and CREDIT (R313, R314, R318) -/

/-- Frame periods in 0.01 ns for a number of lanes, rounded up (R309). -/
def periods (lanes n : Nat) : Nat := (n * 1024 + lanes - 1) / max 1 lanes

/-- Until when a NAK with the same ACK starts no second replay: 2F + 5P (R314). -/
def nakUntil (p : Port) (ns : Nat) : Nat := ns + (20 * p.flight.toNat + periods p.txLanes 5 + 99) / 100

/-- Frames an ACK covers, of those not yet acknowledged; none when it names a frame not yet sent. -/
def ackCovers (buf : List TxEntry) (next ack : BitVec 12) : Option Nat :=
  let first := match buf with
    | e :: _ => e.frame.seq
    | [] => next
  let d := (ack - (first - 1)).toNat
  if d ≤ buf.length then some d else if d < 2048 then none else some 0

/-- Take the ACK field. -/
def takeAck (pt : Fin 16) (f : Frame) (s : State) : State :=
  let p := s.port pt
  let buf := if p.haggling then p.hgBuf else p.buf
  match ackCovers buf (if p.haggling then p.hgTx else p.txSeq) f.ack with
  | none => if f.ackValid || f.nak then violation pt 2 true f s else s
  | some d =>
    let n := if f.ackValid then d else 0
    let p1 : Port := if p.haggling then { p with hgBuf := p.hgBuf.drop n } else { p with buf := p.buf.drop n }
    let again : Bool := match p.nakReplay with
      | some x => x.1 = f.ack && s.ns < x.2
      | none => false
    if f.nak && !again && !(buf.drop n).isEmpty then
      replayAll pt (s.setPort pt { p1 with nakReplay := some (f.ack, nakUntil p s.ns) })
    else s.setPort pt p1

/-- Take the CREDIT field. -/
def takeCredit (pt : Fin 16) (f : Frame) (s : State) : State :=
  let p := s.port pt
  let q := ix 16 f.pool.toNat
  let x := p.pools[q]
  let d := (f.freed - x.lastFreed).toNat
  if !f.creditValid || p.state ≠ 3 then s
  else if x.spent < d then violation pt 3 true f s
  else s.setPort pt { p with
    pools := p.pools.set q { x with credit := x.credit + d, spent := x.spent - d, lastFreed := f.freed } }

/-- A frame that passed its CRC ends the count of fruitless replays, whatever it holds (R314). -/
def heard (pt : Fin 16) (s : State) : State := s.modPort pt fun p => { p with fruitless := 0 }

/-- A frame that passed its CRC is alive traffic; its ACK and CREDIT are taken. -/
def linkFields (pt : Fin 16) (f : Frame) (s : State) : State := takeCredit pt f (takeAck pt f (heard pt s))

/-- A buffer of a pool is freed (R318). -/
def freeBuffer (pt : Fin 16) (q : Fin 16) (s : State) : State :=
  s.modPort pt fun p => { p with pools := p.pools.set q { p.pools[q] with freed := p.pools[q].freed + 1 } }

/-- Whether a port receives frames at all. -/
def Port.receives (p : Port) : Bool := p.enable && p.state ≠ 0 && p.state ≠ 6 && !(p.state = 1 && p.phase = 0)

/-- E advances over an accepted frame. -/
def Port.accepted (p : Port) : Port :=
  if p.haggling then { p with hgRx := p.hgRx + 1, nak := false, ackValid := true }
  else { p with rxNext := p.rxNext + 1, nak := false, ackValid := true }

/-- A sequenced frame arrives: R313, then the checks of R336, then its effect, then its answer. A frame refused for its content has taken
its SEQ and frees its buffer at once. -/
def recvSequenced (pt : Fin 16) (f : Frame) (eff : State → State) (s : State) : State :=
  let p := s.port pt
  answered pt s (match seqAct p.expects f.seq with
  | .lost => linkFields pt f (s.setPort pt { p with nak := true })
  | .duplicate => linkFields pt f s
  | .outside => violation pt 2 true f (heard pt s)
  | .accept =>
    let s1 := s.setPort pt p.accepted
    match frameFault p f with
    | some code =>
      let s2 := if f.typ = 1 && f.vc.toNat < 4 then freeBuffer pt (poolOf f) s1 else s1
      violation pt code true f (heard pt s2)
    | none => eff (linkFields pt f s1))

/-- An unsequenced frame arrives. -/
def recvPlain (pt : Fin 16) (f : Frame) (eff : State → State) (s : State) : State :=
  answered pt s (match frameFault (s.port pt) f with
  | some code => violation pt code (f.typ ≠ 2) f (heard pt s)
  | none => eff (linkFields pt f s))

/-! ### Link rows -/

/-- CRC_FAILED_FRAME (R309, R313): bytes that fail their CRC are discarded and NAK is set; their codeword had `errs` symbol errors, and
with more than 8 it was uncorrectable. -/
def execCrcFailedFrame (pt : Fin 16) (raw : List Byte) (errs : Nat) (s : State) : Res :=
  if !(s.port pt).receives || crcPasses raw then .next s
  else .next (answered pt s (s.modPort pt fun p =>
    { p with nak := true, uncorrectable := satAdd p.uncorrectable (b2n (8 < errs)) }))

/-- The link is lost: RETRY, or DOWN while the port is not yet UP (R314, R342). -/
def linkLost (pt : Fin 16) (s : State) : State :=
  if (s.port pt).haggling then portDown pt 2 s
  else s.modPort pt fun p => { p with state := 5, retrySince := some s.ns, retryAt := s.ns, fruitless := 0 }

/-- REPLAY_TIMER (R314): 2 µs without a covering ACK; the eighth fruitless replay in a row loses the link. -/
def execReplayTimer (pt : Fin 16) (s : State) : Res :=
  let p := s.port pt
  let buf := if p.haggling then p.hgBuf else p.buf
  match buf with
  | [] => .next s
  | e :: _ =>
    if (!p.haggling && p.state ≠ 3) || s.ns < e.sentAt + 2000 then .next s
    else
      let s1 := (replayAll pt s).modPort pt fun p => { p with fruitless := p.fruitless + 1 }
      if 8 ≤ p.fruitless + 1 then .next (linkLost pt s1) else .next s1

/-- REPROOF (R337): counted and logged (log 31). -/
def execReproofFrame (pt : Fin 16) (f : Frame) (s : State) : Res :=
  if !(s.port pt).receives || f.typ ≠ 2 then .next s
  else
    let count (s : State) : State := s.modPort pt fun p => { p with reproofs := satAdd p.reproofs 1 }
    .next (recvPlain pt f (fun t => violationEntry pt 0 f (count t)) s)

/-- QUARANTINE_END (R338): 10 ms of silence are over and a full haggle starts. -/
def execQuarantineEnd (pt : Fin 16) (s : State) : Res :=
  match (s.port pt).quarEnd with
  | some t => .next (if t ≤ s.ns && (s.port pt).state = 6 then startHaggle pt s else s)
  | none => .next s

/-! ### Register words (R354 to R359) -/

def portCfg (p : Port) : Word := BitVec.ofNat 32 (b2n p.enable + 2 * b2n p.certReq + 2 ^ 8 * p.laneFailThr.toNat)

def portStatus (p : Port) : Dword :=
  BitVec.ofNat 64 (p.state.toNat + 8 * b2n p.certOk + 2 ^ 4 * p.txLanes + 2 ^ 8 * p.rxLanes + 2 ^ 12 * b2n p.crossed
    + 2 ^ 13 * p.blockCause.toNat + 2 ^ 16 * p.partnerAddr.toNat + 2 ^ 32 * p.flight.toNat)

def portLaneMap (p : Port) : Word := BitVec.ofNat 32 (p.txFailed.toNat + 2 ^ 16 * p.rxFailed.toNat)

def portErrCnt (p : Port) : Dword :=
  BitVec.ofNat 64 (p.corrected.toNat + 2 ^ 32 * p.uncorrectable.toNat + 2 ^ 48 * p.replays.toNat)

def portEpoch (s : State) (p : Port) : Dword := BitVec.ofNat 64 (p.partnerEpoch.toNat + 2 ^ 32 * s.boot.epoch.toNat)

def portVersion (p : Port) : Word :=
  BitVec.ofNat 32 (ownVersion.toNat + 2 ^ 8 * p.verPartner.toNat + 2 ^ 16 * p.verAgreed.toNat + 2 ^ 24 * p.floorPartner.toNat)

def sweepStatus (p : Port) : Word :=
  BitVec.ofNat 32 (p.sweepState.toNat + 2 ^ 8 * p.vMargin.toNat + 2 ^ 16 * p.hMargin.toNat)

end Sys2Proof.Machine
end

