-- ==== Sys2Proof/Machine/Paths.lean ====
section
/-! DEFINITION. Neighbours and crossed dimensions (R329), minimal masks (R333), the pools frames wait in (R317), and the frames held for
one port (R339, R343, R345). -/
namespace Sys2Proof.Machine
open Sys2Proof

/-! ### Addresses (R329) -/

/-- nbr_d(u). -/
def nbr (crossed : Bool) (d : Nat) (u : Half) : Half :=
  let flips := (List.range 8).foldl (fun (a : Half) i =>
    if crossed && 2 * i + 2 ≤ d && u.getLsbD (2 * i) then a ^^^ BitVec.ofNat 16 (2 ^ (2 * i + 1)) else a) 0
  u ^^^ BitVec.ofNat 16 (2 ^ d) ^^^ flips

/-- Whether a dimension is crossed in the description in force. -/
def crossedDim (s : State) (d : Nat) : Bool := match s.mach.route with
  | some x => x.cross.getLsbD d
  | none => false

/-! ### Minimal masks (R329, R333) -/

/-- nbr_d(u) under a description. -/
def RouteDesc.nbr (x : RouteDesc) (d : Nat) (u : Half) : Half := Machine.nbr (x.cross.getLsbD d) d u

/-- Whether the link of dimension d at u is declared down; an entry names one end. -/
def RouteDesc.isDown (x : RouteDesc) (u : Half) (d : Nat) : Bool :=
  x.down.any fun e => e.2 = d && (e.1 = u.toNat || e.1 = (x.nbr d u).toNat)

/-- The highest bit in which two addresses differ. -/
def highBit (u w : Half) : Nat := (List.range 16).foldl (fun h i => if u.getLsbD i ≠ w.getLsbD i then i else h) 0

/-- One round of the search from w: the modules seen so far and those a round further. -/
def RouteDesc.widen (x : RouteDesc) (h : Nat) (seen : BitVec 65536) (front : List Half) : BitVec 65536 × List Half :=
  front.foldl (fun acc u =>
    (List.range (h + 1)).foldl (fun (acc : BitVec 65536 × List Half) d =>
      let v := x.nbr d u
      if x.isDown u d || acc.1.getLsbD v.toNat then acc
      else (acc.1 ||| BitVec.ofNat 65536 (2 ^ v.toNat), v :: acc.2)) acc) (seen, [])

/-- The ports d ≤ h whose neighbour stands in a set of modules. -/
def RouteDesc.portsInto (x : RouteDesc) (u : Half) (h : Nat) (set : List Half) : List (Fin 16) :=
  (List.finRange 16).filter fun d => d.val ≤ h && set.contains (x.nbr d.val u)

/-- Search outward from w until u is found; the modules one hop nearer are those of the round before. -/
def RouteDesc.search (x : RouteDesc) (u : Half) (h : Nat) : Nat → BitVec 65536 → List Half → List (Fin 16)
  | 0, _, _ => []
  | n + 1, seen, front =>
    let y := x.widen h seen front
    if y.2.contains u then x.portsInto u h front else if y.2.isEmpty then [] else RouteDesc.search x u h n y.1 y.2

/-- M(w) of a module u (R333). -/
def RouteDesc.mask (x : RouteDesc) (u w : Half) : List (Fin 16) :=
  let h := highBit u w
  x.search u h (2 ^ (h + 1)) (BitVec.ofNat 65536 (2 ^ w.toNat)) [w]

/-! ### Waiting frames (R317) -/

/-- The frames of a pool: a port's (below 16) or the module's own (16). -/
def poolQueue (s : State) (from_ : Fin 17) (q : Fin 16) : List QFrame :=
  if from_.val < 16 then (s.port (ix 16 from_.val)).pools[q].held else s.mach.inject[q]

def setPool (from_ : Fin 17) (q : Fin 16) (l : List QFrame) (s : State) : State :=
  if from_.val < 16 then
    s.modPort (ix 16 from_.val) fun p => { p with pools := p.pools.set q { p.pools[q] with held := l } }
  else s.setMach { s.mach with inject := s.mach.inject.set q l }

/-- Every pool that can hold a frame for an output. -/
def allQueues : List (Fin 17 × Fin 16) := (List.finRange 17).flatMap fun a => (List.finRange 16).map fun q => (a, q)

/-- The ports a frame may take, its detour aside (R322, R334). -/
def permitted (s : State) (f : Frame) : List (Fin 16) :=
  match s.mach.route with
  | none => []
  | some x =>
    let e := ix 16 (highBit s.mach.logical f.dest)
    if f.ordered || f.cls.getLsbD 0 then [e] else e :: x.mask s.mach.logical f.dest

/-- Whether a waiting frame is held for one port: no other may take it (R339). -/
def heldFor (s : State) (pt : Fin 16) (f : Frame) : Bool :=
  f.dest ≠ s.mach.logical && !(permitted s f).isEmpty && (permitted s f).all fun p => p = pt

/-- The frames held for a port are discarded, and free their buffers (R343, R345). -/
def discardHeld (pt : Fin 16) (s : State) : State :=
  forAll allQueues (fun y t =>
    let l := poolQueue t y.1 y.2
    let keep := l.filter fun x => !heldFor t pt x.frame
    let t1 := setPool y.1 y.2 keep t
    if y.1.val < 16 then forAll (List.range (l.length - keep.length)) (fun _ u => freeBuffer (ix 16 y.1.val) y.2 u) t1 else t1) s

end Sys2Proof.Machine
end

