-- ==== Sys2Proof/Machine/Tensor.lean ====
section
/-! DEFINITION. Tensor descriptors (R179 to R181), shards and their layout (R182 to R191), the checks of R194, the draws of R371,
loads and stores of shards (R46, R55, R190), and COPY in tensor mode (R493). -/
namespace Sys2Proof.Machine
open Sys2Proof

/-! ### The record -/

/-- Dimension d of a tensor descriptor (R181). -/
def readDim (bs : List Byte) (d : Nat) : TDim :=
  let b := bs.drop (0x40 + 0x20 * d)
  { extent := fieldAt b 0 4, kind := fieldAt b 4 1, axisMask := BitVec.ofNat 16 (fieldAt b 6 2), cycle := fieldAt b 8 4,
    stride := fieldAt b 0x10 8, scaleStride := fieldAt b 0x18 8 }

/-- A tensor descriptor's 320 bytes (R180, R181). -/
def readTensor (bs : List Byte) : Tensor :=
  let dims := fieldAt bs 0 1
  let zero (off n : Nat) : Bool := fieldAt bs off n = 0
  let dimZero (d : Nat) : Bool := zero (0x45 + 0x20 * d) 1 && zero (0x4C + 0x20 * d) 4 && fieldAt bs (0x44 + 0x20 * d) 1 < 4
  { fmt := fieldAt bs 1 1, implicit := fieldAt bs 2 1 % 2 = 1, isLocal := fieldAt bs 2 1 / 2 % 2 = 1, rotL := fieldAt bs 3 1,
    rotSeed := BitVec.ofNat 32 (fieldAt bs 4 4), seqDim := fieldAt bs 8 1, splitDim := fieldAt bs 9 1,
    ncores := fieldAt bs 0x0A 2, core0 := fieldAt bs 0x0C 2, placeMask := BitVec.ofNat 16 (fieldAt bs 0x0E 2),
    placeBase := BitVec.ofNat 16 (fieldAt bs 0x10 2), posBase := fieldAt bs 0x12 3, dataBase := fieldAt bs 0x18 8,
    scaleBase := fieldAt bs 0x20 8, dims := (List.range (min 8 dims)).map (readDim bs),
    reservedOk := 1 ≤ dims && dims ≤ 8 && fieldAt bs 1 1 ≤ 4 && fieldAt bs 2 1 < 4 && zero 0x15 3 && zero 0x28 24
      && (List.range (min 8 dims)).all dimZero }

/-! ### Shards (R184 to R188) -/

/-- The bits of an address under a mask, the lowest mask bit first (R185). -/
def compact (a mask : Half) : Nat :=
  ((List.range 16).foldl (fun (r : Nat × Nat) i =>
    if mask.getLsbD i then (r.1 + b2n (a.getLsbD i) * 2 ^ r.2, r.2 + 1) else r) (0, 0)).1

/-- The number of ones of a mask. -/
def maskOnes (m : Half) : Nat := ((List.range 16).filter fun i => m.getLsbD i).length

/-- Whether a tensor has a scale plane. -/
def Tensor.plane (t : Tensor) : Bool := scaled t.fmt && !t.implicit

/-- The granule G (R187). -/
def Tensor.granule (t : Tensor) : Nat :=
  max (max (64 / fmtBytes t.fmt 2 * 2) (if t.plane then 32 else 1)) (if t.rotL = 0 then 1 else 2 ^ t.rotL)

/-- Shards along a dimension (R185). -/
def TDim.shards (x : TDim) : Nat := 2 ^ maskOnes x.axisMask

/-- The length of a dimension's blocks under the blocked kind (R186). -/
def TDim.block (x : TDim) (g : Nat) : Nat := g * (((x.extent + x.shards - 1) / x.shards + g - 1) / g)

/-- The local extent of a dimension on the coordinate of an address (R186). -/
def TDim.ext (x : TDim) (g : Nat) (a : Half) : Nat :=
  let p := compact a x.axisMask
  if x.axisMask = 0 then x.extent
  else if x.kind = 1 then min (x.block g) (x.extent - p * x.block g)
  else x.extent / (x.cycle * x.shards) * x.cycle + min x.cycle (x.extent % (x.cycle * x.shards) - p * x.cycle)

/-- The global index of a local one (R186). -/
def TDim.glob (x : TDim) (g : Nat) (a : Half) (l : Nat) : Nat :=
  let p := compact a x.axisMask
  if x.axisMask = 0 then l
  else if x.kind = 1 then p * x.block g + l
  else l / x.cycle * x.cycle * x.shards + p * x.cycle + l % x.cycle

/-- Granule of dimension number d. -/
def Tensor.gran (t : Tensor) (d : Nat) : Nat := if d = 0 then t.granule else 1

/-- A function of every dimension with its number. -/
def Tensor.mapDims {α : Type} (t : Tensor) (f : Nat → TDim → α) : List α := t.dims.zipIdx.map fun x => f x.2 x.1

/-- The local extents of a shard. -/
def Tensor.exts (t : Tensor) (a : Half) : List Nat := t.mapDims fun d x => x.ext (t.gran d) a

/-- The elements of a shard. -/
def Tensor.count (t : Tensor) (a : Half) : Nat := (t.exts a).foldl (· * ·) 1

/-- The indices of a shard's innermost rows, dimension 1 fastest. -/
def rowTails : List Nat → List (List Nat)
  | [] => [[]]
  | n :: rest => (rowTails rest).flatMap fun tl => (List.range n).map fun i => i :: tl

/-- The global linear index of an element, dimension 0 fastest, modulo 2^64. -/
def Tensor.linear (t : Tensor) (a : Half) (l : List Nat) : Nat :=
  ((t.dims.zipIdx.zip l).foldl (fun (r : Nat × Nat) x =>
    (r.1 + x.1.1.glob (t.gran x.1.2) a x.2 * r.2, r.2 * x.1.1.extent)) (0, 1)).1 % 2 ^ 64

/-- Indices per core along SPLIT_DIM (R188). -/
def Tensor.perCore (t : Tensor) (ext : List Nat) : Nat :=
  let n := ext.getD t.splitDim 0
  let q := (n + t.ncores - 1) / max 1 t.ncores
  max 1 (if t.splitDim = 0 then (q + t.granule - 1) / t.granule * t.granule else q)

/-- Where a run of a row lies: core (of local store), data address of the row, scale address of the row, first column. -/
structure RowLoc where
  core : Nat
  data : Nat
  scale : Nat
  col : Nat
deriving DecidableEq, Repr

/-- The place of the element l_0 of the row with outer indices `tl` (R188, R189). -/
def Tensor.loc (t : Tensor) (ext : List Nat) (l0 : Nat) (tl : List Nat) : RowLoc :=
  let per := t.perCore ext
  let k := if t.isLocal then (l0 :: tl).getD t.splitDim 0 / per else 0
  let l := if t.isLocal then (l0 :: tl).modify t.splitDim fun i => i - k * per else l0 :: tl
  let outer := (t.dims.drop 1).zip (l.drop 1)
  { core := t.core0 + k, data := t.dataBase + outer.foldl (fun r x => r + x.2 * x.1.stride) 0,
    scale := t.scaleBase + outer.foldl (fun r x => r + x.2 * x.1.scaleStride) 0, col := l.headD 0 }

/-- A byte address of a tensor's space as a place. -/
def Tensor.place (t : Tensor) (core a : Nat) : Place := if t.isLocal then .ls (ix 384 core) a else .gddr a

/-- The cores that hold a part of a local shard. -/
def Tensor.cores (t : Tensor) (ext : List Nat) : List Nat :=
  if t.isLocal && !ext.contains 0 then
    (List.range ((ext.getD t.splitDim 0 + t.perCore ext - 1) / t.perCore ext)).map (t.core0 + ·)
  else []

/-! ### Checks (R194) -/

/-- Whether two masks share a bit. -/
def masksMeet (l : List Half) : Bool :=
  match l with
  | [] => false
  | m :: rest => (rest.any fun x => m &&& x ≠ 0) || masksMeet rest

/-- The bytes past the start of the space that a shard reaches, data and scale plane (R189). -/
def Tensor.reach (t : Tensor) (ext : List Nat) : Nat :=
  let part := if t.isLocal then ext.modify t.splitDim fun n => min n (t.perCore ext) else ext
  let outer := (t.dims.drop 1).zip (part.drop 1)
  let data := t.dataBase + outer.foldl (fun r x => r + (x.2 - 1) * x.1.stride) 0 + fmtBytes t.fmt (part.headD 0)
  let scale := t.scaleBase + outer.foldl (fun r x => r + (x.2 - 1) * x.1.scaleStride) 0 + (part.headD 0 + 31) / 32
  max data (if t.plane then scale else 0)

/-- Whether a dimension's entry is within its ranges (R181, R187). -/
def Tensor.dimBad (t : Tensor) (d : Nat) (x : TDim) : Bool :=
  3 ≤ x.kind || x.extent = 0 || (x.axisMask ≠ 0 && x.kind = 0)
    || (x.axisMask ≠ 0 && x.kind = 2 && (x.cycle = 0 || (d = 0 && x.cycle % t.granule ≠ 0)))
    || (d ≠ 0 && x.stride % 64 ≠ 0)

/-- Whether the rotation fields break R180 or R191. -/
def Tensor.rotBad (t : Tensor) : Bool :=
  t.rotL ≠ 0 && (t.rotL < 6 || 12 < t.rotL || 3 ≤ t.fmt || (t.dims.headD ⟨0, 0, 0, 0, 0, 0⟩).extent % 2 ^ t.rotL ≠ 0)

/-- Whether a descriptor that names a tensor is malformed by it; `dst` says the tensor is a destination (R194). -/
def tensorBad (s : State) (t : Tensor) (dst xpose : Bool) : Bool :=
  let a := s.mach.logical
  let ext := t.exts a
  let masks := t.placeMask :: t.dims.map fun x => x.axisMask
  let limit := if t.isLocal then lsEnd else gdCapacity s
  !t.reservedOk || (t.mapDims t.dimBad).any id || t.rotBad || masksMeet masks || t.dataBase % 64 ≠ 0
    || (dst && ((t.dims.zip ext).drop 1).any fun x => x.1.stride = 0 && 1 < x.2)
    || (t.seqDim ≠ 0xFF && (t.dims.length ≤ t.seqDim
      || 2 ^ 24 < t.posBase + (t.dims.getD t.seqDim ⟨0, 0, 0, 0, 0, 0⟩).extent))
    || (t.isLocal && (t.dims.length ≤ t.splitDim || t.ncores = 0 || 384 < t.core0 + t.ncores))
    || (xpose && t.dims.length < 2)
    || (!s.mach.bound && masks.any (· ≠ 0)) || (a &&& t.placeMask ≠ t.placeBase &&& t.placeMask)
    || (!ext.contains 0 && limit < t.reach ext)

/-- A tensor descriptor lies in host memory or GDDR7, aligned to 64 bytes (R179). -/
def tdFault (s : State) (d : Dword) (off : Nat) : Option (Byte × Half) :=
  if d.toNat % 64 ≠ 0 then some (stMalformed, BitVec.ofNat 16 off) else recordFault s d 320 off

/-- The tensor a descriptor's operand names. -/
def tdOf (s : State) (d : Dword) : Tensor := readTensor (plain (readPlace s (placeOf s d) 320))

/-- A core of a local shard out of service (R265). -/
def tensorOut (s : State) (t : Tensor) : Option (Byte × Half) :=
  ((t.cores (t.exts s.mach.logical)).find? fun c => !coreServes s c).map fun c => (stDegraded, coreOutDetail s (ix 384 c))

/-- The tensor a descriptor's operand names, as the descriptor read it at its start (R179). -/
def DescCtx.td (c : DescCtx) (s : State) (d : Dword) : Tensor :=
  match c.tds.find? fun x => x.1 = d with
  | some x => x.2
  | none => tdOf s d

/-- Every check of one named tensor, its record read already (R194, R265). -/
def tensorFaultOf (s : State) (t : Tensor) (d : Dword) (off : Nat) (dst xpose : Bool) : Option (Byte × Half) :=
  match tdFault s d off with
  | some f => some f
  | none => worst [failIf (tensorBad s t dst xpose) stMalformed 0x8000, tensorOut s t]

/-- Every check of one named tensor (R194, R265). -/
def tensorFault (s : State) (d : Dword) (off : Nat) (dst xpose : Bool) : Option (Byte × Half) := tensorFaultOf s (tdOf s d) d off dst xpose

/-! ### Loads -/

/-- One byte of a tensor's space. -/
def Tensor.byte (t : Tensor) (s : State) (core a : Nat) : MByte := (readPlace s (t.place core a) 1).headD (0, false)

/-- The code of an element, its scale byte, whether either came marked. -/
def Tensor.code (t : Tensor) (s : State) (ext : List Nat) (l0 : Nat) (tl : List Nat) : Nat × Byte × Bool :=
  let p := t.loc ext l0 tl
  let bs := (List.range (fmtBytes t.fmt 1)).map fun i => t.byte s p.core (p.data + fmtOffset t.fmt p.col + i)
  let v := leNat (plain bs)
  let c := if t.fmt ≤ 1 then v / (if p.col % 2 = 0 then 1 else 16) % 16 else v
  let sc := if t.plane then t.byte s p.core (p.scale + p.col / 32) else (0x80, false)
  (c, sc.1, (bs.any fun b => b.2) || sc.2)

/-- An element's value as stored (R46). -/
def Tensor.val (t : Tensor) (s : State) (ext : List Nat) (l0 : Nat) (tl : List Nat) : FNum :=
  let x := t.code s ext l0 tl
  elemNum t.fmt x.1 x.2.1 x.2.2

/-- The byte runs of a shard, core, address and length: of its data when `data` is set, of its scale plane when `plane` is. -/
def Tensor.runs (t : Tensor) (data plane : Bool) (ext : List Nat) : List (Nat × Nat × Nat) :=
  let n0 := ext.headD 0
  let step := if t.isLocal && t.splitDim = 0 then t.perCore ext else max 1 n0
  let row (tl : List Nat) : List (Nat × Nat × Nat) := (List.range ((n0 + step - 1) / step)).flatMap fun i =>
    let p := t.loc ext (i * step) tl
    let n := min step (n0 - i * step)
    (if data then [(p.core, p.data, fmtBytes t.fmt n)] else []) ++ (if plane && t.plane then [(p.core, p.scale, (n + 31) / 32)] else [])
  if ext.contains 0 then [] else (rowTails (ext.drop 1)).flatMap row

/-- The same runs as places. -/
def Tensor.spans (t : Tensor) (data plane : Bool) (ext : List Nat) : List (Place × Nat) :=
  (t.runs data plane ext).map fun x => (t.place x.1 x.2.1, x.2.2)

/-- The sectors of a shard as core and sector number: those of its data when `data` is set, and of its scale plane. -/
def Tensor.sectors (t : Tensor) (data : Bool) (ext : List Nat) : List (Nat × Nat) :=
  ((t.runs data true ext).flatMap fun x => (sectorsOf x.2.1 x.2.2).map fun y => (x.1, y)).eraseDups

/-- Whether two runs of a shard meet, so that two of its elements share bytes (R183). -/
def Tensor.selfMeets (t : Tensor) (ext : List Nat) : Bool :=
  let meet (plane : Bool) : Bool :=
    let xs := t.runs (!plane) plane ext
    xs.zipIdx.any fun x => (xs.drop (x.2 + 1)).any fun y => x.1.1 = y.1 && rangesMeet x.1.2 y.2
  meet false || meet true

/-- Sectors of a shard delivered uncorrected (R265). -/
def Tensor.marked (t : Tensor) (s : State) (ext : List Nat) : Nat :=
  ((t.sectors true ext).filter fun x => (t.byte s x.1 (64 * x.2)).2).length

/-! ### Stores -/

/-- mix of R371. -/
def mix (h : Word) (x : Nat) : Word :=
  let h1 := (h ^^^ BitVec.ofNat 32 x) * 0x85EBCA6B
  h1 ^^^ (h1 >>> 13)

/-- draw of R371: the 10-bit integer of element e. -/
def draw (seed : Word) (n i r e : Nat) : Nat :=
  let h := [n, i, r, e % 2 ^ 32, e / 2 ^ 32].foldl mix seed
  let h1 := h * 0xC2B2AE35
  ((h1 ^^^ (h1 >>> 16)) >>> 22).toNat

/-- A generator whose next ten output bits spell a draw, first bit most significant (R58). -/
def drawGen (rnd : Nat) : Dword :=
  BitVec.ofNat 64 ((List.range 10).foldl (fun a i => a + rnd / 2 ^ (9 - i) % 2 * 2 ^ i) 0)

/-- Store a block of elements, each with its own draw (R55 to R63): codes, the scale to write, events. -/
def drawBlock (f mode : Nat) (implicit sr : Bool) (given : MByte) (xs : List FNum) (rnd : Nat → Nat) :
    List Nat × Option Byte × Ev :=
  let sc : Byte := if implicit || mode = 2 then 0x80 else if mode = 1 then given.1 else amaxScale f xs
  let lost := scaled f && mode = 1 && !implicit && given.2
  let rs := xs.zipIdx.map fun x => storeElem f false sr sc (if lost then .poison else x.1) (drawGen (rnd x.2))
  let edge := b2n (scaled f && !lost && (sc = 1 || sc = 255))
  (rs.map fun r => r.1, if !scaled f || implicit || mode = 1 then Option.none else some sc,
    rs.foldl (fun e r => e.add r.2.1) { Ev.none with blk := b2n (scaled f), edge := edge })

/-- Write unmarked bytes of a tensor's space. -/
def Tensor.put (t : Tensor) (core a : Nat) (bs : List Byte) (s : State) : State :=
  writePlace (t.place core a) (bs.map fun b => (b, false)) s

/-- Elements stored at once: a block of a scale plane, or as many as every core's part of a split row is a multiple of (R187, R188). -/
def Tensor.unit (t : Tensor) : Nat := if scaled t.fmt then 32 else 16

/-- Write the codes of a block that begins at l_0; a short last block of a scale plane is completed with zeros (R190). -/
def Tensor.putCodes (t : Tensor) (ext : List Nat) (l0 : Nat) (tl : List Nat) (cs : List Nat) (s : State) : State :=
  let p := t.loc ext l0 tl
  let full := if t.plane then (cs ++ List.replicate 32 0).take 32 else cs
  let old := (t.byte s p.core (p.data + fmtOffset t.fmt (p.col + full.length))).1.toNat / 16
  let even := if t.fmt ≤ 1 && full.length % 2 = 1 then full ++ [old] else full
  t.put p.core (p.data + fmtOffset t.fmt p.col) (packCodes t.fmt even) s

/-- Write a block's scale byte. -/
def Tensor.putScale (t : Tensor) (ext : List Nat) (l0 : Nat) (tl : List Nat) (sc : Byte) (s : State) : State :=
  let p := t.loc ext l0 tl
  if t.plane then t.put p.core (p.scale + p.col / 32) [sc] s else s

/-- Store a run of a row that begins at block l_0, block by block; `rnd` is the draw of the run's i-th element. -/
def Tensor.storeSeg (t : Tensor) (ext : List Nat) (mode : Nat) (sr : Bool) (rnd : Nat → Nat) (at_ : Nat) (tl : List Nat)
    (xs : List FNum) (s : State) : State × Ev :=
  (chunks t.unit xs).zipIdx.foldl (fun (r : State × Ev) b =>
    let l0 := at_ + t.unit * b.2
    let p := t.loc ext l0 tl
    let given := if t.plane then t.byte r.1 p.core (p.scale + p.col / 32) else (0x80, false)
    let q := drawBlock t.fmt mode t.implicit sr given b.1 fun i => rnd (t.unit * b.2 + i)
    let s1 := t.putCodes ext l0 tl q.1 r.1
    (match q.2.1 with
      | some sc => t.putScale ext l0 tl sc s1
      | none => s1, r.2.add q.2.2)) (s, Ev.none)

/-- The memory requests a shard's rows and scale plane make (R93, R210, R220). -/
def Tensor.accept (t : Tensor) (owner : TxnOwner) (cls : Nat) (write : Bool) (ext : List Nat) (s : State) : State :=
  (t.spans true true ext).foldl (fun u x => acceptAt owner cls write x.1 x.2 u) s

/-! ### COPY in tensor mode (R493) -/

/-- Exchange the first two entries of a list. -/
def swap2 {α : Type} (l : List α) : List α :=
  match l with
  | x :: y :: rest => y :: x :: rest
  | l => l

/-- RESULT of a tensor copy: event counts, each saturating (R266). -/
def evResult (e : Ev) : Dword :=
  BitVec.ofNat 64 (min e.sat 0x1FFFFF + 2 ^ 21 * min e.ufz 0x1FFFFF + 2 ^ 42 * min e.psn 0x1FFFFF)

/-- Whether a copy keeps format and scale plane under SCALE_GIVEN, so that codes go unchanged (R67). -/
def sameTensorCodes (a b : Tensor) (mode : Nat) (xpose : Bool) : Bool :=
  a.fmt = b.fmt && scaled a.fmt && !xpose && b.rotL = 0 && mode = 1 && a.plane && b.plane && a.isLocal = b.isLocal
    && a.scaleBase = b.scaleBase && a.splitDim = b.splitDim && a.core0 = b.core0 && a.ncores = b.ncores
    && a.dims.map (fun x => x.scaleStride) = b.dims.map fun x => x.scaleStride

/-- A row whose codes go unchanged, block by block: what loads as poison is stored as poison (R62, R67, R46). -/
def copyRowCodes (a b : Tensor) (ea eb tl : List Nat) (v : State) (r : State × Ev) : State × Ev :=
  let n0 := eb.headD 0
  let xs := (List.range n0).map fun i => a.val v ea i tl
  let cs := keptCodes a.fmt (fun i => (a.code v ea i tl).1) xs
  ((List.range ((n0 + 31) / 32)).foldl (fun t i => b.putCodes eb (32 * i) tl ((cs.drop (32 * i)).take 32) t) r.1,
    r.2.add { Ev.none with psn := 2 * psnCount xs })

/-- The movement of a tensor copy, of the values that stood before it: the new state and its events. -/
def tensorCopy (a b : Tensor) (mode : Nat) (sr xpose : Bool) (seed : Word) (s : State) : State × Ev :=
  let me := s.mach.logical
  let ea := a.exts me
  let eb := b.exts me
  let src (l : List Nat) : List Nat := if xpose then swap2 l else l
  let n0 := eb.headD 0
  let tails := rowTails (eb.drop 1)
  if sameTensorCodes a b mode xpose then tails.foldl (fun r tl => copyRowCodes a b ea eb tl s r) (s, Ev.none)
  else
    let rows := tails.map fun tl => (tl, (List.range n0).map fun i =>
      let l := src (i :: tl)
      a.val s ea (l.headD 0) (l.drop 1))
    rows.foldl (fun (r : State × Ev) x =>
      let z := if b.rotL = 0 then (x.2, Ev.none) else rotRow b.rotL b.rotSeed false x.2
      let q := b.storeSeg eb mode sr (fun i => draw seed 0 3 0 (b.linear me (i :: x.1))) 0 x.1 z.1 r.1
      (q.1, ((r.2.add { Ev.none with psn := psnCount x.2 }).add z.2).add q.2)) (s, Ev.none)

/-- Why a tensor-mode COPY is refused (R493, R194, R265). -/
def copyTensorFault (s : State) (c : DescCtx) : Option (Byte × Half) :=
  let w := c.word
  let xpose := (dW2 w).getLsbD 4
  let a := c.td s (dQ w 0x10)
  let b := c.td s (dQ w 0x18)
  let ea := a.exts s.mach.logical
  let eb := b.exts s.mach.logical
  let f := worst [failIf ((bits (dW2 w) 2 2).toNat = 3) stMalformed 8, tensorFaultOf s a (dQ w 0x10) 0x10 false xpose,
    tensorFaultOf s b (dQ w 0x18) 0x18 true xpose, failIf (dQ w 0x20 ≠ 0) stMalformed 0x20]
  f.orElse fun _ => failIf (ea ≠ (if xpose then swap2 eb else eb)) stMalformed 0x8000

/-- A tensor-mode COPY whose requests have been served moves its data and ends. -/
def copyTensorNow (r : Fin 256) (c : DescCtx) (a b : Tensor) (s : State) : State :=
  let w := c.word
  let mode := (bits (dW2 w) 2 2).toNat
  let ea := a.exts s.mach.logical
  let eb := b.exts s.mach.logical
  let y := readStatus (a.marked s ea + if mode = 1 && b.plane then
    ((b.sectors false eb).filter fun x => (b.byte s x.1 (64 * x.2)).2).length else 0)
  let z := tensorCopy a b mode ((dW2 w).getLsbD 1) ((dW2 w).getLsbD 4) (dW3 w) s
  endOrWait r c.idx y.1 y.2 (evResult z.2) (landAll (.desc r c.idx) 2 (b.spans true (mode ≠ 1) eb) z.1)

/-- COPY_TENSOR_MODE (R493). -/
def execCopyTensorMode (r : Fin 256) (n : Nat) (s : State) : Res :=
  match descAt s r n 0x10 with
  | none => .next s
  | some c =>
    let w := c.word
    let mode := (bits (dW2 w) 2 2).toNat
    if !(dW2 w).getLsbD 0 then .next s
    else
      let o : TxnOwner := .desc r c.idx
      let a := c.td s (dQ w 0x10)
      let b := c.td s (dQ w 0x18)
      let ea := a.exts s.mach.logical
      let eb := b.exts s.mach.logical
      match copyTensorFault s c with
      | some x => .next (finishDesc r c.idx x.1 x.2 0 s)
      | none =>
        if eb.contains 0 then .next (finishDesc r c.idx stOk 0 0 s)
        else .next (onceServed o (copyTensorNow r c a b)
          (askDesc r c 0 (askAll o 2 (a.spans true true ea ++ b.spans false (mode = 1) eb) (b.spans true (mode ≠ 1) eb)) s))

end Sys2Proof.Machine
end

