-- ==== Sys2Proof/Machine/Coll.lean ====
section
/-! DEFINITION. Collective groups (R362, R363), who exchanges which unit in which round (R366 to R368), arithmetic on the wire
(R370 to R372) and the messages' bytes (R374). -/
namespace Sys2Proof.Machine
open Sys2Proof

/-! ### Group records -/

/-- A group record as read (R362). -/
structure GroupRec where
  ok : Bool
  major : Nat
  form : Nat
  timeout : Nat
  seed : Word
  last : Bool
  crc : Word
  members : List Half
  dims : List Nat
deriving DecidableEq, Repr

/-- The free bits of a mask, ascending. -/
def freeBits (m : Half) : List Nat := (List.range 16).filter fun i => m.getLsbD i

/-- The address of a rank of a subcube: the free bits take the rank's bits (R363, R185). -/
def subcubeAddr (base mask : Half) (rank : Nat) : Half :=
  ((freeBits mask).zipIdx.foldl (fun (a : Half) x => a ||| (BitVec.ofNat 16 (rank / 2 ^ x.2 % 2) <<< x.1)) (base &&& ~~~mask))

/-- Whether a list of addresses strictly ascends. -/
def ascends : List Half → Bool
  | a :: b :: l => a < b && ascends (b :: l)
  | _ => true

/-- The addresses in a group's LIST; none when it cannot be read. -/
def groupList (s : State) (bs : List Byte) : Option (List Half) :=
  let n := fieldAt bs 0x0C 4
  let p := placeOf s (BitVec.ofNat 64 (fieldAt bs 0x10 8))
  if n < 2 || 65536 < n || (placeFault s p (2 * n)).isSome then none
  else match p with
    | .remote _ _ => none
    | _ => some ((chunks 2 (plain (readPlace s p (2 * n)))).map fun x => BitVec.ofNat 16 (leNat x))

/-- Read a group record (R362, R363). `pair` says only TIMEOUT and LINK_MAJOR are read. -/
def readGroup (s : State) (bs : List Byte) (pair : Bool) (peer : Half) : GroupRec :=
  let mask : Half := BitVec.ofNat 16 (fieldAt bs 0x0A 2)
  let base : Half := BitVec.ofNat 16 (fieldAt bs 8 2)
  let form := if pair then 2 else fieldAt bs 4 1
  let me := s.mach.logical
  let top : Nat := match s.mach.route with
    | some d => 2 ^ d.dims
    | none => 65536
  let members : List Half :=
    if form = 0 then (List.range (2 ^ (freeBits mask).length)).map (subcubeAddr base mask)
    else if form = 1 then (groupList s bs).getD []
    else if peer < me then [peer, me] else [me, peer]
  let shapeOk : Bool := form = 2 && pair || (form = 0 && mask ≠ 0) || (form = 1 && ascends members && members.all fun a => a.toNat < top)
  let recOk : Bool := pair || (fieldAt bs 0 4 = 0x50474B56 && fieldAt bs 0x1C 1 < 2 && fieldAt bs 0x1D 35 = 0)
  { ok := recOk && shapeOk && s.mach.bound && members.contains me && (!pair || peer ≠ me), major := fieldAt bs 5 1, form := form,
    timeout := if fieldAt bs 6 2 = 0 then 1000 else fieldAt bs 6 2, seed := BitVec.ofNat 32 (fieldAt bs 0x18 4),
    last := !pair && fieldAt bs 0x1C 1 = 1, crc := crc32c (bs.take 64), members := members,
    dims := if form = 0 then freeBits mask else [] }

/-- The group record of a descriptor's operand and what its checks find (R348, R363). -/
def groupFault (s : State) (d : Dword) (off : Nat) (pair : Bool) (peer : Half) : Option (Byte × Half) :=
  match (if d.toNat % 64 ≠ 0 then some (stMalformed, BitVec.ofNat 16 off) else recordFault s d 64 off) with
  | some f => some f
  | none =>
    let g := readGroup s (plain (readPlace s (placeOf s d) 64)) pair peer
    worst [failIf (g.major ≠ 2) stUnsupported 1, failIf (!g.ok) stMalformed 0x8000]

def groupOf (s : State) (d : Dword) (pair : Bool) (peer : Half) : GroupRec :=
  readGroup s (plain (readPlace s (placeOf s d) 64)) pair peer

/-! ### Formats on the wire -/

/-- WIRE as a format code of R113. -/
def wireFmt (w : Nat) : Nat := if w = 0 then 0 else if w = 1 then 2 else 3

/-- FORMAT of a message (R374) for a format code. -/
def msgFmt (f : Nat) : Nat := if f = 0 then 0 else if f = 2 then 1 else if f = 3 then 2 else 4

/-- Elements a message of a format carries (R374). -/
def msgElems (f : Nat) : Nat := if f = 0 then 384 else if f = 2 then 192 else if f = 3 then 104 else 52

/-- Whether a destination may hold a wire format's values (R372). -/
def widthOk (wire : Nat) (t : Tensor) : Bool :=
  (t.fmt = wire && (3 ≤ wire || !t.implicit)) || (wire < t.fmt && t.fmt ≠ 1)

/-- A blank element. -/
def WireElem.zero : WireElem := ⟨0, 0, 0x80⟩

/-- Whether an element's value is poison. -/
def WireElem.poison (x : WireElem) : Bool := (vwNum x.acc).isPoison

/-- A block of elements narrowed to a wire format by stochastic rounding (R370); `rnd` is the draw of the block's i-th element. -/
def narrowBlock (f : Nat) (rnd : Nat → Nat) (xs : List WireElem) : List WireElem :=
  let q := drawBlock f 0 false true (0x80, false) (xs.map fun x => vwNum x.acc) rnd
  let sc := q.2.1.getD 0x80
  (xs.zip q.1).map fun x =>
    { acc := if x.1.poison then 0x7FFFFFFF else (toVw (elemNum f x.2 sc false)).1, code := BitVec.ofNat 32 x.2, scale := sc }

/-- Elements narrowed block by block; `e0` is the flat index of the first. -/
def narrow (f : Nat) (seed : Word) (n i r e0 : Nat) (xs : List WireElem) : List WireElem :=
  (chunks 32 xs).zipIdx.flatMap fun b => narrowBlock f (fun j => draw seed n i r (e0 + 32 * b.2 + j)) b.1

/-- Elements carried as VW32. -/
def wide (xs : List WireElem) : List WireElem := xs.map fun x => { x with code := x.acc, scale := 0x80 }

/-! ### Bytes of a message -/

/-- The data bytes of a run of elements: whole blocks of codes, each with its scale (R374). -/
def packElems (f : Nat) (xs : List WireElem) : List Byte :=
  if f = 0 || f = 2 then (chunks 32 xs).flatMap fun b =>
    fit (fmtBytes f 32) (packCodes f (b.map fun x => x.code.toNat)) ++ [(b.headD WireElem.zero).scale]
  else xs.flatMap fun x => leBytes x.code.toNat (fmtBytes f 1)

/-- The code of element i of packed codes. -/
def packedCode (f : Nat) (bs : List Byte) (i : Nat) : Nat :=
  if f = 0 then fieldAt bs (i / 2) 1 / (if i % 2 = 0 then 1 else 16) % 16 else fieldAt bs (fmtBytes f i) (fmtBytes f 1)

/-- The n elements of a message's data; a frame with POISON delivers poison (R46, R321). -/
def unpackElems (f n : Nat) (poison : Bool) (bs : List Byte) : List WireElem :=
  (List.range n).map fun i =>
    let blk := fmtBytes f 32 + 1
    let code := if f = 0 || f = 2 then packedCode f (bs.drop (blk * (i / 32))) (i % 32) else packedCode f bs i
    let sc : Byte := if f = 0 || f = 2 then BitVec.ofNat 8 (fieldAt bs (blk * (i / 32) + fmtBytes f 32) 1) else 0x80
    { acc := (toVw (elemNum f code sc poison)).1, code := BitVec.ofNat 32 code, scale := sc }

/-- A collective message (R374). -/
def collFrame (s : State) (op : Byte) (dest : Half) (tag : BitVec 15) (gid : Word) (n round fmt elems e0 : Nat) (poison : Bool)
    (data : List Byte) : Frame :=
  let head := leBytes gid.toNat 4 ++ leBytes n 4 ++ [BitVec.ofNat 8 round, BitVec.ofNat 8 fmt] ++ leBytes elems 2 ++ leBytes 0 4
  { blankFrame with
    vc := 2, op := op, dest := dest, tag := tag, len := BitVec.ofNat 8 (16 + data.length), addr := BitVec.ofNat 44 e0,
    poison := poison, destEpoch := epochOf s dest, payload := fit frameBytes (head ++ data) }

/-! ### Schedules (R366 to R368) -/

def CollStep.size (x : CollStep) : Nat := max 1 x.members.length

/-- Units of 512 elements in a segment. -/
def CollStep.segUnits (x : CollStep) : Nat := max 1 (x.total / x.size / 512)

/-- The segment of a unit. -/
def CollStep.seg (x : CollStep) (u : Nat) : Nat := u / x.segUnits

/-- The sub-piece of a unit: the first U mod k hold one unit more (R366). -/
def CollStep.part (x : CollStep) (u : Nat) : Nat :=
  let k := max 1 x.dims.length
  let q := x.segUnits / k
  let m := x.segUnits % k
  let i := u % x.segUnits
  if i < m * (q + 1) then i / (q + 1) else m + (i - m * (q + 1)) / max 1 q

/-- Rounds of the reduce phase. -/
def CollStep.redRounds (x : CollStep) : Nat := if x.form = 0 then x.dims.length else x.size - 1

/-- Bit p of a number. -/
def nbit (a p : Nat) : Bool := a / 2 ^ p % 2 = 1

/-- The rank across a subcube's p-th free dimension. -/
def flipRank (r p : Nat) : Nat := if nbit r p then r - 2 ^ p else r + 2 ^ p

/-- (a − b) mod P. -/
def modSub (P a b : Nat) : Nat := (a + P - b % P) % P

/-- The round in which a member sends a unit away in the reduce phase, and the rank it goes to, when it is in round `i`. -/
def CollStep.redSend (x : CollStep) (u i : Nat) : Option (Nat × Nat) :=
  let P := x.size
  let sg := x.seg u
  if x.form = 0 then
    let p := (x.part u + i) % max 1 x.dims.length
    if i < x.redRounds && nbit sg p ≠ nbit x.rank p then some (i, flipRank x.rank p) else none
  else if sg ≠ x.rank && (i = 1 || sg = modSub P x.rank 1) then some (modSub P x.rank (1 + sg), (x.rank + 1) % P)
  else none

/-- The round and rank from which a unit's values come next in the reduce phase. -/
def CollStep.redRecv (x : CollStep) (u i : Nat) : Option (Nat × Nat) :=
  let P := x.size
  let sg := x.seg u
  if x.form = 0 then
    let p := (x.part u + i) % max 1 x.dims.length
    if i < x.redRounds && nbit sg p = nbit x.rank p then some (i, flipRank x.rank p) else none
  else if i = 0 && sg ≠ modSub P x.rank 1 then some (modSub P x.rank (2 + sg), modSub P x.rank 1)
  else none

/-- Whether a unit's sum is complete at its owner after i rounds. -/
def CollStep.redDone (x : CollStep) (u i : Nat) : Bool :=
  x.seg u = x.rank && i = (if x.form = 0 then x.redRounds else 1)

/-- The rank a unit spreads from in the gather phase or a broadcast. -/
def CollStep.origin (x : CollStep) (u : Nat) : Nat := if x.kind = 3 then x.root else x.seg u

/-- The dimension position of round i of a spreading part: reversed in a gather (R367). -/
def CollStep.spreadPos (x : CollStep) (u i : Nat) : Nat :=
  let k := max 1 x.dims.length
  if x.kind = 3 then (x.part u + i) % k else (x.part u + (k - 1 - i)) % k

/-- The last round whose dimension separates this member from a unit's origin. -/
def CollStep.lastDiff (x : CollStep) (u : Nat) : Option Nat :=
  ((List.range x.dims.length).filter fun i => nbit (x.origin u) (x.spreadPos u i) ≠ nbit x.rank (x.spreadPos u i)).getLast?

/-- The round and rank from which a unit's final values come. -/
def CollStep.spreadRecv (x : CollStep) (u : Nat) : Option (Nat × Nat) :=
  if x.form = 0 then (x.lastDiff u).map fun i => (i, flipRank x.rank (x.spreadPos u i))
  else if x.origin u = x.rank then none
  else some (modSub x.size x.rank (1 + x.origin u), modSub x.size x.rank 1)

/-- The rounds and ranks a member passes a unit's final values on in. -/
def CollStep.spreadSends (x : CollStep) (u : Nat) : List (Nat × Nat) :=
  if x.form = 0 then
    let first : Nat := match x.lastDiff u with
      | some i => i + 1
      | none => 0
    ((List.range x.dims.length).filter fun i => first ≤ i).map fun i => (i, flipRank x.rank (x.spreadPos u i))
  else
    let i := modSub x.size x.rank (x.origin u)
    if i + 2 ≤ x.size then [(i, (x.rank + 1) % x.size)] else []

/-- Rounds of a dissemination (R365). -/
def dissRounds (form size k : Nat) : Nat := if form = 0 then k else Nat.log2 (2 * size - 1)

/-- The rank a member sends to and the rank it hears from in round i of a dissemination. -/
def dissPeers (form size rank i : Nat) : Nat × Nat :=
  if form = 0 then (flipRank rank i, flipRank rank i) else ((rank + 2 ^ i) % size, modSub size rank (2 ^ i))

/-- The address of a rank. -/
def CollStep.addr (x : CollStep) (rank : Nat) : Half := x.members.getD rank 0

/-! ### Elements of a step's tensors -/

/-- The outer indices of a shard's row by its number. -/
def rowIdx : List Nat → Nat → List Nat
  | [], _ => []
  | n :: rest, i => i % max 1 n :: rowIdx rest (i / max 1 n)

/-- Element e of a shard's flat sequence (R366): value, code and scale as stored. -/
def Tensor.flat (t : Tensor) (s : State) (e : Nat) : WireElem :=
  let ext := t.exts s.mach.logical
  let n0 := max 1 (ext.headD 1)
  let tl := rowIdx (ext.drop 1) (e / n0)
  let c := t.code s ext (e % n0) tl
  { acc := (toVw (elemNum t.fmt c.1 c.2.1 c.2.2)).1, code := BitVec.ofNat 32 c.1, scale := c.2.1 }

/-- Whether a shard's scale blocks are the blocks of its flat sequence. -/
def Tensor.aligned (t : Tensor) (a : Half) : Bool := !t.plane || (t.exts a).headD 0 % 32 = 0

/-- Whether a source's codes travel unchanged (R370). -/
def CollStep.asStored (x : CollStep) (s : State) : Bool :=
  match x.src with
  | some t => t.fmt = wireFmt x.wire && t.aligned s.mach.logical
  | none => false

/-- Whether two formats hold the same codes with a plane, so that codes and scales are stored as they came. -/
def Tensor.keepsCodes (t : Tensor) (f : Nat) : Bool := t.fmt = f && (3 ≤ f || t.plane)

/-- Write a run of elements of a row that begins at l_0, exactly as received (R372): codes and scale of the wire format `f`,
else their values; a block that two wire blocks meet in is stored under SCALE_AMAX (log 34). Elements that are poison leave
their sectors marked (R265). -/
def Tensor.storeExact (t : Tensor) (ext : List Nat) (f l0 : Nat) (tl : List Nat) (xs : List WireElem) (s : State) : State :=
  let first := (xs.headD WireElem.zero).scale
  let mixed := t.plane && xs.any fun x => x.scale ≠ first
  let sc := if mixed then amaxScale t.fmt (xs.map fun x => vwNum x.acc) else first
  let one (x : WireElem) : Nat := (storeElem t.fmt false false (if t.implicit then 0x80 else sc) (vwNum x.acc) 0).1
  let codes := if t.keepsCodes f && !mixed then xs.map fun x => x.code.toNat else xs.map one
  let s1 := t.putScale ext l0 tl sc (t.putCodes ext l0 tl codes s)
  let p := t.loc ext l0 tl
  if xs.any WireElem.poison then
    let a := p.data + fmtOffset t.fmt p.col
    writePlace (t.place p.core a) ((readPlace s1 (t.place p.core a) (fmtBytes t.fmt xs.length)).map fun b => (b.1, true)) s1
  else s1

/-- The requests that n stored elements of a row make, and their scale byte's (R93, R220, R221: a collective's are of class 0). -/
def Tensor.acceptRun (t : Tensor) (o : TxnOwner) (ext : List Nat) (l0 : Nat) (tl : List Nat) (n : Nat) (s : State) : State :=
  let p := t.loc ext l0 tl
  let s1 := acceptAt o 0 true (t.place p.core (p.data + fmtOffset t.fmt p.col)) (fmtBytes t.fmt n) s
  if t.plane then acceptAt o 0 true (t.place p.core (p.scale + p.col / 32)) 1 s1 else s1

/-- Store a run of flat elements exactly. -/
def Tensor.storeFlat (t : Tensor) (o : TxnOwner) (f e0 : Nat) (xs : List WireElem) (s : State) : State :=
  let ext := t.exts s.mach.logical
  let n0 := max 1 (ext.headD 1)
  let rec go : Nat → Nat → List WireElem → State → State
    | 0, _, _, s => s
    | k + 1, e, xs, s =>
      match xs with
      | [] => s
      | _ =>
        let n := min xs.length (min (t.unit - e % n0 % t.unit) (n0 - e % n0))
        let tl := rowIdx (ext.drop 1) (e / n0)
        go k (e + n) (xs.drop n) (t.acceptRun o ext (e % n0) tl n (t.storeExact ext f (e % n0) tl (xs.take n) s))
  go xs.length e0 xs s

/-- Store a run of flat elements under R55, scale by AMAX, with stochastic rounding (R372). -/
def Tensor.storeSums (t : Tensor) (o : TxnOwner) (rnd : Nat → Nat) (e0 : Nat) (xs : List WireElem) (s : State) : State :=
  let ext := t.exts s.mach.logical
  let n0 := max 1 (ext.headD 1)
  let rec go : Nat → Nat → List WireElem → State → State
    | 0, _, _, s => s
    | k + 1, e, xs, s =>
      match xs with
      | [] => s
      | _ =>
        let n := min xs.length (min (t.unit - e % n0 % t.unit) (n0 - e % n0))
        let tl := rowIdx (ext.drop 1) (e / n0)
        let q := drawBlock t.fmt 0 t.implicit true (0x80, false) ((xs.take n).map fun x => vwNum x.acc) fun i => rnd (e - e0 + i)
        let s1 := t.acceptRun o ext (e % n0) tl n (t.putCodes ext (e % n0) tl q.1 s)
        go k (e + n) (xs.drop n) (match q.2.1 with
          | some sc => t.putScale ext (e % n0) tl sc s1
          | none => s1)
  go xs.length e0 xs s

end Sys2Proof.Machine
end

