-- ==== Sys2Proof/Machine/Steps.lean ====
section
/-! DEFINITION. Steps of collective groups: COLLECTIVE and BARRIER descriptors, disseminations, the flow of units, pipelines,
their messages, the norm (R364 to R376, R385, R386). -/
namespace Sys2Proof.Machine
open Sys2Proof

/-! ### Access -/

/-- Change the group with an id. -/
def modGroup (id : Word) (f : Group → Group) (s : State) : State :=
  s.setColl { s.coll with groups := s.coll.groups.map fun g => if g.id = id then f g else g }

def groupAt (s : State) (id : Word) : Option Group := s.coll.groups.find? fun g => g.id = id

/-- The step in progress of a group. -/
def stepOf (s : State) (id : Word) : Option CollStep := (groupAt s id).bind fun g => g.steps.head?

/-- Change the step in progress of a group. -/
def modStep (id : Word) (f : CollStep → CollStep) (s : State) : State :=
  modGroup id (fun g => { g with steps := match g.steps with
    | x :: l => f x :: l
    | [] => [] }) s

/-- Groups that are open (R364): in a step, or between steps. -/
def openGroups (s : State) : Nat := (s.coll.groups.filter fun g => g.n ≠ 0).length

/-! ### Sending -/

/-- Send one collective message of a step. -/
def sendColl (x : CollStep) (op : Byte) (dest : Half) (round fmt elems e0 : Nat) (poison : Bool) (data : List Byte) (s : State) :
    State :=
  inject (collFrame s op dest x.tag x.gid x.n round fmt elems e0 poison data) s

/-- Bytes of STEP_OPEN and of a barrier's ARRIVE (R365; log 34): KIND or arrival, WIRE, FINAL_WIDE, OK, element count, ROOT,
CRC of the record. -/
def openBytes (x : CollStep) (ok : Bool) : List Byte :=
  let kind := if x.kind = 6 then 1 else x.kind
  [BitVec.ofNat 8 kind, BitVec.ofNat 8 x.wire, BitVec.ofNat 8 (b2n x.finalWide), BitVec.ofNat 8 (b2n ok)] ++ leBytes x.total 8
    ++ leBytes (if x.kind = 3 then (x.addr x.root).toNat else 0) 2 ++ leBytes 0 2 ++ leBytes x.recCrc.toNat 4

/-- Send a dissemination message of round i (R365): the start's, or the end's. -/
def sendDiss (x : CollStep) (opening : Bool) (i : Nat) (s : State) : State :=
  let dest := x.addr (dissPeers x.form x.size x.rank i).1
  if opening then sendColl x (if x.kind = 6 then 0x26 else 0x20) dest i 0 0 0 false (openBytes x x.okBit) s
  else sendColl x 0x26 dest i 0 0 0 false [2] s

/-- The format a unit's values travel in: VW32 in a gather of FINAL_WIDE sums, else WIRE (R372). -/
def CollStep.spreadFmt (x : CollStep) : Nat := if x.finalWide && x.kind = 0 then 4 else wireFmt x.wire

/-- Send a unit's elements to a member in messages of at most a frame each. -/
def sendUnit (x : CollStep) (op : Byte) (u round : Nat) (dest : Half) (f : Nat) (xs : List WireElem) (s : State) : State :=
  ((chunks (msgElems f) xs).zipIdx).foldl (fun t c =>
    sendColl x op dest round (msgFmt f) c.1.length (512 * u + msgElems f * c.2) (c.1.any WireElem.poison) (packElems f c.1) t) s

/-- The values of a unit. -/
def CollStep.unitVals (x : CollStep) (u : Nat) : List WireElem := (x.vals.drop (512 * u)).take 512

/-- Replace the values of a unit. -/
def CollStep.setUnit (x : CollStep) (u : Nat) (xs : List WireElem) : CollStep :=
  { x with vals := x.vals.take (512 * u) ++ xs ++ x.vals.drop (512 * u + 512) }

def CollStep.unit (x : CollStep) (u : Nat) : CollUnit := x.units.getD u ⟨0, 0, false⟩

def CollStep.modUnit (x : CollStep) (u : Nat) (f : CollUnit → CollUnit) : CollStep := { x with units := x.units.modify u f }

/-- The value of `round` that says a unit was sent away. -/
def CollStep.gone (x : CollStep) : Nat := x.redRounds + 1

/-! ### Units (R367, R368, R370 to R372) -/

/-- The index of a flat element in DST. -/
def CollStep.dstIndex (x : CollStep) (e : Nat) : Nat := if x.kind = 1 then e - x.rank * (x.total / x.size) else e

/-- The owner of a step's requests. -/
def CollStep.owner (x : CollStep) : TxnOwner := .desc x.ring x.idx

/-- A unit's final values are stored into DST, unless its blocks do not fit the tensor's and wait for the end (log 34). -/
def storeUnit (x : CollStep) (u : Nat) (s : State) : State :=
  match x.dst with
  | none => s
  | some t =>
    let e := x.dstIndex (512 * u)
    if !t.aligned s.mach.logical then s
    else if x.kind = 1 then
      if x.finalWide then t.storeFlat x.owner 4 e (x.unitVals u) s
      else t.storeSums x.owner (fun i => draw x.seed x.n x.redRounds x.rank (512 * u + i)) e (x.unitVals u) s
    else t.storeFlat x.owner x.spreadFmt e (x.unitVals u) s

/-- A unit is stored; where elements of DST share bytes, the units after it that are stored already are stored again, so that the higher
index stands (R183). -/
def storeUnits (x : CollStep) (u : Nat) (s : State) : State :=
  let s1 := storeUnit x u s
  match x.dst with
  | none => s1
  | some t =>
    if t.selfMeets (t.exts s.mach.logical) then
      forAll ((List.range' (u + 1) (x.units.length - (u + 1))).filter fun v => (x.unit v).final) (storeUnit x) s1
    else s1

/-- Store a whole sequence at the end for a tensor whose blocks are not the wire's. -/
def storeLate (x : CollStep) (s : State) : State :=
  match x.dst with
  | none => s
  | some t =>
    if t.aligned s.mach.logical then s
    else
      let E := x.total / x.size
      if x.kind = 1 then
        let xs := (x.vals.drop (x.rank * E)).take E
        if x.finalWide then t.storeFlat x.owner 4 0 xs s
        else t.storeSums x.owner (fun i => draw x.seed x.n x.redRounds x.rank (x.rank * E + i)) 0 xs s
      else t.storeFlat x.owner x.spreadFmt 0 x.vals s

/-- Pass a unit's final values on. -/
def spreadUnit (id : Word) (u : Nat) (s : State) : State :=
  match stepOf s id with
  | none => s
  | some x =>
    let op : Byte := if x.kind = 3 then 0x23 else 0x22
    (x.spreadSends u).foldl (fun t y => sendUnit x op u y.1 (x.addr y.2) x.spreadFmt (x.unitVals u) t) s

/-- A unit's final values are here: kept, stored, passed on. -/
def finishUnit (id : Word) (u : Nat) (s : State) : State :=
  match stepOf s id with
  | none => s
  | some x =>
    let s1 := storeUnits x u (modStep id (fun y => y.modUnit u fun z => { z with final := true }) s)
    if x.kind = 0 || x.kind = 2 || x.kind = 3 then spreadUnit id u s1 else s1

/-- The sum of a unit is complete at its owner (R372). -/
def ownUnit (id : Word) (u : Nat) (s : State) : State :=
  match stepOf s id with
  | none => s
  | some x =>
    let xs := x.unitVals u
    let ys := if x.finalWide then wide xs else if x.kind = 1 then xs
      else narrow (wireFmt x.wire) x.seed x.n x.redRounds x.rank (512 * u) xs
    finishUnit id u (modStep id (fun y => y.setUnit u ys) s)

/-- A unit sets out on its next round of the reduce phase: sent away, complete, or waiting. -/
def kickUnit (id : Word) (u : Nat) (s : State) : State :=
  match stepOf s id with
  | none => s
  | some x =>
    let i := (x.unit u).round
    let f := wireFmt x.wire
    match x.redSend u i with
    | some y =>
      let raw := (if x.form = 0 then i = 0 else y.1 = 0) && x.asStored s
      let xs := if raw then x.unitVals u else narrow f x.seed x.n y.1 x.rank (512 * u) (x.unitVals u)
      sendUnit x 0x21 u y.1 (x.addr y.2) f xs (modStep id (fun z => z.modUnit u fun v => { v with round := x.gone }) s)
    | none => if x.redDone u i then ownUnit id u s else s

/-! ### Ends -/

/-- Whether every unit has done all this member does with it. -/
def CollStep.dataDone (x : CollStep) : Bool :=
  x.units.zipIdx.all fun v => v.1.final || (x.kind = 1 && v.1.round = x.gone)

/-- The step in progress leaves its group; with `close` the group closes (R364, R375). -/
def leaveGroup (id : Word) (close : Bool) (s : State) : State :=
  let s1 := modGroup id (fun g => { g with steps := g.steps.tail, n := if close then 0 else g.n }) s
  s1.setColl { s1.coll with groups := s1.coll.groups.filter fun g => !(g.id = id && g.n = 0 && g.steps.isEmpty) }

/-- The step in progress ends with a status. -/
def endStep (id : Word) (status : Byte) (detail : Half) (close : Bool) (s : State) : State :=
  match stepOf s id with
  | none => s
  | some x =>
    let result : Dword := if x.kind ≤ 5 && (goodStatus status || status = stUncorrected) then BitVec.ofNat 64 x.n else 0
    leaveGroup id (close || x.last) (finishDesc x.ring x.idx status detail result s)

/-- A step that ran to its end; one whose own or received data carried poison says so (R375). -/
def stepOk (id : Word) (s : State) : State :=
  match stepOf s id with
  | none => s
  | some x =>
    let y : Byte × Half := if x.carried then (stUncorrected, BitVec.ofNat 16 (min x.poisoned 0xFFFF)) else readStatus x.poisoned
    endStep id y.1 y.2 false s

/-! ### Data begins -/

/-- The flat sequence a step starts from: its SRC values where it holds them. -/
def startVals (x : CollStep) (s : State) : List WireElem :=
  match x.src with
  | none => List.replicate x.total WireElem.zero
  | some t =>
    let E := x.total / x.size
    (List.range x.total).map fun e =>
      if x.kind = 2 then (if e / max 1 E = x.rank then t.flat s (e % max 1 E) else WireElem.zero)
      else if x.kind = 3 && x.rank ≠ x.root then WireElem.zero
      else t.flat s e

/-- Sectors of SRC delivered uncorrected. -/
def srcMarked (x : CollStep) (s : State) : Nat :=
  match x.src with
  | some t => if x.kind = 3 && x.rank ≠ x.root then 0 else t.marked s (t.exts s.mach.logical)
  | none => 0

/-- The member's own values as they travel: unchanged, or narrowed once by their source (R372). -/
def ownWire (x : CollStep) (u : Nat) (s : State) : List WireElem :=
  if x.asStored s then x.unitVals u else narrow (wireFmt x.wire) x.seed x.n 0 x.rank (512 * u) (x.unitVals u)

/-- A unit a gather or broadcast starts from at this member. -/
def originUnit (id : Word) (u : Nat) (s : State) : State :=
  match stepOf s id with
  | none => s
  | some x => if x.origin u = x.rank then finishUnit id u (modStep id (fun y => y.setUnit u (ownWire x u s)) s) else s

/-- Data moves: the values are taken and every unit sets out (R365). -/
def beginData (id : Word) (s : State) : State :=
  match stepOf s id with
  | none => s
  | some x =>
    let units := List.replicate (x.total / 512) (⟨0, 0, false⟩ : CollUnit)
    let vs := startVals x s
    let s1 := modStep id (fun y => { y with
      phase := 2, vals := vs, units := units, poisoned := y.poisoned + srcMarked x s,
      carried := y.carried || vs.any WireElem.poison, heard := s.ns }) s
    let us := List.range (x.total / 512)
    if x.kind = 2 || x.kind = 3 then forAll us (originUnit id) s1 else forAll us (kickUnit id) s1

/-- The end dissemination begins once every unit is done; a pair ends as R369 says. -/
def tryClose (id : Word) (s : State) : State :=
  match stepOf s id with
  | none => s
  | some x =>
    if x.phase ≠ 2 || !x.dataDone then s
    else
      let s1 := effectsDone x.ring x.idx (storeLate x s)
      let s2 := modStep id (fun y => { y with phase := 3, heard := s.ns }) s1
      if x.kind = 5 then stepOk id (sendColl x 0x26 x.peer 0 0 0 0 false [2] s2)
      else if x.kind = 4 then s2
      else sendDiss x false 0 s2

/-- A pipeline send moves its data (R369). -/
def pipeMove (id : Word) (s : State) : State :=
  match stepOf s id with
  | none => s
  | some x =>
    let vs := startVals x s
    let s1 := modStep id (fun y => { y with
      vals := vs, poisoned := y.poisoned + srcMarked x s, carried := y.carried || vs.any WireElem.poison, phase := 3, heard := s.ns }) s
    match stepOf s1 id with
    | none => s1
    | some y => forAll (List.range (x.total / 512)) (fun u t => sendUnit y 0x25 u 0 y.peer (wireFmt y.wire) (ownWire y u s) t) s1

/-! ### Steps begin -/

/-- The next step of a group begins, once the one before has ended (R364). -/
def beginStep (id : Word) (s : State) : State :=
  match groupAt s id with
  | none => s
  | some g => match g.steps with
    | [] => s
    | x :: _ =>
      if x.phase ≠ 0 then s
      else if s.mach.unbinding.isSome then endStep id stDegraded 0x0200 true s
      else if g.n = 0 && 1024 ≤ openGroups s then endStep id stMalformed 0x8000 true s
      else
        let n := g.n + 1
        let s1 := modGroup id (fun g => { g with n := n }) s
        let s2 := modStep id (fun y => { y with n := n, phase := 1, heard := s.ns, tag := freeTag s }) s1
        let s3 := s2.setMach { s2.mach with nextTag := freeTag s + 1 }
        match stepOf s3 id with
        | none => s3
        | some y =>
          if y.kind = 4 then s3
          else if y.kind = 5 then
            tryClose id <| modStep id (fun z => { z with
              phase := 2, vals := List.replicate z.total WireElem.zero, units := List.replicate (z.total / 512) ⟨0, 0, false⟩ })
              (sendColl y 0x24 y.peer 0 0 0 0 false [] s3)
          else sendDiss y true 0 s3

/-! ### Messages (R374) -/

/-- What becomes of a message: its effect, a wait in its pool, or discard as malformed. -/
inductive MsgFate where
  | take (s : State)
  | wait
  | drop

def fGid (f : Frame) : Word := BitVec.ofNat 32 (fieldAt f.payload 0 4)
def fN (f : Frame) : Nat := fieldAt f.payload 4 4
def fRound (f : Frame) : Nat := fieldAt f.payload 8 1
def fElems (f : Frame) : Nat := fieldAt f.payload 10 2
def fData (f : Frame) : List Byte := f.payload.drop 16

/-- The code format FORMAT names. -/
def fFmt (f : Frame) : Nat :=
  let x := fieldAt f.payload 9 1
  if x = 0 then 0 else if x = 1 then 2 else if x = 2 then 3 else 4

/-- A member that had something to hear has heard it. -/
def heardNow (id : Word) (s : State) : State := modStep id (fun y => { y with heard := s.ns }) s

/-- The start dissemination has a round more (R365). -/
def onOpen (id : Word) (x : CollStep) (f : Frame) (s : State) : MsgFate :=
  let i := x.openAt
  if x.phase ≠ 1 || f.src ≠ x.addr (dissPeers x.form x.size x.rank i).2 || fRound f ≠ i then
    (if x.phase = 1 && i < fRound f then .wait else .drop)
  else
    let fit_ := (fData f).take 20
    let same : Bool := fit_.set 3 0 = (openBytes x true).set 3 0
    let ok := x.okBit && same && fieldAt (fData f) 3 1 = 1
    let s1 := heardNow id (modStep id (fun y => { y with openAt := i + 1, okBit := ok }) s)
    let rounds := dissRounds x.form x.size x.dims.length
    if i + 1 < rounds then match stepOf s1 id with
      | some y => .take (sendDiss y true (i + 1) s1)
      | none => .take s1
    else if !ok then .take (endStep id stMalformed 0x8000 false s1)
    else if x.kind = 6 then .take (endStep id stOk 0 false s1)
    else .take (tryClose id (beginData id s1))

/-- The end dissemination has a round more (R365). -/
def onClose (id : Word) (x : CollStep) (f : Frame) (s : State) : MsgFate :=
  let i := x.closeAt
  if x.kind = 4 then (if x.phase = 3 && f.src = x.peer then .take (stepOk id s) else .wait)
  else if x.phase ≠ 3 || i < fRound f then .wait
  else if f.src ≠ x.addr (dissPeers x.form x.size x.rank i).2 || fRound f ≠ i then .drop
  else
    let s1 := heardNow id (modStep id (fun y => { y with closeAt := i + 1 }) s)
    if i + 1 < dissRounds x.form x.size x.dims.length then .take (sendDiss x false (i + 1) s1) else .take (stepOk id s1)

/-- Whether a unit awaits reduce values of a round from a rank; none when it is past them. -/
def awaitsSum (x : CollStep) (u round : Nat) (src : Half) : Option Bool :=
  match x.redRecv u (x.unit u).round with
  | some y => if y.1 % 256 = round && x.addr y.2 = src then some true else if y.1 % 256 < round then some false else none
  | none => none

/-- Whether a unit awaits final values of a round from a rank. -/
def awaitsFinal (x : CollStep) (u round : Nat) (src : Half) : Option Bool :=
  if (x.unit u).final then none
  else if x.kind = 5 then (if src = x.peer then some true else none)
  else match x.spreadRecv u with
    | some y => if y.1 % 256 ≠ round || x.addr y.2 ≠ src then none else some (x.kind ≠ 0 || (x.unit u).round = x.gone)
    | none => none

/-- The sum of two terms, one rounding to VW32, poison sticking (R370, R51, R52). -/
def sumElem (a b : WireElem) : WireElem := { a with acc := (toVw (FNum.add (vwNum a.acc) (vwNum b.acc))).1 }

/-- Put a message's elements into a step's values from flat index e0: added, or in place. -/
def CollStep.putElems (x : CollStep) (adds : Bool) (e0 : Nat) (ys : List WireElem) : CollStep :=
  let old := (x.vals.drop e0).take ys.length
  let new := if adds then (old.zip ys).map fun p => sumElem p.1 p.2 else ys.take old.length
  { x with vals := x.vals.take e0 ++ new ++ x.vals.drop (e0 + old.length) }

/-- A unit has received k elements more; at 512 its round is over. -/
def unitGot (id : Word) (adds : Bool) (u k : Nat) (s : State) : State :=
  match stepOf s id with
  | none => s
  | some x =>
    let got := (x.unit u).got + k
    if got < 512 then modStep id (fun y => y.modUnit u fun z => { z with got := got }) s
    else
      let s1 := modStep id (fun y => y.modUnit u fun z => { z with got := 0, round := if adds then z.round + 1 else z.round }) s
      if adds then kickUnit id u s1 else finishUnit id u s1

/-- Data arrives (R370, R367, R369): expected by every unit it touches, waiting, or out of place. -/
def onData (id : Word) (x : CollStep) (adds : Bool) (f : Frame) (s : State) : MsgFate :=
  let e0 := f.addr.toNat
  let k := fElems f
  let units := if k = 0 then [] else (List.range ((e0 + k - 1) / 512 - e0 / 512 + 1)).map (e0 / 512 + ·)
  let fates := units.map fun u => if adds then awaitsSum x u (fRound f) f.src else awaitsFinal x u (fRound f) f.src
  if x.phase = 1 || x.phase = 0 then .wait
  else if x.phase ≠ 2 || k = 0 || x.total < e0 + k || fates.contains none then .drop
  else if fates.contains (some false) then .wait
  else
    let ys := unpackElems (fFmt f) k f.poison (fData f)
    let s1 := heardNow id (modStep id (fun y => { y.putElems adds e0 ys with
      poisoned := y.poisoned + b2n f.poison, carried := y.carried || ys.any WireElem.poison }) s)
    let part (u : Nat) : Nat := min (e0 + k) (512 * u + 512) - max e0 (512 * u)
    .take (tryClose id (forAll units (fun u t => unitGot id adds u (part u) t) s1))

/-- PIPE_READY lets the matching send move data (R369). -/
def onReady (id : Word) (x : CollStep) (f : Frame) (s : State) : MsgFate :=
  if x.kind ≠ 4 || f.src ≠ x.peer then .drop
  else if x.phase = 1 then .take (pipeMove id s)
  else if x.phase = 0 then .wait
  else .drop

/-- A message of a group's step (R374): one of a step to come waits, one of a step past is malformed. -/
def groupMsg (f : Frame) (s : State) : MsgFate :=
  let id := fGid f
  match groupAt s id with
  | none => .wait
  | some g =>
    if g.n = 0 || g.n < fN f then .wait
    else if fN f < g.n then .drop
    else match g.steps with
      | [] => .drop
      | x :: _ =>
        if x.n ≠ g.n then .drop
        else match f.op.toNat with
          | 0x20 => if x.kind < 4 then onOpen id x f s else .drop
          | 0x21 => if x.kind < 2 then onData id x true f s else .drop
          | 0x22 => if x.kind = 0 || x.kind = 2 then onData id x false f s else .drop
          | 0x23 => if x.kind = 3 then onData id x false f s else .drop
          | 0x24 => onReady id x f s
          | 0x25 => if x.kind = 5 then onData id x false f s else .drop
          | 0x26 =>
            if fieldAt (fData f) 0 1 = 1 then (if x.kind = 6 then onOpen id x f s else .drop)
            else if fieldAt (fData f) 0 1 = 2 && x.kind < 5 then onClose id x f s
            else .drop
          | _ => .drop

/-! ### The norm (R385, R386) -/

/-- The clip factor (R386): MAX_NORM squared rounds to VW32 (log 35). -/
def clipFactor (S maxNorm : Word) : Word :=
  let one : Word := 0x3FC00000
  let sq := (toVw (FNum.mul (vwNum maxNorm) (vwNum maxNorm))).1
  if (vwNum S).isPoison || (vwNum maxNorm).isPoison then 0x7FFFFFFF
  else if (vwNum maxNorm).isZero || !FNum.lt (vwNum sq) (vwNum S) then one
  else (toVw (FNum.mul (vwNum maxNorm) (vwNum (BitVec.ofNat 32 (laneRsqrt 4 S.toNat).1)))).1

/-- An UPDATE_STEP that waits for a factor goes on with it, or ends as its NORM_REDUCE did (R387). -/
def giveNorm (e : NormEntry) (u : UpdateCtx) (s : State) : State :=
  if !u.waitNorm || u.normId ≠ e.id then s
  else if e.status = 1 && !(vwNum e.factor).isPoison then
    s.setColl { s.coll with upds := s.coll.upds.map fun v =>
      if v.ring = u.ring && v.idx = u.idx then { v with waitNorm := false, clip := some e.factor } else v }
  else
    finishDesc u.ring u.idx e.endStatus e.endDetail 0
      (s.setColl { s.coll with upds := s.coll.upds.filter fun v => !(v.ring = u.ring && v.idx = u.idx) })

/-- Publish a factor or its failure: the entry becomes the newest. -/
def publishNorm (id : Word) (status : Nat) (factor : Word) (st : Byte) (detail : Half) (s : State) : State :=
  let e : NormEntry := { id := id, status := status, factor := factor, endStatus := st, endDetail := detail }
  let s1 := s.setColl { s.coll with norms := (s.coll.norms.filter fun x => x.id ≠ id) ++ [e] }
  forAll s1.coll.upds (giveNorm e) s1

/-- A reduction ends with a failure. -/
def failNorm (x : NormRun) (status : Byte) (detail : Half) (s : State) : State :=
  finishDesc x.ring x.idx status detail 0 (publishNorm x.id 2 0x7FFFFFFF status detail
    (s.setColl { s.coll with runs := s.coll.runs.filter fun y => y.id ≠ x.id }))

/-- A reduction has S: the factor is published and the descriptor ends (R386). -/
def endNorm (x : NormRun) (S : Word) (s : State) : State :=
  let c := clipFactor S x.maxNorm
  let bad := 0 < x.poisoned || (vwNum c).isPoison
  let y : Byte × Half := if bad then (stUncorrected, BitVec.ofNat 16 (min x.poisoned 0xFFFF)) else (stOk, 0)
  finishDesc x.ring x.idx y.1 y.2 (BitVec.ofNat 64 (S.toNat + 2 ^ 32 * c.toNat)) (publishNorm x.id 1 c y.1 y.2
    (s.setColl { s.coll with runs := s.coll.runs.filter fun z => z.id ≠ x.id }))

def modNorm (id : Word) (f : NormRun → NormRun) (s : State) : State :=
  s.setColl { s.coll with runs := s.coll.runs.map fun y => if y.id = id then f y else y }

/-- Send a norm's value to a rank (R385). -/
def sendNorm (x : NormRun) (rank round : Nat) (v : Word) (s : State) : State :=
  inject (collFrame s 0x27 (x.members.getD rank 0) x.tag x.id x.n round 4 1 0 (vwNum v).isPoison (leBytes v.toNat 4)) s

/-- Whom a norm hears from next: round and rank. A list member adds what comes from the rank above, then waits for S. -/
def normRecv (x : NormRun) : Nat × Nat :=
  let P := x.members.length
  if x.form = 0 then (x.round, flipRank x.rank x.round)
  else if x.round = 0 && x.rank + 1 < P then (P - 2 - x.rank, x.rank + 1)
  else (P - 2 + x.rank, x.rank - 1)

/-- A list member's sum is ready: passed down, or at rank 0 it is S and starts back up (R385). -/
def chainDown (x : NormRun) (acc : Word) (s : State) : State :=
  let P := x.members.length
  if x.rank = 0 then endNorm x acc (sendNorm x 1 (P - 1) acc s)
  else sendNorm x (x.rank - 1) (P - 1 - x.rank) acc (modNorm x.id (fun y => { y with acc := acc, round := 1 }) s)

/-- A NORM_PART message. -/
def normMsg (f : Frame) (s : State) : MsgFate :=
  match s.coll.runs.find? fun x => x.id = fGid f with
  | none => .wait
  | some x =>
    let y := normRecv x
    let v : Word := if f.poison then 0x7FFFFFFF else BitVec.ofNat 32 (fieldAt (fData f) 0 4)
    let sum := (toVw (FNum.add (vwNum x.acc) (vwNum v))).1
    if fN f < x.n then .drop
    else if x.n < fN f || fRound f ≠ y.1 % 256 || f.src ≠ x.members.getD y.2 0 then .wait
    else
      let s1 := modNorm x.id (fun z => { z with heard := s.ns }) s
      if x.form = 0 then
        if x.round + 1 < x.dims.length then
          .take (sendNorm x (flipRank x.rank (x.round + 1)) (x.round + 1) sum
            (modNorm x.id (fun z => { z with acc := sum, round := x.round + 1 }) s1))
        else .take (endNorm x sum s1)
      else if x.round = 0 && x.rank + 1 < x.members.length then .take (chainDown x sum s1)
      else
        let s2 := if x.rank + 1 < x.members.length then sendNorm x (x.rank + 1) (x.members.length - 1 + x.rank) v s1 else s1
        .take (endNorm x v s2)

/-! ### Everything that has become able goes on -/

/-- A collective message's fate. -/
def collMsg (f : Frame) (s : State) : MsgFate := if f.op = 0x27 then normMsg f s else groupMsg f s

/-- A waiting message's pool buffer is freed (R318). -/
def freeWaiting (pt : Fin 16) (f : Frame) (s : State) : State :=
  let q := ix 16 (4 * (f.vc.toNat % 4) + f.cls.toNat)
  s.modPort pt fun p => { p with pools := p.pools.set q { p.pools[q] with freed := p.pools[q].freed + 1 } }

/-- Try every waiting message once, in order. -/
def drainOnce : List (Fin 16 × Frame) → State → State
  | [], s => s
  | (pt, f) :: rest, s =>
    match collMsg f s with
    | .wait => drainOnce rest (s.setColl { s.coll with waiting := s.coll.waiting ++ [(pt, f)] })
    | .take t => drainOnce rest (freeWaiting pt f t)
    | .drop => drainOnce rest (freeWaiting pt f (s.setColl { s.coll with malformed := s.coll.malformed + 1 }))

/-- Begin the steps that can, then try the waiting messages, until nothing more moves. -/
def settle : Nat → State → State
  | 0, s => s
  | k + 1, s =>
    let s1 := forAll (s.coll.groups.map fun g => g.id) beginStep s
    let s2 := drainOnce s1.coll.waiting (s1.setColl { s1.coll with waiting := [] })
    if s2.coll.waiting.length = s1.coll.waiting.length && s1.coll.groups.map (fun g => (g.n, g.steps.length))
        = s.coll.groups.map (fun g => (g.n, g.steps.length)) then s2
    else settle k s2

/-- Enough rounds for every waiting message and every step. -/
def collSettle (s : State) : State :=
  settle (s.coll.waiting.length + s.coll.groups.foldl (fun a g => a + 2 * g.steps.length + 1) 1) s

/-- A collective message arrives by a port; true when its buffer is free again. -/
def collArrive (pt : Fin 16) (f : Frame) (s : State) : State × Bool :=
  match collMsg f s with
  | .wait => (s.setColl { s.coll with waiting := s.coll.waiting ++ [(pt, f)] }, false)
  | .take t => (collSettle t, true)
  | .drop => (s.setColl { s.coll with malformed := s.coll.malformed + 1 }, true)

/-- Steps and norms in progress that answer a condition fail (R375). -/
def failSteps (step : CollStep → Bool) (norm : NormRun → Bool) (status : Byte) (detail : Half) (s : State) : State :=
  let ids := (s.coll.groups.filter fun g => match g.steps with
    | x :: _ => x.phase ≠ 0 && step x
    | [] => false).map fun g => g.id
  let s1 := forAll ids (fun id t => endStep id status detail true t) s
  collSettle (forAll (s1.coll.runs.filter norm) (fun x t => failNorm x status detail t) s1)

/-- A partner has restarted: steps and norms it takes part in fail (R375). -/
def failPartner (m : Half) (s : State) : State :=
  failSteps (fun x => x.members.contains m) (fun x => x.members.contains m) stRestarted m s

/-- A message of a step was rejected (R375). -/
def failTag (tag : BitVec 15) (status : Byte) (detail : Half) (s : State) : State :=
  failSteps (fun x => x.tag = tag) (fun x => x.tag = tag) status detail s

/-! ### Descriptors -/

/-- Whether an earlier started descriptor of a GROUP_ID has still to take its place in the group's order (R364). -/
def earlierStep (s : State) (c : DescCtx) : Bool :=
  s.rings.toList.any fun g => g.started.any fun x =>
    x.run && !x.issued && x.order < c.order && (dOp x.word = 0x30 || dOp x.word = 0x31) && dW3 x.word = dW3 c.word

/-- Whether a WIRE or FINAL_WIDE lies above the machine's feature floor (R348). -/
def aboveFloor (s : State) (wire : Nat) (finalWide : Bool) : Bool :=
  match s.mach.route with
  | some d => d.floor.toNat % 16 < 1 && (wire = 0 || finalWide)
  | none => false

/-- Whether a step's element counts and formats keep R366 and R372. -/
def collShapeOk (kind wire : Nat) (finalWide : Bool) (P : Nat) (b : Tensor) (na nb : Nat) : Bool :=
  let total := if kind = 1 then na else if kind = 2 then nb else if kind = 5 then nb else na
  let E := if kind ≤ 3 then total / P else total
  let counts : Bool := match kind with
    | 0 => na = nb
    | 1 => na = P * nb
    | 2 => nb = P * na
    | 3 => na = nb
    | _ => true
  let widths : Bool := match kind with
    | 0 => if finalWide then b.fmt = 4 else widthOk (wireFmt wire) b
    | 1 => !finalWide || b.fmt = 4
    | 4 => true
    | _ => widthOk (wireFmt wire) b
  counts && widths && E % 512 = 0 && (4 ≤ kind || total % P = 0)

/-- A group's steps gain one. -/
def enqueueStep (x : CollStep) (s : State) : State :=
  match groupAt s x.gid with
  | some _ => modGroup x.gid (fun g => { g with steps := g.steps ++ [x] }) s
  | none => s.setColl { s.coll with groups := s.coll.groups ++ [{ id := x.gid, n := 0, steps := [x] }] }

/-- Everything a COLLECTIVE is refused for at its start (R194, R331, R348, R363, R366, R372). -/
def collFault (s : State) (c : DescCtx) (kind : Nat) : Option (Byte × Half) :=
  let w := c.word
  let wire := (bits (dW2 w) 4 4).toNat
  let wideF := (dW2 w).getLsbD 8
  let peer : Half := bits w 320 16
  let g := groupOf s (dQ w 0x20) (4 ≤ kind) peer
  let pre := worst [if kind = 5 then none else tensorFaultOf s (c.td s (dQ w 0x10)) (dQ w 0x10) 0x10 false false,
    if kind = 4 then none else tensorFaultOf s (c.td s (dQ w 0x18)) (dQ w 0x18) 0x18 true false,
    failIf s.mach.unbinding.isSome stDegraded 0x0200, groupFault s (dQ w 0x20) 0x20 (4 ≤ kind) peer, failIf (aboveFloor s wire wideF) stUnsupported 1]
  if pre.isSome then pre
  else if kind = 3 && !g.members.contains peer then some (stMalformed, 0x28)
  else
    let a := c.td s (if kind = 5 then dQ w 0x18 else dQ w 0x10)
    let b := c.td s (if kind = 4 then dQ w 0x10 else dQ w 0x18)
    let P := max 1 g.members.length
    failIf (!collShapeOk kind wire wideF P b (a.count s.mach.logical) (b.count s.mach.logical)) stMalformed 0x8000

/-- The step a COLLECTIVE or BARRIER makes. -/
def newStep (s : State) (r : Fin 256) (c : DescCtx) (kind : Nat) (g : GroupRec) : CollStep :=
  let w := c.word
  let peer : Half := bits w 320 16
  let a := if kind = 5 || kind = 6 then none else some (c.td s (dQ w 0x10))
  let b := if kind = 4 || kind = 6 then none else some (c.td s (dQ w 0x18))
  let count (t : Option Tensor) : Nat := match t with
    | some x => x.count s.mach.logical
    | none => 0
  { ring := r, idx := c.idx, gid := dW3 w, n := 0, kind := kind, wire := (bits (dW2 w) 4 4).toNat, finalWide := (dW2 w).getLsbD 8,
    form := g.form, members := g.members, rank := g.members.idxOf s.mach.logical, dims := g.dims,
    root := if kind = 3 then g.members.idxOf peer else 0, peer := peer, seed := g.seed, timeout := g.timeout, last := g.last,
    recCrc := g.crc, total := if kind = 2 || kind = 5 then count b else count a, src := a, dst := b, phase := 0, openAt := 0,
    closeAt := 0, okBit := true, vals := [], units := [], heard := s.ns, poisoned := 0, carried := false, tag := 0 }

/-- A COLLECTIVE of one KIND takes its place in its group's order (R364), once its SRC has been read as far as errors go (log 18). -/
def startColl (r : Fin 256) (n kind : Nat) (s : State) : State :=
  match descAt s r n 0x30 with
  | none => s
  | some c =>
    if (bits (dW2 c.word) 0 4).toNat ≠ kind || earlierStep s c then s
    else match collFault s c kind with
      | some f => finishDesc r c.idx f.1 f.2 0 s
      | none =>
        let g := groupOf s (dQ c.word 0x20) (4 ≤ kind) (bits c.word 320 16)
        let x := newStep s r c kind g
        let src : List (Place × Nat) := match x.src with
          | some t => t.spans true true (t.exts s.mach.logical)
          | none => []
        onceServed x.owner (fun t => collSettle (enqueueStep x (issueDesc r c.idx 0 0 0 t))) (askDesc r c 0 (askAll x.owner 0 src []) s)

/-- ALL_REDUCE (R367, R368). -/
def execAllReduce (r : Fin 256) (n : Nat) (s : State) : Res := .next (startColl r n 0 s)

/-- REDUCE_SCATTER (R367, R368). -/
def execReduceScatter (r : Fin 256) (n : Nat) (s : State) : Res := .next (startColl r n 1 s)

/-- ALL_GATHER (R367, R368). -/
def execAllGather (r : Fin 256) (n : Nat) (s : State) : Res := .next (startColl r n 2 s)

/-- BROADCAST (R367, R368). -/
def execBroadcastColl (r : Fin 256) (n : Nat) (s : State) : Res := .next (startColl r n 3 s)

/-- PIPELINE_SEND (R369). -/
def execPipelineSend (r : Fin 256) (n : Nat) (s : State) : Res := .next (startColl r n 4 s)

/-- PIPELINE_RECEIVE (R369). -/
def execPipelineReceive (r : Fin 256) (n : Nat) (s : State) : Res := .next (startColl r n 5 s)

/-- Whether every memory effect of every earlier descriptor of a ring is visible (R260, R376). -/
def earlierVisible (s : State) (r : Fin 256) (idx : Nat) : Bool := (s.ring r).started.all fun c => idx ≤ c.idx || c.effects

/-- BARRIER (R376): its first arrival waits for every earlier effect of its ring. -/
def execBarrierDesc (r : Fin 256) (n : Nat) (s : State) : Res :=
  match descAt s r n 0x31 with
  | none => .next s
  | some c =>
    if earlierStep s c || !earlierVisible s r c.idx then .next s
    else match groupFault s (dQ c.word 0x10) 0x10 false 0 with
      | some f => .next (finishDesc r c.idx f.1 f.2 0 s)
      | none =>
        .next (collSettle (enqueueStep (newStep s r c 6 (groupOf s (dQ c.word 0x10) false 0)) (issueDesc r c.idx 0 0 0 s)))

/-- The member a step or a norm waits for (R375). -/
def silentMember (x : CollStep) : Half :=
  if 4 ≤ x.kind && x.kind ≤ 5 then x.peer
  else if x.phase = 1 then x.addr (dissPeers x.form x.size x.rank x.openAt).2
  else if x.phase = 3 then x.addr (dissPeers x.form x.size x.rank x.closeAt).2
  else
    let one (v : CollUnit × Nat) : Option Nat :=
      if v.1.final then none
      else match (if x.kind < 2 then x.redRecv v.2 v.1.round else none) with
        | some y => some y.2
        | none => if x.kind = 1 then none else (x.spreadRecv v.2).map fun y => y.2
    x.addr ((x.units.zipIdx.findSome? one).getD 0)

/-- COLLECTIVE_ROUND_TIMEOUT (R375): the g-th open step, or the norm reduction after them, has heard nothing it expects for
TIMEOUT ms. -/
def execCollectiveRoundTimeout (g : Nat) (s : State) : Res :=
  let k := s.coll.groups.length
  if g < k then match s.coll.groups[g]? with
    | some gr => match gr.steps with
      | x :: _ =>
        if x.phase ≠ 0 && x.heard + 1000000 * x.timeout ≤ s.ns then
          .next (collSettle (endStep gr.id stTimeout (silentMember x) true s))
        else .next s
      | [] => .next s
    | none => .next s
  else match s.coll.runs[g - k]? with
    | some x =>
      if x.heard + 1000000 * x.timeout ≤ s.ns then
        .next (failNorm x stTimeout (x.members.getD (normRecv x).2 0) s)
      else .next s
    | none => .next s

end Sys2Proof.Machine
end

