-- ==== Sys2Proof/Machine/Update.lean ====
section
/-! DEFINITION. NORM_REDUCE (R385, R386) and the update engines: UPDATE_STEP and its runs (R377 to R383, R387). -/
namespace Sys2Proof.Machine
open Sys2Proof

/-! ### VW32 arithmetic, one rounding per operation (R379) -/

def vwMul (a b : Word) : Word := (toVw (FNum.mul (vwNum a) (vwNum b))).1
def vwAdd (a b : Word) : Word := (toVw (FNum.add (vwNum a) (vwNum b))).1
def vwFma (a b c : Word) : Word := (toVw (FNum.add (FNum.mul (vwNum a) (vwNum b)) (vwNum c))).1
def vwNeg (a : Word) : Word := (toVw (FNum.neg (vwNum a))).1
def vwRsqrt (a : Word) : Word := BitVec.ofNat 32 (laneRsqrt 4 a.toNat).1
def vwRecip (a : Word) : Word := BitVec.ofNat 32 (laneRecip 4 a.toNat).1

/-- 1 / n rounded once. -/
def vwInv (n : Nat) : Word := BitVec.ofNat 32 (storeQ 4 false false 1 (max 1 n) 0 0).1

/-- 1 − x. -/
def vwComp (x : Word) : Word := (toVw (FNum.sub (.fin 1 0) (vwNum x))).1

/-! ### Gradients that still arrive (R377) -/

/-- An earlier reduce-scatter of a ring, not completed, whose DST is a tensor descriptor address. -/
def pendingScatter (s : State) (r : Fin 256) (idx : Nat) (td : Dword) : Option DescCtx :=
  (s.ring r).started.find? fun c => c.run && c.idx < idx && dOp c.word = 0x30 && bits (dW2 c.word) 0 4 = (1 : BitVec 4) && dQ c.word 0x18 = td

/-- The step of a started descriptor. -/
def stepFor (s : State) (r : Fin 256) (idx : Nat) : Option CollStep :=
  (s.coll.groups.flatMap fun g => g.steps).find? fun x => x.ring = r && x.idx = idx

/-- Whether n elements from element e of a gradient are final and visible. -/
def gradReady (s : State) (r : Fin 256) (idx : Nat) (td : Dword) (e n : Nat) : Bool :=
  match pendingScatter s r idx td with
  | none => true
  | some c => match stepFor s r c.idx with
    | none => false
    | some x =>
      let at_ := x.rank * (x.total / x.size) + e
      let late : Bool := match x.dst with
        | some t => !t.aligned s.mach.logical
        | none => false
      x.phase = 3 || (x.phase = 2 && !late && n ≠ 0
        && (List.range ((at_ + n - 1) / 512 - at_ / 512 + 1)).all fun i => (x.unit (at_ / 512 + i)).final)

/-! ### NORM_REDUCE (R385, R386) -/

/-- Elements of an engine's run. -/
def runElems (t : Tensor) : Nat := max 512 (if t.rotL = 0 then 1 else 2 ^ t.rotL)

/-- The logical slots that share the runs; one engine where no channel is in the map. -/
def engines (s : State) : Nat := max 1 s.gddr.activeCh.toNat

/-- Partial sums by engine: each its own runs in canonical order, then added in ascending slot (R380). -/
def engineSum (n run : Nat) (xs : List (Nat × Word)) : Word :=
  ((List.range n).map fun k => (xs.filter fun x => x.1 / run % n = k).foldl (fun a x => vwAdd a x.2) 0).foldl vwAdd 0

/-- The sum of squares of a shard. -/
def squareSum (s : State) (t : Tensor) : Word :=
  let xs := (List.range (t.count s.mach.logical)).map fun e => (e, (t.flat s e).acc)
  engineSum (engines s) (runElems t) (xs.map fun x => (x.1, vwMul x.2 x.2))

/-- Whether something waits for a NORM_ID: an UPDATE_STEP, or a stallkeeper of a launch (R386). -/
def normWanted (s : State) (id : Word) : Bool :=
  (s.coll.upds.any fun u => u.waitNorm && u.normId = id)
    || s.clusters.toList.any fun c => c.sk.normSince.isSome && c.sk.normSel = id

/-- Mark a NORM_ID pending, in its own entry, a free one, or the oldest published that nothing waits on (R386). -/
def markNorm (id : Word) (s : State) : Option State :=
  let e : NormEntry := { id := id, status := 0, factor := 0, endStatus := 0, endDetail := 0 }
  let l := s.coll.norms
  if l.any fun x => x.id = id then some (s.setColl { s.coll with norms := l.map fun x => if x.id = id then e else x })
  else if l.length < 64 then some (s.setColl { s.coll with norms := l ++ [e] })
  else (l.find? fun x => x.status ≠ 0 && !normWanted s x.id).map fun old =>
    s.setColl { s.coll with norms := l.filter (fun x => x.id ≠ old.id) ++ [e] }

/-- The tensor descriptors a NORM_REDUCE lists. -/
def normTds (s : State) (w : DescWord) : List Dword :=
  (chunks 8 (plain (readPlace s (placeOf s (dQ w 0x10)) (8 * (dW2 w).toNat)))).map fun x => BitVec.ofNat 64 (leNat x)

/-- The tensors a NORM_REDUCE lists, with their descriptors' addresses, as it read them at its start (R179). -/
def normTensors (s : State) (c : DescCtx) : List (Dword × Tensor) :=
  if c.tds.isEmpty then (normTds s c.word).map fun d => (d, tdOf s d) else c.tds

/-- What a NORM_REDUCE is refused for. -/
def normFault (s : State) (c : DescCtx) : Option (Byte × Half) :=
  let w := c.word
  let n := (dW2 w).toNat
  let pre := worst [failIf (n = 0 || 4096 < n) stMalformed 8, recordFault s (dQ w 0x10) (8 * min n 4096) 0x10,
    groupFault s (dQ w 0x18) 0x18 false 0]
  if pre.isSome then pre
  else worst ((normTensors s c).map fun x => tensorFaultOf s x.2 x.1 0x8000 false false)

/-- The reduction of a started NORM_REDUCE begins: its module's sum, and its first message. -/
def beginNorm (r : Fin 256) (c : DescCtx) (s : State) : State :=
  let w := c.word
  let id := dW3 w
  let g := groupOf s (dQ w 0x18) false 0
  let ts := (normTensors s c).map Prod.snd
  let sum := (ts.map (squareSum s)).foldl vwAdd 0
  let bad := ts.foldl (fun a t => a + t.marked s (t.exts s.mach.logical)) 0
  let n := ((s.coll.normCounts.find? fun x => x.1 = id).map fun x => x.2).getD 0 + 1
  let x : NormRun :=
    { ring := r, idx := c.idx, id := id, n := n, maxNorm := bits w 256 32, form := g.form, members := g.members,
      rank := g.members.idxOf s.mach.logical, dims := g.dims, timeout := g.timeout, acc := sum, round := 0, heard := s.ns,
      poisoned := bad, tag := freeTag s }
  let s2 := s.setColl { s.coll with
    runs := s.coll.runs ++ [x], normCounts := (id, n) :: s.coll.normCounts.filter fun y => y.1 ≠ id }
  let s3 := issueDesc r c.idx 0 0 0 (s2.setMach { s2.mach with nextTag := x.tag + 1 })
  collSettle (if x.form = 0 then sendNorm x (flipRank x.rank 0) 0 sum s3
    else if x.rank + 1 = x.members.length then chainDown x sum s3 else s3)

/-- A NORM_REDUCE reads its tensors once every gradient among them is visible, at class 1 or the porter's rank (R385), and takes its
sum once the reads are served. -/
def readNorm (r : Fin 256) (c : DescCtx) (s : State) : State :=
  let xs := normTensors s c
  let o : TxnOwner := .desc r c.idx
  if xs.all fun x => (pendingScatter s r c.idx x.1).isNone || gradReady s r c.idx x.1 0 (x.2.count s.mach.logical) then
    onceServed o (beginNorm r c) (askDesc r c 0 (askAll o 1 (xs.flatMap fun x => x.2.spans true true (x.2.exts s.mach.logical)) []) s)
  else s

/-- NORM_REDUCE: its NORM_ID is marked pending once an entry serves it, and its sums are taken once every gradient it names is
visible. -/
def execNormReduce (r : Fin 256) (n : Nat) (s : State) : Res :=
  match descAt s r n 0x41 with
  | none => .next s
  | some c =>
    let id := dW3 c.word
    match normFault s c with
    | some f => .next (finishDesc r c.idx f.1 f.2 0 s)
    | none =>
      if c.staged then .next (readNorm r c s)
      else if (s.coll.runs.any fun x => x.id = id) || (s.coll.norms.any fun x => x.id = id && x.status = 0) then .next s
      else match markNorm id s with
        | none => .next s
        | some t => .next (readNorm r c (modCtx r c.idx (fun y => { y with staged := true }) t))

/-! ### UPDATE_STEP (R377, R378) -/

/-- Read the HYPER record (R378). -/
def readHyper (bs : List Byte) : Hyper :=
  let w (o : Nat) : Word := BitVec.ofNat 32 (fieldAt bs o 4)
  { lr := w 0, beta1 := w 4, beta2 := w 8, eps := w 0x0C, decay := w 0x10, seed := w 0x14, factBase := fieldAt bs 0x18 8,
    sr := BitVec.ofNat 8 (fieldAt bs 0x20 1), watchSat := w 0x24, watchUfz := w 0x28,
    edgeFrac := BitVec.ofNat 8 (fieldAt bs 0x2C 1), edgeMin := w 0x30 }

/-- Whether HYPER breaks R378, or a reserved field of it is set. -/
def hyperBad (bs : List Byte) : Bool :=
  let h := readHyper bs
  let neg (x : Word) : Bool := (vwNum x).isPoison || (vwNum x).isNeg
  let above1 (x : Word) : Bool := FNum.lt (.fin 1 0) (vwNum x)
  neg h.lr || neg h.beta1 || neg h.beta2 || neg h.eps || neg h.decay || above1 h.beta1 || above1 h.beta2
    || 8 ≤ h.sr.toNat || fieldAt bs 0x21 3 ≠ 0 || fieldAt bs 0x2D 3 ≠ 0 || fieldAt bs 0x34 12 ≠ 0

/-- Rows and columns of the matrix of R380. -/
def matShape (ext : List Nat) : Nat × Nat := ((ext.drop 1).foldl (· * ·) 1, ext.headD 0)

/-- Whether two tensors have the same shape and placement (R377). -/
def sameShape (a b : Tensor) : Bool :=
  a.placeMask = b.placeMask && a.placeBase = b.placeBase
    && a.dims.map (fun x => (x.extent, x.kind, x.axisMask, x.cycle)) = b.dims.map fun x => (x.extent, x.kind, x.axisMask, x.cycle)

/-- Whether the tensors and the record of an UPDATE_STEP break R377 or R378. -/
def updateBad (s : State) (rule : Nat) (m : Tensor) (st : Option Tensor) (g c : Tensor) (hb : List Byte) : Bool :=
  let ts := [m, g, c] ++ st.toList
  let ext := m.exts s.mach.logical
  let rc := matShape ext
  let fact := (readHyper hb).factBase
  !(ts.all fun t => sameShape m t && !t.isLocal && t.exts s.mach.logical = ext) || !(m.fmt = 3 || m.fmt = 4)
    || (match st with
      | some t => !(2 ≤ t.fmt)
      | none => false)
    || !((c.fmt = 0 || c.fmt = 2) && c.plane) || (3 ≤ rule && m.dims.length < 2) || hyperBad hb
    || (3 ≤ rule && (fact % 64 ≠ 0 || gdCapacity s < fact + 4 * (rc.1 + rc.2)))

/-- What an UPDATE_STEP is refused for. -/
def updateFault (s : State) (c : DescCtx) : Option (Byte × Half) :=
  let w := c.word
  let rule := (bits (dW2 w) 0 3).toNat
  let hasState := rule = 1 || rule = 2 || rule = 4
  let td (off : Nat) (dst : Bool) : Option (Byte × Half) := tensorFaultOf s (c.td s (dQ w off)) (dQ w off) off dst false
  let hyper := if (dQ w 0x30).toNat % 64 ≠ 0 then some (stMalformed, (0x30 : Half)) else recordFault s (dQ w 0x30) 64 0x30
  let pre := worst [failIf (4 < rule) stMalformed 8, td 0x10 true, if hasState && dQ w 0x18 ≠ 0 then td 0x18 true else none,
    td 0x20 false, td 0x28 true, hyper]
  if pre.isSome then pre
  else
    let st := if dQ w 0x18 = 0 then none else some (c.td s (dQ w 0x18))
    failIf (hasState ≠ st.isSome || updateBad s rule (c.td s (dQ w 0x10)) (if hasState then st else none) (c.td s (dQ w 0x20))
      (c.td s (dQ w 0x28)) (plain (readPlace s (placeOf s (dQ w 0x30)) 64))) stMalformed 0x8000

/-- The blocks a run works: 32 elements of a row, or a rotation block, each in the run that holds its first element (log 36).
Each is its outer indices, its first l_0 and its length. -/
def runBlocks (c : Tensor) (ext : List Nat) (u : Nat) : List (List Nat × Nat × Nat) :=
  let b := if c.rotL = 0 then 32 else 2 ^ c.rotL
  let n0 := ext.headD 0
  let run := runElems c
  let first := u * run
  let last := min (first + run) (ext.foldl (· * ·) 1)
  let rows := if last ≤ first || n0 = 0 then [] else (List.range ((last - 1) / n0 - first / n0 + 1)).map (first / n0 + ·)
  rows.flatMap fun i => ((List.range ((n0 + b - 1) / b)).filter fun j =>
    first ≤ i * n0 + b * j && i * n0 + b * j < last).map fun j => (rowIdx (ext.drop 1) i, b * j, min b (n0 - b * j))

/-- Runs of an UPDATE_STEP. -/
def runCount (c : Tensor) (ext : List Nat) : Nat := (ext.foldl (· * ·) 1 + runElems c - 1) / runElems c

/-- An UPDATE_STEP in progress, by its descriptor. -/
def updOf (s : State) (r : Fin 256) (idx : Nat) : Option UpdateCtx := s.coll.upds.find? fun u => u.ring = r && u.idx = idx

def setUpd (u : UpdateCtx) (s : State) : State :=
  s.setColl { s.coll with upds := s.coll.upds.map fun v => if v.ring = u.ring && v.idx = u.idx then u else v }

/-- An UPDATE_STEP ends (R382, R383). -/
def endUpdate (u : UpdateCtx) (s : State) : State :=
  let s1 := s.setColl { s.coll with upds := s.coll.upds.filter fun v => !(v.ring = u.ring && v.idx = u.idx) }
  match u.trig with
  | some ch => finishDesc u.ring u.idx stRecipe (BitVec.ofNat 16 (0x0400 + ch)) 0 s1
  | none =>
    if u.skipped || !u.badSectors.isEmpty then
      finishDesc u.ring u.idx stUncorrected (BitVec.ofNat 16 (min u.badSectors.length 0xFFFF)) 0 s1
    else finishDesc u.ring u.idx stOk 0 0 s1

/-- UPDATE_STEP: checks, the lookup of its clip factor (R387), and its runs set out. -/
def execUpdateStep (r : Fin 256) (n : Nat) (s : State) : Res :=
  match descAt s r n 0x40 with
  | none => .next s
  | some c =>
    match updateFault s c with
    | some f => .next (finishDesc r c.idx f.1 f.2 0 s)
    | none =>
      let w := c.word
      let m := c.td s (dQ w 0x10)
      let st := if dQ w 0x18 = 0 then none else some (c.td s (dQ w 0x18))
      let g := c.td s (dQ w 0x20)
      let q := c.td s (dQ w 0x28)
      let ext := m.exts s.mach.logical
      let u : UpdateCtx :=
        { ring := r, idx := c.idx, rule := (bits (dW2 w) 0 3).toNat, decayOn := (dW2 w).getLsbD 8, clip := none,
          waitNorm := (dW2 w).getLsbD 9, normId := dW3 w, since := s.ns, step := bits w 448 32,
          hyper := readHyper (plain (readPlace s (placeOf s (dQ w 0x30)) 64)), master := m, stateT := st, grad := g, compute := q,
          gradTd := dQ w 0x20, runsLeft := List.range (runCount q ext), asked := [], stats := none, satCnt := 0, ufzCnt := 0, edgeCnt := 0,
          blockCnt := 0, badSectors := [], skipped := false, trig := none }
      if ext.contains 0 then .next (finishDesc r c.idx stOk 0 0 s)
      else
        let s1 := issueDesc r c.idx 0 0 0 (s.setColl { s.coll with upds := s.coll.upds ++ [u] })
        match s.coll.norms.find? fun e => e.id = u.normId && e.status ≠ 0 with
        | some e => .next (giveNorm e u s1)
        | none => .next s1

/-- NORM_WAIT_TIMEOUT (R387): no NORM_REDUCE of the NORM_ID has started within 100 ms. -/
def execNormWaitTimeout (r : Fin 256) (n : Nat) (s : State) : Res :=
  match (s.ring r).started[n]? with
  | none => .next s
  | some c => match updOf s r c.idx with
    | none => .next s
    | some u =>
      if u.waitNorm && u.since + 100000000 ≤ s.ns && !(s.coll.norms.any fun e => e.id = u.normId) then
        .next (finishDesc r c.idx stTimeout 0 0
          (s.setColl { s.coll with upds := s.coll.upds.filter fun v => !(v.ring = u.ring && v.idx = u.idx) }))
      else .next s

/-! ### Pass 1 (R380) -/

/-- The clipped gradient of an element. -/
def clipped (u : UpdateCtx) (g : Word) : Word := match u.clip with
  | some c => vwMul c g
  | none => g

/-- VW32 word i of the factor vectors at FACT_BASE. -/
def factWord (s : State) (base i : Nat) : Word :=
  let bs := readPlace s (.gddr (base + 4 * i)) 4
  if bs.any fun b => b.2 then 0x7FFFFFFF else BitVec.ofNat 32 (leNat (plain bs))

/-- A statistic over the elements of one row or column; poison when one of them is (R380). -/
def statOf (s : State) (u : UpdateCtx) (inv : Word) (xs : List (Nat × Word)) : Word :=
  let sum := engineSum (engines s) (runElems u.compute) (xs.map fun x => (x.1, vwMul x.2 x.2))
  vwAdd (vwMul sum inv) u.hyper.eps

/-- A factor after its statistic; a poison statistic leaves it unchanged (R382). -/
def newFactor (u : UpdateCtx) (old stat : Word) : Word :=
  if (vwNum stat).isPoison then old else vwFma u.hyper.beta2 old (vwMul (vwComp u.hyper.beta2) stat)

/-- Pass 1: R', C' and rho. -/
def passOne (s : State) (u : UpdateCtx) : List Word × List Word × Word :=
  let ext := u.grad.exts s.mach.logical
  let rc := matShape ext
  let g (i j : Nat) : Nat × Word := (i * rc.2 + j, clipped u (u.grad.flat s (i * rc.2 + j)).acc)
  let rows := (List.range rc.1).map fun i => newFactor u (factWord s u.hyper.factBase i)
    (statOf s u (vwInv rc.2) ((List.range rc.2).map fun j => g i j))
  let cols := (List.range rc.2).map fun j => newFactor u (factWord s u.hyper.factBase (rc.1 + j))
    (statOf s u (vwInv rc.1) ((List.range rc.1).map fun i => g i j))
  (rows, cols, vwRecip (vwMul (rows.foldl vwAdd 0) (vwInv rc.1)))

/-- The scalar accesses to n bytes at a usable address, through the narrow queues in 32 bytes each (R225). -/
def narrowAccess (o : TxnOwner) (write : Bool) (a n : Nat) (s : State) : State :=
  forAll (List.range ((n + 31) / 32)) (fun i t => gdAccept o 1 true write (a + 32 * i) (min 32 (n - 32 * i)) t) s

/-- The factor vectors are written at FACT_BASE. -/
def writeFactors (u : UpdateCtx) (rows cols : List Word) (s : State) : State :=
  let bs := (rows ++ cols).flatMap fun x => leBytes x.toNat 4
  narrowAccess (.desc u.ring u.idx) true u.hyper.factBase bs.length (writePlace (.gddr u.hyper.factBase) (bs.map fun b => (b, false)) s)

/-! ### One run (R379, R381 to R383) -/

/-- The new master and state of an element; none when the parameter is not stepped (R379, R382). -/
def stepElem (u : UpdateCtx) (w m g v : Word) : Option (Word × Word) :=
  let h := u.hyper
  let gh := clipped u g
  let w1 := if u.decayOn then vwFma (vwNeg (vwMul h.lr h.decay)) w w else w
  let nlr := vwNeg h.lr
  let m1 := vwFma h.beta1 m (vwMul (vwComp h.beta1) gh)
  let sgn : Word := if (vwNum m1).isZero then 0 else if (vwNum m1).isNeg then 0xBFC00000 else 0x3FC00000
  let p (x : Word) : Bool := (vwNum x).isPoison
  let hasM := u.stateT.isSome
  if p w || p gh || (hasM && p m) || (3 ≤ u.rule && p v) then none
  else some (match u.rule with
    | 0 => (vwFma nlr gh w1, m)
    | 1 => (vwFma nlr m1 w1, m1)
    | 2 => (vwFma nlr sgn w1, vwFma h.beta2 m (vwMul (vwComp h.beta2) gh))
    | 3 => (vwFma nlr (vwMul gh (vwRsqrt v)) w1, m)
    | _ => (vwFma nlr (vwMul m1 (vwRsqrt v)) w1, m1))

/-- The byte runs of n elements of a row from l_0, data and scale plane, in GDDR7. -/
def Tensor.blockSpans (t : Tensor) (ext : List Nat) (x : List Nat × Nat × Nat) : List (Nat × Nat) :=
  let p := t.loc ext x.2.1 x.1
  (p.data + fmtOffset t.fmt p.col, fmtBytes t.fmt x.2.2) :: (if t.plane then [(p.scale + p.col / 32, (x.2.2 + 31) / 32)] else [])

/-- Neighbouring byte runs joined. -/
def joinSpans (xs : List (Nat × Nat)) : List (Nat × Nat) :=
  xs.foldr (fun x acc => match acc with
    | y :: rest => if x.1 + x.2 = y.1 then (x.1, x.2 + y.2) :: rest else x :: acc
    | [] => [x]) []

/-- The byte runs an engine touches in one tensor for a run. -/
def UpdateCtx.spans (u : UpdateCtx) (t : Tensor) (ext : List Nat) (run : Nat) : List (Nat × Nat) :=
  let xs := (runBlocks u.compute ext run).map (t.blockSpans ext)
  joinSpans (xs.filterMap List.head?) ++ joinSpans (xs.flatMap fun x => x.drop 1)

/-- Present byte runs of GDDR7 at class 1 (R221, R377). -/
def engineAsk (u : UpdateCtx) (write : Bool) (xs : List (Nat × Nat)) (s : State) : State :=
  forAll xs (fun x t => gdAccept (.desc u.ring u.idx) 1 false write x.1 x.2 t) s

/-- The tensors a run reads in pass 2. -/
def UpdateCtx.sources (u : UpdateCtx) : List Tensor := [u.master, u.grad] ++ u.stateT.toList

/-- The tensors a run writes. -/
def UpdateCtx.targets (u : UpdateCtx) : List Tensor := [u.master, u.compute] ++ u.stateT.toList

/-- The sectors of byte runs that come marked. -/
def markedOf (s : State) (xs : List (Nat × Nat)) : List Nat :=
  xs.flatMap fun x => (sectorsOf x.1 x.2).filter fun k => (readPlace s (.gddr (64 * k)) 1).any fun b => b.2

/-- Store values of a block of whole-byte elements; a none leaves its bytes as they are (R381, R382), and a short last block of a scale
plane is completed with zero codes (R190). -/
def storeSome (t : Tensor) (ext : List Nat) (tl : List Nat) (l0 : Nat) (sr : Bool) (rnd : Nat → Nat) (xs : List (Option Word))
    (s : State) : State × Ev :=
  let blocks := (chunks 32 xs).zipIdx
  blocks.foldl (fun (r : State × Ev) b =>
    let at_ := l0 + 32 * b.2
    let vals := b.1.map fun x => match x with
      | some w => vwNum w
      | none => FNum.poison
    let q := drawBlock t.fmt 0 t.implicit sr (0x80, false) vals fun i => rnd (32 * b.2 + i)
    let one (s : State) (x : (Option Word × Nat) × Nat) : State :=
      let p := t.loc ext (at_ + x.2) tl
      if x.1.1.isSome then t.put p.core (p.data + fmtOffset t.fmt p.col) (packCodes t.fmt [x.1.2]) s else s
    let s1 := (b.1.zip q.1).zipIdx.foldl one r.1
    let s2 := match q.2.1 with
      | some sc => if b.1.any Option.isSome then t.putScale ext at_ tl sc s1 else s1
      | none => s1
    let p := t.loc ext (at_ + b.1.length) tl
    let s3 := if t.plane && b.1.length < 32 then t.put p.core (p.data + fmtOffset t.fmt p.col)
      (List.replicate (fmtBytes t.fmt (32 - b.1.length)) 0) s2 else s2
    (s3, r.2.add q.2.2)) (s, Ev.none)

/-- Work one block of a run: state and events. -/
def updateBlock (u : UpdateCtx) (x : List Nat × Nat × Nat) (s : State) : State × Ev × Bool :=
  let me := s.mach.logical
  let ext := u.master.exts me
  let tl := x.1
  let is := (List.range x.2.2).map (x.2.1 + ·)
  let vw (t : Tensor) (s : State) (i : Nat) : Word := (toVw (t.val s ext i tl)).1
  let row : Nat := ((ext.drop 1).zip tl).foldr (fun y a => y.2 + y.1 * a) 0
  let vhat (i : Nat) : Word := match u.stats with
    | some z => vwMul (vwMul (z.1.getD row 0) (z.2.1.getD i 0)) z.2.2
    | none => 0
  let new := is.map fun i => stepElem u (vw u.master s i) (match u.stateT with
    | some t => vw t s i
    | none => 0) (vw u.grad s i) (vhat i)
  let rnd (k i : Nat) : Nat := draw u.hyper.seed u.step.toNat k 0 (u.master.linear me ((x.2.1 + i) :: tl))
  let a := storeSome u.master ext tl x.2.1 (u.hyper.sr.getLsbD 0 && u.master.fmt = 3) (rnd 0) (new.map (Option.map Prod.fst)) s
  let b := match u.stateT with
    | some t => storeSome t ext tl x.2.1 (u.hyper.sr.getLsbD 1) (rnd 1) (new.map (Option.map Prod.snd)) a.1
    | none => (a.1, Ev.none)
  let vals := is.map fun i => u.master.val b.1 ext i tl
  let rot := if u.compute.rotL = 0 then vals else (rotRow u.compute.rotL u.compute.rotSeed false vals).1
  let c := u.compute.storeSeg ext 0 (u.hyper.sr.getLsbD 2) (rnd 2) x.2.1 tl rot b.1
  (c.1, (a.2.add b.2).add c.2, new.contains none)

/-- The physical channel of a logical slot. -/
def slotChannel (s : State) (slot : Nat) : Nat :=
  (((List.finRange 50).find? fun ch => (s.chan ch).mapped && (s.chan ch).slot.toNat = slot).map fun ch => ch.val).getD 0

/-- The tests of R169 over the engines' counts, base zero (R383). -/
def updateTests (u : UpdateCtx) : Byte :=
  let h := u.hyper
  BitVec.ofNat 8 (b2n (h.watchSat ≠ 0 && h.watchSat.toNat ≤ u.satCnt) + 2 * b2n (h.watchUfz ≠ 0 && h.watchUfz.toNat ≤ u.ufzCnt)
    + 4 * b2n (h.edgeFrac ≠ 0 && h.edgeMin.toNat ≤ u.blockCnt && h.edgeFrac.toNat * u.blockCnt < u.edgeCnt * 256))

/-- The first trigger of an UPDATE_STEP writes its record (R383). -/
def updateTrigger (run : Nat) (u : UpdateCtx) (s : State) : UpdateCtx × State :=
  let t := updateTests u
  if t = 0 || u.trig.isSome then (u, s)
  else
    let ch := slotChannel s (run % engines s)
    let data := [t, 0, 0, 0] ++ leBytes u.ring.val 2 ++ leBytes u.idx 2
    ({ u with trig := some ch }, postEvent 0x0101 1 (src (0x0400 + ch)) data s)

/-- Work one run. -/
def workRun (u : UpdateCtx) (run : Nat) (s : State) : State :=
  let ext := u.master.exts s.mach.logical
  let r := (runBlocks u.compute ext run).foldl (fun (r : State × Ev × Bool) x =>
    let q := updateBlock u x r.1
    (q.1, r.2.1.add q.2.1, r.2.2 || q.2.2)) (s, Ev.none, false)
  let ev := r.2.1
  let bad := (u.sources.flatMap fun t => markedOf s (u.spans t ext run)).foldl (fun a x => insSorted x a) u.badSectors
  let u1 : UpdateCtx := { u with
    badSectors := bad, runsLeft := u.runsLeft.filter (· ≠ run), satCnt := u.satCnt + ev.sat, ufzCnt := u.ufzCnt + ev.ufz,
    edgeCnt := u.edgeCnt + ev.edge, blockCnt := u.blockCnt + ev.blk, skipped := u.skipped || r.2.2 }
  let t := updateTrigger run u1 (engineAsk u true (u.targets.flatMap fun t => u.spans t ext run) r.1)
  if t.1.runsLeft.isEmpty then endUpdate t.1 t.2 else setUpd t.1 t.2

/-- Pass 1 of U3 and U4: the gradient and the factors are read, and the new factors written (R380). -/
def firstPass (u : UpdateCtx) (s : State) : State :=
  let ext := u.grad.exts s.mach.logical
  let z := passOne s u
  let fact := (u.hyper.factBase, 4 * (z.1.length + z.2.1.length))
  let bad := ((u.grad.sectors true ext).map Prod.snd ++ markedOf s [fact]).filter fun k => (readPlace s (.gddr (64 * k)) 1).any fun b => b.2
  setUpd { u with stats := some z, badSectors := bad.foldl (fun a x => insSorted x a) u.badSectors } (writeFactors u z.1 z.2.1 s)

/-- What pass 1 reads: the gradient, and the factors by the narrow path. -/
def askFirst (u : UpdateCtx) (s : State) : State :=
  let ext := u.grad.exts s.mach.logical
  let rc := matShape ext
  let s1 := engineAsk u false ((u.grad.runs true true ext).map fun x => x.2) s
  narrowAccess (.desc u.ring u.idx) false u.hyper.factBase (4 * (rc.1 + rc.2)) s1

/-- Whether a run may be worked: a tensor whose elements share bytes is written in ascending order (R183). -/
def runInTurn (u : UpdateCtx) (ext : List Nat) (run : Nat) : Bool :=
  u.runsLeft.head? = some run || !(u.targets.any fun t => t.selfMeets ext)

/-- A run goes on: pass 1 first, where the rule has one, then the run's own reads, then its work (R377, R380). -/
def nextRun (u : UpdateCtx) (run : Nat) (s : State) : State :=
  let ext := u.master.exts s.mach.logical
  let first := 3 ≤ u.rule && u.stats.isNone
  let key := if first then 0 else run + 1
  let s1 := if u.asked.contains key then s
    else (if first then askFirst u else engineAsk u false (u.sources.flatMap fun t => u.spans t ext run))
      (setUpd { u with asked := u.asked ++ [key] } s)
  onceServed (.desc u.ring u.idx) (fun t => match updOf t u.ring u.idx with
    | none => t
    | some v => if first then firstPass v t else workRun v run t) s1

/-- UPDATE_RUN (R377, R379 to R383): a run whose gradient is visible, its clip factor known; the first of U3 and U4 makes pass 1,
which reads the whole gradient, and each run's reads are served before it is worked (log 18). -/
def execUpdateRun (r : Fin 256) (n u : Nat) (s : State) : Res :=
  match (s.ring r).started[n]? with
  | none => .next s
  | some c => match updOf s r c.idx with
    | none => .next s
    | some x =>
      let ext := x.master.exts s.mach.logical
      let all := ext.foldl (· * ·) 1
      let run := runElems x.compute
      let factored := 3 ≤ x.rule
      let e := if factored then 0 else u * run
      let k := if factored then all else min run (all - u * run) + (ext.headD 0 - 1)
      if x.waitNorm || !(x.runsLeft.contains u) || !runInTurn x ext u || !gradReady s r c.idx x.gradTd e (min k (all - e)) then .next s
      else .next (nextRun x u s)

end Sys2Proof.Machine
end

