-- ==== Sys2Proof/Machine/Shard.lean ====
section
/-! DEFINITION. The canonical stream and digests of a shard (R388 to R390), and shard records (R392 to R394). -/
namespace Sys2Proof.Machine
open Sys2Proof

/-! ### The canonical stream (R388) -/

/-- A byte of the stream: the core and address it lies at, and whether it is a last odd nibble, whose upper half is zero. -/
structure StreamByte where
  core : Nat
  addr : Nat
  odd : Bool
deriving DecidableEq, Repr

/-- One innermost row packed. -/
def rowStream (t : Tensor) (ext : List Nat) (tl : List Nat) : List StreamByte :=
  let n0 := ext.headD 0
  let half : Bool := t.fmt ≤ 1
  let w := fmtBytes t.fmt 1
  (List.range (fmtBytes t.fmt n0)).map fun i =>
    let p := t.loc ext (if half then 2 * i else i / w) tl
    { core := p.core, addr := p.data + fmtOffset t.fmt p.col + (if half then 0 else i % w), odd := half && n0 % 2 = 1 && 2 * i + 1 = n0 }

/-- One row of the scale plane. -/
def rowScales (t : Tensor) (ext : List Nat) (tl : List Nat) : List StreamByte :=
  (List.range ((ext.headD 0 + 31) / 32)).map fun i =>
    let p := t.loc ext (32 * i) tl
    { core := p.core, addr := p.scale + p.col / 32, odd := false }

/-- The rows of a shard; an empty shard has none. -/
def shardTails (ext : List Nat) : List (List Nat) := if ext.contains 0 then [] else rowTails (ext.drop 1)

/-- The bytes of the stream's data. -/
def streamData (t : Tensor) (ext : List Nat) : List StreamByte := (shardTails ext).flatMap (rowStream t ext)

/-- The bytes of the stream's scale plane. -/
def streamScales (t : Tensor) (ext : List Nat) : List StreamByte := if t.plane then (shardTails ext).flatMap (rowScales t ext) else []

/-- Both. -/
def streamAll (t : Tensor) (ext : List Nat) : List StreamByte := streamData t ext ++ streamScales t ext

/-- A byte of the stream as it stands, its mark kept. -/
def StreamByte.read (s : State) (t : Tensor) (x : StreamByte) : MByte :=
  let b := t.byte s x.core x.addr
  if x.odd then (b.1 &&& 0x0F, b.2) else b

/-! ### Digests (R389) -/

/-- The digests of a stream's sub-blocks. -/
def subDigests (bs : List MByte) : List (List Byte) :=
  (pieces 65536 bs).zipIdx.map fun x =>
    if x.1.any fun b => b.2 then List.replicate 16 0xFF
    else (sha256 (ascii "VK2SUB01" ++ leBytes x.2 8 ++ plain x.1)).take 16

/-- The digest of a shard. -/
def shardDigest (bs : List MByte) : List Byte :=
  (sha256 (ascii "VK2SHD01" ++ leBytes bs.length 8 ++ (subDigests bs).flatten)).take 16

/-- The space of a tensor's byte: its core, 384 for GDDR7. -/
def Tensor.space (t : Tensor) (core : Nat) : Nat := if t.isLocal then core else 384

/-- The sectors of a shard that are marked, each with its space. -/
def Tensor.badSectors (t : Tensor) (s : State) (ext : List Nat) : List (Nat × Nat) :=
  ((t.sectors true ext).filter fun x => (t.byte s x.1 (64 * x.2)).2).map fun x => (t.space x.1, x.2)

/-- The stream as a DIGEST or an EXPORT_SHARD covers it: the values at its start, with the marks of every sector that came to it marked (R272 (e), R389). -/
def digestInput (c : DescCtx) (t : Tensor) (ext : List Nat) (s : State) : List MByte :=
  let ps := streamAll t ext
  if c.snap.length = ps.length then
    (c.snap.zip ps).map fun x => (x.1, c.bad.contains (t.space x.2.core, x.2.addr / 64))
  else ps.map fun x => x.read s t

/-- A DIGEST whose reads have been served writes its digests and ends. -/
def digestNow (r : Fin 256) (c0 : DescCtx) (t : Tensor) (s : State) : State :=
  let c := (ctxOf s r c0.idx).getD c0
  let ext := t.exts s.mach.logical
  let bs := digestInput c t ext s
  let d := shardDigest bs
  let out := if (dW2 c.word).getLsbD 0 then d ++ (subDigests bs).flatten else d
  let y := readStatus (if c.snap.isEmpty then t.badSectors s ext else c.bad).eraseDups.length
  endOrWait r c.idx y.1 y.2 (BitVec.ofNat 64 (leNat (d.take 8))) (writeOut (.desc r c.idx) 2 (dQ c.word 0x18) (out.map fun b => (b, false)) s)

/-- Why a DIGEST is refused (R194, R265, R390). -/
def digestFault (s : State) (c : DescCtx) : Option (Byte × Half) :=
  let w := c.word
  let t := c.td s (dQ w 0x10)
  let n := (streamAll t (t.exts s.mach.logical)).length
  let out := 16 + (if (dW2 w).getLsbD 0 then 16 * ((n + 65535) / 65536) else 0)
  (tensorFaultOf s t (dQ w 0x10) 0x10 false false).orElse fun _ => opFault s (dQ w 0x18) out 0x18

/-- DIGEST (R390): the values of its start (R272 (e)). -/
def execDigestDesc (r : Fin 256) (n : Nat) (s : State) : Res :=
  match descAt s r n 0x42 with
  | none => .next s
  | some c =>
    let t := c.td s (dQ c.word 0x10)
    match digestFault s c with
    | some f => .next (finishDesc r c.idx f.1 f.2 0 s)
    | none =>
      let o : TxnOwner := .desc r c.idx
      .next (onceServed o (fun u => fitTxns u (digestNow r c t u))
        (askDesc r c 0 (askAll o 2 (t.spans true true (t.exts s.mach.logical)) []) s))

/-! ### Shard records (R392) -/

/-- The entry of dimension d. -/
def recordDim (t : Tensor) (a : Half) (d : Nat) (x : TDim) : List Byte :=
  leBytes x.extent 4 ++ [BitVec.ofNat 8 x.kind, 0] ++ leBytes x.axisMask.toNat 2 ++ leBytes x.cycle 4 ++ leBytes x.shards 4
    ++ leBytes (compact a x.axisMask) 4 ++ leBytes (x.ext (t.gran d) a) 4 ++ leBytes (x.glob (t.gran d) a 0) 8

/-- The header of a shard record. -/
def recordHead (t : Tensor) (a : Half) (data scales : Nat) (digest : List Byte) : List Byte :=
  leBytes 0x52534B56 4 ++ leBytes 1 2
    ++ [BitVec.ofNat 8 t.dims.length, BitVec.ofNat 8 t.fmt, BitVec.ofNat 8 (b2n t.implicit), BitVec.ofNat 8 t.rotL, BitVec.ofNat 8 t.seqDim, 0]
    ++ leBytes t.rotSeed.toNat 4 ++ leBytes t.posBase 4 ++ leBytes a.toNat 2 ++ leBytes t.placeMask.toNat 2
    ++ leBytes t.placeBase.toNat 2 ++ List.replicate 6 0 ++ leBytes data 8 ++ leBytes scales 8 ++ digest
    ++ (t.mapDims (recordDim t a)).flatten

/-- Why an EXPORT_SHARD is refused (R194, R265, R393). -/
def exportFault (s : State) (c : DescCtx) : Option (Byte × Half) :=
  let w := c.word
  let t := c.td s (dQ w 0x10)
  let n := 64 + 32 * t.dims.length + (streamAll t (t.exts s.mach.logical)).length
  (tensorFaultOf s t (dQ w 0x10) 0x10 false false).orElse fun _ =>
    worst [opFault s (dQ w 0x18) n 0x18, failIf ((dQ w 0x20).toNat < n) stMalformed 0x20]

/-- An EXPORT_SHARD whose reads have been served writes its record and ends. -/
def exportNow (r : Fin 256) (c0 : DescCtx) (t : Tensor) (s : State) : State :=
  let c := (ctxOf s r c0.idx).getD c0
  let a := s.mach.logical
  let ext := t.exts a
  let data := streamData t ext
  let scales := streamScales t ext
  let bs := digestInput c t ext s
  let out := (recordHead t a data.length scales.length (shardDigest bs)).map (fun b => (b, false)) ++ bs
  let y := readStatus (if c.snap.isEmpty then t.badSectors s ext else c.bad).eraseDups.length
  endOrWait r c.idx y.1 y.2 (BitVec.ofNat 64 out.length) (writeOut (.desc r c.idx) 2 (dQ c.word 0x18) out s)

/-- EXPORT_SHARD (R392, R393): the capacity is checked before anything is written, and the values
are those of its start (R272 (e)). -/
def execExportShard (r : Fin 256) (n : Nat) (s : State) : Res :=
  match descAt s r n 0x43 with
  | none => .next s
  | some c =>
    let t := c.td s (dQ c.word 0x10)
    match exportFault s c with
    | some f => .next (finishDesc r c.idx f.1 f.2 0 s)
    | none =>
      let o : TxnOwner := .desc r c.idx
      .next (onceServed o (fun u => fitTxns u (exportNow r c t u))
        (askDesc r c 0 (askAll o 2 (t.spans true true (t.exts s.mach.logical)) []) s))

/-- Whether a record's dimension agrees with a tensor's on this module (R394). -/
def dimAgrees (bs : List Byte) (a : Half) (d : Nat) (x : TDim) : Bool :=
  let b := bs.drop (0x40 + 0x20 * d)
  fieldAt b 0 4 = x.extent && fieldAt b 4 1 = x.kind && fieldAt b 8 4 = x.cycle && fieldAt b 12 4 = x.shards
    && fieldAt b 16 4 = compact a x.axisMask

/-- Whether a shard record may be imported into a tensor (R394). -/
def recordOk (rec_ : List MByte) (t : Tensor) (a : Half) : Bool :=
  let bs := plain rec_
  let dims := t.dims.length
  let data := fieldAt bs 0x20 8
  let scales := fieldAt bs 0x28 8
  let ext := t.exts a
  let rows := (shardTails ext).length
  fieldAt bs 0 4 = 0x52534B56 && fieldAt bs 4 2 = 1 && fieldAt bs 6 1 = dims && fieldAt bs 7 1 = t.fmt
    && fieldAt bs 8 1 % 2 = b2n t.implicit && fieldAt bs 9 1 = t.rotL && fieldAt bs 0x0A 1 = t.seqDim
    && fieldAt bs 0x0C 4 = t.rotSeed.toNat && fieldAt bs 0x10 4 % 2 ^ 24 = t.posBase
    && bs.length = 64 + 32 * dims + data + scales && (t.mapDims (dimAgrees bs a)).all id
    && data = rows * fmtBytes t.fmt (ext.headD 0) && scales = (if t.plane then rows * ((ext.headD 0 + 31) / 32) else 0)
    && (bs.drop 0x30).take 16 = shardDigest (rec_.drop (64 + 32 * dims))

/-- Write one row of a record's stream into a tensor's layout. -/
def importRow (t : Tensor) (ext : List Nat) (tl : List Nat) (data scales : List Byte) (s : State) : State :=
  let n0 := ext.headD 0
  let u := t.unit
  (List.range ((n0 + u - 1) / u)).foldl (fun v i =>
    let cs := (List.range (min u (n0 - u * i))).map fun j => packedCode (if t.fmt = 1 then 0 else t.fmt) data (u * i + j)
    t.putScale ext (u * i) tl (scales.getD i 0) (t.putCodes ext (u * i) tl cs v)) s

/-- Write a record's stream into a tensor's layout. -/
def importRows (t : Tensor) (ext : List Nat) (data scales : List Byte) (s : State) : State :=
  let d := fmtBytes t.fmt (ext.headD 0)
  let k := (ext.headD 0 + 31) / 32
  (shardTails ext).zipIdx.foldl (fun u x =>
    importRow t ext x.1 ((data.drop (d * x.2)).take d) ((scales.drop (k * x.2)).take k) u) s

/-- Why an IMPORT_SHARD is refused before its record is read (R194, R265). -/
def importFault (s : State) (c : DescCtx) : Option (Byte × Half) :=
  let w := c.word
  worst [opFault s (dQ w 0x10) (dQ w 0x20).toNat 0x10, tensorFaultOf s (c.td s (dQ w 0x18)) (dQ w 0x18) 0x18 true false]

/-- An IMPORT_SHARD's record is written into its tensor, once its stores to local store have been granted. -/
def importNow (r : Fin 256) (c : DescCtx) (t : Tensor) (rec_ : List MByte) (s : State) : State :=
  let ext := t.exts s.mach.logical
  if !recordOk rec_ t s.mach.logical then finishDesc r c.idx stMalformed 0x8000 0 s
  else
    let bs := plain rec_
    let data := fieldAt bs 0x20 8
    let body := bs.drop (64 + 32 * t.dims.length)
    let y := readStatus (markedSectors (placeOf s (dQ c.word 0x10)).off rec_)
    let o : TxnOwner := .desc r c.idx
    onceServed o (fun u => landAll o 2 (t.spans true true ext)
      (finishDesc r c.idx y.1 y.2 0 (importRows t ext (body.take data) (body.drop data) u)))
      (askDesc r c 1 (askAll o 2 [] (t.spans true true ext)) s)

/-- IMPORT_SHARD (R394): every check before the first write. -/
def execImportShard (r : Fin 256) (n : Nat) (s : State) : Res :=
  match descAt s r n 0x44 with
  | none => .next s
  | some c =>
    let w := c.word
    match importFault s c with
    | some f => .next (finishDesc r c.idx f.1 f.2 0 s)
    | none =>
      .next (withOperand r c 0 2 (dQ w 0x10) (dQ w 0x20).toNat (importNow r c (c.td s (dQ w 0x18))) s)

end Sys2Proof.Machine
end

