-- ==== Sys2Proof/Machine/Haggle.lean ====
section
/-! DEFINITION. Bringing a port from dark to UP and back: haggle, certificates, JOIN (R324 to R329), retrain, lanes, retry and
restarted partners (R339 to R345), and the port's own register writes (R354, R359). -/
namespace Sys2Proof.Machine
open Sys2Proof

/-- The floor in force (R348), 0 without a description. -/
def floorOf (s : State) : Byte := match s.mach.route with
  | some x => x.floor
  | none => 0

/-! ### Payloads (R324) -/

/-- Lanes in use for a set of failed lanes (R325, R340): eight, seven, or none. -/
def widthOf (failed : BitVec 9) : Nat := let good := 9 - ones failed; if 8 ≤ good then 8 else if good = 7 then 7 else 0

/-- The n lanes in use for a set of failed lanes: the lowest of the good ones, in physical order (R309, R341). -/
def lanesUsed (failed : BitVec 9) (n : Nat) : List (Fin 9) := ((List.finRange 9).filter fun i => !failed.getLsbD i.val).take n

/-- The lane that carries symbol i of a direction's stream: symbols go round-robin over the lanes in use (R309). -/
def laneOf (failed : BitVec 9) (n i : Nat) : Fin 9 := (lanesUsed failed n).getD (i % max 1 n) 0

/-- The credit a port announces for a pool: what its 64 buffers still have free, at least 1 (log 31). -/
def announce (p : Port) (q : Fin 16) : Nat := max 1 (64 - p.pools[q].held.length)

/-- Bytes 0x00 to 0x13 of a HAGGLE or RETRAIN payload. -/
def haggleHead (s : State) (pt : Fin 16) (phase : Nat) : List Byte :=
  let p := s.port pt
  leBytes (Config.serial.toNat / 2 ^ 32) 4 ++ leBytes Config.serial.toNat 4 ++ leBytes s.boot.epoch.toNat 4
    ++ [BitVec.ofNat 8 phase, BitVec.ofNat 8 (b2n s.mach.bound + 2 * b2n p.certReq + 4 * b2n (crossedDim s pt.val))]
    ++ leBytes s.mach.logical.toNat 2 ++ [BitVec.ofNat 8 pt.val, floorOf s]
    ++ leBytes (p.rxNext.toNat + 2 ^ 15 * b2n p.resume) 2

/-- A HAGGLE payload with the fields a PHASE uses and the haggle's nonce. -/
def hagglePayload (s : State) (pt : Fin 16) (phase : Nat) (tSend : Dword) (cert : List Byte) : List Byte :=
  let credits := if phase = 1 then (List.finRange 16).map fun q => BitVec.ofNat 8 (announce (s.port pt) q) else List.replicate 16 0
  fit frameBytes (haggleHead s pt phase ++ credits ++ leBytes tSend.toNat 8 ++ List.replicate 8 0 ++ leBytes (s.port pt).nonce.toNat 48 ++ fit 124 cert)

/-- Send a HAGGLE frame of a PHASE. -/
def sendHaggle (pt : Fin 16) (phase : Nat) (tSend : Dword) (cert : List Byte) (s : State) : State :=
  emitHaggle pt { blankFrame with typ := 3, len := 224, payload := hagglePayload s pt phase tSend cert } s

/-- Send a RETRAIN frame of a PHASE. -/
def sendRetrain (pt : Fin 16) (phase : Nat) (tSend : Dword) (s : State) : State :=
  emit pt { blankFrame with
    typ := 4, len := 224, payload := fit frameBytes (haggleHead s pt phase ++ List.replicate 16 0 ++ leBytes tSend.toNat 8) } s

def hPhase (f : Frame) : Nat := pay f 0x0C 1
def hSerial (f : Frame) : Dword := BitVec.ofNat 64 (pay f 0 4 * 2 ^ 32 + pay f 4 4)
def hEpoch (f : Frame) : Word := BitVec.ofNat 32 (pay f 8 4)
def hSend (f : Frame) : Dword := BitVec.ofNat 64 (pay f 0x24 8)
def hRxNext (f : Frame) : BitVec 12 := BitVec.ofNat 12 (pay f 0x12 2)
def hCredit (f : Frame) (q : Nat) : Nat := pay f (0x14 + q) 1

/-- Whether a frame comes from the partner of the haggle record. -/
def samePartner (p : Port) (f : Frame) : Bool := p.known && hSerial f = p.partnerSerial && hEpoch f = p.partnerEpoch

/-! ### UP, restarted partners (R343) -/

/-- Bytes of a RESTART_NOTICE. -/
def noticeFrame (s : State) (dest addr : Half) (epoch : Word) : Frame :=
  { blankFrame with
    vc := 3, op := 0x30, dest := dest, len := 6, destEpoch := epochOf s dest,
    payload := fit frameBytes (leBytes addr.toNat 2 ++ leBytes epoch.toNat 4) }

/-- Every transaction of this module to an address ends (R343). -/
def endTxnsTo (m : Half) (status : Byte) (detail : Half) (s : State) : State :=
  let hit := s.mach.txns.filter fun t => t.dest = m
  forAll hit (fun t u => txnEnded t status detail u) (s.setMach { s.mach with txns := s.mach.txns.filter fun t => t.dest ≠ m })

/-- An address has a new epoch: its transactions and steps end, the epoch is recorded, the notice goes to the other UP
ports (R343). -/
def noteRestart (addr : Half) (epoch : Word) (except : Option (Fin 16)) (s : State) : State :=
  let s1 := endTxnsTo addr stRestarted addr (s.setMach { s.mach with notices := (addr, epoch) :: s.mach.notices })
  let s2 := failPartner addr (recordEpoch addr (epoch.setWidth 16) s1)
  forAll ((List.finRange 16).filter fun q => (s2.port q).state = 3 && some q ≠ except)
    (fun q t => inject (noticeFrame t (t.port q).partnerAddr addr epoch) t) s2

/-- A port is UP (R325 step 8, R342, R343, R351). -/
def goUp (pt : Fin 16) (s : State) : State :=
  let p := s.port pt
  let s1 := s.setPort pt { p with
    state := 3, phase := 0, blockCause := 0, crossed := crossedDim s pt.val, resume := true, retrySince := none, fruitless := 0,
    restarted := false, nakReplay := none }
  let s2 := portEvent pt 0x0501 1 (leBytes p.partnerAddr.toNat 2 ++ [BitVec.ofNat 8 p.txLanes, BitVec.ofNat 8 p.rxLanes]) s1
  let s3 := if p.buf.isEmpty then s2 else replayAll pt s2
  if p.restarted then
    noteRestart p.partnerAddr p.partnerEpoch (some pt)
      (portEvent pt 0x0505 1 (leBytes p.partnerAddr.toNat 2 ++ [0, 0] ++ leBytes p.partnerEpoch.toNat 4) s3)
  else s3

/-! ### JOIN (R327) -/

/-- Why JOIN fails, or none (R327, R355). -/
def joinCause (s : State) (pt : Fin 16) : Option (BitVec 3) :=
  let p := s.port pt
  match s.mach.route with
  | none => some 6
  | some x =>
    let c := x.cross.getLsbD pt.val
    if !p.partnerBound then some 6
    else if p.partnerDim.toNat ≠ pt.val || x.dims ≤ pt.val || p.partnerCross ≠ c || p.partnerAddr ≠ nbr c pt.val s.mach.logical then some 4
    else if p.floorPartner ≠ x.floor then some 5
    else none

/-- The JOIN checks are made once this side is bound and has heard the partner's JOIN. -/
def tryJoin (pt : Fin 16) (s : State) : State :=
  let p := s.port pt
  if !s.mach.bound || p.phase ≠ 6 then s
  else match joinCause s pt with
    | some c => portBlock pt c s
    | none => goUp pt s

/-- Send JOIN once bound (R325 step 8); phase 5 is linked, 6 once the partner's JOIN has come. -/
def sendJoin (pt : Fin 16) (s : State) : State := if s.mach.bound then sendHaggle pt 5 0 [] s else s

/-- A port whose binding or routing description changed starts step 8 again (R325, R330). -/
def rejoin (pt : Fin 16) (s : State) : State :=
  let p := s.port pt
  if p.state = 2 || (p.state = 7 && 4 ≤ p.blockCause.toNat && p.blockCause.toNat ≤ 6) then
    tryJoin pt (sendJoin pt (s.setPort pt { p with state := 2, blockCause := 0 }))
  else s

def rejoinAll (s : State) : State := forAll (List.finRange 16) rejoin s

/-- An UP port is LINKED again and tells its partner that it is not bound, and a port BLOCKED at step 8 starts it again (R325, R331;
log 31). A port that retrains follows when the retrain ends. -/
def unjoin (pt : Fin 16) (s : State) : State :=
  let p := s.port pt
  if p.state = 3 || (p.state = 7 && 4 ≤ p.blockCause.toNat && p.blockCause.toNat ≤ 6) then
    sendHaggle pt 5 0 [] (s.setPort pt { p with state := 2, phase := 5, blockCause := 0 })
  else s

/-! ### Haggle phases (R325, R326) -/

/-- LINKED: credits stand, SEQ starts at 0 or resumes, the partner's unreplayed frames are dropped (R325 step 7, R342). -/
def goLinked (pt : Fin 16) (s : State) : State :=
  let p := s.port pt
  let cut : List TxEntry := match ackCovers p.buf p.txSeq (p.peerNext - 1) with
    | some d => p.buf.drop d
    | none => p.buf
  let p1 : Port := { p with state := 2, phase := 5, nakReplay := none }
  let p2 : Port := if p.resume then { p1 with buf := cut } else { p1 with buf := [], txSeq := 0, rxNext := 0 }
  sendJoin pt ((s.setPort pt p2).setTime { s.time with fifoPort := s.time.fifoPort.set pt 4 })

/-- PARTNER_SIGNAL_DETECT (R325 steps 1 to 4): lanes are trained, failed ones marked, HELLO goes out with a fresh nonce. -/
def execPartnerSignalDetect (pt : Fin 16) (txFailed rxFailed : BitVec 9) (s : State) : Res :=
  let p := s.port pt
  let open_ : Bool := p.enable && 8 ≤ s.boot.step.toNat && !s.boot.recovery && s.pwr.mstate = 0
  if !open_ || !(p.state = 0 || (p.state = 1 && p.phase = 0)) then .next s
  else
    let tx := widthOf txFailed
    let rx := widthOf rxFailed
    let s1 := (startHaggle pt s).modPort pt fun p => { p with txFailed := txFailed, rxFailed := rxFailed, signalAt := s.ns }
    let s2 := if txFailed = 0 && rxFailed = 0 then s1 else setDegraded s1
    if tx = 0 || rx = 0 then .next (portDown pt 1 s2)
    else
      let a := s2.fresh
      let b := a.2.fresh
      let grant (p : Port) (q : Nat) (x : Pool) : Pool :=
        { x with freed := 0, granted := x.held.length + announce p (ix 16 q) }
      let s3 := b.2.modPort pt fun p => { p with
        phase := 1, txLanes := tx, rxLanes := rx, nonce := (b.1.setWidth 128 : BitVec 128) ++ a.1, pools := p.pools.mapIdx fun q x => grant p q x }
      let pl := hagglePayload s3 pt 1 0 []
      .next (emitHaggle pt { blankFrame with typ := 3, len := 224, payload := pl } (s3.modPort pt fun p => { p with ownHello := pl }))

/-- The partner's HELLO (R317, R325 step 4, R328, R343); one of another partner discards what is held for the old one. -/
def onHello (pt : Fin 16) (f : Frame) (s : State) : State :=
  let p := s.port pt
  let cs := (List.range 16).map (hCredit f)
  if p.state ≠ 1 || p.phase ≠ 1 then s
  else if cs.any (fun c => c = 0 || 127 < c) || 1024 < cs.foldl (· + ·) 0 then portBlock pt 7 (violation pt 1 true f s)
  else if bits f.version 4 4 ≠ bits ownVersion 4 4 then portBlock pt 1 (s.setPort pt { p with verPartner := f.version })
  else
    let same := samePartner p f
    let again := same && p.resume && (pay f 0x12 2) / 2 ^ 15 = 1
    let pool (q : Nat) (x : Pool) : Pool := { x with credit := hCredit f q, spent := 0, lastFreed := 0 }
    let s0 := if p.known && !same then discardHeld pt s else s
    let p := s0.port pt
    let s1 := s0.setPort pt { p with
      verPartner := f.version, verAgreed := if f.version < ownVersion then f.version else ownVersion,
      partnerSerial := hSerial f, partnerEpoch := hEpoch f, known := true, restarted := p.restarted || (p.known && !same),
      floorPartner := BitVec.ofNat 8 (pay f 0x11 1), partnerHello := f.payload, resume := again,
      buf := if again then p.buf else [], peerNext := hRxNext f, certWanted := p.certReq || (pay f 0x0D 1) / 2 % 2 = 1,
      pools := p.pools.mapIdx pool, phase := 2, samples := [] }
    forAll (List.range 64) (fun _ t => sendHaggle pt 2 t.time.mt [] t) s1

/-- A flight-time sample in 0.1 ns (R325 step 5). -/
def flightSample (p : Port) (now sent : Dword) : Nat :=
  (100 * p.rxLanes * (now - sent).toNat - 4096) / (20 * max 1 p.rxLanes)

/-- The smallest of the samples. -/
def flightOf (xs : List Nat) : Nat := xs.foldl min (xs.headD 0)

/-- The certificate slot and key of the hub that serves a port (R326). -/
def hubKey (pt : Fin 16) : Nat := if pt.val < 8 then 1 else 2

/-- Send this side's chain and signature in chunks (R326). -/
def sendCert (pt : Fin 16) (s : State) : State :=
  let p := s.port pt
  let sig := Config.ecdsaSign (hubKey pt) (sha384 (p.partnerHello ++ p.ownHello))
  forAll (pieces 124 (certChain (hubKey pt) ++ fit 96 sig)) (fun c t => sendHaggle pt 4 0 c t) s

/-- All PINGs are answered: F stands, certificates or LINKED follow. -/
def flightDone (pt : Fin 16) (s : State) : State :=
  let p := s.port pt
  let F := flightOf p.samples
  let s1 := s.setPort pt { p with flight := BitVec.ofNat 16 (min F 0xFFFF), samples := [] }
  if 3000 < F then portBlock pt 2 s1
  else if p.certWanted then sendCert pt (s1.modPort pt fun p => { p with phase := 4, signalAt := s.ns })
  else goLinked pt s1

/-- An ECHO adds a sample (R325 step 5). -/
def onEcho (pt : Fin 16) (f : Frame) (s : State) : State :=
  let p := s.port pt
  if p.state ≠ 1 || p.phase ≠ 2 then s
  else
    let s1 := s.setPort pt { p with samples := p.samples ++ [flightSample p s.time.mt (hSend f)] }
    if p.samples.length + 1 < 64 then s1 else flightDone pt s1

/-- A CERT chunk; once chain and signature are whole they are checked (R326; log 10). -/
def onCert (pt : Fin 16) (f : Frame) (s : State) : State :=
  let p := s.port pt
  let bs := p.cert ++ (f.payload.drop 0x64).take 124
  let n := fieldAt bs 0 2
  if p.state ≠ 1 || p.phase < 1 then s
  else
    let s1 := s.setPort pt { p with cert := bs }
    if p.phase ≠ 4 || bs.length < n + 96 then s1
    else
      let ok : Bool := match Config.chainKey (bs.take n) with
        | some k => Config.ecdsaVerify k (sha384 (p.ownHello ++ p.partnerHello)) ((bs.drop n).take 96)
        | none => false
      if ok then goLinked pt (s1.modPort pt fun p => { p with certOk := true }) else portBlock pt 3 s1

/-- The partner's JOIN (R327). -/
def onJoin (pt : Fin 16) (f : Frame) (s : State) : State :=
  let p := s.port pt
  if !(p.state = 2 || (p.state = 7 && 4 ≤ p.blockCause.toNat && p.blockCause.toNat ≤ 6)) then s
  else
    let fl := pay f 0x0D 1
    let s1 := s.setPort pt { p with
      state := 2, blockCause := 0, phase := 6, partnerBound := fl % 2 = 1, partnerCross := fl / 4 % 2 = 1,
      partnerAddr := BitVec.ofNat 16 (pay f 0x0E 2), partnerDim := BitVec.ofNat 8 (pay f 0x10 1),
      floorPartner := BitVec.ofNat 8 (pay f 0x11 1) }
    tryJoin pt s1

/-- A HAGGLE frame of a PHASE arrives; a HELLO on a port that had a link, or of another partner while one haggles, says the partner haggles anew, and a JOIN at an UP port
that its binding changed, so that step 8 is made again (R325, R331, R343; log 31). -/
def recvHaggle (pt : Fin 16) (f : Frame) (phase : Nat) (eff : State → State) (s : State) : State :=
  let p := s.port pt
  if !p.receives || f.typ ≠ 3 || hPhase f ≠ phase then s
  else if phase = 1 && (p.state = 2 || (p.state = 1 && 2 ≤ p.phase)) && p.known && !samePartner p f
    && (frameFault { p with verAgreed := 0 } f).isNone then startHaggle pt s
  else if !p.haggling then
    (if phase = 1 && (frameFault { p with verAgreed := 0 } f).isNone then startHaggle pt s
    else if phase = 5 && p.state = 3 && f.seq = p.hgRx then
      recvSequenced pt f eff (sendJoin pt (s.setPort pt { p with state := 2, phase := 5 }))
    else s)
  else recvSequenced pt f eff s

/-- HELLO (R325). -/
def execHelloFrame (pt : Fin 16) (f : Frame) (s : State) : Res := .next (recvHaggle pt f 1 (onHello pt f) s)

/-- PING (R325): answered by an ECHO in its slot. -/
def execPingFrame (pt : Fin 16) (f : Frame) (s : State) : Res :=
  .next (recvHaggle pt f 2 (fun t => sendHaggle pt 3 (hSend f) [] t) s)

/-- ECHO (R325). -/
def execEchoFrame (pt : Fin 16) (f : Frame) (s : State) : Res := .next (recvHaggle pt f 3 (onEcho pt f) s)

/-- CERT (R326). -/
def execCertFrame (pt : Fin 16) (f : Frame) (s : State) : Res := .next (recvHaggle pt f 4 (onCert pt f) s)

/-- CERT_TIMEOUT (R326): 70 ms without the partner's answer. -/
def execCertTimeout (pt : Fin 16) (s : State) : Res :=
  let p := s.port pt
  if p.state = 1 && p.phase = 4 && p.signalAt + 70000000 ≤ s.ns then .next (portBlock pt 3 s) else .next s

/-- JOIN_FRAME (R327). -/
def execJoinFrame (pt : Fin 16) (f : Frame) (s : State) : Res := .next (recvHaggle pt f 5 (onJoin pt f) s)

/-! ### Retrain (R339, R342) -/

/-- Send the sixteen frames of PHASE 6. -/
def sendRetrains (pt : Fin 16) (s : State) : State :=
  forAll (List.range 16) (fun _ t => sendRetrain pt 6 t.time.mt t) (s.modPort pt fun p => { p with samples := [] })

/-- An UP port retrains. -/
def enterRetrain (pt : Fin 16) (s : State) : State :=
  if (s.port pt).state ≠ 3 then s
  else sendRetrains pt ((s.modPort pt fun p => { p with state := 4 }).setTime { s.time with fifoPort := s.time.fifoPort.set pt 4 })

/-- The lanes are aligned again: UP, replaying from the partner's RX_NEXT (R339 step 6, R342); LINKED when the binding ended meanwhile
(R330). -/
def retrainDone (pt : Fin 16) (s : State) : State :=
  let p := s.port pt
  let F := flightOf p.samples
  let s1 := s.setPort pt { p with flight := BitVec.ofNat 16 (min F 0xFFFF), samples := [] }
  if 3000 < F then portBlock pt 2 s1
  else
    let cut : List TxEntry := match ackCovers p.buf p.txSeq (p.peerNext - 1) with
      | some d => p.buf.drop d
      | none => p.buf
    let s2 := s1.modPort pt fun p => { p with state := 3, buf := cut, retrySince := none, fruitless := 0, nakReplay := none }
    let s3 := if cut.isEmpty then s2 else replayAll pt s2
    if s.mach.bound then s3 else unjoin pt s3

/-- A RETRAIN frame arrives: from another partner it starts a full haggle (R339, R343). -/
def recvRetrain (pt : Fin 16) (f : Frame) (phase : Nat) (eff : State → State) (s : State) : State :=
  let p := s.port pt
  if !p.receives || f.typ ≠ 4 || hPhase f ≠ phase || !(3 ≤ p.state.toNat && p.state.toNat ≤ 5) then s
  else match frameFault p f with
    | some _ => recvPlain pt f id s
    | none => if samePartner p f then recvPlain pt f eff s else startHaggle pt s

/-- RETRAIN (R339): answered with PHASE 7, which returns T_SEND. -/
def execRetrainFrame (pt : Fin 16) (f : Frame) (s : State) : Res :=
  .next (recvRetrain pt f 6 (fun t =>
    let t1 := enterRetrain pt t
    sendRetrain pt 7 (hSend f) (t1.modPort pt fun p => { p with peerNext := hRxNext f })) s)

/-- RETRAIN_ECHO (R339): the sixteenth sample ends the retrain. -/
def execRetrainEcho (pt : Fin 16) (f : Frame) (s : State) : Res :=
  .next (recvRetrain pt f 7 (fun t =>
    let p := t.port pt
    if p.state = 3 then t
    else
      let t1 := t.setPort pt { p with samples := p.samples ++ [flightSample p t.time.mt (hSend f)], peerNext := hRxNext f }
      if p.samples.length + 1 < 16 then t1 else retrainDone pt t1) s)

/-- RETRAIN_PATTERN_DETECT (R339 step 3). -/
def execRetrainPatternDetect (pt : Fin 16) (s : State) : Res := .next (enterRetrain pt s)

/-- A lane of a direction fails in service: it leaves the lanes in use, and the port retrains or goes DOWN (R339, R340). -/
def failLane (pt : Fin 16) (rx : Bool) (lane : Fin 9) (s : State) : State :=
  let p := s.port pt
  let old := if rx then p.rxFailed else p.txFailed
  if !(p.state = 3 || p.state = 4) || old.getLsbD lane.val then s
  else
    let now := old ||| BitVec.ofNat 9 (2 ^ lane.val)
    let full := widthOf now
    let w := if p.narrowed && full ≠ 0 then 4 else full
    let p1 : Port := if rx then { p with rxFailed := now, rxLanes := w } else { p with txFailed := now, txLanes := w }
    let s1 := setDegraded (portEvent pt 0x0503 1 [BitVec.ofNat 8 lane.val, BitVec.ofNat 8 (b2n rx), BitVec.ofNat 8 w] (s.setPort pt p1))
    if w = 0 then portDown pt 1 s1 else enterRetrain pt s1

/-- LANE_FAIL (R339, R340): a lane loses lock, or the partner reports one; `rx` says the lane comes from the partner. -/
def execLaneFail (pt : Fin 16) (rx : Bool) (lane : Fin 9) (s : State) : Res := .next (failLane pt rx lane s)

/-- The corrected symbols of a lane within a millisecond that make it fail (R339, R354). -/
def laneLimit (p : Port) : Nat := 2 ^ (if 10 ≤ p.laneFailThr.toNat && p.laneFailThr.toNat ≤ 24 then p.laneFailThr.toNat else 20)

/-- Corrected symbols, by their place in the direction's stream, are counted, in all and by lane; a lane that reaches its threshold within
the millisecond fails (R339, R357). -/
def countFixed (pt : Fin 16) (fixed : List Nat) (s : State) : State :=
  let p := s.port pt
  let w := s.ns / 1000000
  let old := if p.laneWindow = w then p.laneFixed else Vector.replicate 9 0
  let new := fixed.foldl (fun (v : Vector Nat 9) i => let l := laneOf p.rxFailed p.rxLanes i; v.set l (v[l] + 1)) old
  forAll ((List.finRange 9).filter fun l => old[l] < laneLimit p && laneLimit p ≤ new[l]) (failLane pt true)
    (s.setPort pt { p with corrected := satAdd p.corrected fixed.length, laneFixed := new, laneWindow := w })

/-- IDLE_FRAME (R311): its ACK and CREDIT; `fixed` are the symbols corrected in its codewords, by their place in the stream (R309, R357). -/
def execIdleFrame (pt : Fin 16) (f : Frame) (fixed : List Nat) (s : State) : Res :=
  if !(s.port pt).receives || !(f.typ = 0 || 5 ≤ f.typ.toNat) then .next s
  else .next (recvPlain pt f id (countFixed pt fixed s))

/-- RETRY_ATTEMPT (R342): every 1 ms. -/
def execRetryAttempt (pt : Fin 16) (s : State) : Res :=
  let p := s.port pt
  if p.state ≠ 5 || s.ns < p.retryAt + 1000000 then .next s
  else .next (sendRetrains pt (s.setPort pt { p with retryAt := s.ns }))

/-- RETRY_EXPIRY (R345): 100 ms without success; held and unacknowledged frames are discarded. -/
def execRetryExpiry (pt : Fin 16) (s : State) : Res :=
  match (s.port pt).retrySince with
  | some t => .next (if (s.port pt).state = 5 && t + 100000000 ≤ s.ns then portDown pt 2 (discardHeld pt s) else s)
  | none => .next s

/-- A width step to four lanes, or back (R341): refused at 7/8 width, and made on UP ports alone. -/
def widthStep (down : Bool) (pt : Fin 16) (s : State) : State :=
  let p := s.port pt
  if p.state ≠ 3 then s
  else if down then
    (if p.txLanes = 8 && p.rxLanes = 8 then enterRetrain pt (s.setPort pt { p with txLanes := 4, rxLanes := 4, narrowed := true }) else s)
  else if p.narrowed then
    enterRetrain pt (s.setPort pt { p with txLanes := widthOf p.txFailed, rxLanes := widthOf p.rxFailed, narrowed := false })
  else s

/-! ### Register writes (R354, R359) -/

/-- A write of PORT_CFG. -/
def portCfgWrite (pt : Fin 16) (w : Word) (s : State) : State :=
  let clear (p : Port) : Port := { p with
    corrected := 0, uncorrectable := 0, replays := 0, viol := Vector.replicate 5 0, reproofs := 0, quarantines := 0 }
  let s1 := s.modPort pt fun p => { (if w.getLsbD 4 then clear p else p) with
    enable := w.getLsbD 0, certReq := w.getLsbD 1, laneFailThr := bits w 8 5 }
  if !w.getLsbD 0 then portDown pt 3 s1
  else if w.getLsbD 3 && (s1.port pt).state ≠ 0 then startHaggle pt s1
  else if w.getLsbD 2 then enterRetrain pt s1
  else s1

/-- PORT_ENABLE (R354). -/
def execPortEnable (pt : Fin 16) (w : Word) (s : State) : Res := .next (if w.getLsbD 0 then portCfgWrite pt w s else s)

/-- PORT_DISABLE (R354). -/
def execPortDisable (pt : Fin 16) (w : Word) (s : State) : Res := .next (if w.getLsbD 0 then s else portCfgWrite pt w s)

/-- PORT_RETRAIN (R354). -/
def execPortRetrain (pt : Fin 16) (w : Word) (s : State) : Res := .next (if w.getLsbD 2 then portCfgWrite pt w s else s)

/-- REHAGGLE (R354). -/
def execRehaggle (pt : Fin 16) (w : Word) (s : State) : Res := .next (if w.getLsbD 3 then portCfgWrite pt w s else s)

/-- PORT_CNT_CLEAR (R354). -/
def execPortCntClear (pt : Fin 16) (w : Word) (s : State) : Res := .next (if w.getLsbD 4 then portCfgWrite pt w s else s)

/-- A write of PORT_SWEEP_CTRL, while debug is enabled (R359). -/
def sweepCtrlWrite (pt : Fin 16) (w : Word) (s : State) : State :=
  let p := s.port pt
  let lane : BitVec 4 := bits w 0 4
  if !s.sec.dbgActive then s
  else if !w.getLsbD 4 then s.setPort pt { p with sweepLane := lane }
  else if p.sweepState = 1 then s
  else if 9 ≤ lane.toNat then s.setPort pt { p with sweepLane := lane, sweepState := 3 }
  else s.setPort pt { p with sweepLane := lane, sweepState := 1 }

/-- LANE_SWEEP_START (R359). -/
def execLaneSweepStart (pt : Fin 16) (w : Word) (s : State) : Res := .next (if w.getLsbD 4 then sweepCtrlWrite pt w s else s)

/-- LANE_SWEEP_DONE (R359): the margins measured. -/
def execLaneSweepDone (pt : Fin 16) (v h : Byte) (s : State) : Res :=
  let p := s.port pt
  .next (if p.sweepState = 1 then s.setPort pt { p with sweepState := 2, vMargin := v, hMargin := h } else s)

end Sys2Proof.Machine
end

