-- ==== Sys2Proof/Machine/Messages.lean ====
section
/-! DEFINITION. What messages for this module do (R320 to R323, R343, R344), reception into the pools (R317, R318), collective
messages (R374), margin sweeps (R349, R350). -/
namespace Sys2Proof.Machine
open Sys2Proof

/-! ### Answers -/

/-- REJECT with a reason and a port (R320, R334). -/
def rejectFrame (s : State) (f : Frame) (reason port : Nat) : Frame :=
  respFrame s 0x13 f.src f.tag [BitVec.ofNat 8 reason, BitVec.ofNat 8 port]

/-- Whether a request's epoch is not this module's (R344). -/
def staleEpoch (s : State) (f : Frame) : Bool := f.destEpoch ≠ 0 && f.destEpoch ≠ bits s.boot.epoch 0 16

/-- Why a request for n bytes is rejected (R320, R344): restarted, unreachable, out of range. -/
def reqFault (s : State) (f : Frame) (n : Nat) : Option Nat :=
  if staleEpoch s f then some 1
  else match framePlace f with
    | .ls c a => if lsEnd < a + n then some 3 else if !coreServes s c.val then some 2 else none
    | .gddr a => if gdCapacity s < a + n then some 3 else none
    | _ => some 3

/-! ### WRITE and READ (R320, R321) -/

/-- The record of a WRITE transaction that arrives; one 200 ms old is gone (R323). -/
def inboundOf (s : State) (f : Frame) : Inbound :=
  match s.mach.inbound.find? fun x => x.src = f.src && x.tag = f.tag && s.ns < x.at_ + 200000000 with
  | some x => x
  | none => { src := f.src, tag := f.tag, left := f.count.toNat, dead := false, at_ := s.ns }

/-- Keep a record while frames are still to come. -/
def setInbound (x : Inbound) (s : State) : State :=
  let rest := s.mach.inbound.filter fun y => !(y.src = x.src && y.tag = x.tag)
  s.setMach { s.mach with inbound := if x.left = 0 then rest else rest ++ [x] }

/-- A WRITE frame: its bytes are stored, marked when POISON is set; the last one answers WRITE_DONE. -/
def onWrite (f : Frame) (s : State) : State :=
  let n := f.len.toNat
  let x := inboundOf s f
  let y : Inbound := { x with left := x.left - 1 }
  match reqFault s f n with
  | some reason =>
    let s1 := setInbound { y with dead := true } s
    if x.dead then s1 else inject (rejectFrame s f reason 0) s1
  | none =>
    let s1 := setInbound y s
    if x.dead then s1
    else
      let p := framePlace f
      let s2 := acceptAt (.peer f.src f.tag) 0 true p n (writePlace p ((f.payload.take n).map fun b => (b, f.poison)) s1)
      if y.left = 0 then inject (respFrame s 0x11 f.src f.tag []) s2 else s2

/-- A READ: its data is read at class 0, and answered once the reads are served. -/
def onRead (f : Frame) (s : State) : State :=
  let n := pay f 0 4
  if txnBytes < n then inject (rejectFrame s f 4 0) s
  else match reqFault s f n with
    | some reason => inject (rejectFrame s f reason 0) s
    | none =>
      let s1 := acceptAt (.peer f.src f.tag) 0 false (framePlace f) n s
      servePeers (s1.setMach { s1.mach with serving := s1.mach.serving ++ [f] })

/-! ### Responses -/

/-- The transaction a response belongs to. -/
def txnFor (s : State) (f : Frame) : Option Txn := s.mach.txns.find? fun t => t.tag = f.tag

/-- A transaction leaves the list and its owner hears of it. -/
def closeTxn (t : Txn) (status : Byte) (detail : Half) (s : State) : State :=
  txnEnded t status detail (s.setMach { s.mach with txns := s.mach.txns.filter fun x => x.tag ≠ t.tag })

/-- A response records its source's epoch (R344). -/
def noteEpoch (f : Frame) (s : State) : State := if f.destEpoch = 0 then s else recordEpoch f.src f.destEpoch s

/-- WRITE_DONE: the write is visible at its destination. -/
def onWriteDone (f : Frame) (s : State) : State :=
  match txnFor s f with
  | some t => if !t.isRead && t.dest = f.src then closeTxn t stOk 0 s else s
  | none => s

/-- The class of an owner's requests (R221). -/
def ownerClass (o : TxnOwner) : Nat := match o with
  | .desc _ _ => 2
  | _ => 0

/-- Bytes of READ_DATA go where the read's owner wants them; those that go on to another module are held until the read ends, so that one
WRITE takes its place (R151, R320). -/
def placeData (t : Txn) (off : Nat) (bs : List MByte) (s : State) : State :=
  let d := t.dstAddr + BitVec.ofNat 64 off
  if stageAddr ≤ d then
    let a := (d - stageAddr).toNat
    match t.owner with
    | .desc r idx => modCtx r idx (fun c => { c with stage := c.stage.putBytes a (plain bs) }) s
    | .porter cl id => modRun cl id (fun r => { r with stage := r.stage.putBytes a (plain bs) }) s
    | _ => s
  else match placeOf s d with
    | .remote _ _ =>
      let upd (x : Txn) : Txn := if x.tag = t.tag then { x with held := x.held ++ [(off, plain bs, bs.any fun b => b.2)] } else x
      s.setMach { s.mach with txns := s.mach.txns.map upd }
    | p => acceptAt t.owner (ownerClass t.owner) true p bs.length (writePlace p bs s)

/-- The data of a read that has ended goes on to another module in one WRITE; none goes while an unbind waits (R331). -/
def relayData (t : Txn) (s : State) : State :=
  match placeOf s t.dstAddr, txnFor s { blankFrame with tag := t.tag } with
  | .remote m low, some x =>
    if x.held.isEmpty then closeTxn t stOk 0 s
    else if s.mach.unbinding.isSome then closeTxn t stDegraded 0x0200 s
    else
      let bs := (List.range t.len).map fun i => match x.held.find? fun y => y.1 ≤ i && i < y.1 + y.2.1.length with
        | some y => (y.2.1.getD (i - y.1) 0, y.2.2)
        | none => (0, true)
      let s1 := s.setMach { s.mach with txns := s.mach.txns.filter fun y => y.tag ≠ t.tag }
      let s2 := match t.owner with
        | .porter cl id => modRun cl id (fun r => { r with txns := r.txns + 1 }) s1
        | _ => s1
      txnEnded t stOk 0 (startWrite t.owner m low bs s2)
  | _, _ => closeTxn t stOk 0 s

/-- Poison among a descriptor's data makes ERR_DATA_UNCORRECTED (R265, R321). -/
def notePoison (t : Txn) (n : Nat) (s : State) : State :=
  match t.owner with
  | .desc r idx => modCtx r idx (fun c => { c with
      status := if c.status < stUncorrected then stUncorrected else c.status,
      detail := if c.status ≤ stUncorrected then c.detail + BitVec.ofNat 16 ((n + 63) / 64) else c.detail }) s
  | _ => s

/-- READ_DATA: part of a read. -/
def onReadData (f : Frame) (s : State) : State :=
  match txnFor s f with
  | none => s
  | some t =>
    let n := f.len.toNat
    let off := f.addr.toNat
    if !t.isRead || t.dest ≠ f.src || t.len < off + n then s
    else
      let t1 : Txn := { t with got := t.got + n }
      let upd (x : Txn) : Txn := if x.tag = t.tag then t1 else x
      let s1 := s.setMach { s.mach with txns := s.mach.txns.map upd }
      let s2 := placeData t off ((f.payload.take n).map fun b => (b, f.poison)) s1
      let s3 := if f.poison then notePoison t n s2 else s2
      if t1.got < t.len then s3 else relayData t1 s3

/-- REJECT: the transaction or step ends as its reason says (R320, R334, R344, R375). -/
def onReject (f : Frame) (s : State) : State :=
  let reason := pay f 0 1
  match txnFor s f with
  | some t =>
    let y : Byte × Half := if reason = 1 then (stRestarted, t.dest)
      else if reason = 2 then (stDegraded, BitVec.ofNat 16 (0x0200 + pay f 1 1)) else (stMalformed, 0)
    closeTxn t y.1 y.2 s
  | none =>
    if reason = 1 then failTag f.tag stRestarted f.src s
    else if reason = 2 then failTag f.tag stDegraded (BitVec.ofNat 16 (0x0200 + pay f 1 1)) s
    else failTag f.tag stMalformed 0 s

/-- RESTART_NOTICE: the first for an address and epoch (R343). -/
def onNotice (pt : Option (Fin 16)) (f : Frame) (s : State) : State :=
  let addr : Half := BitVec.ofNat 16 (pay f 0 2)
  let epoch : Word := BitVec.ofNat 32 (pay f 2 4)
  if s.mach.notices.contains (addr, epoch) then s else noteRestart addr epoch pt s

/-! ### Margin sweeps (R349, R350) -/

/-- One hop's measurement: both addresses, the port, an error exponent and the margins, which the eye alone decides (log 7). -/
def hopResult (s : State) (pt : Fin 16) : List Byte × State :=
  let a := s.fresh
  let b := a.2.fresh
  (leBytes s.mach.logical.toNat 2 ++ leBytes (s.port pt).partnerAddr.toNat 2
    ++ [BitVec.ofNat 8 pt.val, bits b.1 32 8] ++ List.replicate 6 0 ++ leBytes a.1.toNat 32 ++ leBytes b.1.toNat 4, b.2)

/-- Measure a hop at this module: a cause of R349, or the result. -/
def measureHop (port : Nat) (s : State) : Nat × List Byte × State :=
  if !s.sec.dbgActive then (3, [], s)
  else if 16 ≤ port || (s.port (ix 16 port)).state ≠ 3 then (1, [], s)
  else (0, hopResult s (ix 16 port))

/-- The sweep ends: results, then the header, are written (R349, R350); with no transaction free for a remote destination it waits. -/
def endSweep (x : Sweep) (cause : Nat) (s : State) : State :=
  match ctxOf s x.ring x.idx with
  | none => s.setMach { s.mach with sweep := none }
  | some c =>
    let d := dQ c.word 0x10
    let head := [BitVec.ofNat 8 (b2n (cause ≠ 0)), BitVec.ofNat 8 (if cause = 0 then 0 else x.hop), BitVec.ofNat 8 cause,
      BitVec.ofNat 8 x.results.length] ++ leBytes x.tStart.toNat 8
    let out (off : Nat) (bs : List Byte) (t : State) : State :=
      writeOut (.desc x.ring x.idx) 2 (d + BitVec.ofNat 64 off) (bs.map fun b => (b, false)) t
    fitTxns (s.setMach { s.mach with sweep := some { x with ended := some cause } })
      (endOrWait x.ring x.idx stOk 0 0 (out 0 head (out 0x80 x.results.flatten (s.setMach { s.mach with sweep := none }))))

/-- The module a hop's result leads to. -/
def nextModule (res : List Byte) : Half := BitVec.ofNat 16 (fieldAt res 2 2)

/-- Go on with a sweep: hops of this module are measured at once, others are asked for (R350). -/
def runSweep : Nat → Sweep → State → State
  | 0, x, s => endSweep x 0 s
  | k + 1, x, s =>
    match x.chain[x.hop]? with
    | none => endSweep x 0 s
    | some port =>
      if x.cur = s.mach.logical || !s.mach.bound then
        let y := measureHop port s
        if y.1 ≠ 0 then endSweep x y.1 y.2.2
        else runSweep k { x with hop := x.hop + 1, cur := nextModule y.2.1, results := x.results ++ [y.2.1] } y.2.2
      else
        let f : Frame :=
          { blankFrame with
            vc := 3, op := 0x31, dest := x.cur, len := 2, destEpoch := epochOf s x.cur,
            payload := fit frameBytes [BitVec.ofNat 8 x.hop, BitVec.ofNat 8 port] }
        inject f (s.setMach { s.mach with sweep := some { x with at_ := s.ns } })

/-- SWEEP_REQ: one hop is measured for another module. -/
def onSweepReq (f : Frame) (s : State) : State :=
  let y := measureHop (pay f 1 1) s
  inject { blankFrame with
    vc := 3, op := 0x32, dest := f.src, len := 50, destEpoch := epochOf s f.src,
    payload := fit frameBytes ([BitVec.ofNat 8 (pay f 0 1), BitVec.ofNat 8 y.1] ++ fit 48 y.2.1) } y.2.2

/-- SWEEP_RESULT: the hop's measurements, or the cause it broke for. -/
def onSweepResult (f : Frame) (s : State) : State :=
  match s.mach.sweep with
  | none => s
  | some x =>
    let res := (f.payload.drop 2).take 48
    if pay f 0 1 ≠ x.hop || f.src ≠ x.cur || x.ended.isSome then s
    else if pay f 1 1 ≠ 0 then endSweep x (pay f 1 1) s
    else runSweep 65 { x with hop := x.hop + 1, cur := nextModule res, results := x.results ++ [res] } s

/-- SWEEP_HOP_TIMEOUT (R349): 10 ms without an answer; a sweep that has ended tries its results again. -/
def execSweepHopTimeout (r : Fin 256) (n : Nat) (s : State) : Res :=
  match (s.ring r).started[n]?, s.mach.sweep with
  | some c, some x =>
    if x.ring = r && x.idx = c.idx && x.at_ + 10000000 ≤ s.ns then .next (endSweep x (x.ended.getD 2) s) else .next s
  | _, _ => .next s

/-- Why a sweep is refused (R349, R265). -/
def sweepFault (s : State) (w : DescWord) : Option (Byte × Half) :=
  let len := (dW3 w).toNat
  worst [failIf (len = 0 || 64 < len) stMalformed 0x0C, opFault s (dQ w 0x10) (0x80 + 48 * len) 0x10,
    failIf (dQ w 0x18 ≠ 0) stMalformed 0x18]

/-- A sweep descriptor whose buffer has been read begins at its hop, with the results before it (R349). -/
def beginSweep (action : Nat) (r : Fin 256) (c : DescCtx) (bs : List Byte) (s : State) : State :=
  let len := (dW3 c.word).toNat
  let done := if action = 3 then min (fieldAt bs 3 1) len else 0
  let old := (List.range done).map fun i => (bs.drop (0x80 + 48 * i)).take 48
  let t0 : Dword := if action = 3 then BitVec.ofNat 64 (fieldAt bs 4 8) else s.time.mt
  let cur := match old.getLast? with
    | some x => nextModule x
    | none => s.mach.logical
  let chain := (List.range len).map fun i => fieldAt bs (0x40 + i) 1
  let x : Sweep :=
    { ring := r, idx := c.idx, chain := chain, hop := done, cur := cur, at_ := s.ns, tStart := t0, results := old, ended := none }
  runSweep 65 x (issueDesc r c.idx 0 0 0 s)

/-- A sweep descriptor starts (R349). -/
def startSweep (action : Nat) (r : Fin 256) (n : Nat) (s : State) : State :=
  match descAt s r n 0x70 with
  | none => s
  | some c =>
    let w := c.word
    let size := 0x80 + 48 * (dW3 w).toNat
    if (bits (dW2 w) 0 8).toNat ≠ action || s.mach.sweep.isSome then s
    else match sweepFault s w with
      | some f => finishDesc r c.idx f.1 f.2 0 s
      | none => withOperand r c 0 2 (dQ w 0x10) size (fun mb t => beginSweep action r c (plain mb) t) s

/-- DIAG_MARGIN_SWEEP (R349). -/
def execDiagMarginSweep (r : Fin 256) (n : Nat) (s : State) : Res := .next (startSweep 2 r n s)

/-- DIAG_RESUME_SWEEP (R350). -/
def execDiagResumeSweep (r : Fin 256) (n : Nat) (s : State) : Res := .next (startSweep 3 r n s)

/-! ### Reception (R315, R317, R318) -/

/-- Collective messages that wait in a port's pool. -/
def waitingIn (s : State) (pt q : Fin 16) : Nat := (s.coll.waiting.filter fun x => x.1 = pt && poolOf x.2 = q).length

/-- A collective message of a stale epoch is discarded; its transaction is answered with REJECT once (R344). -/
def refuseStale (f : Frame) (s : State) : State :=
  let x := inboundOf s f
  let s1 := setInbound { x with left := 1, dead := true } s
  if x.dead then s1 else inject (rejectFrame s f 1 0) s1

/-- What a message for this module does, by its VC and OP; true when its buffer is free again. -/
def effectOf (pt : Fin 16) (f : Frame) (s : State) : State × Bool :=
  if f.vc = 2 then
    (if staleEpoch s f then (refuseStale f s, true) else collArrive pt f s)
  else if f.vc = 1 then
    let s1 := noteEpoch f s
    (if f.op = 0x11 then onWriteDone f s1 else if f.op = 0x12 then onReadData f s1 else onReject f s1, true)
  else if f.vc = 0 then (if f.op = 0x01 then onWrite f s else onRead f s, true)
  else (if f.op = 0x30 then onNotice (some pt) f s else if f.op = 0x31 then onSweepReq f s else if f.op = 0x32 then onSweepResult f s
    else s, true)

/-- An accepted message: refused where its pool is full, taken when it is for this module, else held to be forwarded. -/
def acceptMsg (pt : Fin 16) (f : Frame) (eff : State → State × Bool) (s : State) : State :=
  let q := poolOf f
  let x := (s.port pt).pools[q]
  if x.granted ≤ x.held.length + waitingIn s pt q then violation pt 3 true f s
  else if f.dest = s.mach.logical || (f.vc = 3 && f.op = 0x30) then
    let y := eff s
    if y.2 then freeBuffer pt q y.1 else y.1
  else s.setPort pt { s.port pt with
    pools := (s.port pt).pools.set q { x with held := x.held ++ [⟨f, none, false⟩] } }

/-- A MESSAGE frame of a row's VC and OP arrives at an UP port; a frame that breaks the protocol is refused whatever it names. -/
def recvMsg (pt : Fin 16) (f : Frame) (vc op : Nat) (eff : State → State × Bool) (s : State) : State :=
  let p := s.port pt
  let named : Bool := f.typ = 1 && f.vc.toNat = vc && f.op.toNat = op
  if !p.receives || p.state ≠ 3 || f.typ ≠ 1 || !(named || (frameFault p f).isSome) then s
  else recvSequenced pt f (acceptMsg pt f eff) s

/-- WRITE (R320). -/
def execWriteMsg (pt : Fin 16) (f : Frame) (s : State) : Res := .next (recvMsg pt f 0 0x01 (effectOf pt f) s)

/-- READ (R320). -/
def execReadMsg (pt : Fin 16) (f : Frame) (s : State) : Res := .next (recvMsg pt f 0 0x02 (effectOf pt f) s)

/-- WRITE_DONE (R320). -/
def execWriteDone (pt : Fin 16) (f : Frame) (s : State) : Res := .next (recvMsg pt f 1 0x11 (effectOf pt f) s)

/-- READ_DATA (R320). -/
def execReadData (pt : Fin 16) (f : Frame) (s : State) : Res := .next (recvMsg pt f 1 0x12 (effectOf pt f) s)

/-- REJECT (R320). -/
def execRejectMsg (pt : Fin 16) (f : Frame) (s : State) : Res := .next (recvMsg pt f 1 0x13 (effectOf pt f) s)

/-- RESTART_NOTICE (R343). -/
def execRestartNotice (pt : Fin 16) (f : Frame) (s : State) : Res := .next (recvMsg pt f 3 0x30 (effectOf pt f) s)

/-- SWEEP_REQ (R350). -/
def execSweepReq (pt : Fin 16) (f : Frame) (s : State) : Res := .next (recvMsg pt f 3 0x31 (effectOf pt f) s)

/-- SWEEP_RESULT (R350). -/
def execSweepResult (pt : Fin 16) (f : Frame) (s : State) : Res := .next (recvMsg pt f 3 0x32 (effectOf pt f) s)

/-- STEP_OPEN (R365). -/
def execStepOpen (pt : Fin 16) (f : Frame) (s : State) : Res := .next (recvMsg pt f 2 0x20 (effectOf pt f) s)

/-- RS_DATA (R370). -/
def execRsData (pt : Fin 16) (f : Frame) (s : State) : Res := .next (recvMsg pt f 2 0x21 (effectOf pt f) s)

/-- AG_DATA (R367, R368). -/
def execAgData (pt : Fin 16) (f : Frame) (s : State) : Res := .next (recvMsg pt f 2 0x22 (effectOf pt f) s)

/-- BC_DATA (R367, R368). -/
def execBcData (pt : Fin 16) (f : Frame) (s : State) : Res := .next (recvMsg pt f 2 0x23 (effectOf pt f) s)

/-- PIPE_READY (R369). -/
def execPipeReady (pt : Fin 16) (f : Frame) (s : State) : Res := .next (recvMsg pt f 2 0x24 (effectOf pt f) s)

/-- PIPE_DATA (R369). -/
def execPipeData (pt : Fin 16) (f : Frame) (s : State) : Res := .next (recvMsg pt f 2 0x25 (effectOf pt f) s)

/-- ARRIVE (R365, R369, R376). -/
def execArriveMsg (pt : Fin 16) (f : Frame) (s : State) : Res := .next (recvMsg pt f 2 0x26 (effectOf pt f) s)

/-- NORM_PART (R385). -/
def execNormPart (pt : Fin 16) (f : Frame) (s : State) : Res := .next (recvMsg pt f 2 0x27 (effectOf pt f) s)

/-- TRANSACTION_TIMEOUT (R323): 200 ms have passed since the t-th transaction in flight sent its first frame. -/
def execTransactionTimeout (t : Nat) (s : State) : Res :=
  match s.mach.txns[t]? with
  | some x => .next (if x.sent && x.at_ + 200000000 ≤ s.ns then closeTxn x stTimeout x.dest s else s)
  | none => .next s

end Sys2Proof.Machine
end

