-- ==== Sys2Proof/Machine/Route.lean ====
section
/-! DEFINITION. Binding and unbinding (R330, R331), routing descriptions and minimal masks (R332, R333), forwarding by class (R334)
and service at an output (R475), and the machine registers (R352). -/
namespace Sys2Proof.Machine
open Sys2Proof

/-! ### Where a frame may go (R334) -/

/-- What the router does with a frame. -/
inductive Hop where
  | out (pt : Fin 16) (cls : BitVec 2)
  | wait
  | drop (pt : Fin 16)
deriving DecidableEq, Repr

/-- A port that is neither UP nor holds its frames for an UP to come counts as DOWN (log 32). -/
def Port.gone (p : Port) : Bool := p.state.toNat < 3 || p.state = 7

/-- Credit in pool (VC, class) at a port's partner, for a frame that may leave now. -/
def creditAt (s : State) (vc : Nat) (cls : Nat) (pt : Fin 16) : Nat :=
  let q := ix 16 (4 * (vc % 4) + cls)
  let p := s.port pt
  if p.canSend q then p.pools[q].credit else 0

/-- The first hop of a detour: the lowest UP port with class-2 credit. -/
def detour (s : State) (vc : Nat) : Hop :=
  match (List.finRange 16).find? fun p => 0 < creditAt s vc 2 p with
  | some p => .out p 2
  | none => .wait

/-- The port of a list with the most credit, ties to the lowest. -/
def mostCredit (s : State) (vc cls : Nat) (l : List (Fin 16)) : Option (Fin 16) :=
  l.foldl (fun best p =>
    let c := creditAt s vc cls p
    if c = 0 then best
    else match best with
      | none => some p
      | some b => if creditAt s vc cls b < c then some p else best) none

/-- The escape port in a class: it takes the frame, lets it wait, or is DOWN. -/
def escape (s : State) (vc : Nat) (cls : BitVec 2) (e : Fin 16) (down : Hop) : Hop :=
  if (s.port e).gone then down else if 0 < creditAt s vc cls.toNat e then .out e cls else .wait

/-- Adaptive routing with the class of its escape. -/
def adaptive (s : State) (vc : Nat) (cls esc : BitVec 2) (M : List (Fin 16)) (e : Fin 16) (down : Hop) : Hop :=
  match mostCredit s vc cls.toNat M with
  | some p => .out p cls
  | none =>
    if (s.port e).state = 3 then (if 0 < creditAt s vc esc.toNat e then .out e esc else .wait)
    else if (s.port e).gone && M.all fun p => (s.port p).gone then down
    else .wait

/-- The hop of a frame for another module (R334); an ORDERED frame takes the escape path alone (R322). -/
def hopOf (s : State) (f : Frame) : Hop :=
  match s.mach.route with
  | none => .wait
  | some x =>
    let u := s.mach.logical
    let e := ix 16 (highBit u f.dest)
    let vc := f.vc.toNat
    if f.cls = 0 && !f.ordered then adaptive s vc 0 1 (x.mask u f.dest) e (detour s vc)
    else if f.cls.toNat ≤ 1 then escape s vc 1 e (detour s vc)
    else if f.cls = 2 && !f.ordered then adaptive s vc 2 3 (x.mask u f.dest) e (.drop e)
    else escape s vc 3 e (.drop e)

/-! ### Waiting frames (R317, R475) -/

/-- The output a pool's head holds credit for. -/
def headOut (s : State) (from_ : Fin 17) (q : Fin 16) : Option (Fin 16) :=
  match poolQueue s from_ q with
  | x :: _ => match hopOf s x.frame with
    | .out p _ => some p
    | _ => none
  | [] => none

/-- Note since when each pool's head has held credit (R475; log 32). -/
def noteHeads (s : State) : State :=
  forAll allQueues (fun y t =>
    match poolQueue t y.1 y.2 with
    | x :: l =>
      let since : Option Nat := if (headOut t y.1 y.2).isSome then some (x.since.getD t.ns) else none
      if since = x.since then t else setPool y.1 y.2 ({ x with since := since } :: l) t
    | [] => t) s

/-- The pools whose head goes out by a port, with the head. -/
def rivals (s : State) (pt : Fin 16) : List (Fin 17 × Fin 16 × QFrame) :=
  allQueues.filterMap fun y =>
    match poolQueue s y.1 y.2 with
    | x :: _ => if headOut s y.1 y.2 = some pt then some (y.1, y.2, x) else none
    | [] => none

/-- Whether a pool's head is the one its output serves now: the oldest urgent one, else the next pool in turn (R475). -/
def served (s : State) (pt : Fin 16) (q : Fin 16) (x : QFrame) : Bool :=
  let l := rivals s pt
  let urgent := l.filter fun y => y.2.2.urgent
  if !urgent.isEmpty then x.urgent && urgent.all fun y => x.since.getD 0 ≤ y.2.2.since.getD 0
  else
    let d (k : Fin 16) : Nat := (k.val + 15 - (s.port pt).rrPool.val) % 16
    l.all fun y => d q ≤ d y.2.1

/-- A pool's head is gone; a port frees its buffer (R318). -/
def popQueue (from_ : Fin 17) (q : Fin 16) (s : State) : State :=
  let s1 := setPool from_ q (poolQueue s from_ q).tail s
  if from_.val < 16 then freeBuffer (ix 16 from_.val) q s1 else s1

/-- A dropped frame: REJECT with reason 2 returns to its source; a response of this module has no transaction here that could end (R334;
log 32). -/
def dropFrame (f : Frame) (pt : Fin 16) (s : State) : State :=
  let r := { rejectFrame s f 2 pt.val with src := s.mach.logical }
  if f.src ≠ s.mach.logical then inject r s else if f.vc = 1 then s else onReject r s

/-- The 200 ms of a transaction of this module run from its first frame (R323). -/
def noteSent (f : Frame) (s : State) : State :=
  let upd (t : Txn) : Txn := if t.tag = f.tag && t.dest = f.dest && !t.sent then { t with sent := true, at_ := s.ns } else t
  if f.vc = 0 && f.src = s.mach.logical then s.setMach { s.mach with txns := s.mach.txns.map upd } else s

/-- A TIME_SYNC leaves with the market time of its last byte (R406). -/
def stampSync (s : State) (f : Frame) : Frame :=
  if f.vc = 3 && f.op = 0x38 then { f with payload := leBytes s.time.mt.toNat 8 ++ f.payload.drop 8 } else f

/-- FRAME_FORWARD (R334, R475). -/
def execFrameForward (from_ : Fin 17) (q : Fin 16) (s0 : State) : Res :=
  let s := noteHeads s0
  match poolQueue s from_ q with
  | [] => .next s
  | x :: _ =>
    let f := x.frame
    if f.dest = s.mach.logical then .next (effectOf 0 f (popQueue from_ q s)).1
    else match hopOf s f with
      | .wait => .next s
      | .drop p => .next (dropFrame f p (popQueue from_ q s))
      | .out p c =>
        if !served s p q x then .next s
        else
          let s1 := popQueue from_ q (s.modPort p fun y => { y with rrPool := q })
          if 39 ≤ f.hops.toNat then .next (dropFrame f p s1)
          else .next (noteSent f (emitMessage p { stampSync s f with cls := c, hops := f.hops + 1 } s1))

/-- ROUTER_FRAME_URGENT (R475): 1 µs with credit at its pool's head. -/
def execRouterFrameUrgent (from_ : Fin 17) (q : Fin 16) (s0 : State) : Res :=
  let s := noteHeads s0
  match poolQueue s from_ q with
  | [] => .next s
  | x :: l => match x.since with
    | some t => .next (if t + 1000 ≤ s.ns then setPool from_ q ({ x with urgent := true } :: l) s else s)
    | none => .next s

/-! ### Binding (R330, R331) -/

/-- Why a bind is refused, in the order of BIND_CAUSE. -/
def bindFault (s : State) : Option (BitVec 3) :=
  let m := s.mach
  let x := s.boot.straps
  if strapError x then some 1
  else if m.slot ≠ strapSlot x || m.block ≠ strapBlock x || m.standby ≠ strapStandby x then some 2
  else if m.standby && !s.sec.standbyCert then some 3
  else if m.bound then some 4
  else match m.route with
    | some r => if 2 ^ r.dims ≤ m.logical.toNat then some 5 else none
    | none => none

/-- BIND: the module is bound, or the bind is refused. -/
def bind (s : State) : State :=
  match bindFault s with
  | some c => s.setMach { s.mach with bindErr := true, bindCause := c }
  | none => rejoinAll (s.setMach { s.mach with bound := true })

/-- UNBIND: no new transactions begin. -/
def unbind (s : State) : State :=
  if s.mach.bound && s.mach.unbinding.isNone then s.setMach { s.mach with unbinding := some s.ns } else s

/-- A write of MACH_BIND (R352). -/
def machBindWrite (w : Dword) (s : State) : State :=
  let m := s.mach
  let s1 := if m.bound then s
    else s.setMach { m with logical := bits w 0 16, slot := bits w 16 6, block := bits w 22 10, standby := w.getLsbD 32 }
  let s2 := if w.getLsbD 33 then bind s1 else s1
  if w.getLsbD 34 then unbind s2 else s2

/-- BIND (R330). -/
def execMachBind (w : Dword) (s : State) : Res := .next (if w.getLsbD 33 then machBindWrite w s else s)

/-- UNBIND (R331). -/
def execMachUnbind (w : Dword) (s : State) : Res := .next (if w.getLsbD 34 then machBindWrite w s else s)

/-- UNBIND_WAIT_END (R331): nothing is in flight, or 1 ms has passed. -/
def execUnbindWaitEnd (s : State) : Res :=
  match s.mach.unbinding with
  | some t =>
    let busy := !s.mach.txns.isEmpty || !s.coll.runs.isEmpty || s.coll.groups.any fun g => g.steps.any fun x => x.phase ≠ 0
    if !busy || t + 1000000 ≤ s.ns then
      .next (forAll (List.finRange 16) unjoin (s.setMach { s.mach with bound := false, unbinding := none }))
    else .next s
  | none => .next s

/-! ### Routing descriptions (R332, R333) -/

/-- Bytes of the memory that holds a description: host memory or GDDR7; none where they cannot be read. -/
def routeBytes (s : State) (a : Dword) (n : Nat) : Option (List Byte) :=
  match placeOf s a with
  | .host h => some (s.host.getBytes h n)
  | .gddr g =>
    let bs := readPlace s (.gddr g) n
    if gdCapacity s < g + n || bs.any fun b => b.2 then none else some (plain bs)
  | _ => none

/-- Read and check a description: none refuses the load. -/
def readRoute (s : State) (a : Dword) : Option RouteDesc :=
  match routeBytes s a 16 with
  | none => none
  | some h =>
    let n := fieldAt h 0x0A 2
    let m := fieldAt h 4 1
    let floor : Byte := BitVec.ofNat 8 (fieldAt h 5 1)
    if fieldAt h 0 4 ≠ 0x52444B56 || 4096 < n || m = 0 || 16 < m || ownVersion < floor || bits floor 4 4 ≠ bits ownVersion 4 4 then none
    else match routeBytes s a (16 + 4 * n) with
      | none => none
      | some bs =>
        if (crc32c (bs.take 0x0C ++ [0, 0, 0, 0] ++ bs.drop 0x10)).toNat ≠ fieldAt bs 0x0C 4 then none
        else if s.mach.bound && 2 ^ m ≤ s.mach.logical.toNat then none
        else some {
          dims := m, floor := floor, cross := BitVec.ofNat 16 (fieldAt bs 6 2), gen := BitVec.ofNat 16 (fieldAt bs 8 2),
          down := (List.range n).map fun i => (fieldAt bs (0x10 + 4 * i) 2, fieldAt bs (0x12 + 4 * i) 1 % 16) }

/-- A write of MACH_ROUTE (R352). -/
def machRouteWrite (w : Dword) (s : State) : State :=
  let a : BitVec 58 := bits w 6 58
  let s1 := s.setMach { s.mach with routeAddr := a }
  if !w.getLsbD 0 || s.mach.loading.isSome then s1
  else match readRoute s1 (BitVec.ofNat 64 (64 * a.toNat)) with
    | some x => s1.setMach { s1.mach with loading := some (x, s.ns) }
    | none => s1.setMach { s1.mach with routeErr := true }

/-- ROUTE_LOAD (R332). -/
def execRouteLoad (w : Dword) (s : State) : Res := .next (if w.getLsbD 0 then machRouteWrite w s else s)

/-- ROUTE_MASKS_READY (R333): the description is in force; a bind made meanwhile is held to it (R330). -/
def execRouteMasksReady (s : State) : Res :=
  match s.mach.loading with
  | none => .next s
  | some (x, _) =>
    if s.mach.bound && 2 ^ x.dims ≤ s.mach.logical.toNat then .next (s.setMach { s.mach with loading := none, routeErr := true })
    else
      let s1 := s.setMach { s.mach with loading := none, route := some x }
      .next (rejoinAll (forAll (List.finRange 16) (fun pt t => t.modPort pt fun p => { p with crossed := crossedDim t pt.val }) s1))

/-! ### Register words (R352) -/

def machBind (m : Mach) : Dword :=
  BitVec.ofNat 64 (m.logical.toNat + 2 ^ 16 * m.slot.toNat + 2 ^ 22 * m.block.toNat + 2 ^ 32 * b2n m.standby)

def machRoute (m : Mach) : Dword := BitVec.ofNat 64 (64 * m.routeAddr.toNat)

def machStatus (m : Mach) : Word :=
  let r : Nat × Nat := match m.route with
    | some x => (x.gen.toNat, x.floor.toNat)
    | none => (0, 0)
  BitVec.ofNat 32 (b2n m.bound + 2 * b2n m.bindErr + 4 * m.bindCause.toNat + 2 ^ 5 * b2n m.route.isSome + 2 ^ 6 * b2n m.routeErr
    + 2 ^ 7 * b2n m.loading.isSome + 2 ^ 8 * r.1 + 2 ^ 24 * r.2)

end Sys2Proof.Machine
end

