-- ==== Sys2Proof/Machine/Market.lean ====
section
/-! DEFINITION. Market time: TIME_SYNC and following the root (R406 to R408), steps (R401, R407, R416), beacons and timekeepers
(R403, R404), mesochronous FIFOs (R399), loss of the reference (R410), and the registers of the time block (R416 to R419). -/
namespace Sys2Proof.Machine
open Sys2Proof

/-! ### Steps (R401, R404, R413) -/

/-- An interval start of a cluster has a step behind it. -/
def spoilStart (cl : Fin 48) (s : State) : State :=
  s.modCluster cl fun c => { c with sk := { c.sk with start := c.sk.start.map fun x => { x with stepped := true } } }

/-- Market time takes a value as a step; every timekeeper steps with it (R403, R407, R416). -/
def stepTime (goal : Dword) (load : Bool) (s : State) : State :=
  let t := s.time
  let era := t.era + 1
  let s1 := s.setTime { t with mt := goal, era := era, stepped := true, slew := 0 }
  let s2 := forAll (List.finRange 48) (fun cl u => spoilStart cl (u.modCluster cl fun c => { c with tkErr := 0 })) s1
  postEvent 0x0603 1 0 (leBytes (goal - t.mt).toNat 8 ++ [era, BitVec.ofNat 8 (b2n load)]) s2

/-! ### TIME_SYNC (R406, R407) -/

/-- STRATUM as the module reports it (R406, R408). -/
def stratumOf (t : TimeBase) : BitVec 4 := if t.root then 0 else if t.follow then t.stratum else 15

/-- SYNC (R407, R418). -/
def syncOf (t : TimeBase) : Bool := t.root || t.syncBit

/-- A TIME_SYNC message for an address. -/
def syncFrame (s : State) (dest : Half) : Frame :=
  let t := s.time
  { blankFrame with
    vc := 3, op := 0x38, dest := dest, len := 224, destEpoch := epochOf s dest,
    payload := fit frameBytes (leBytes t.mt.toNat 8 ++ leBytes (if t.root then s.mach.logical else t.rootAddr).toNat 2
      ++ [(stratumOf t).setWidth 8, BitVec.ofNat 8 (b2n t.locked + 2 * b2n t.holdover + 4 * b2n (syncOf t))]) }

/-- TIME_SYNC_SEND (R406): every 65,536 ns of market time. -/
def execTimeSyncSend (s : State) : Res :=
  let t := s.time
  if !(t.follow || t.root) || !t.running || (t.mt - t.lastSend).toNat < 65536 then .next s
  else
    .next (forAll ((List.finRange 16).filter fun p => (s.port p).state = 3)
      (fun p u => inject (syncFrame u (u.port p).partnerAddr) u) (s.setTime { t with lastSend := t.mt }))

/-- The upstream: lowest ROOT, then lowest STRATUM below 14, then lowest port (R407). -/
def chooseUpstream (s : State) : Option (Fin 16 × SyncMsg) :=
  (List.finRange 16).foldl (fun (best : Option (Fin 16 × SyncMsg)) p =>
    match (s.port p).tsync with
    | some m =>
      if (s.port p).state ≠ 3 || 14 ≤ m.stratum.toNat then best
      else match best with
        | none => some (p, m)
        | some b => if m.root < b.2.root || (m.root = b.2.root && m.stratum < b.2.stratum) then some (p, m) else best
    | none => best) none

/-- Act on an accepted offset (R407). -/
def acceptOffset (e : Int) (s : State) : State :=
  let t := s.time
  let far : Bool := 16384 < e.natAbs || !t.firstDone
  let s1 := s.setTime { t with
    syncBit := e.natAbs ≤ 16, offset := satInt 8 e, firstDone := true, aside := [], lastSample := some (if far then 0 else e),
    slew := if far then 0 else e }
  if far then stepTime (t.mt + BitVec.ofInt 64 e) false s1 else s1

/-- Take a sample, or set it aside until two more agree with it (R407). -/
def takeSample (e : Int) (s : State) : State :=
  let t := s.time
  let near (a : Int) : Bool := (a - e).natAbs ≤ 64
  match t.lastSample with
  | none => acceptOffset e s
  | some x =>
    if near x || !t.firstDone then acceptOffset e s
    else match t.aside with
      | y :: l => if !near y then s.setTime { t with aside := [e] } else if l.isEmpty then s.setTime { t with aside := [y, e] } else acceptOffset e s
      | [] => s.setTime { t with aside := [e] }

/-- A TIME_SYNC arrives: it is the port's latest, the upstream is chosen anew, and a sample from the upstream counts. -/
def onSync (pt : Fin 16) (f : Frame) (s : State) : State :=
  let m : SyncMsg :=
    { tSend := BitVec.ofNat 64 (pay f 0 8), root := BitVec.ofNat 16 (pay f 8 2), stratum := BitVec.ofNat 8 (pay f 0x0A 1),
      flags := BitVec.ofNat 8 (pay f 0x0B 1), at_ := s.ns }
  let s1 := s.modPort pt fun p => { p with tsync := some m }
  if s.time.root || !s.time.follow then s1
  else match chooseUpstream s1 with
    | none => s1
    | some (p, up) =>
      let s2 := s1.setTime { s1.time with
        upstream := some p, rootAddr := up.root, stratum := (up.stratum + 1).setWidth 4, upAt := s.ns, lostTold := false }
      if p = pt then takeSample ((m.tSend - s.time.mt).toInt + (((s.port pt).flight.toNat + 5) / 10 : Nat)) s2 else s2

/-- TIME_SYNC (R407). -/
def execTimeSync (pt : Fin 16) (f : Frame) (s : State) : Res := .next (recvMsg pt f 3 0x38 (fun t => (onSync pt f t, true)) s)

/-- SYNC_LOST (R408): no usable upstream for 1 ms. -/
def execSyncLost (s : State) : Res :=
  let t := s.time
  if t.root || !t.follow || !t.running || t.lostTold || s.ns < t.upAt + 1000000 then .next s
  else
    let last : Byte := match t.upstream with
      | some p => BitVec.ofNat 8 p.val
      | none => 0xFF
    .next (postEvent 0x0604 1 0 [last] (s.setTime { t with
      stratum := 15, syncBit := false, firstDone := false, lastSample := none, aside := [], upstream := none, lostTold := true, slew := 0 }))

/-! ### Beacons (R403, R404) -/

/-- One timekeeper at a beacon, its reading e ns ahead: it takes the beacon value when it has lost its count, else corrects by
at most 1 ns. -/
def beaconAt (cl : Fin 48) (e : Int) (s : State) : State :=
  let set (x : Int) (u : State) : State := u.modCluster cl fun c => { c with tkErr := x }
  if 64 < e.natAbs then
    postEvent 0x0606 1 0 ([BitVec.ofNat 8 cl.val, 0, 0, 0] ++ leBytes (satInt 32 (-e)).toNat 4) (spoilStart cl (set 0 s))
  else set (e - e.sign) s

/-- BEACON (R403, R404): the errors of the 48 timekeepers. -/
def execTimeBeacon (errs : List Int) (s : State) : Res :=
  if !s.time.running || s.time.mt.toNat % 4096 ≠ 0 then .next s
  else .next (forAll (List.finRange 48) (fun cl t => beaconAt cl (errs.getD cl.val (s.cluster cl).tkErr) t) s)

/-! ### Mesochronous FIFOs (R399) -/

/-- FIFO_POINTER_CHECK: a separation outside 2 to 6 entries is a slip, and the FIFO is aligned anew. -/
def execFifoPointerCheck (port : Bool) (i : Fin 50) (sep : Nat) (s : State) : Res :=
  let ok : Bool := 2 ≤ sep && sep ≤ 6
  let now := if ok then sep else 4
  if (port && 16 ≤ i.val) || !s.time.running then .next s
  else
    let t := s.time
    let s1 := s.setTime (if port then { t with fifoPort := t.fifoPort.set (ix 16 i.val) now } else { t with fifoPhy := t.fifoPhy.set i now })
    .next (if ok then s1 else postEvent 0x0605 1 0 [BitVec.ofNat 8 (b2n port), BitVec.ofNat 8 i.val] s1)

/-! ### The reference (R410) -/

/-- REF_LOST: edges are missing or off frequency (R26), and the hub oscillator takes over. Before market time runs, and in Sleep, in
which REFCLK is high impedance and the PLLs are stopped (R12, R411), it is only no longer present. -/
def execRefLost (edges : Bool) (freqErr : Half) (s : State) : Res :=
  let t := s.time
  if !t.present || refIsUsable edges freqErr then .next s
  else if !t.running || s.pwr.mstate = 2 then .next (s.setTime { t with present := false, freqErr := freqErr })
  else
    let t1 : TimeBase := { t with
      present := false, locked := false, holdover := true, lost := true, lossCnt := satAdd t.lossCnt 1, freqErr := freqErr,
      holdSince := if t.holdover then t.holdSince else s.ns }
    .next (postEvent 0x0601 1 0 (leBytes t1.lossCnt.toNat 2) (s.setTime t1))

/-! ### Registers (R416 to R419) -/

/-- A write of TIME_CTRL. -/
def timeCtrlWrite (w : Word) (s : State) : State :=
  let root := w.getLsbD 0
  let follow := w.getLsbD 1
  let s1 := s.setTime { s.time with root := root, follow := follow }
  if !w.getLsbD 2 then s1
  else if root || !follow then stepTime (BitVec.ofNat 64 (s.time.stagedLo.toNat + 2 ^ 32 * s.time.stagedHi.toNat)) true s1
  else s1.setTime { s1.time with loadErr := true }

/-- TIME_LOAD (R416). -/
def execTimeLoad (w : Word) (s : State) : Res := .next (if w.getLsbD 2 then timeCtrlWrite w s else s)

def timeCtrl (t : TimeBase) : Word := BitVec.ofNat 32 (b2n t.root + 2 * b2n t.follow)

def timeStatus (t : TimeBase) : Word :=
  BitVec.ofNat 32 (b2n t.locked + 2 * b2n t.holdover + 4 * b2n (syncOf t) + 8 * b2n t.stepped + 16 * b2n t.loadErr
    + 2 ^ 8 * (stratumOf t).toNat + 2 ^ 16 * t.era.toNat + 2 ^ 24 * t.offset.toNat)

def refStatus (t : TimeBase) : Word :=
  BitVec.ofNat 32 (b2n t.present + 2 * b2n t.lost + 2 ^ 8 * t.lossCnt.toNat + 2 ^ 16 * t.freqErr.toNat)

end Sys2Proof.Machine
end

