-- ==== Sys2Proof/Machine/Power.lean ====
section
/-! DEFINITION. Operating points (R429 to R431), the cap loop (R432 to R436), surge (R437 to R440), pace equalisation and
stragglers (R444, R445), droop warnings and limiters (R424, R441), heat (R446), and the power registers (R457 to R462). Power is in
mW, energy in µJ, current in 0.1 A, pace in 1 M handshakes/s, temperature in 0.125 °C. -/
namespace Sys2Proof.Machine
open Sys2Proof

/-! ### Operating points (R429, R431) -/

/-- Target pace of a point. -/
def targetPace (op : Nat) : Nat :=
  ([900, 970, 1040, 1110, 1180, 1250, 1320, 1390, 1460, 1530, 1600, 1680, 1760, 1840, 1920, 2050] : List Nat).getD op 0

/-- VCODE of a cluster's point: OP0 and OP15 are the same on every cluster (R429, R461). -/
def vcode (cl op : Nat) : Nat := if op = 0 then 10 else if op = 15 then 80 else (Config.fusedVcode cl op).toNat

/-- A cluster's voltage at a point, in mV. -/
def voltAt (cl op : Nat) : Nat := 400 + 5 * vcode cl op

/-- V² × f of a cluster's point (R433). -/
def vvf (cl op : Nat) : Nat := voltAt cl op ^ 2 * targetPace op

/-- A power at one point, estimated for another (R433). -/
def powerAt (cl op : Nat) (power : Nat) (new : Nat) : Rat := (power : Rat) * ((vvf cl new : Rat) / (vvf cl op : Rat))

/-- The point a cluster holds outside surge (R431). -/
def pointOf (s : State) (cl : Fin 48) : Nat := if (s.cpwr cl).mode = .run then heldPoint s cl else 0

/-- Every cluster not in surge takes the point it holds. -/
def applyPoints (s : State) : State :=
  rearm (forAll (List.finRange 48) (fun cl t =>
    if (t.cpwr cl).op = 15 then t else t.setCpwr cl { t.cpwr cl with op := pointOf t cl }) s)

/-- A change to one cluster's power. -/
def modCpwr (cl : Fin 48) (f : ClusterPower → ClusterPower) (s : State) : State := s.setCpwr cl (f (s.cpwr cl))

/-- Every cluster's issue duty: the loop's value, or 10 % at 105 °C (R434, R446). -/
def applyDuty (s : State) : State :=
  let d := if s.pwr.limit105 then 10 else s.pwr.duty
  rearm (forAll (List.finRange 48) (fun cl => modCpwr cl fun c => { c with duty := d }) s)

/-! ### The cap (R432) -/

/-- The cap of the two sources: the host's, and the SMBus ceiling where one is set (R30, R432). -/
def capNow (p : Power) : BitVec 12 := if p.ceiling ≠ 0 && p.ceiling < p.hostCap then p.ceiling else p.hostCap

/-- Energy of the trailing 100 ms at a tick. -/
def windowEnergy (p : Power) : Nat := (p.samples.take 100).foldl (· + ·) 0

/-- Whether R432 fails at a tick, for the energy of its millisecond. -/
def capFails (p : Power) (e : Nat) : Bool := 1010 * p.capForce.toNat < e || 101000 * p.capForce.toNat < windowEnergy p

/-! ### Surge (R437 to R439) -/

/-- Whether any cluster is at OP15. -/
def surging (s : State) : Bool := (List.finRange 48).any fun cl => (s.cpwr cl).op = 15

/-- Record what refused or ended surge (R438, R459). -/
def noteBlock (code : BitVec 3) (s : State) : State := s.setPwr { s.pwr with surgeBlock := code }

/-- A surging cluster goes back to its sustained point (R439). -/
def endSurge (code : BitVec 3) (cl : Fin 48) (s : State) : State :=
  if (s.cpwr cl).op ≠ 15 then s
  else noteBlock code (modCpwr cl (fun c => { c with op := pointOf s cl, lastSurge := some s.ns }) s)

/-- Every surge ends. -/
def endSurges (code : BitVec 3) (s : State) : State := forAll (List.finRange 48) (endSurge code) s

/-- A cluster's wear budget in milliseconds (R440). -/
def wearBudget : Nat := 3786912000

/-- The hottest sensor that counts for a cluster: its own and its stack's tiers (R446). -/
def clusterTemp (s : State) (cl : Fin 48) : Int := max (s.dom (ix 59 cl.val)).sensor (s.dom (ix 59 (48 + cl.val / 12))).sensor

/-- Whether a thermal limit is in force anywhere. -/
def thermalAnywhere (s : State) : Bool :=
  s.pwr.limit105 || s.gddr.thermRate ≠ 0 || s.pwr.linkTherm ≠ 0 || (List.finRange 48).any fun cl => (s.cpwr cl).thermLimit < 14

/-- Milliseconds of surge in the trailing 100 (R437). -/
def surgeTime (p : Power) : Nat := ((p.surgeMs.take 100).filter id).length

/-- The condition of R437 that the module as a whole fails, for a power and a core-rail current. -/
def surgeBar (s : State) (power current : Nat) (energy : Rat) : Option (BitVec 3) :=
  let p := s.pwr
  if !p.surgeEn then some 1
  else if 10 ≤ surgeTime p then some 2
  else if (100000 * p.capForce.toNat : Nat) ≤ energy then some 3
  else if 3400000 < power || 44000 < current then some 4
  else if thermalAnywhere s then some 5
  else none

/-- The condition of R437 that one cluster fails. -/
def surgeRefusal (s : State) (cl : Fin 48) : Option (BitVec 3) :=
  let c := s.cpwr cl
  let warned : Bool := match c.warnAt with
    | some t => s.ns < t + 1000000
    | none => false
  if 760 ≤ clusterTemp s cl then some 5
  else if wearBudget ≤ c.wearMs then some 6
  else if warned then some 7
  else none

/-- Surging clusters that are no longer active, or fail a condition of their own, go back. -/
def dropSurges (s : State) : State :=
  forAll (List.finRange 48) (fun cl t =>
    if (t.cpwr cl).op ≠ 15 then t
    else if !(t.cpwr cl).issued then endSurge t.pwr.surgeBlock cl t
    else match surgeRefusal t cl with
      | some c => endSurge c cl t
      | none => t) s

/-- The order in which clusters are granted surge: the straggler first, then by measured pace, then by index (R438). -/
def surgeOrder (s : State) : List (Fin 48) :=
  let act := (List.finRange 48).filter fun cl => (s.cpwr cl).issued && (s.cpwr cl).mode = .run
  let key (cl : Fin 48) : Nat := (if (s.cpwr cl).straggler then 0 else 100000) + (s.cpwr cl).pace
  act.mergeSort fun a b => key a < key b || (key a = key b && a ≤ b)

/-- Grant OP15 one cluster at a time while the estimate stays within the limits (R438). -/
def grantSurges : List (Fin 48) → Rat → Rat → State → State
  | [], _, _, s => s
  | cl :: rest, power, current, s =>
    let c := s.cpwr cl
    if c.op = 15 then grantSurges rest power current s
    else match surgeRefusal s cl with
      | some x => grantSurges rest power current (noteBlock x s)
      | none =>
        let more := powerAt cl.val c.op c.power 15 - (c.power : Rat)
        if 3400000 < power + more || 44000 < current + more / 65 then noteBlock 4 s
        else grantSurges rest (power + more) (current + more / 65) (modCpwr cl (fun c => { c with op := 15 }) s)

/-- The tick's decision on surge (R437, R438). -/
def surgeTick (power current : Nat) (s : State) : State :=
  match surgeBar s power current (windowEnergy s.pwr : Rat) with
  | some c => if surging s then endSurges c s else if (surgeOrder s).isEmpty then s else noteBlock c s
  | none => let t := dropSurges s; grantSurges (surgeOrder t) power current t

/-- SURGE_CHECK (R437): power and energy of the last 100 µs, and the core-rail current, while any cluster is at OP15. -/
def execSurgeCheck (power current : Nat) (s : State) : Res :=
  if !surging s then .next s
  else
    let p := s.pwr
    let part := (power / 10 :: p.part).take 10
    let old : Rat := ((p.samples.drop 99).headD 0 : Nat)
    let energy : Rat := ((part.foldl (· + ·) 0 + (p.samples.take 99).foldl (· + ·) 0 : Nat) : Rat) + old * (10 - (part.length : Rat)) / 10
    let s1 := s.setPwr { p with part := part }
    if (100000 * p.capForce.toNat : Nat) ≤ energy then .next (endSurges 3 s1)
    else if 3400000 < power || 44000 < current then .next (endSurges 4 s1)
    else .next s1

/-! ### Lowering and raising (R433, R434) -/

/-- The cluster at the highest point above OP0, ties to the highest index. -/
def highest (s : State) : Option (Fin 48) :=
  (List.finRange 48).foldl (fun b cl => if (s.cpwr cl).op = 0 then b else match b with
    | none => some cl
    | some x => if (s.cpwr x).op ≤ (s.cpwr cl).op then some cl else b) none

/-- Row 2 of R434: lower points until the estimated saving is at least `excess`; at least one (log 29). -/
def lowerPoints : Nat → Rat → State → State
  | 0, _, s => s
  | n + 1, excess, s =>
    match highest s with
    | none => s
    | some cl =>
      let c := s.cpwr cl
      let saved := (c.power : Rat) - powerAt cl.val c.op c.power (c.op - 1)
      let s1 := modCpwr cl (fun c => { c with op := c.op - 1, capLimit := c.op - 1 }) s
      if excess ≤ saved then s1 else lowerPoints n (excess - saved) s1

/-- Ports the cap loop may width-step: UP at full width, traffic below 40 % of four-lane capacity. -/
def stepPorts (s : State) (load : List Nat) : List (Fin 16) :=
  (List.finRange 16).filter fun p =>
    (s.port p).state = 3 && (s.port p).txLanes = 8 && (s.port p).rxLanes = 8 && load.getD p.val 0 < 40

/-- One lowering action, the first of R434 that is left; none when all are taken. -/
def lowerOnce (excess : Rat) (load : List Nat) (s : State) : Option State :=
  if (highest s).isSome then some (lowerPoints 720 excess s)
  else if s.pwr.memStepEn && rateWanted s.gddr ≠ 3 then
    some (s.setGddr (askRate { s.gddr with capRate := rateWanted s.gddr + 1 }))
  else if s.pwr.linkStepEn && !(stepPorts s load).isEmpty then
    some (forAll (stepPorts s load) (widthStep true) (s.setPwr { s.pwr with linkStepped := true }))
  else if 10 < s.pwr.duty then some (applyDuty (s.setPwr { s.pwr with duty := s.pwr.duty - 10 }))
  else none

/-- The cluster whose limit rises next: of those held below their request, the lowest point, then the lowest index. -/
def lowest (s : State) : Option (Fin 48) :=
  (List.finRange 48).foldl (fun b cl => if requestOf s ≤ (s.cpwr cl).capLimit then b else match b with
    | none => some cl
    | some x => if (s.cpwr cl).op < (s.cpwr x).op then some cl else b) none

/-- Hub of a port: 0 west, 1 east. -/
def hubOf (p : Fin 16) : Nat := if p.val < 8 then 0 else 1

/-- Ports go back to full width where no other limit holds them. -/
def widenPorts (s : State) : State :=
  forAll (List.finRange 16) (fun p t => if t.pwr.linkStepped || t.pwr.linkTherm.getLsbD (hubOf p) then t else widthStep false p t) s

/-- One raising action, in the reverse order. -/
def raiseOnce (s : State) : State :=
  if s.pwr.duty < 100 then applyDuty (s.setPwr { s.pwr with duty := s.pwr.duty + 10 })
  else if s.pwr.linkStepped then widenPorts (s.setPwr { s.pwr with linkStepped := false })
  else if s.gddr.capRate ≠ 0 then s.setGddr (askRate { s.gddr with capRate := s.gddr.capRate - 1 })
  else match lowest s with
    | some cl => applyPoints (modCpwr cl (fun c => { c with capLimit := c.capLimit + 1 }) s)
    | none => s

/-- The cap loop's decision (R433, R435). -/
def capDecide (m : CapMeas) (s : State) : State :=
  let p := s.pwr
  let cap := p.capForce.toNat
  let fails := capFails p m.energy
  let excess : Int := max ((m.energy : Int) - 1000 * cap) (65 * ((m.current : Int) - 36000))
  let low : Bool := m.energy < 970 * cap && m.current < 34000
  let under := if low then p.underTicks + 1 else 0
  let s1 := s.setPwr { p with underTicks := under, capUnreachable := p.capUnreachable && fails }
  if s1.pwr.capUnreachable then s1
  else if !surging s && ((10 * cap : Int) < excess || 100000 * cap < windowEnergy p) then
    match lowerOnce (excess : Rat) m.portLoad s1 with
    | some s2 => s2.setPwr { s2.pwr with overTicks := 0 }
    | none =>
      let k := if fails then p.overTicks + 1 else 0
      let s2 := s1.setPwr { s1.pwr with overTicks := k, capUnreachable := 10 ≤ k }
      if 10 ≤ k then postEvent 0x0401 1 0 (leBytes cap 2 ++ leBytes (m.energy / 1000) 2) s2 else s2
  else
    let s2 := s1.setPwr { s1.pwr with overTicks := 0 }
    if 3 ≤ under then raiseOnce s2 else s2

/-! ### Equalisation and stragglers (R444, R445) -/

/-- Whether a cluster's pace is below 98 % of a pace. -/
def slow (pace target : Nat) : Bool := 100 * pace < 98 * target

/-- Whether R444 may raise a cluster, and by how much its power would grow. -/
def equaliseGain (s : State) (cl : Fin 48) (m : CapMeas) (extra : Rat) : Option Rat :=
  let c := s.cpwr cl
  let gain := powerAt cl.val c.op c.power (c.op + 1) - (c.power : Rat)
  let cap : Rat := (s.pwr.capForce.toNat : Nat)
  if c.op < 14 && c.op = c.capLimit && c.capLimit < requestOf s && c.thermLimit = 14
      && (m.energy : Rat) + extra + gain ≤ 1010 * cap && (windowEnergy s.pwr : Rat) + extra + gain ≤ 101000 * cap then some gain
  else none

/-- Raise every active cluster that is slow for its point (R444); the clusters raised are answered. -/
def equalise (m : CapMeas) : List (Fin 48) → Rat → List (Fin 48) → State → State × List (Fin 48)
  | [], _, done, s => (s, done)
  | cl :: rest, extra, done, s =>
    let c := s.cpwr cl
    if !c.issued || !slow c.pace (targetPace c.op) then equalise m rest extra done s
    else match equaliseGain s cl m extra with
      | some g => equalise m rest (extra + g) (cl :: done) (modCpwr cl (fun c => { c with op := c.op + 1, capLimit := c.capLimit + 1 }) s)
      | none => equalise m rest extra done s

/-- The median of a list; of an even number, the mean of the middle two, rounded down (log 29). -/
def median (l : List Nat) : Nat :=
  let x := l.mergeSort fun a b => a ≤ b
  let n := x.length
  if n % 2 = 1 then x.getD (n / 2) 0 else (x.getD (n / 2 - 1) 0 + x.getD (n / 2) 0) / 2

/-- Note which clusters are stragglers (R445). -/
def stragglers (raised : List (Fin 48)) (s : State) : State :=
  let act := (List.finRange 48).filter fun cl => (s.cpwr cl).issued
  let med := median (act.map fun cl => (s.cpwr cl).pace)
  forAll (List.finRange 48) (fun cl t =>
    let c := t.cpwr cl
    let n := if c.issued && slow c.pace med && !raised.contains cl then c.slowTicks + 1 else 0
    let now : Bool := 10 ≤ n
    let t1 := t.setCpwr cl { c with slowTicks := n, straggler := now }
    if now && !c.straggler then postEvent 0x0408 1 (src cl.val) (leBytes c.pace 2 ++ [BitVec.ofNat 8 c.op]) t1 else t1) s

/-- The straggler the summary reports, with its pace (R262, R445). -/
def stragglerOf (s : State) : Nat × Nat :=
  let low (l : List (Fin 48)) : Option (Fin 48) := l.foldl (fun b cl => match b with
    | none => some cl
    | some x => if (s.cpwr cl).pace < (s.cpwr x).pace then some cl else b) none
  match low ((List.finRange 48).filter fun cl => (s.cpwr cl).straggler) with
  | some cl => (cl.val, (s.cpwr cl).pace)
  | none => match low ((List.finRange 48).filter fun cl => (s.cpwr cl).issued) with
    | some cl => (0xFFFF, (s.cpwr cl).pace)
    | none => (0xFFFF, 0)

/-! ### The tick (R433) -/

/-- Time at OP15 wears a cluster; its budget spent, it surges no more (R440). -/
def wearTick (cl : Fin 48) (s : State) : State :=
  let c := s.cpwr cl
  if c.op ≠ 15 then s
  else
    let c1 : ClusterPower := { c with wearMs := c.wearMs + 1, lastSurge := some s.ns }
    if wearBudget ≤ c1.wearMs && !c.wearTold then
      postEvent 0x0407 1 (src cl.val) []
        ((s.setCpwr cl { c1 with wearTold := true }).setPwr { (s.setCpwr cl { c1 with wearTold := true }).pwr with wearSpent := true })
    else s.setCpwr cl c1

/-- A started POWER_SET of a cap alone completes when the cap is in force (R455). -/
def capInForce (s : State) : State :=
  let waits (c : DescCtx) : Bool :=
    c.run && c.issued && dOp c.word = 0x50 && bits (dW3 c.word) 0 3 = (0 : BitVec 3) && bits (dW2 c.word) 0 12 ≠ (0 : BitVec 12)
  forAll (List.finRange 256) (fun r t =>
    forAll ((t.ring r).started.filter waits) (fun c u => finishDesc r c.idx stOk 0 0 u) t) s

/-- What the clerk measured is taken: till, samples, each cluster's power, pace and activity (R428, R433). -/
def takeMeas (m : CapMeas) (s : State) : State :=
  let p := s.pwr
  let s1 := s.setPwr { p with
    till := p.till + BitVec.ofNat 64 m.energy, samples := (m.energy :: p.samples).take 100,
    surgeMs := (surging s :: p.surgeMs).take 100, part := [], coreCurrent := m.current, capForce := capNow p }
  forAll (List.finRange 48) (fun cl t => match m.clusters[cl.val]? with
    | some x => modCpwr cl (fun c => { c with power := x.power, pace := x.pace, issued := x.issued }) t
    | none => t) s1

/-- CAP_LOOP_TICK (R433 to R436, R444, R445). In Sleep the till alone counts (R428, R436). -/
def execCapLoopTick (m : CapMeas) (s : State) : Res :=
  if !s.pwr.v48 then .next s
  else if s.pwr.mstate ≠ 0 || s.boot.step.toNat < 9 || s.boot.recovery then
    .next (s.setPwr { s.pwr with till := s.pwr.till + BitVec.ofNat 64 m.energy })
  else
    let s1 := forAll (List.finRange 48) wearTick (capInForce (takeMeas m s))
    let s2 := capDecide m (applyPoints s1)
    let y := equalise m (List.finRange 48) 0 [] s2
    .next (rearm (surgeTick m.energy m.current (stragglers y.2 y.1)))

/-! ### Converter limit and droop (R424, R441) -/

/-- Whether a domain is in Run or Idle. -/
def domLive (s : State) (d : Fin 59) : Bool :=
  s.pwr.v48 && s.pwr.mstate = 0 && (if d.val < 48 then (s.cpwr (ix 48 d.val)).mode = .run || (s.cpwr (ix 48 d.val)).mode = .idle else true)

/-- A stack's SRAM domain is in retention when each of its clusters dozes (R448). -/
def stackDozes (s : State) (st : Nat) : Bool := s.pwr.mstate = 2 || (stackClusters st).all fun cl => (s.cpwr cl).mode = .doze

/-- A domain's setpoint in mV (R425). -/
def setpoint (s : State) (d : Fin 59) : Nat :=
  let n := d.val
  if n < 48 then (if (s.cpwr (ix 48 n)).mode = .doze then 380 else voltAt n (s.cpwr (ix 48 n)).op)
  else if n < 52 then (if stackDozes s (n - 48) then 380 else 700)
  else if n < 54 then 800 else if n < 56 then 900 else if n < 58 then 750 else 800

/-- CONVERTER_LIMIT (R424): every cluster domain's pace limiter engages. -/
def execConverterLimit (current : Nat) (s : State) : Res :=
  if current ≤ 36000 || !s.pwr.v48 then .next s
  else .next (postEvent 0x0406 2 0 (leBytes (current / 10) 2) (s.setPwr { s.pwr with conv := true }))

/-- CONVERTER_LIMIT_RELEASE (R424). -/
def execConverterLimitRelease (s : State) : Res :=
  let s1 := s.setPwr { s.pwr with conv := false }
  if !s.pwr.conv then .next s
  else .next (forAll (List.finRange 48) (fun cl t =>
    let d := t.dom (ix 59 cl.val)
    if d.engaged then t else t.setDom (ix 59 cl.val) { d with limitUntil := some t.ns }) s1)

/-- DROOP_WARNING (R441, R443): the limiter engages until 100 µs after the last crossing; a surge of the cluster ends. -/
def execDroopWarning (d : Fin 59) (depth : Nat) (s : State) : Res :=
  if depth < 40 || !domLive s d then .next s
  else
    let x := s.dom d
    let again : Bool := match x.warnEvt with
      | some t => s.ns < t + 1000000
      | none => false
    let data := leBytes depth 2 ++ leBytes (setpoint s d) 2
    let s1 := s.setDom d { x with engaged := true, limitUntil := some (s.ns + 100000), warnEvt := if again then x.warnEvt else some s.ns }
    let s2 := s1.setPwr { s1.pwr with warnAt := some s.ns }
    let s3 := if d.val < 48 then endSurge 7 (ix 48 d.val) (modCpwr (ix 48 d.val) (fun c => { c with warnAt := some s.ns }) s2) else s2
    .next (if again then ledgerAdd 0x0404 1 (BitVec.ofNat 16 d.val) data s3 else postEvent 0x0404 1 (src d.val) data s3)

/-- PACE_LIMITER_RELEASE (R441). -/
def execPaceLimiterRelease (d : Fin 59) (s : State) : Res :=
  let x := s.dom d
  match x.limitUntil with
  | some t => .next (if x.engaged && t ≤ s.ns then s.setDom d { x with engaged := false, limitUntil := some s.ns } else s)
  | none => .next s

/-- RETENTION_FLOOR_LOSS (R442): a stack in retention loses its contents, and every sector is poisoned. -/
def execRetentionFloorLoss (st : Fin 4) (s : State) : Res :=
  if !stackDozes s st.val then .next s
  else .next (forAll ((stackClusters st.val).flatMap fun cl => (List.range 8).map (coreOf cl))
    (fun c t => t.modCore c fun co => { co with lsPoison := List.range (lsEnd / 64) }) s)

/-! ### Heat (R446) -/

/-- A temperature in whole °C. -/
def celsius (x : Int) : Byte := BitVec.ofInt 8 (x / 8)

/-- The response of one cluster to its sensors: one point lower per ms from 100 °C until below 98 °C, one limit higher per 10 ms
below 95 °C; from 95 °C it does not surge (R437). -/
def coolCluster (cl : Fin 48) (s : State) : State :=
  let h := clusterTemp s cl
  let c := s.cpwr cl
  let down : Bool := 800 ≤ h || (c.thermDown && 784 ≤ h)
  let s1 := modCpwr cl (fun c => { c with thermDown := down }) (if 760 ≤ h then endSurge 5 cl s else s)
  let s2 := if down && !c.thermDown then postEvent 0x0402 1 (src cl.val) [celsius h] s1 else s1
  if down then
    (if !c.thermDown || c.thermAt + 1000000 ≤ s.ns then
      modCpwr cl (fun c => { c with thermLimit := min c.thermLimit c.op - 1, thermAt := s.ns }) s2
    else s2)
  else if c.thermLimit < 14 && h < 760 && c.thermAt + 10000000 ≤ s.ns then
    modCpwr cl (fun c => { c with thermLimit := c.thermLimit + 1, thermAt := s.ns }) s2
  else s2

/-- The response of the memory interfaces: one rate step per ms above, one back per 10 ms below 95 °C (log 30). -/
def coolMem (s : State) : State :=
  let h := max (s.dom 54).sensor (s.dom 55).sensor
  let p := s.pwr
  let down : Bool := 800 ≤ h || (p.memThermDown && 784 ≤ h)
  let s1 := s.setPwr { p with memThermDown := down }
  let step (x : BitVec 2) : State := (s1.setPwr { s1.pwr with memThermAt := s.ns }).setGddr (askRate { s.gddr with thermRate := x })
  if down then
    (if rateWanted s.gddr ≠ 3 && (!p.memThermDown || p.memThermAt + 1000000 ≤ s.ns) then step (rateWanted s.gddr + 1) else s1)
  else if s.gddr.thermRate ≠ 0 && h < 760 && p.memThermAt + 10000000 ≤ s.ns then step (s.gddr.thermRate - 1)
  else s1

/-- The response of a hub's link domain: its ports run four lanes until it is below 95 °C (log 30). -/
def coolLinks (hub : Nat) (s : State) : State :=
  let h := (s.dom (ix 59 (52 + hub))).sensor
  let mine := (List.finRange 16).filter fun p => hubOf p = hub
  let bit : BitVec 2 := if hub = 0 then 1 else 2
  if 800 ≤ h then forAll mine (widthStep true) (s.setPwr { s.pwr with linkTherm := s.pwr.linkTherm ||| bit })
  else if h < 760 && s.pwr.linkTherm &&& bit ≠ 0 then widenPorts (s.setPwr { s.pwr with linkTherm := s.pwr.linkTherm &&& ~~~bit })
  else s

/-- The response at 105 °C anywhere. -/
def coolAll (s : State) : State :=
  let hot := (List.finRange 59).find? fun d => 840 ≤ (s.dom d).sensor
  match hot with
  | some d =>
    let s1 := applyDuty (endSurges 5 (s.setPwr { s.pwr with limit105 := true }))
    if s.pwr.limit105 then s1 else postEvent 0x0403 2 (src d.val) [celsius (s.dom d).sensor] s1
  | none =>
    if s.pwr.limit105 && (List.finRange 59).all fun d => (s.dom d).sensor < 800 then applyDuty (s.setPwr { s.pwr with limit105 := false })
    else s

/-- The sensors as the clerk reads them. -/
def readSensors (temps : List Int) (s : State) : State :=
  forAll (List.finRange 59) (fun d t => t.setDom d { t.dom d with sensor := temps.getD d.val (t.dom d).sensor }) s

/-- THERMAL_POLL (R446): the hottest sensor of every domain. Before the clusters are up, and in thermal shutdown, the sensors are
read and nothing else follows (R447). -/
def execThermalPoll (temps : List Int) (s : State) : Res :=
  if !s.pwr.v48 || (1 ≤ s.pwr.mstate.toNat && s.pwr.mstate.toNat ≤ 3) then .next s
  else if s.pwr.mstate = 4 || s.boot.step.toNat < 6 then .next (readSensors temps s)
  else
    let s1 := readSensors temps s
    let s2 := forAll (List.finRange 48) coolCluster s1
    .next (applyPoints (coolAll (coolLinks 1 (coolLinks 0 (coolMem s2)))))

/-! ### DOM_STATUS (R427, R462) -/

/-- A domain's STATE. -/
def domState (s : State) (d : Fin 59) : BitVec 3 :=
  if d.val < 48 then match (s.cpwr (ix 48 d.val)).mode with
    | .run => 0
    | .idle => 1
    | .doze => 2
    | .off => 3
  else if d.val < 52 then (if stackDozes s (d.val - 48) then 2 else 0)
  else 0

/-- Whether something happened within the last millisecond. -/
def lastMs (s : State) (t : Option Nat) : Bool := match t with
  | some x => s.ns ≤ x + 1000000
  | none => false

/-- Whether a thermal response holds a domain. -/
def domThermal (s : State) (d : Fin 59) : Bool :=
  s.pwr.limit105 && d.val < 48 || (if d.val < 48 then (s.cpwr (ix 48 d.val)).thermLimit < 14
    else if d.val = 52 then s.pwr.linkTherm.getLsbD 0 else if d.val = 53 then s.pwr.linkTherm.getLsbD 1
    else (d.val = 54 || d.val = 55) && s.gddr.thermRate ≠ 0)

/-- One domain's report. -/
def reportDom (d : Fin 59) (m : DomMeas) (s : State) : State :=
  let x := s.dom d
  let cl := ix 48 d.val
  let isCl : Bool := d.val < 48
  s.setDom d { x with
    current := m.current, voltage := m.voltage, temp := m.temp, state := domState s d,
    opRep := if isCl then BitVec.ofNat 4 (s.cpwr cl).op else 0, pace := if isCl then m.pace else 0,
    limiter := x.engaged || (isCl && s.pwr.conv) || lastMs s x.limitUntil,
    surge := isCl && ((s.cpwr cl).op = 15 || lastMs s (s.cpwr cl).lastSurge), thermal := domThermal s d }

/-- DOMAIN_STATUS_TICK (R427). -/
def execDomainStatusTick (ms : List DomMeas) (s : State) : Res :=
  if s.pwr.mstate ≠ 0 || !s.pwr.v48 then .next s
  else .next (forAll (List.finRange 59) (fun d t => match ms[d.val]? with
    | some m => reportDom d m t
    | none => t) s)

/-! ### Register words (R457 to R462) -/

def pwrCapDefault (p : Power) : Word := BitVec.ofNat 32 p.capDefault.toNat

def pwrCapLimit (p : Power) : Word :=
  BitVec.ofNat 32 (p.capForce.toNat + 2 ^ 12 * p.hostCap.toNat + 2 ^ 24 * b2n (p.ceiling ≠ 0 && p.ceiling < p.hostCap)
    + 2 ^ 25 * b2n p.memStepEn + 2 ^ 26 * b2n p.linkStepEn)

def pwrStateCtrl (p : Power) : Word := BitVec.ofNat 32 (p.opReq.toNat + 2 ^ 4 * b2n p.idleAuto + 2 ^ 5 * b2n p.surgeEn)

/-- TJ: the hottest junction, 0x80 in Sleep (R459). -/
def hottest (s : State) : Byte :=
  if s.pwr.mstate = 2 then 0x80
  else celsius ((List.finRange 59).foldl (fun (a : Int) d => max a (s.dom d).sensor) (s.dom 0).sensor)

def pwrStatus (s : State) : Word :=
  let p := s.pwr
  let duty := (List.finRange 48).foldl (fun a cl => min a (s.cpwr cl).duty) 100
  let recent : Bool := lastMs s p.warnAt
  BitVec.ofNat 32 (p.mstate.toNat + 2 ^ 3 * b2n (throttled s) + 2 ^ 4 * b2n p.capUnreachable + 2 ^ 5 * b2n (surging s)
    + 2 ^ 6 * b2n (thermalAnywhere s) + 2 ^ 7 * b2n p.limit105 + 2 ^ 8 * duty + 2 ^ 15 * p.surgeBlock.toNat
    + 2 ^ 18 * b2n p.wearSpent + 2 ^ 19 * b2n recent + 2 ^ 24 * (hottest s).toNat)

def wakeCfg (p : Power) : Word :=
  BitVec.ofNat 32 (b2n p.smbEn + 2 * b2n p.pcieEn + 4 * b2n p.pinEn + 2 ^ 8 * b2n p.smbSeen + 2 ^ 9 * b2n p.pcieSeen
    + 2 ^ 10 * b2n p.pinSeen)

/-- The most-worn cluster. -/
def mostWorn (s : State) : Fin 48 :=
  (List.finRange 48).foldl (fun b cl => if (s.cpwr b).wearMs < (s.cpwr cl).wearMs then cl else b) 0

def pwrWear (s : State) : Word :=
  let cl := mostWorn s
  let w := (s.cpwr cl).wearMs
  BitVec.ofNat 32 (min 100 (w * 100 / wearBudget) + 2 ^ 8 * cl.val + 2 ^ 16 * ((wearBudget - w) / 3600000))

def pwrVtSel (p : Power) : Word := BitVec.ofNat 32 (p.vtCluster.toNat + 2 ^ 8 * p.vtOp.toNat)

def pwrVtData (p : Power) : Word :=
  BitVec.ofNat 32 ((if 47 < p.vtCluster.toNat then 0 else vcode p.vtCluster.toNat p.vtOp.toNat) + 2 ^ 8 * targetPace p.vtOp.toNat)

def domStatus (x : Domain) : Dword :=
  BitVec.ofNat 64 (x.current.toNat + 2 ^ 16 * x.voltage.toNat + 2 ^ 28 * x.opRep.toNat + 2 ^ 32 * x.state.toNat
    + 2 ^ 35 * b2n x.limiter + 2 ^ 36 * b2n x.surge + 2 ^ 37 * b2n x.thermal + 2 ^ 40 * x.temp.toNat + 2 ^ 48 * x.pace.toNat)

/-! ### Register writes (R457, R458, R460, R461) -/

def pwrCapDefaultWrite (w : Word) (s : State) : State :=
  let c : BitVec 12 := bits w 0 12
  if 600 ≤ c.toNat && c.toNat ≤ 2600 then s.setPwr { s.pwr with capDefault := c } else s

def pwrCapLimitWrite (w : Word) (s : State) : State :=
  s.setPwr { s.pwr with memStepEn := w.getLsbD 25, linkStepEn := w.getLsbD 26 }

def pwrStateCtrlWrite (w : Word) (s : State) : State :=
  applyPoints (s.setPwr { s.pwr with opReq := bits w 0 4, idleAuto := w.getLsbD 4 })

def wakeCfgWrite (w : Word) (s : State) : State :=
  let p := s.pwr
  s.setPwr { p with
    smbEn := w.getLsbD 0, pcieEn := w.getLsbD 1, pinEn := w.getLsbD 2, smbSeen := p.smbSeen && !w.getLsbD 8,
    pcieSeen := p.pcieSeen && !w.getLsbD 9, pinSeen := p.pinSeen && !w.getLsbD 10 }

def pwrVtSelWrite (w : Word) (s : State) : State := s.setPwr { s.pwr with vtCluster := bits w 0 6, vtOp := bits w 8 4 }

end Sys2Proof.Machine
end

