-- ==== Sys2Proof/Machine/Sleep.lean ====
section
/-! DEFINITION. Power states (R448 to R454) and POWER_SET (R455). -/
namespace Sys2Proof.Machine
open Sys2Proof

/-! ### Deferral (R451) -/

/-- Whether a transfer or a launch of a cluster is under way. -/
def clusterBusy (s : State) (cl : Fin 48) : Bool :=
  let c := s.cluster cl
  c.launch.isSome || !c.prun.isEmpty || !c.bcasts.isEmpty

/-- Started descriptors of every ring, but one. -/
def othersRun (s : State) (r : Fin 256) (idx : Nat) : Bool :=
  (List.finRange 256).any fun x => (s.ring x).started.any fun c => c.run && !(x = r && c.idx = idx)

/-- The memory interface whose channels still hold requests (R217, R425). -/
def memoryBusy (s : State) : Option Nat :=
  ((List.finRange 50).find? fun ch => !(chanReqs (s.chan ch)).isEmpty || !(s.chan ch).waiting.isEmpty).map fun ch =>
    if ch.val < 25 then 54 else 55

/-- The first domain whose transfers hold a deferred request up: a cluster, a link for transactions in flight, a memory interface for
requests of its channels, the west hub for descriptors (R217, R451; log 29). -/
def holdup (s : State) (d : Deferral) : Option Nat :=
  match (List.finRange 48).find? fun cl => clusterBusy s cl && (d.state = 4 || d.mask.getLsbD cl.val) with
  | some cl => some cl.val
  | none =>
    if d.state ≠ 4 then none
    else if !s.mach.txns.isEmpty then some 52
    else (memoryBusy s).orElse fun _ => if othersRun s d.ring d.idx then some 56 else none

/-! ### POWER_SET (R455) -/

def psCap (w : DescWord) : BitVec 12 := bits (dW2 w) 0 12
def psState (w : DescWord) : Nat := (bits (dW3 w) 0 3).toNat

/-- The first cluster of a mask that runs a launch. -/
def firstLaunch (s : State) (m : BitVec 48) : Option (Fin 48) := (maskList m).find? fun cl => (s.cluster cl).launch.isSome

/-- Why a POWER_SET is refused. -/
def powerFault (s : State) (w : DescWord) : Option (Byte × Half) :=
  let cap := (psCap w).toNat
  let st := psState w
  let m := dQ w 0x10
  let cls (k : BitVec 48) : Option (Byte × Half) := match firstLaunch s k with
    | some cl => failIf true stPower cl.val
    | none => none
  worst [failIf (cap ≠ 0 && (cap < 600 || 2600 < cap)) stMalformed 0x08,
    failIf ((st = 2 || st = 3) && (m = 0 || bits m 48 16 ≠ (0 : BitVec 16))) stMalformed 0x10,
    if st = 2 || st = 3 then cls (bits m 0 48) else if st = 4 then cls (BitVec.allOnes 48) else none,
    failIf (st = 4 && s.mach.bound) stPower 52,
    failIf (st = 4 && !s.pwr.smbEn && !s.pwr.pcieEn && !s.pwr.pinEn) stPower 58]

/-- The cap and the surge enable of a POWER_SET that passes. -/
def powerTake (w : DescWord) (s : State) : State :=
  let p := s.pwr
  s.setPwr { p with
    hostCap := if psCap w = 0 then p.hostCap else psCap w,
    surgeEn := if (dW2 w).getLsbD 13 then (dW2 w).getLsbD 12 else p.surgeEn }

/-- A cluster in service enters a state. -/
def enterMode (m : PwrMode) (cl : Fin 48) (s : State) : State :=
  if !(s.cluster cl).inService then s
  else
    let s1 := modCpwr cl (fun c => { c with mode := m, idleSince := s.ns }) s
    modCpwr cl (fun c => { c with op := pointOf s1 cl }) s1

/-- A started POWER_SET of a STATE: refused, held during an entry or a deferral (R454), or carried on. -/
def powerSet (st : Nat) (go : DescCtx → State → State) (r : Fin 256) (n : Nat) (s : State) : State :=
  match descAt s r n 0x50 with
  | none => s
  | some c =>
    if psState c.word ≠ st || s.pwr.deferral.isSome || s.pwr.mstate ≠ 0 then s
    else match powerFault s c.word with
      | some f => finishDesc r c.idx f.1 f.2 0 s
      | none => go c s

/-- POWER_SET_CAP: a new cap is in force at the next tick; the surge enable at once. -/
def execPowerSetCap (r : Fin 256) (n : Nat) (s : State) : Res :=
  .next (powerSet 0 (fun c t =>
    let t1 := powerTake c.word t
    if psCap c.word = 0 then finishDesc r c.idx stOk 0 0 t1 else issueDesc r c.idx stOk 0 0 t1) r n s)

/-- POWER_SET_RUN: every cluster is in Run. -/
def execPowerSetRun (r : Fin 256) (n : Nat) (s : State) : Res :=
  .next (powerSet 1 (fun c t => finishDesc r c.idx stOk 0 0 (rearm (forAll (List.finRange 48) (enterMode .run) (powerTake c.word t)))) r n s)

/-- POWER_SET_IDLE: every masked cluster is in Idle. -/
def execPowerSetIdle (r : Fin 256) (n : Nat) (s : State) : Res :=
  .next (powerSet 2 (fun c t =>
    finishDesc r c.idx stOk 0 0 (rearm (forAll (maskList (bits (dQ c.word 0x10) 0 48)) (enterMode .idle) (powerTake c.word t)))) r n s)

/-- A request is deferred until its transfers have ended. -/
def deferTo (r : Fin 256) (st : Nat) (c : DescCtx) (s : State) : State :=
  issueDesc r c.idx stOk 0 0 (s.setPwr { s.pwr with
    deferral := some { ring := r, idx := c.idx, state := st, mask := bits (dQ c.word 0x10) 0 48, since := s.ns } })

/-- POWER_SET_DOZE (R451). -/
def execPowerSetDoze (r : Fin 256) (n : Nat) (s : State) : Res := .next (powerSet 3 (deferTo r 3) r n s)

/-- POWER_SET_SLEEP (R452 steps 1 and 2). -/
def execPowerSetSleep (r : Fin 256) (n : Nat) (s : State) : Res := .next (powerSet 4 (deferTo r 4) r n s)

/-- DOMAIN_STATE_ENTRY (R451, R452 step 3): the transfers have ended, and entry begins. -/
def execDomainStateEntry (s : State) : Res :=
  match s.pwr.deferral with
  | none => .next s
  | some d =>
    if (holdup s d).isSome then .next s
    else
      let s1 := s.setPwr { s.pwr with deferral := none }
      let s2 := match ctxOf s d.ring d.idx with
        | some c => powerTake c.word s1
        | none => s1
      let s3 := if d.state = 4 then s2.setPwr { s2.pwr with mstate := 1, wakes := 0 } else forAll (maskList d.mask) (enterMode .doze) s2
      .next (finishDesc d.ring d.idx stOk 0 0 s3)

/-- POWER_DEFERRAL_EXPIRY (R451): 1 ms has passed. -/
def execPowerDeferralExpiry (s : State) : Res :=
  match s.pwr.deferral with
  | none => .next s
  | some d =>
    match holdup s d with
    | none => .next s
    | some k =>
      if s.ns < d.since + 1000000 then .next s
      else .next (finishDesc d.ring d.idx stPower (BitVec.ofNat 16 k) 0 (s.setPwr { s.pwr with deferral := none }))

/-! ### Idle and Doze (R449, R450) -/

/-- AUTO_IDLE (R449): no launch for 100 µs. -/
def execAutoIdle (cl : Fin 48) (s : State) : Res :=
  let c := s.cpwr cl
  if s.pwr.idleAuto && c.mode = .run && (s.cluster cl).launch.isNone && c.idleSince + 100000 ≤ s.ns then
    .next (modCpwr cl (fun c => { c with mode := .idle, op := 0 }) s)
  else .next s

/-- DOZE_WAKE (R450): a dozing cluster wakes to Idle. -/
def execDozeWake (cl : Fin 48) (s : State) : Res :=
  if (s.cpwr cl).mode = .doze then .next (modCpwr cl (fun c => { c with mode := .idle, op := 0 }) s) else .next s

/-! ### Sleep (R452 to R454) -/

/-- A port goes to electrical idle; its partner sees the link lost (R452). -/
def darkPort (pt : Fin 16) (s : State) : State :=
  s.modPort pt fun p => { p with
    state := 0, phase := 0, txLanes := 0, rxLanes := 0, buf := [], hgBuf := [], resume := false, narrowed := false,
    retrySince := none, quarEnd := none, fruitless := 0 }

/-- A trained channel enters self refresh (R217, R234). -/
def refreshing (c : Channel) : Channel := { c with sr := c.sr || !(c.state = 0 || c.state = 3) }

/-- A channel leaves self refresh at a wake; a spare stays in it (R215, R217). -/
def refreshed (c : Channel) : Channel := { c with sr := c.state = 2 }

/-- Steps 4 to 8 of R452. -/
def goSleep (s : State) : State :=
  let t := s.time
  let s1 := forAll (List.finRange 16) darkPort s
  let s2 := s1.setTime { t with locked := false, holdover := true, holdSince := if t.holdover then t.holdSince else s.ns }
  let s3 := s2.setGddr { s2.gddr with selfRefresh := true, chans := s2.gddr.chans.map refreshing }
  let s4 := s3.setPins { s3.pins with modReady := false }
  rearm (s4.setPwr { s4.pwr with mstate := 2, sleepAt := s.ns })

/-- Sleep ends with the sources that woke the module (R453): the PLLs relock where a reference is present, the watch resumes at
200 ns, and session timers go on where they stopped. -/
def wakeUp (src : BitVec 3) (s : State) : State :=
  let t := s.time
  let gone := s.ns - s.pwr.sleepAt
  let s1 := s.setPwr { s.pwr with mstate := 0, smbSeen := src.getLsbD 0, pcieSeen := src.getLsbD 1, pinSeen := src.getLsbD 2, wakes := 0 }
  let s2 := s1.setTime (if t.present then { t with locked := true, holdover := false } else t)
  let s3 := s2.setGddr { s2.gddr with selfRefresh := false, chans := s2.gddr.chans.map refreshed }
  let s4 := s3.setPins { s3.pins with modReady := true }
  forAll (List.finRange 256) (fun r u => u.modRing r fun g => { g with interval := 200, activeAt := g.activeAt + gone }) s4

/-- A wake source arrives: it wakes the module from Sleep, and during entry it is kept until Sleep is reached (R454). -/
def wakeFrom (bit : BitVec 3) (s : State) : State :=
  if s.pwr.mstate = 2 then wakeUp bit s
  else if s.pwr.mstate = 1 then s.setPwr { s.pwr with wakes := s.pwr.wakes ||| bit }
  else s

/-- SLEEP_ENTRY (R452): the record of the POWER_SET is written, and the module goes to Sleep. -/
def execSleepEntry (s : State) : Res :=
  if s.pwr.mstate ≠ 1 || (List.finRange 256).any fun r => !(s.ring r).started.isEmpty then .next s
  else
    let s1 := goSleep s
    .next (if s.pwr.wakes = 0 then s1 else wakeUp s.pwr.wakes s1)

/-- The link leaves L1: a wake source, where it is enabled (R453). -/
def linkWake (s : State) : State := if s.pwr.pcieEn then wakeFrom 2 s else s

/-- PCIE_WAKE (R453). -/
def execPcieWake (s : State) : Res := .next (linkWake s)

/-- A host access of BAR0 or BAR2: in Sleep it wakes the module, and is made once the link is back; with the link no wake source it never
arrives (R453, R488; log 29). -/
def hostAccess (f : State → State) (s : State) : State := if (linkWake s).pwr.mstate = 2 then s else f (linkWake s)

/-- WAKE_N_ASSERT (R453). -/
def execWakeNAssert (s : State) : Res :=
  let s1 := s.setPins { s.pins with wakeN := false }
  .next (if s.pwr.pinEn then wakeFrom 4 s1 else s1)

end Sys2Proof.Machine
end

