-- ==== Sys2Proof/Machine/Regs.lean ====
section
/-! DEFINITION. BAR0: the map of R482, reads and writes of whole registers, accesses that cover several, half staging and
latching (R247, R485, R486), and the records of STATE_REQ (R262). -/
namespace Sys2Proof.Machine
open Sys2Proof

/-- The registers of BAR0 (R482). -/
inductive Reg where
  | modId | modRev | cap0 | cap1 | cap2 | cap3 | serialLo | serialHi | strapStatus
  | modCtrl | modStatus | resetCause | scratch | machBind | machRoute | machStatus
  | ledgerSel | ledgerStatus | ledgerNewest | ledgerData (w : Fin 8)
  | secStatus | sessionNonce | keySlotStatus | lockoutStatus | debugCtrl | nonceVal (t : Fin 16) (w : Fin 8)
  | pwrCapDefault | pwrCapLimit | pwrStateCtrl | pwrStatus | wakeCfg | tillLo | tillHi | pwrWear | pwrVtSel | pwrVtData
  | domStatus (n : Fin 59)
  | timeCtrl | timeStatus | timeLo | timeHi | refStatus
  | evtRingBase | evtRingCfg | evtDbAddr | evtCfg | msixMap (n : Fin 64)
  | ringBase (r : Fin 256) | ringCplBase (r : Fin 256) | ringDbAddr (r : Fin 256) | ringCfg (r : Fin 256)
  | ringCplCfg (r : Fin 256) | ringStatus (r : Fin 256)
  | portCfg (p : Fin 16) | portStatus (p : Fin 16) | portLaneMap (p : Fin 16) | portErrCnt (p : Fin 16) | portViolCnt (p : Fin 16)
  | portEpoch (p : Fin 16) | portVersion (p : Fin 16) | portSweepCtrl (p : Fin 16) | portSweepStatus (p : Fin 16)
  | memCtrl | memStatus
  | chCfg (ch : Fin 50) | chStatus (ch : Fin 50) | chEccCnt (ch : Fin 50) | chMap (ch : Fin 50)
  | tgCtrl (ch : Fin 50) | tgPattern (ch : Fin 50) | tgAddr (ch : Fin 50) | tgStatus (ch : Fin 50) | tgErrCnt (ch : Fin 50)
  | msixEntry (v : Fin 512) (w : Fin 4) | msixPend (i : Fin 8)
deriving DecidableEq, Repr

/-- The width of a register in bytes. The 256-bit and 128-bit ones are taken as words of 32 bits. -/
def Reg.width : Reg → Nat
  | .machBind | .machRoute | .secStatus | .keySlotStatus | .domStatus _ | .evtRingBase | .evtDbAddr | .ringBase _ | .ringCplBase _
  | .ringDbAddr _ | .portStatus _ | .portErrCnt _ | .portViolCnt _ | .portEpoch _ | .chEccCnt _ | .tgPattern _ | .tgAddr _
  | .msixPend _ => 8
  | .ringCplCfg _ | .ringStatus _ => 2
  | _ => 4

/-! ### The map (R482, R485) -/

/-- The register at an offset of a ring's block. -/
def ringRegAt (r : Fin 256) (o : Nat) : Option (Reg × Nat) :=
  if o < 0x08 then some (.ringBase r, 0) else if o < 0x10 then some (.ringCplBase r, 0x08)
  else if o < 0x18 then some (.ringDbAddr r, 0x10) else if o < 0x1C then some (.ringCfg r, 0x18)
  else if o < 0x1E then some (.ringCplCfg r, 0x1C) else some (.ringStatus r, 0x1E)

/-- The register at an offset of a port's block. -/
def portRegAt (p : Fin 16) (o : Nat) : Option (Reg × Nat) :=
  if o < 0x04 then some (.portCfg p, 0) else if o < 0x08 then none else if o < 0x10 then some (.portStatus p, 0x08)
  else if o < 0x14 then some (.portLaneMap p, 0x10) else if o < 0x18 then none else if o < 0x20 then some (.portErrCnt p, 0x18)
  else if o < 0x28 then some (.portViolCnt p, 0x20) else if o < 0x30 then some (.portEpoch p, 0x28)
  else if o < 0x34 then some (.portVersion p, 0x30) else if o < 0x38 then none else if o < 0x3C then some (.portSweepCtrl p, 0x38)
  else if o < 0x40 then some (.portSweepStatus p, 0x3C) else none

/-- The register at an offset of a channel's CH block. -/
def chRegAt (ch : Fin 50) (o : Nat) : Option (Reg × Nat) :=
  if o < 0x04 then some (.chCfg ch, 0) else if o < 0x08 then some (.chStatus ch, 0x04) else if o < 0x10 then some (.chEccCnt ch, 0x08)
  else if o < 0x14 then some (.chMap ch, 0x10) else none

/-- The register at an offset of a channel's TG block. -/
def tgRegAt (ch : Fin 50) (o : Nat) : Option (Reg × Nat) :=
  if o < 0x04 then some (.tgCtrl ch, 0) else if o < 0x08 then none else if o < 0x10 then some (.tgPattern ch, 0x08)
  else if o < 0x18 then some (.tgAddr ch, 0x10) else if o < 0x1C then some (.tgStatus ch, 0x18)
  else if o < 0x20 then some (.tgErrCnt ch, 0x1C) else none

/-- The single registers of the module control and identity blocks. -/
def modRegAt (o : Nat) : Option (Reg × Nat) :=
  if o < 0x110 then match o / 4 * 4 with
    | 0x00 => some (.modId, 0x00) | 0x04 => some (.modRev, 0x04) | 0x08 => some (.cap0, 0x08) | 0x0C => some (.cap1, 0x0C)
    | 0x10 => some (.cap2, 0x10) | 0x14 => some (.cap3, 0x14) | 0x18 => some (.serialLo, 0x18) | 0x1C => some (.serialHi, 0x1C)
    | 0x20 => some (.strapStatus, 0x20) | 0x100 => some (.modCtrl, 0x100) | 0x104 => some (.modStatus, 0x104)
    | 0x108 => some (.resetCause, 0x108) | 0x10C => some (.scratch, 0x10C)
    | _ => none
  else if o < 0x118 then some (.machBind, 0x110) else if o < 0x120 then some (.machRoute, 0x118)
  else match o / 4 * 4 with
    | 0x120 => some (.machStatus, 0x120) | 0x128 => some (.ledgerSel, 0x128) | 0x12C => some (.ledgerStatus, 0x12C)
    | 0x130 => some (.ledgerNewest, 0x130)
    | _ => if 0x140 ≤ o && o < 0x160 then some (.ledgerData (ix 8 ((o - 0x140) / 4)), o / 4 * 4) else none

/-- The registers of the security and power blocks. -/
def secRegAt (o : Nat) : Option (Reg × Nat) :=
  if o < 0x408 then some (.secStatus, 0x400)
  else if 0x410 ≤ o && o < 0x418 then some (.keySlotStatus, 0x410)
  else match o / 4 * 4 with
    | 0x408 => some (.sessionNonce, 0x408) | 0x418 => some (.lockoutStatus, 0x418) | 0x41C => some (.debugCtrl, 0x41C)
    | _ => if 0x600 ≤ o then some (.nonceVal (ix 16 ((o - 0x600) / 32)) (ix 8 ((o - 0x600) % 32 / 4)), o / 4 * 4) else none

def pwrRegAt (o : Nat) : Option (Reg × Nat) :=
  match o / 4 * 4 with
  | 0x800 => some (.pwrCapDefault, 0x800) | 0x804 => some (.pwrCapLimit, 0x804) | 0x808 => some (.pwrStateCtrl, 0x808)
  | 0x80C => some (.pwrStatus, 0x80C) | 0x810 => some (.wakeCfg, 0x810) | 0x818 => some (.tillLo, 0x818)
  | 0x81C => some (.tillHi, 0x81C) | 0x820 => some (.pwrWear, 0x820) | 0x824 => some (.pwrVtSel, 0x824)
  | 0x828 => some (.pwrVtData, 0x828)
  | _ => if 0x900 ≤ o && o < 0xAD8 then some (.domStatus (ix 59 ((o - 0x900) / 8)), o / 8 * 8) else none

/-- The registers of the time, event and MSI-X map blocks. -/
def timeRegAt (o : Nat) : Option (Reg × Nat) :=
  match o / 4 * 4 with
  | 0xC00 => some (.timeCtrl, 0xC00) | 0xC04 => some (.timeStatus, 0xC04) | 0xC08 => some (.timeLo, 0xC08)
  | 0xC0C => some (.timeHi, 0xC0C) | 0xC10 => some (.refStatus, 0xC10)
  | 0x1008 => some (.evtRingCfg, 0x1008) | 0x1018 => some (.evtCfg, 0x1018)
  | _ =>
    if 0x1000 ≤ o && o < 0x1008 then some (.evtRingBase, 0x1000)
    else if 0x1010 ≤ o && o < 0x1018 then some (.evtDbAddr, 0x1010)
    else if 0x1100 ≤ o && o < 0x1200 then some (.msixMap (ix 64 ((o - 0x1100) / 4)), o / 4 * 4)
    else none

/-- A block's register with its offset in BAR0. -/
def atBase (base : Nat) (x : Option (Reg × Nat)) : Option (Reg × Nat) := x.map fun y => (y.1, base + y.2)

/-- The register that holds a byte of BAR0, with the register's own offset; none in a reserved range. -/
def regAt (o : Nat) : Option (Reg × Nat) :=
  if o < 0x400 then modRegAt o
  else if o < 0x800 then secRegAt o
  else if o < 0xC00 then pwrRegAt o
  else if o < 0x2000 then timeRegAt o
  else if o < 0x4000 then let r := (o - 0x2000) / 32; atBase (0x2000 + 32 * r) (ringRegAt (ix 256 r) (o % 32))
  else if o < 0x5000 then let p := (o - 0x4000) / 256; atBase (0x4000 + 256 * p) (portRegAt (ix 16 p) (o % 256))
  else if o < 0x5004 then some (.memCtrl, 0x5000)
  else if o < 0x5008 then some (.memStatus, 0x5004)
  else if 0x5100 ≤ o && o < 0x5D80 then
    let c := (o - 0x5100) / 64; atBase (0x5100 + 64 * c) (chRegAt (ix 50 c) ((o - 0x5100) % 64))
  else if 0x6000 ≤ o && o < 0x6C80 then
    let c := (o - 0x6000) / 64; atBase (0x6000 + 64 * c) (tgRegAt (ix 50 c) ((o - 0x6000) % 64))
  else if 0x8000 ≤ o && o < 0xA000 then
    some (.msixEntry (ix 512 ((o - 0x8000) / 16)) (ix 4 (o % 16 / 4)), o / 4 * 4)
  else if 0xA000 ≤ o && o < 0xA040 then some (.msixPend (ix 8 ((o - 0xA000) / 8)), o / 8 * 8)
  else none

/-! ### Register values -/

/-- SEC_STATUS (R305). -/
def secStatus (s : State) : Dword :=
  let x := s.sec
  BitVec.ofNat 64 (b2n x.owned + 2 * b2n x.bootSlot + 4 * b2n x.fallback + 8 * b2n s.boot.recovery + 2 ^ 4 * x.fwState.toNat
    + 2 ^ 7 * ((standing x).tries % 4) + 2 ^ 9 * b2n x.rejected + 2 ^ 10 * x.arbFused + 2 ^ 17 * b2n x.debugLock
    + 2 ^ 32 * x.running.toNat)

/-- KEY_SLOT_STATUS (R301). -/
def keySlotStatus (x : Security) : Dword :=
  BitVec.ofNat 64 ((List.finRange 8).foldl (fun a k =>
    a + 2 ^ (8 * k.val) * (x.slots[k].rights.toNat + 2 ^ 6 * b2n (x.sessions.any fun y => y.slot = k) + 2 ^ 7 * b2n x.slots[k].valid)) 0)

/-- LOCKOUT_STATUS (R300). -/
def lockoutStatus (s : State) : Word :=
  let left : Nat := match s.sec.lockUntil with
    | some t => (t - s.ns + 999999) / 1000000
    | none => 0
  BitVec.ofNat 32 (s.sec.fails + 2 ^ 4 * b2n (left ≠ 0) + 2 ^ 5 * s.sec.level + 2 ^ 16 * left)

/-- DEBUG_CTRL (R307). -/
def debugCtrl (x : Security) : Word :=
  BitVec.ofNat 32 (x.dbgTag.toNat + 2 ^ 16 * b2n x.dbgActive + 2 ^ 17 * b2n x.dbgActive + 2 ^ 18 * b2n x.dbgDenied)

def ringStateCode : RingState → Nat
  | .disabled => 0
  | .unbound => 1
  | .bound => 2
  | .halted => 3
  | .resetting => 4

/-- RING_CFG (R250). -/
def ringCfg (g : Ring) : Word :=
  BitVec.ofNat 32 (b2n g.enable + 2 ^ 2 * g.log2.toNat + 2 ^ 7 * g.prio.toNat + 2 ^ 16 * g.epoch.toNat)

/-- RING_STATUS (R252). -/
def ringStatus (g : Ring) : Half :=
  BitVec.ofNat 16 (ringStateCode g.state + 2 ^ 3 * b2n g.urgent + 2 ^ 4 * b2n (decide (200 < g.interval)) + 2 ^ 5 * b2n g.dbInvalid
    + 2 ^ 6 * b2n g.mirrorMismatch + 2 ^ 7 * b2n g.cfgErr + 2 ^ 8 * g.inflight)

/-- A word of an MSI-X entry (R489). -/
def msixWord (e : MsixEntry) (w : Nat) : Word :=
  if w = 0 then BitVec.ofNat 32 (4 * e.addr.toNat) else if w = 1 then BitVec.ofNat 32 (4 * e.addr.toNat / 2 ^ 32)
  else if w = 2 then e.data else BitVec.ofNat 32 (b2n e.mask)

/-- Pending bits 64 i to 64 i + 63 (R490). -/
def msixPend (s : State) (i : Fin 8) : Dword :=
  BitVec.ofNat 64 ((List.range 64).foldl (fun a k => a + 2 ^ k * b2n s.pcie.entries[ix 512 (64 * i.val + k)].pend) 0)

/-- In recovery the port, memory and traffic-generator blocks read their reset values (R488). -/
def regPort (s : State) (p : Fin 16) : Port := if s.boot.recovery then Port.reset else s.port p
def regChan (s : State) (ch : Fin 50) : Channel := if s.boot.recovery then Channel.reset else s.chan ch
def regGddr (s : State) : Gddr := if s.boot.recovery then Gddr.reset else s.gddr

/-- The value of a register, in as many bits as it has. Write-only fields read 0. -/
def Reg.value (s : State) : Reg → Dword
  | .modId => 0x156029CB
  | .modRev => 0x100
  | .cap0 => 0x02196030
  | .cap1 => s.sec.feature.setWidth 64
  | .cap2 => 0x00010121
  | .cap3 => BitVec.ofNat 64 (b2n s.sec.standbyCert)
  | .serialLo => (bits Config.serial 0 32).setWidth 64
  | .serialHi => (bits Config.serial 32 32).setWidth 64
  | .strapStatus => (Machine.strapStatus s.boot).setWidth 64
  | .modCtrl => 0
  | .modStatus => (Machine.modStatus s).setWidth 64
  | .resetCause => (Machine.resetCause s).setWidth 64
  | .scratch => s.boot.scratch.setWidth 64
  | .machBind => Machine.machBind s.mach
  | .machRoute => Machine.machRoute s.mach
  | .machStatus => (Machine.machStatus s.mach).setWidth 64
  | .ledgerSel => s.ledger.sel.setWidth 64
  | .ledgerStatus => BitVec.ofNat 64 (2 * b2n s.ledger.valid + 4 * b2n s.ledger.skipped)
  | .ledgerNewest => s.ledger.seqNo.setWidth 64
  | .ledgerData w => BitVec.ofNat 64 (fieldAt s.ledger.data (4 * w.val) 4)
  | .secStatus => Machine.secStatus s
  | .sessionNonce => 0
  | .keySlotStatus => Machine.keySlotStatus s.sec
  | .lockoutStatus => (Machine.lockoutStatus s).setWidth 64
  | .debugCtrl => (Machine.debugCtrl s.sec).setWidth 64
  | .nonceVal t w => (bits s.sec.nonces[t].val (32 * w.val) 32).setWidth 64
  | .pwrCapDefault => (Machine.pwrCapDefault s.pwr).setWidth 64
  | .pwrCapLimit => (Machine.pwrCapLimit s.pwr).setWidth 64
  | .pwrStateCtrl => (Machine.pwrStateCtrl s.pwr).setWidth 64
  | .pwrStatus => (Machine.pwrStatus s).setWidth 64
  | .wakeCfg => (Machine.wakeCfg s.pwr).setWidth 64
  | .tillLo => (bits s.pwr.till 0 32).setWidth 64
  | .tillHi => (bits s.pwr.till 32 32).setWidth 64
  | .pwrWear => (Machine.pwrWear s).setWidth 64
  | .pwrVtSel => (Machine.pwrVtSel s.pwr).setWidth 64
  | .pwrVtData => (Machine.pwrVtData s.pwr).setWidth 64
  | .domStatus n => Machine.domStatus (s.dom n)
  | .timeCtrl => (Machine.timeCtrl s.time).setWidth 64
  | .timeStatus => (Machine.timeStatus s.time).setWidth 64
  | .timeLo => (bits s.time.mt 0 32).setWidth 64
  | .timeHi => (bits s.time.mt 32 32).setWidth 64
  | .refStatus => (Machine.refStatus s.time).setWidth 64
  | .evtRingBase => BitVec.ofNat 64 (4096 * s.evt.base.toNat)
  | .evtRingCfg => BitVec.ofNat 64 (b2n s.evt.enable + 2 * s.evt.log2.toNat)
  | .evtDbAddr => BitVec.ofNat 64 (8 * s.evt.dbAddr.toNat)
  | .evtCfg => BitVec.ofNat 64 (s.evt.minSev.toNat + 2 ^ 16 * s.evt.lost.toNat)
  | .msixMap n => BitVec.ofNat 64 (s.pcie.maps[n].vector.toNat + 2 ^ 9 * b2n s.pcie.maps[n].en)
  | .ringBase r => BitVec.ofNat 64 (4096 * (s.ring r).base.toNat)
  | .ringCplBase r => BitVec.ofNat 64 (4096 * (s.ring r).cplBase.toNat)
  | .ringDbAddr r => BitVec.ofNat 64 (8 * (s.ring r).dbAddr.toNat)
  | .ringCfg r => (Machine.ringCfg (s.ring r)).setWidth 64
  | .ringCplCfg r => BitVec.ofNat 64 ((s.ring r).vector.toNat + 2 ^ 9 * b2n (s.ring r).irqAll + 2 ^ 10 * (s.ring r).mod_.toNat)
  | .ringStatus r => (Machine.ringStatus (s.ring r)).setWidth 64
  | .portCfg p => (Machine.portCfg (regPort s p)).setWidth 64
  | .portStatus p => Machine.portStatus (regPort s p)
  | .portLaneMap p => (Machine.portLaneMap (regPort s p)).setWidth 64
  | .portErrCnt p => Machine.portErrCnt (regPort s p)
  | .portViolCnt p => Machine.portViolCnt (regPort s p)
  | .portEpoch p => Machine.portEpoch s (regPort s p)
  | .portVersion p => (Machine.portVersion (regPort s p)).setWidth 64
  | .portSweepCtrl p => (regPort s p).sweepLane.setWidth 64
  | .portSweepStatus p => (sweepStatus (regPort s p)).setWidth 64
  | .memCtrl => (Machine.memCtrl (regGddr s)).setWidth 64
  | .memStatus => (Machine.memStatus (regGddr s)).setWidth 64
  | .chCfg ch => (Machine.chCfg (regChan s ch)).setWidth 64
  | .chStatus ch => (Machine.chStatus (regChan s ch)).setWidth 64
  | .chEccCnt ch => Machine.chEccCnt (regChan s ch)
  | .chMap ch => (Machine.chMap (regChan s ch)).setWidth 64
  | .tgCtrl ch => (Machine.tgCtrl (regChan s ch).tg).setWidth 64
  | .tgPattern ch => (regChan s ch).tg.pattern
  | .tgAddr ch => (regChan s ch).tg.addr
  | .tgStatus ch => (Machine.tgStatus (regChan s ch).tg).setWidth 64
  | .tgErrCnt ch => (Machine.tgErrCnt (regChan s ch).tg).setWidth 64
  | .msixEntry v w => (msixWord s.pcie.entries[v] w.val).setWidth 64
  | .msixPend i => Machine.msixPend s i

/-! ### Writes of whole registers -/

/-- Address registers and RING_CPL_CFG of a ring (R249, R251, R253). -/
def ringAddrWrite (r : Fin 256) (f : Ring → Ring) (s : State) : State := if (s.ring r).state = .disabled then s.modRing r f else s

/-- A word of an MSI-X entry; clearing MASK sends a held message (R489, R490). -/
def msixWrite (v : Fin 512) (w : Nat) (x : Word) (s : State) : State :=
  let e := s.pcie.entries[v]
  let set (y : MsixEntry) : State := s.setPcie { s.pcie with entries := s.pcie.entries.set v y }
  if w = 0 then set { e with addr := bits e.addr 30 32 ++ (bits x 2 30 : BitVec 30) }
  else if w = 1 then set { e with addr := x ++ (bits e.addr 0 30 : BitVec 30) }
  else if w = 2 then set { e with data := x }
  else if x.getLsbD 0 then set { e with mask := true }
  else unmaskVector v s

/-- TG_PATTERN and TG_ADDR (R226, R238 to R240). -/
def tgFieldWrite (ch : Fin 50) (f : TrafficGen → TrafficGen) (s : State) : State :=
  if !s.sec.dbgActive || (s.chan ch).tg.state = 1 then s else modChan ch (fun c => { c with tg := f c.tg }) s

/-- Write a register as a whole; a register or field without write access takes nothing. MOD_CTRL has a row of its own, which
brings what the start-up finds. -/
def Reg.write (v : Dword) (s : State) : Reg → State
  | .strapStatus => s.setBoot { s.boot with changed := s.boot.changed && !v.getLsbD 20 }
  | .scratch => s.setBoot { s.boot with scratch := bits v 0 32 }
  | .machBind => machBindWrite v s
  | .machRoute => machRouteWrite v s
  | .machStatus => s.setMach { s.mach with bindErr := s.mach.bindErr && !v.getLsbD 1, routeErr := s.mach.routeErr && !v.getLsbD 6 }
  | .ledgerSel => ledgerSelect (bits v 0 32) s
  | .secStatus => s.setSec { s.sec with rejected := s.sec.rejected && !v.getLsbD 9 }
  | .debugCtrl => debugCtrlWrite (bits v 0 32) s
  | .pwrCapDefault => pwrCapDefaultWrite (bits v 0 32) s
  | .pwrCapLimit => pwrCapLimitWrite (bits v 0 32) s
  | .pwrStateCtrl => pwrStateCtrlWrite (bits v 0 32) s
  | .wakeCfg => wakeCfgWrite (bits v 0 32) s
  | .pwrVtSel => pwrVtSelWrite (bits v 0 32) s
  | .timeCtrl => timeCtrlWrite (bits v 0 32) s
  | .timeStatus => s.setTime { s.time with stepped := s.time.stepped && !v.getLsbD 3, loadErr := s.time.loadErr && !v.getLsbD 4 }
  | .timeLo => s.setTime { s.time with stagedLo := bits v 0 32 }
  | .timeHi => s.setTime { s.time with stagedHi := bits v 0 32 }
  | .refStatus => s.setTime { s.time with lost := s.time.lost && !v.getLsbD 1 }
  | .evtRingBase => if s.evt.enable then s else s.setEvt { s.evt with base := bits v 12 52 }
  | .evtRingCfg => evtCfgWrite (bits v 0 32) s
  | .evtDbAddr => if s.evt.enable then s else s.setEvt { s.evt with dbAddr := bits v 3 61 }
  | .evtCfg => s.setEvt { s.evt with minSev := bits v 0 2 }
  | .msixMap n => s.setPcie { s.pcie with maps := s.pcie.maps.set n ⟨bits v 0 9, v.getLsbD 9⟩ }
  | .ringBase r => ringAddrWrite r (fun g => { g with base := bits v 12 52 }) s
  | .ringCplBase r => ringAddrWrite r (fun g => { g with cplBase := bits v 12 52 }) s
  | .ringDbAddr r => ringAddrWrite r (fun g => { g with dbAddr := bits v 3 61 }) s
  | .ringCfg r => ringCfgWrite r (bits v 0 32) s
  | .ringCplCfg r => s.modRing r fun g => { g with vector := bits v 0 9, irqAll := v.getLsbD 9, mod_ := bits v 10 6 }
  | .ringStatus r => s.modRing r fun g => { g with
      dbInvalid := g.dbInvalid && !v.getLsbD 5, mirrorMismatch := g.mirrorMismatch && !v.getLsbD 6, cfgErr := g.cfgErr && !v.getLsbD 7 }
  | .portCfg p => if s.boot.recovery then s else portCfgWrite p (bits v 0 32) s
  | .portSweepCtrl p => if s.boot.recovery then s else sweepCtrlWrite p (bits v 0 32) s
  | .memCtrl => if s.boot.recovery then s else memCtrlWrite (bits v 0 32) s
  | .chCfg ch => if s.boot.recovery then s else modChan ch (fun c => { c with edcRetry := bits v 0 4, ceEvtEn := v.getLsbD 4 }) s
  | .tgCtrl ch => tgCtrlWrite ch (bits v 0 32) s
  | .tgPattern ch =>
    if s.boot.recovery then s else tgFieldWrite ch (fun t => { t with pattern := v &&& 0xFFFFFFFF0000000F }) s
  | .tgAddr ch => if s.boot.recovery then s else tgFieldWrite ch (fun t => { t with addr := v &&& 0x007FFFFF003FFFFF }) s
  | .msixEntry v' w => msixWrite v' w.val (bits v 0 32) s
  | .modId | .modRev | .cap0 | .cap1 | .cap2 | .cap3 | .serialLo | .serialHi | .modCtrl | .modStatus | .resetCause | .ledgerStatus
  | .ledgerNewest | .ledgerData _ | .sessionNonce | .keySlotStatus | .lockoutStatus | .nonceVal _ _ | .pwrStatus | .tillLo | .tillHi
  | .pwrWear | .pwrVtData | .domStatus _ | .portStatus _ | .portLaneMap _ | .portErrCnt _ | .portViolCnt _ | .portEpoch _
  | .portVersion _ | .portSweepStatus _ | .memStatus | .chStatus _ | .chEccCnt _ | .chMap _ | .tgStatus _ | .tgErrCnt _
  | .msixPend _ => s

/-! ### Accesses (R247, R485, R486) -/

/-- Drop a register's staged lower half. -/
def unstage (o : Nat) (s : State) : State := s.setPcie { s.pcie with staged := s.pcie.staged.filter fun x => x.1 ≠ o }

/-- A write of 2 bytes: a 16-bit register. -/
def write2 (o : Nat) (v : Half) (s : State) : State :=
  match regAt o with
  | some (r, b) => if r.width = 2 && b = o then r.write (v.setWidth 64) s else s
  | none => s

/-- A write of 4 bytes: a register, two 16-bit registers, or half of a 64-bit one. -/
def write4 (o : Nat) (v : Word) (s : State) : State :=
  match regAt o with
  | none => s
  | some (r, b) =>
    if r.width = 2 then write2 (o + 2) (bits v 16 16) (write2 o (bits v 0 16) s)
    else if r.width = 4 then r.write (v.setWidth 64) s
    else if o = b then
      let s1 := unstage b s
      s1.setPcie { s1.pcie with staged := (b, v) :: s1.pcie.staged }
    else
      let low : Word := match s.pcie.staged.find? fun x => x.1 = b with
        | some x => x.2
        | none => bits (r.value s) 0 32
      r.write (v ++ low) (unstage b s)

/-- An aligned write of BAR0. -/
def hostWrite (o size : Nat) (v : Dword) (s : State) : State :=
  if o % size ≠ 0 then s
  else if size = 2 then write2 o (bits v 0 16) s
  else if size = 4 then write4 o (bits v 0 32) s
  else if size = 8 then
    match regAt o with
    | some (r, b) => if r.width = 8 then r.write v (unstage b s) else write4 (o + 4) (bits v 32 32) (write4 o (bits v 0 32) s)
    | none => write4 (o + 4) (bits v 32 32) s
  else s

/-- REGISTER_WRITE (R247). -/
def execRegisterWrite (off : Half) (size : Nat) (v : Dword) (s : State) : Res := .next (hostAccess (hostWrite off.toNat size v) s)

/-- The 4 bytes at an offset as they stand: registers, and zero in reserved bytes. -/
def peek4 (s : State) (o : Nat) : Word :=
  match regAt o with
  | none => 0
  | some (r, b) =>
    if r.width = 2 then match regAt (o + 2) with
      | some (q, _) => (bits (q.value s) 0 16 : Half) ++ (bits (r.value s) 0 16 : Half)
      | none => (bits (r.value s) 0 16 : Half).setWidth 32
    else if r.width = 8 && o ≠ b then bits (r.value s) 32 32
    else bits (r.value s) 0 32

/-- Whether a 4-byte read at an offset latches the 4 bytes above it. -/
def latches (o : Nat) : Bool := match regAt o with
  | some (r, b) => (r.width = 8 && o = b) || r = .timeLo || r = .tillLo
  | none => false

/-- A 4-byte read: a low half latches its high half, and a high half takes a latch that is pending. -/
def read4 (o : Nat) (s : State) : Word × State :=
  let rest := s.pcie.latched.filter fun x => x.1 ≠ o
  if latches o then
    (peek4 s o, s.setPcie { s.pcie with latched := (o + 4, peek4 s (o + 4)) :: s.pcie.latched.filter fun x => x.1 ≠ o + 4 })
  else match s.pcie.latched.find? fun x => x.1 = o with
    | some x => (x.2, s.setPcie { s.pcie with latched := rest })
    | none => (peek4 s o, s)

/-- An aligned 8-byte read: every register it covers at one instant. -/
def peek8 (s : State) (o : Nat) : Dword := peek4 s (o + 4) ++ peek4 s o

/-- An aligned 2-byte read: a 16-bit register. -/
def peek2 (s : State) (o : Nat) : Half :=
  match regAt o with
  | some (r, b) => if r.width = 2 && b = o then bits (r.value s) 0 16 else 0
  | none => 0

/-- A read: the value stands in the output; a 4-byte read of a high half takes the latch. BAR2, a misaligned access and any other size
read zero (R247, R257, R486). -/
def hostRead (bar2 : Bool) (o size : Nat) (s : State) : State :=
  let out (v : Dword) (t : State) : State := t.setOut { t.out with read := v }
  if bar2 || o % max 1 size ≠ 0 then out 0 s
  else if size = 8 then out (peek8 s o) s
  else if size = 4 then out ((read4 o s).1.setWidth 64) (read4 o s).2
  else if size = 2 then out ((peek2 s o).setWidth 64) s
  else out 0 s

/-- LOW_HALF_READ (R247, R486). -/
def execLowHalfRead (bar2 : Bool) (off : Half) (size : Nat) (s : State) : Res := .next (hostAccess (hostRead bar2 off.toNat size) s)

/-! ### STATE_REQ (R262) -/

/-- A saturating total over all cores. -/
def totalOf (s : State) (f : Core → Word) : Nat := min (2 ^ 32 - 1) ((List.finRange 384).foldl (fun a c => a + (f (s.core c)).toNat) 0)

/-- The module summary. -/
def summary (s : State) : List Byte :=
  let y := stragglerOf s
  let up := (List.finRange 16).foldl (fun a p => a + 2 ^ p.val * b2n ((s.port p).state = 3)) 0
  let retired := ((List.finRange 384).filter fun c => (s.core c).retired).length
  fit 64 (leBytes (modStatus s).toNat 4 ++ leBytes (pwrStatus s).toNat 4 ++ leBytes s.time.mt.toNat 8 ++ leBytes s.pwr.till.toNat 8
    ++ leBytes y.1 2 ++ leBytes y.2 2 ++ [BitVec.ofNat 8 s.gddr.activeCh.toNat, BitVec.ofNat 8 retired] ++ leBytes up 2
    ++ leBytes (totalOf s fun c => c.satCnt) 4 ++ leBytes (totalOf s fun c => c.ufzCnt) 4 ++ leBytes (totalOf s fun c => c.psnCnt) 4
    ++ leBytes (min (2 ^ 32 - 1) s.watchTotal) 4)

/-- Bytes of BAR0 as they stand. -/
def barBytes (s : State) (o n : Nat) : List Byte := (List.range (n / 4)).flatMap fun i => leBytes (peek4 s (o + 4 * i)).toNat 4

/-- The bytes of a record. -/
def stateRecord (s : State) (rec_ i : Nat) : List Byte :=
  if rec_ = 0 then summary s
  else if rec_ = 1 then ctrBytes (ix 384 i) (s.core (ix 384 i))
  else if rec_ = 2 then barBytes s (0x4000 + 256 * i) 256
  else barBytes s (0x5100 + 64 * i) 64

/-- Why a STATE_REQ is refused: its record, its index, its destination, its core (R261, R262, R265). -/
def stateFault (s : State) (w : DescWord) : Option (Byte × Half) :=
  let k := (bits (dW2 w) 0 8).toNat
  let i := (dW3 w).toNat
  let n := ([64, 512, 256, 64] : List Nat).getD k 0
  worst [failIf (3 < k) stMalformed 0x08,
    failIf ((k = 1 && 384 ≤ i) || (k = 2 && 16 ≤ i) || (k = 3 && 50 ≤ i)) stMalformed 0x0C,
    opFault s (dQ w 0x10) n 0x10,
    if k = 1 && i < 384 && !coreServes s i then some (stDegraded, coreOutDetail s (ix 384 i)) else none]

/-- STATE_REQ (R262): the record as it stood at the descriptor's start. -/
def execStateReq (r : Fin 256) (n : Nat) (s : State) : Res :=
  match descAt s r n 0x51 with
  | none => .next s
  | some c =>
    match stateFault s c.word with
    | some x => .next (finishDesc r c.idx x.1 x.2 0 s)
    | none =>
      let bs := if c.snap.isEmpty then stateRecord s (bits (dW2 c.word) 0 8).toNat (dW3 c.word).toNat else c.snap
      .next (fitTxns s (endOrWait r c.idx stOk 0 0 (writeOut (.desc r c.idx) 2 (dQ c.word 0x10) (bs.map fun b => (b, false)) s)))

end Sys2Proof.Machine
end

