-- ==== Sys2Proof/Machine/Startup.lean ====
section
/-! DEFINITION. Power-on, module reset and start-up (R17, R18, R279 to R289), GDDR7 training's map (R211 to R214), loss of 48 V (R16,
R30, R440, R477), thermal shutdown (R447), droop resets (R442), and the reference's return (R411). -/
namespace Sys2Proof.Machine
open Sys2Proof

/-! ### Step 3: the boot ROM (R283 to R287) -/

/-- The image a start-up boots, whether as a trial, with the boot record as written; none means recovery (R286). -/
def chooseImage (x : Security) : Option (Bool × Bool) × Security :=
  let r := standing x
  let first := r.pending.getD r.active
  let y : Option (Bool × Bool) × Security := match r.pending with
    | some p =>
      if r.tries < 3 then
        let x1 := writeRec { r with tries := r.tries + 1 } x
        if fwVerifies x1 p then (some (p, true), x1) else (none, x1)
      else (none, { writeRec { r with pending := none, verified := if r.verified = some p then none else r.verified } x with rejected := true })
    | none => (none, x)
  let x1 := y.2
  match y.1 with
  | some b => (some b, { x1 with fallback := false })
  | none =>
    if fwVerifies x1 r.active then (some (r.active, false), { x1 with fallback := r.active ≠ first || 3 ≤ r.tries && r.pending.isSome })
    else if fwVerifies x1 (!r.active) then
      (some (!r.active, false), { writeRec { standing x1 with active := !r.active } x1 with fallback := true })
    else (none, { x1 with fallback := false })

/-- FW_STATE after a boot (R302, R304). -/
def fwStateAfter (x : Security) (slot trial : Bool) : BitVec 3 :=
  if trial then 4 else if (standing x).pending.isSome then 3 else if (standing x).verified = some (!slot) then 2 else 0

/-- The security state of a booted image. -/
def bootedAs (x : Security) (slot trial : Bool) : Security :=
  let m := flashOf x slot
  { x with
    bootSlot := slot, running := BitVec.ofNat 32 (fwField m 4), feature := BitVec.ofNat 32 (fwField m 0x10),
    fwState := fwStateAfter x slot trial }

/-- A confirmed image's fuses that a power loss or a reset kept from being blown are blown before the clerk serves (R304). -/
def blowMissing (old : Security) (slot trial : Bool) (x : Security) : Security :=
  if trial || (standing old).active ≠ slot || (standing old).pending.isSome then x
  else { x with arbFused := max x.arbFused (min 64 (fwField (flashOf x slot) 8)) }

/-- The entry that a rejected trial image leaves (R287, R479). -/
def fallbackEntry (old : Security) (slot : Bool) (s : State) : State :=
  match (standing old).pending with
  | some p =>
    if (standing old).tries < 3 then s
    else ledgerAdd 0x0805 2 0 (leBytes (fwField (flashOf old p) 4) 4 ++ [BitVec.ofNat 8 (b2n slot)]) s
  | none => s

/-- Step 3: the clerk boots, or the module enters recovery (R289). -/
def bootClerk (s : State) : State :=
  let y := chooseImage s.sec
  match y.1 with
  | some b =>
    let s1 := s.setSec (blowMissing s.sec b.1 b.2 (bootedAs y.2 b.1 b.2))
    let s2 := fallbackEntry s.sec b.1 (s1.setBoot { s1.boot with step := 3, clerkServed := s.ns })
    ledgerAdd 0x0801 0 0 ([s2.boot.cause, BitVec.ofNat 8 (b2n b.1), s2.sec.fwState.setWidth 8] ++ leBytes s2.sec.running.toNat 4) s2
  | none =>
    let s1 := s.setSec { y.2 with fwState := 0, running := 0, feature := 0 }
    let s2 := s1.setBoot { s1.boot with step := 3, recovery := true, fatal := true, clerkServed := s.ns }
    postEvent 0x0702 3 0 (leBytes (resetCause s2).toNat 4) s2

/-! ### Steps 4 to 9 (R279) -/

/-- Step 4: market time starts, on the reference or in holdover (R27, R400); crossings are aligned (R399). -/
def startTime (usable : Bool) (freqErr : Half) (s : State) : State :=
  let t := s.time
  let s1 := s.setTime { t with
    mt := 0, running := true, present := usable, freqErr := freqErr, locked := usable, holdover := !usable, holdSince := s.ns, upAt := s.ns,
    slewAt := s.ns, lastSend := 0, fifoPhy := Vector.replicate 50 4, fifoPort := Vector.replicate 16 4 }
  s1.setBoot { s1.boot with step := 4, refWait := none }

/-- A lane group after training: the spare in for one failed lane, disabled by a second (R279, R470). -/
def trainedGroup (lanes : List (Fin 12 × Fin 32 × Fin 17)) (sm : Fin 12) (g : Fin 32) : SeamGroup :=
  let bad := ((lanes.filter fun x => x.1 = sm && x.2.1 = g).map fun x => x.2.2).eraseDups
  { failed := bad.take 2, disabled := 2 ≤ bad.length, replays := 0 }

/-- Step 5: lanes are trained and spares switched in; the stacks whose seam cannot form are out of service (R279, R470). -/
def formSeams (bad : BitVec 4) (lanes : List (Fin 12 × Fin 32 × Fin 17)) (s : State) : State :=
  let s1 : State := { s with seams := Vector.ofFn fun sm => Vector.ofFn fun g => trainedGroup lanes sm g }
  let unformed (st : Nat) : Bool := bad.getLsbD st || seamGroups s1 (ix 12 (2 * st)) = 0 || seamGroups s1 (ix 12 (2 * st + 1)) = 0
  let s2 := (List.range 4).foldl (fun t st => if unformed st then stackOut st t else t) s1
  let s3 := if (List.finRange 12).any fun sm => seamGroups s1 sm < 32 then setDegraded s2 else s2
  s3.setBoot { s3.boot with step := 5 }

/-- Step 6: clusters power up; those that fail their self-test are left out of service (R473, R481). -/
def startClustersUp (bad : BitVec 48) (s : State) : State :=
  let s1 := forAll (List.finRange 48) (fun cl t =>
    let t1 := modCpwr cl (fun c => { c with mode := .run, idleSince := t.ns })
      (t.modCluster cl fun c => { c with lastAnswer := BitVec.ofNat 64 t.ns, tkErr := 0 })
    modCpwr cl (fun c => { c with op := pointOf t1 cl }) t1) s
  let s2 := forAll (maskList bad) (fun cl => clusterOut cl 3) s1
  s2.setBoot { s2.boot with step := 6 }

/-- The report of a PHY that fails training. -/
def failOf (fails : List PhyFail) (ch : Nat) : Option PhyFail := fails.find? fun f => f.phy.val = ch

/-- The PHYs of a hub that take a slot: those that pass, but for the highest when all 25 pass (R212). -/
def hubSlots (fails : List PhyFail) (hub : Nat) : List Nat :=
  let pass := ((List.range 25).map (25 * hub + ·)).filter fun ch => (failOf fails ch).isNone
  if pass.length = 25 then pass.take 24 else pass

/-- A channel after training: in the map, spare in self refresh, or failed (R212, R215, R234, R236). -/
def trainedChan (fails : List PhyFail) (slots : List Nat) (ch : Nat) : Channel :=
  match failOf fails ch with
  | some f => { Channel.reset with
      state := 3, cause := f.cause.setWidth 4, ratesOk := if f.cause.toNat = 1 || f.cause.toNat = 2 then 0 else f.ratesOk }
  | none => match slots.findIdx? fun x => x = ch with
    | some i => { Channel.reset with
        state := 1, ratesOk := 15, slot := BitVec.ofNat 6 i, mapped := true, substitute := ch = 24 || ch = 49 }
    | none => { Channel.reset with state := 2, ratesOk := 15, sr := true }

/-- Step 7: training and the map; a missing channel is reported (R211 to R214). -/
def trainMemory (fails : List PhyFail) (s : State) : State :=
  let slots := hubSlots fails 0 ++ hubSlots fails 1
  let s1 := s.setGddr { Gddr.reset with
    activeCh := BitVec.ofNat 6 slots.length, trained := true, chans := Vector.ofFn fun ch => trainedChan fails slots ch.val }
  let s2 := if slots.length < 48 then setDegraded s1 else s1
  s2.setBoot { s2.boot with step := 7 }

/-- Step 9: the PCIe link comes up and MOD_READY goes high, once PERST_N is high. -/
def linkUp (s : State) : State :=
  if !s.pins.perstN then s
  else
    let s1 := s.setPcie { s.pcie with up := true }
    let s2 := s1.setPins { s1.pins with modReady := true }
    s2.setBoot { s2.boot with step := 9 }

/-- Steps 5 to 9; in recovery the first four of them are skipped (R289). The width and the rate the PCIe link trains to are the board's
(R242). -/
def finishStart (e : StartupEnv) (s0 : State) : State :=
  let s := s0.setPcie { s0.pcie with lanes := e.pcieLanes, rate := e.pcieRate }
  if s.boot.recovery then linkUp (s.setBoot { s.boot with step := 8 })
  else
    let s1 := trainMemory e.phyFails (startClustersUp e.badClusters (formSeams e.badStacks e.seamLanes s))
    linkUp (s1.setBoot { s1.boot with step := 8 })

/-- Steps 3 and on; without a reference the hubs wait at step 4 (R27). -/
def startOn (e : StartupEnv) (s : State) : State :=
  let s1 := bootClerk (rearm (s.setPins { s.pins with thermTripN := true }))
  if e.refUsable then finishStart e (startTime true e.refErr s1) else s1.setBoot { s1.boot with refWait := some s.ns }

/-! ### Step 2 and module reset (R21, R281, R328) -/

/-- The partner epoch of the next module reset: bits [15:0] are never zero (R328). -/
def nextEpoch (e : Word) : Word := let x := e + 1; if (bits x 0 16 : Half) = 0 then x + 1 else x

/-- What a module reset leaves of the security state: secure store, flash, REJECTED, lockout (R281, R300, R305). -/
def keptSecurity (x : Security) : Security :=
  { Security.reset with
    owned := x.owned, debugLock := x.debugLock, slots := x.slots, counter := x.counter, standbyCert := x.standbyCert,
    flashA := x.flashA, flashB := x.flashB, recA := x.recA, recB := x.recB, arbFused := x.arbFused, rejected := x.rejected,
    fails := x.fails, level := x.level, lockUntil := x.lockUntil }

/-- What stays of a cluster's power: its wear, from the secure store (R440). -/
def keptWear (c : ClusterPower) : ClusterPower := { ClusterPower.reset with wearMs := c.wearMs, wearTold := c.wearTold }

/-- What a module reset leaves of power: RWS fields, the ceiling, the till, wear, and what the sensors read (R281, R428, R440). -/
def keptPower (p : Power) : Power :=
  let p1 : Power := { Power.reset with
    v48 := p.v48, capDefault := p.capDefault, hostCap := p.capDefault, ceiling := p.ceiling, memStepEn := p.memStepEn,
    linkStepEn := p.linkStepEn, smbEn := p.smbEn, pcieEn := p.pcieEn, pinEn := p.pinEn, till := p.till,
    clusters := p.clusters.map keptWear, doms := p.doms.map fun d => { Domain.reset with sensor := d.sensor },
    wearSpent := p.clusters.any fun c => wearBudget ≤ c.wearMs }
  { p1 with capForce := capNow p1 }

/-- Field repairs stay in the secure store and are reapplied (R202). -/
def keptSlices (co : Core) : Core :=
  { Core.reset with slices := co.slices.map fun x =>
      { TierSlice.reset with rowsUsed := x.rowsUsed, matSpent := x.matSpent, replacedMat := x.replacedMat } }

/-- The ledger without what a read had loaded. The spec does not say what a module reset does to the SMBus read pointer: it stays, as
the ledger does (DESIGN CHOICE, log 44). -/
def keptLedger (l : Ledger) : Ledger :=
  { Ledger.reset with sections := l.sections, buffer := l.buffer, seqNo := l.seqNo, lastAt := l.lastAt, smbPtr := l.smbPtr }

/-- Everything a module reset loses is gone; host memory, the queue and the pins' levels are outside it. The count of discarded SMBus
writes has no stated width, limit or reset: it counts without bound and stays. What an Alert Response release covered stays covered
until it ends (DESIGN CHOICE, log 44). -/
def wiped (s : State) : State :=
  { State.reset with
    pending := s.pending, ns := s.ns, free := s.free, host := s.host, out := s.out, pins := { s.pins with modReady := false },
    boot := s.boot, sec := keptSecurity s.sec, pwr := keptPower s.pwr, cores := s.cores.map keptSlices, ledger := keptLedger s.ledger }

/-- Step 2 of a start-up with a cause: straps are latched, RESET_CAUSE written, the epoch counted (R21, R24, R282, R328). -/
def aonUp (cause : Byte) (e : StartupEnv) (s : State) : State :=
  let b := s.boot
  s.setBoot { Boot.reset with
    step := 2, cause := cause, prior := if b.latchedOnce then b.cause else 0,
    count := if b.latchedOnce then satAdd b.count 1 else 0, straps := e.straps, latchedOnce := true,
    changed := b.latchedOnce && b.straps ≠ e.straps, epoch := nextEpoch b.epoch }

/-- Step 3 begins while MOD_RESET_N is high and, after a thermal shutdown, every sensor is below 85 °C (R17, R447). -/
def mayLeaveStep2 (s : State) : Bool :=
  s.pins.modResetN && (s.boot.cause ≠ 5 || (List.finRange 59).all fun d => (s.dom d).sensor < 680)

/-- Go on from step 2, or hold there. -/
def fromStep2 (e : StartupEnv) (s : State) : State :=
  if mayLeaveStep2 s then startOn e (s.setBoot { s.boot with holdReset := false }) else s.setBoot { s.boot with holdReset := true }

/-- A module reset with a cause (R281); debug ends with it (R307). -/
def moduleReset (cause : Byte) (e : StartupEnv) (s : State) : State :=
  let s1 := aonUp cause e (wiped (endDebug 2 s))
  let s2 := if cause = 7 then postEvent 0x0702 3 0 (leBytes (resetCause s1).toNat 4) s1 else s1
  fromStep2 e (rearm s2)

/-- The module is without 48 V: all that is not in fuses, flash or the secure store is lost (R30, R300, R440, R477; log 28). -/
def lose48 (s : State) : State :=
  let hot : Boot := { Boot.reset with epoch := s.boot.epoch, cause := if s.pwr.mstate = 4 then 5 else 0 }
  let w := wiped (endDebug 2 s)
  { w with
    boot := hot, sec := { w.sec with rejected := false, fails := 0, level := 0, lockUntil := none },
    pwr := { Power.reset with
      clusters := w.pwr.clusters, doms := w.pwr.doms, wearSpent := w.pwr.wearSpent },
    pins := { w.pins with thermTripN := true, extest := false, alertOff := (0, 0), pecErrors := 0 },
    ledger := { w.ledger with buffer := [], smbPtr := 0 } }

/-! ### Rows -/

/-- POWER_ON_48V_GOOD (R279). -/
def execPowerOn48vGood (e : StartupEnv) (modResetN perstN : Bool) (s : State) : Res :=
  if s.pwr.v48 then .next s
  else
    let s1 := s.setPwr { s.pwr with v48 := true }
    let s2 := s1.setPins { s1.pins with modResetN := modResetN, perstN := perstN }
    .next (fromStep2 e (aonUp (if s.boot.cause = 5 then 5 else 1) e s2))

/-- LOSS_OF_48V (R9). -/
def execLossOf48v (s : State) : Res := .next (if s.pwr.v48 then lose48 s else s)

/-- MOD_RESET_N_ASSERT (R17, R18): a module reset that holds at the end of step 2; out of thermal shutdown with cause 0x05 (R447). -/
def execModResetNAssert (e : StartupEnv) (s : State) : Res :=
  let s1 := s.setPins { s.pins with modResetN := false }
  if !s.pins.modResetN then .next s
  else if s.pwr.v48 then .next (moduleReset (if s.pwr.mstate = 4 then 5 else 2) e s1)
  else .next s1

/-- MOD_RESET_N_RELEASE (R17, R33): EXTEST ends and start-up goes on from step 3. -/
def execModResetNRelease (e : StartupEnv) (s : State) : Res :=
  let s1 := s.setPins { s.pins with modResetN := true, extest := false }
  if s.pwr.v48 && s.boot.holdReset then .next (fromStep2 e s1) else .next s1

/-- PERST_N_ASSERT (R18): a module reset once step 9 has completed, else a hold of step 9. -/
def execPerstNAssert (e : StartupEnv) (s : State) : Res :=
  let s1 := s.setPins { s.pins with perstN := false }
  if s.pins.perstN && s.pwr.v48 && s.boot.step = 9 && s.pwr.mstate ≠ 4 then .next (moduleReset 3 e s1) else .next s1

/-- PERST_N_RELEASE (R17): step 9 goes on. -/
def execPerstNRelease (s : State) : Res :=
  let s1 := s.setPins { s.pins with perstN := true }
  if s.pwr.v48 && s.boot.step = 8 then .next (linkUp s1) else .next s1

/-- REF_WAIT_TIMEOUT (R27): the wait of step 4 ends, after 10 ms or with the reference that came in it. -/
def execRefWaitTimeout (e : StartupEnv) (s : State) : Res :=
  match s.boot.refWait with
  | none => .next s
  | some t => if s.time.present || t + 10000000 ≤ s.ns then .next (finishStart e (startTime s.time.present s.time.freqErr s)) else .next s

/-- REF_RESTORED (R26, R27, R411): a reference within 200 ppm has returned; the hub relocks and holdover ends; in Sleep the PLLs stay
stopped. -/
def execRefRestored (freqErr : Half) (s : State) : Res :=
  let t := s.time
  let here : TimeBase := { t with present := true, freqErr := freqErr }
  if t.present || !refIsUsable true freqErr || !(t.running || s.boot.refWait.isSome) then .next s
  else if !t.running || s.pwr.mstate = 2 then .next (s.setTime here)
  else .next (postEvent 0x0602 1 0 (leBytes (min ((s.ns - t.holdSince) / 1000) (2 ^ 32 - 1)) 4)
    (s.setTime { here with locked := true, holdover := false }))

/-- MOD_CTRL_RESET (R282). -/
def execModCtrlReset (w : Word) (e : StartupEnv) (s : State) : Res :=
  if w.getLsbD 16 && bits w 0 16 = (0xA5C3 : Half) && s.pwr.v48 then .next (moduleReset 4 e s) else .next s

/-- CLERK_WATCHDOG (R288). -/
def execClerkWatchdog (e : StartupEnv) (s : State) : Res :=
  if s.pwr.v48 && 3 ≤ s.boot.step.toNat && s.boot.clerkServed + 2000000000 ≤ s.ns then .next (moduleReset 6 e s) else .next s

/-- THERMAL_SHUTDOWN (R447): from 115 °C every domain but AON is off, and its contents are lost. -/
def execThermalShutdown (d : Fin 59) (temp : Byte) (s : State) : Res :=
  if temp.toInt < 115 || !s.pwr.v48 || s.pwr.mstate = 4 then .next s
  else
    let s1 := ledgerAdd 0x0802 3 (BitVec.ofNat 16 d.val) [temp] s
    let w := wiped (endDebug 2 s1)
    let off : State := { w with
      boot := { s.boot with step := 2, refWait := none, holdReset := false },
      pins := { w.pins with thermTripN := false }, pwr := { w.pwr with mstate := 4 } }
    .next (rearm (off.setDom d { off.dom d with sensor := temp.toInt * 8 }))

/-- Accesses in flight to a stack's local store are delivered marked, and the sectors being written are poisoned (R442). -/
def dropAccesses (st : Nat) (s : State) : State :=
  let hit (co : Core) : Core :=
    let lines := co.lports.toList.flatMap fun p => (p.reqs.filter fun q => q.write).map fun q => q.line
    { co with
      stns := co.stns.map fun x => { x with inflight := x.inflight.map fun i => if i.started then { i with marked := true } else i },
      lsPoison := (lines.flatMap fun l => (List.range 8).map (8 * l + ·)).foldl (fun a x => insSorted x a) co.lsPoison }
  forAll ((stackClusters st).flatMap fun cl => (List.range 8).map (coreOf cl)) (fun c t => t.modCore c hit) s

/-- DROOP_RESET (R441, R442): what the domain's reset does; `stuck` says that a cluster's reset does not complete. -/
def execDroopReset (d : Fin 59) (depth : Nat) (stuck : Bool) (e : StartupEnv) (s : State) : Res :=
  let mv := setpoint s d
  let deep : Bool := 120 ≤ depth || mv < 400 + depth
  if !deep || !domLive s d then .next s
  else
    let s1 := postEvent 0x0405 2 (src d.val) (leBytes depth 2 ++ leBytes mv 2) s
    if d.val < 48 then .next (clusterFails (ix 48 d.val) 1 stuck (endSurge 7 (ix 48 d.val) s1))
    else if d.val < 52 then .next (dropAccesses (d.val - 48) s1)
    else if d.val < 58 then .next (moduleReset 7 e s1)
    else .next (lose48 s1)

end Sys2Proof.Machine
end

