-- ==== Sys2Proof/Machine/Pins.lean ====
section
/-! DEFINITION. The sideband pins (R12, R13, R15), the SMBus management port (R28 to R31), and the debug port (R32, R33). -/
namespace Sys2Proof.Machine
open Sys2Proof

/-! ### Pins in each power state (R12, R15) -/

/-- The sideband pins of R12; `strap` 0 to 15 are STRAP[15:0], 16 and 17 the parity straps. -/
inductive SidePin where
  | smbClk | smbDat | smbAlertN | wakeN | modResetN | perstN | thermTripN | faultN | modReady | throttleN | refclk
  | strap (i : Fin 18)
  | dbgIn | dbgTdo | prsntN
deriving DecidableEq, Repr

/-- What the module does at a pin (R12). An `active` open-drain pair is pulled only while a transaction runs; a `driven` open-drain
output is pulled only while asserted. -/
inductive PinUse where
  | active | driven | drivenShifting | sensed | sensedWakes | latched | used | low | highZ | notSensed | float
deriving DecidableEq, Repr

/-- The columns of R12: Off without 48 V; Sleep, and a thermal shutdown, in which every domain but AON is off (R447), so that its pins
stand as in Sleep (DEDUCED, log 30). -/
inductive PinColumn where
  | run | sleep | off
deriving DecidableEq, Repr

/-- The column that holds. -/
def pinColumn (s : State) : PinColumn := if !s.pwr.v48 then .off else if s.pwr.mstate = 2 || s.pwr.mstate = 4 then .sleep else .run

/-- The table of R12. -/
def pinUse : SidePin → PinColumn → PinUse
  | .smbClk, .off | .smbDat, .off => .float
  | .smbClk, _ | .smbDat, _ => .active
  | .smbAlertN, .off | .thermTripN, .off | .faultN, .off => .float
  | .smbAlertN, _ | .thermTripN, _ | .faultN, _ => .driven
  | .wakeN, .run => .sensed
  | .wakeN, .sleep => .sensedWakes
  | .wakeN, .off | .modResetN, .off | .perstN, .off | .strap _, .off | .dbgIn, .off => .notSensed
  | .modResetN, _ | .perstN, _ | .dbgIn, _ => .sensed
  | .modReady, .run | .throttleN, .run => .driven
  | .modReady, _ | .throttleN, _ => .float
  | .refclk, .run => .used
  | .refclk, _ => .highZ
  | .strap _, _ => .latched
  | .dbgTdo, .off => .float
  | .dbgTdo, _ => .drivenShifting
  | .prsntN, _ => .low

/-! ### SMB_ALERT_N (R31) -/

/-- Whether an error entry lies beyond a SEQ. -/
def errorBeyond (s : State) (a : Word) : Bool :=
  (ledgerHeld s.ledger).any fun e => 2 ≤ e.sev.toNat && e.seqNo ≠ a && (e.seqNo - a).toNat < 2 ^ 31

/-- The later of two SEQs. -/
def laterSeq (a b : Word) : Word := if (b - a).toNat < 2 ^ 31 then b else a

/-- SMB_ALERT_N: low while a condition of R31 holds that its last release did not cover (log 30). -/
def smbAlertN (s : State) : Bool :=
  !(s.pwr.v48 && (alertPins s &&& ~~~ s.pins.alertOff.1 ≠ 0 || errorBeyond s (laterSeq s.ledger.smbPtr s.pins.alertOff.2)))

/-! ### Levels at the pins (R12, R13, R15, R33) -/

/-- The order of the sideband cells in the boundary-scan chain, which the spec does not give: that of R12's table. The cells of the
pairs of J2 to J4 stand after them (DESIGN CHOICE, log 41). -/
def sideCells : List SidePin :=
  [.smbClk, .smbDat, .smbAlertN, .wakeN, .modResetN, .perstN, .thermTripN, .faultN, .modReady, .throttleN]
    ++ (List.finRange 18).map .strap

/-- The value of a pin's boundary-scan cell. -/
def cellOf (s : State) (p : SidePin) : Option Bool := match sideCells.findIdx? fun q => q = p with
  | some i => s.pins.bscan[i]?
  | none => none

/-- An open-drain output: pulled low when asserted, else floating. -/
def openDrain (level : Bool) : Option Bool := if level then none else some false

/-- What the module puts on a pin by R12 and R13; none where it floats. -/
def pinOwn (s : State) (p : SidePin) : Option Bool :=
  if p = .prsntN then some false
  else if pinUse p (pinColumn s) ≠ .driven then none
  else match p with
    | .smbAlertN => openDrain (smbAlertN s)
    | .thermTripN => openDrain s.pins.thermTripN
    | .faultN => openDrain (faultN s)
    | .modReady => some s.pins.modReady
    | .throttleN => some (throttleN s)
    | _ => none

/-- Whether a pin has an output that the boundary-scan chain can drive. -/
def scanDrives : SidePin → Bool
  | .smbClk | .smbDat | .smbAlertN | .thermTripN | .faultN | .modReady | .throttleN => true
  | _ => false

/-- Whether it is a push-pull output (R12). -/
def pushPull : SidePin → Bool
  | .modReady | .throttleN => true
  | _ => false

/-- What the module puts on a pin: under EXTEST its output takes the value of its cell (R32), and else R12's behaviour (R33). -/
def pinDrive (s : State) (p : SidePin) : Option Bool :=
  match if s.pins.extest && scanDrives p then cellOf s p else none with
  | some v => if pushPull p then some v else openDrain v
  | none => pinOwn s p

/-- The level that the board's part gives a floating pin (R15). -/
def boardPull : SidePin → Bool
  | .modReady => false
  | _ => true

/-- The level read at a pin: an input's own, an output as driven, and what the board gives a floating one. -/
def pinLevel (s : State) (p : SidePin) : Bool := match p with
  | .wakeN => s.pins.wakeN
  | .modResetN => s.pins.modResetN
  | .perstN => s.pins.perstN
  | .strap i => s.boot.straps.getLsbD i.val
  | _ => (pinDrive s p).getD (boardPull p)

/-! ### SMBus (R28, R29) -/

/-- The Packet Error Code of SMBus 3.2: CRC-8, polynomial 0x07, over the bytes of a transaction (log 37). -/
def pecStep (crc b : Byte) : Byte := (List.range 8).foldl (fun c _ => if c.getLsbD 7 then (c <<< 1) ^^^ 0x07 else c <<< 1) (crc ^^^ b)
def pec (bs : List Byte) : Byte := bs.foldl pecStep 0

/-- Whether 0x5A answers a command: from step 2, and all but IDENT and STATUS once step 3 completes (R28, R279, R447). -/
def smbAnswers (s : State) (early : Bool) : Bool :=
  s.pwr.v48 && 2 ≤ s.boot.step.toNat && (early || 3 ≤ s.boot.step.toNat || s.pwr.mstate = 4)

/-- A read at 0x5A: the bytes it returns, then the code over the whole transaction. -/
def smbReply (cmd : Byte) (bs : List Byte) (s : State) : State :=
  s.setOut { s.out with smb := bs ++ [pec ([0xB4, cmd, 0xB5] ++ bs)] }

/-- A block read: the count goes first. -/
def smbBlock (cmd : Byte) (bs : List Byte) (s : State) : State := smbReply cmd (BitVec.ofNat 8 bs.length :: bs) s

/-- Four bytes of a register. -/
def word4 (w : Word) : List Byte := leBytes w.toNat 4

/-- IDENT (R29). -/
def execSmbIdent (s : State) : Res :=
  .next (if smbAnswers s true then
    smbBlock 0x01 ([Reg.modId, .modRev, .serialLo, .serialHi].flatMap fun r => word4 (bits (r.value s) 0 32)) s else s)

/-- STATUS (R29). -/
def execSmbStatus (s : State) : Res :=
  .next (if smbAnswers s true then smbBlock 0x02 (word4 (modStatus s) ++ word4 (pwrStatus s) ++ word4 (strapStatus s.boot)) s else s)

/-- The hottest sensor in units of 0.125 °C; 0x8000 in Sleep (R29). -/
def smbTempWord (s : State) : Half :=
  if s.pwr.mstate = 2 then 0x8000
  else BitVec.ofInt 16 ((List.finRange 59).foldl (fun (a : Int) d => max a (s.dom d).sensor) (s.dom 0).sensor)

/-- TEMP (R29). -/
def execSmbTemp (s : State) : Res :=
  .next (if smbAnswers s false then smbReply 0x03 (leBytes (smbTempWord s).toNat 2) s else s)

/-- TILL (R29). -/
def execSmbTill (s : State) : Res :=
  .next (if smbAnswers s false then smbBlock 0x04 (leBytes s.pwr.till.toNat 8) s else s)

/-- LEDGER_NEXT (R29): the entry after the SMBus read pointer, which moves to it. -/
def execLedgerNext (s : State) : Res :=
  if !smbAnswers s false then .next s
  else match ledgerFrom s.ledger (s.ledger.smbPtr + 1) with
    | none => .next (smbBlock 0x05 [] s)
    | some e => .next (smbBlock 0x05 (ledgerBytes e) (s.setLedger { s.ledger with smbPtr := e.seqNo }))

/-- CAP_CEILING read (R29). -/
def execCapCeilingRead (s : State) : Res :=
  .next (if smbAnswers s false then smbReply 0x10 (leBytes s.pwr.ceiling.toNat 2) s else s)

/-- CAP_CEILING write (R29, R30): a wrong code is counted, a value outside 600 to 2,600 but for 0 is discarded. -/
def execCapCeilingWrite (w : Half) (pecOk : Bool) (s : State) : Res :=
  if !smbAnswers s false then .next s
  else if !pecOk then .next (s.setPins { s.pins with pecErrors := s.pins.pecErrors + 1 })
  else if w = 0 || (600 ≤ w.toNat && w.toNat ≤ 2600) then .next (s.setPwr { s.pwr with ceiling := bits w 0 12 })
  else .next s

/-- An address match at 0x5B (R28, R453). -/
def execSmbusWakeAddress (s : State) : Res := .next (if s.pwr.smbEn then wakeFrom 1 s else s)

/-- A read of the Alert Response Address (R31): a module that holds SMB_ALERT_N low answers, and releases it. -/
def execSmbusAlertResponse (s : State) : Res :=
  if smbAlertN s then .next s
  else
    let s1 := s.setPins { s.pins with alertOff := (alertPins s, s.ledger.seqNo) }
    .next (s1.setOut { s1.out with smb := [0x5A] })

/-! ### The debug port (R32, R33) -/

/-- A word's bits, least significant first, as a scan shifts them. -/
def scanBits (w : Word) : List Bool := (List.range 32).map fun i => w.getLsbD i

/-- A scan of the port shifts bits out. It ends an access that was in progress, and reports one that the end of debug cut off as
denied (R33). -/
def scanOut (bs : List Bool) (s : State) : State :=
  { s with out := { s.out with scan := bs, denied := s.pins.dbgCut }, pins := { s.pins with dbgBusy := false, dbgCut := false } }

/-- A scan through the one-bit bypass register. -/
def bypassed (tdi : List Bool) (s : State) : State := scanOut ((false :: tdi).take tdi.length) s

/-- IDCODE (R32). -/
def execIdcode (s : State) : Res :=
  .next (if s.pwr.v48 then scanOut (scanBits (bits (Reg.modId.value s) 0 32)) s else s)

/-- BYPASS, or an instruction not honoured (R32). -/
def execBypass (_ir : Byte) (tdi : List Bool) (s : State) : Res := .next (if s.pwr.v48 then bypassed tdi s else s)

/-- What the cells capture: the levels at the sideband pins, then those seen at the pairs of J2 to J4. -/
def captured (seen : List Bool) (s : State) : List Bool := sideCells.map (pinLevel s) ++ seen

/-- The boundary-scan chain (IEEE 1149.1): the cells capture the pins, and shift out as the new values shift in; under EXTEST
those then drive the pins. -/
def boundaryScan (ins seen : List Bool) (drive : Bool) (s : State) : State :=
  let s1 := scanOut ((captured seen s ++ List.replicate ins.length false).take ins.length) s
  s1.setPins { s1.pins with bscan := ins, extest := drive }

/-- SAMPLE/PRELOAD (R32): while MOD_RESET_N is held low. `seen` are the levels at the pairs of J2 to J4 (log 12). -/
def execSamplePreload (ins seen : List Bool) (s : State) : Res :=
  .next (if !s.pwr.v48 then s else if s.pins.modResetN then bypassed ins s else boundaryScan ins seen false s)

/-- EXTEST (R32): while MOD_RESET_N is held low the chain drives the pins. -/
def execExtest (ins seen : List Bool) (s : State) : Res :=
  .next (if !s.pwr.v48 then s else if s.pins.modResetN then bypassed ins s else boundaryScan ins seen true s)

/-- A debug instruction that is not honoured acts as BYPASS: its word shifts through. -/
def debugBypass (wr : Option Word) (s : State) : State := bypassed (scanBits (wr.getD 0)) s

/-- An access under debug begins: the scan that brought it ends the one before, and it is in progress until the next scan (R33). -/
def debugBegin (s : State) : State := let s1 := scanOut s.out.scan s; s1.setPins { s1.pins with dbgBusy := true }

/-- What a debug read returned stands in the scan output. -/
def debugAnswer (w : Word) (s : State) : State := s.setOut { s.out with scan := scanBits w }

/-- Isarun register access (R32): while debug is enabled, a BAR0 register by its offset; MOD_CTRL's reset carries what its start-up
finds (log 12). The spec gives no access size: 4 bytes, and a misaligned offset acts as BYPASS (DESIGN CHOICE, log 41). -/
def execDebugRegisterAccess (off : Half) (wr : Option Word) (e : StartupEnv) (s : State) : Res :=
  if !s.pwr.v48 then .next s
  else if !s.sec.dbgActive || off.toNat % 4 ≠ 0 then .next (debugBypass wr s)
  else match wr with
    | some v => if off = 0x100 then execModCtrlReset v e (debugBegin s) else .next (write4 off.toNat v (debugBegin s))
    | none => .next (debugAnswer (read4 off.toNat s).1 (read4 off.toNat (debugBegin s)).2)

/-- Isarun local-store access (R32): 4 bytes of a core that serves. The spec gives no access size; an address that is misaligned or
outside local store, or a core out of service, acts as BYPASS (DESIGN CHOICE, log 41). -/
def execDebugLocalStoreAccess (c : Fin 384) (addr : Nat) (wr : Option Word) (s : State) : Res :=
  if !s.pwr.v48 then .next s
  else if !s.sec.dbgActive || addr % 4 ≠ 0 || lsEnd ≤ addr || !coreServes s c.val then .next (debugBypass wr s)
  else match wr with
    | some v => .next ((debugBegin s).modCore c fun co => co.lsWrite addr (word4 v))
    | none => .next (debugAnswer (BitVec.ofNat 32 ((s.core c).ls.getLE addr 4)) (debugBegin s))

/-- Isarun stallkeeper access (R32): a word of its map (R138); what the map does not hold acts as BYPASS (DESIGN CHOICE, log 41). -/
def execDebugStallkeeperAccess (cl : Fin 48) (addr : Word) (wr : Option Word) (s : State) : Res :=
  if !s.pwr.v48 then .next s
  else if !s.sec.dbgActive || !(s.cluster cl).inService then .next (debugBypass wr s)
  else match wr with
    | some v => .next ((skWrite (debugBegin s) cl addr.toNat v).getD (debugBypass wr s))
    | none => .next (match skRead s cl addr.toNat with
      | some w => debugAnswer w (debugBegin s)
      | none => debugBypass wr s)

end Sys2Proof.Machine
end

