-- ==== Sys2Proof/Machine/Start.lean ====
section
/-! DEFINITION. The start of a descriptor (R268 to R270): the checks made before it (R265), and what it takes as it starts, its tensor
descriptors (R179), a DIGEST's values (R272 (e)), a STATE_REQ's record (R262), whether opens were locked out (R300). -/
namespace Sys2Proof.Machine
open Sys2Proof

/-- Why a sweep, or a DIAG of a counter block, is refused by its operands. -/
def diagOperandFault (s : State) (w : DescWord) : Option (Byte × Half) :=
  if (bits (dW2 w) 0 8).toNat < 2 then diagFault s w else sweepFault s w

/-- Why a descriptor is refused by its operands or a record they name (R265). -/
def descFault (s : State) (c : DescCtx) : Option (Byte × Half) :=
  let w := c.word
  match dOp w with
  | 0x02 => failIf (bits (dW2 w) 0 2 = (3 : BitVec 2)) stMalformed 8
  | 0x10 => if (dW2 w).getLsbD 0 then copyTensorFault s c else copyByteFault s w
  | 0x11 => gatherFault s w
  | 0x12 => fillFault s w
  | 0x20 => programFault s w
  | 0x30 => collFault s c (bits (dW2 w) 0 4).toNat
  | 0x31 => groupFault s (dQ w 0x10) 0x10 false 0
  | 0x40 => updateFault s c
  | 0x41 => normFault s c
  | 0x42 => digestFault s c
  | 0x43 => exportFault s c
  | 0x44 => importFault s c
  | 0x50 => powerFault s w
  | 0x51 => stateFault s w
  | 0x60 => chunkFault s w
  | 0x70 => diagOperandFault s w
  | _ => none

/-- Whether a status is one of the checks made before a start (R265). -/
def refuses (x : Byte) : Bool := stNoSession ≤ x && x ≤ stUnsupported && x ≠ stAuth

/-- What a ring's next descriptor is refused for before its start: its header's and its operands' failures, the highest status of all of
them (R265). A failure of its resources alone is met after the start. -/
def startFault (s : State) (r : Fin 256) (w : DescWord) : Option (Byte × Half) :=
  let g := s.ring r
  let h := headerFault s r g.startIdx w
  let o := descFault s (newCtx s g w none true)
  match h, o with
  | some x, _ => if x.1 = stUnsupported then h else worst [h, o]
  | none, some y => if refuses y.1 then o else none
  | none, none => none

/-- The tensor descriptors a descriptor names (R179). -/
def namedTensors (s : State) (w : DescWord) : List Dword :=
  match dOp w with
  | 0x10 => if (dW2 w).getLsbD 0 then [dQ w 0x10, dQ w 0x18] else []
  | 0x30 => [dQ w 0x10, dQ w 0x18]
  | 0x40 => [dQ w 0x10, dQ w 0x18, dQ w 0x20, dQ w 0x28]
  | 0x41 => normTds s w
  | 0x42 | 0x43 => [dQ w 0x10]
  | 0x44 => [dQ w 0x18]
  | _ => []

/-- What a descriptor takes as it starts. -/
def startTakes (s : State) (c : DescCtx) : DescCtx :=
  let w := c.word
  let d : DescCtx := { c with tds := (namedTensors s w).map fun a => (a, tdOf s a) }
  match dOp w with
  | 0x08 => { d with snap := if lockedOut s then [1] else [] }
  | 0x42 | 0x43 =>
    let t := d.td s (dQ w 0x10)
    let ext := t.exts s.mach.logical
    { d with snap := (streamAll t ext).map (fun x => (x.read s t).1), bad := t.badSectors s ext }
  | 0x51 => { d with snap := stateRecord s (bits (dW2 w) 0 8).toNat (dW3 w).toNat }
  | _ => d

/-- DESCRIPTOR_START (R268, R269, R270): in ring order, once nothing holds it, by the engine's choice among the rings. -/
def execDescriptorStart (r : Fin 256) (s : State) : Res :=
  let g := s.ring r
  match g.fetched with
  | [] => .next s
  | w :: _ =>
    if !engineOpen s || !g.live || (s.boot.recovery && r ≠ 0) then .next s
    else if g.state = .halted && !dCont w then
      if clearing g then .next s else .next (takeNext r w (some (stHalted, g.haltSeq)) false s)
    else if pickRing s ≠ some r || 1024 ≤ contextsUsed s then .next s
    else match startFault s r w with
      | some f => .next (takeNext r w (some f) false s)
      | none => .next (modCtx r g.startIdx (startTakes s) (takeNext r w none true s))

end Sys2Proof.Machine
end

