-- ==== Sys2Proof/Machine/Dispatch.lean ====
section
/-! DEFINITION. The dispatch of a command to its meaning: one arm per command. -/
namespace Sys2Proof.Machine

/-- A command's effect on everything but the queue. -/
def exec (i : Instr) (s : State) : Host.Outcome State Fault Refusal :=
  match i with
  | .powerOn48vGood e modResetN perstN => Sys2Proof.Machine.execPowerOn48vGood e modResetN perstN s
  | .lossOf48v => Sys2Proof.Machine.execLossOf48v s
  | .modResetNAssert e => Sys2Proof.Machine.execModResetNAssert e s
  | .modResetNRelease e => Sys2Proof.Machine.execModResetNRelease e s
  | .perstNAssert e => Sys2Proof.Machine.execPerstNAssert e s
  | .perstNRelease => Sys2Proof.Machine.execPerstNRelease s
  | .refWaitTimeout e => Sys2Proof.Machine.execRefWaitTimeout e s
  | .smbIdent => Sys2Proof.Machine.execSmbIdent s
  | .smbStatus => Sys2Proof.Machine.execSmbStatus s
  | .smbTemp => Sys2Proof.Machine.execSmbTemp s
  | .smbTill => Sys2Proof.Machine.execSmbTill s
  | .ledgerNext => Sys2Proof.Machine.execLedgerNext s
  | .capCeilingRead => Sys2Proof.Machine.execCapCeilingRead s
  | .capCeilingWrite w pecOk => Sys2Proof.Machine.execCapCeilingWrite w pecOk s
  | .smbusWakeAddress => Sys2Proof.Machine.execSmbusWakeAddress s
  | .smbusAlertResponse => Sys2Proof.Machine.execSmbusAlertResponse s
  | .idcode => Sys2Proof.Machine.execIdcode s
  | .bypass ir tdi => Sys2Proof.Machine.execBypass ir tdi s
  | .samplePreload ins seen => Sys2Proof.Machine.execSamplePreload ins seen s
  | .extest ins seen => Sys2Proof.Machine.execExtest ins seen s
  | .debugRegisterAccess off wr e => Sys2Proof.Machine.execDebugRegisterAccess off wr e s
  | .debugLocalStoreAccess c addr wr => Sys2Proof.Machine.execDebugLocalStoreAccess c addr wr s
  | .debugStallkeeperAccess cl addr wr => Sys2Proof.Machine.execDebugStallkeeperAccess cl addr wr s
  | .stationNop c k => Sys2Proof.Machine.execStationNop c k s
  | .stationAlu c k => Sys2Proof.Machine.execStationAlu c k s
  | .li c k => Sys2Proof.Machine.execLi c k s
  | .br c k => Sys2Proof.Machine.execBr c k s
  | .loopStn c k => Sys2Proof.Machine.execLoopStn c k s
  | .stationEnd c k => Sys2Proof.Machine.execStationEnd c k s
  | .trapStn c k => Sys2Proof.Machine.execTrapStn c k s
  | .flagsStn c k => Sys2Proof.Machine.execFlagsStn c k s
  | .joinStn c k => Sys2Proof.Machine.execJoinStn c k s
  | .quiesce c k => Sys2Proof.Machine.execQuiesce c k s
  | .raiseStn c k => Sys2Proof.Machine.execRaiseStn c k s
  | .notifyStn c k => Sys2Proof.Machine.execNotifyStn c k s
  | .copyInstruction c k => Sys2Proof.Machine.execCopyInstruction c k s
  | .vload c k => Sys2Proof.Machine.execVload c k s
  | .vstore c k => Sys2Proof.Machine.execVstore c k s
  | .sload c k => Sys2Proof.Machine.execSload c k s
  | .sstore c k => Sys2Proof.Machine.execSstore c k s
  | .arrayPass c k => Sys2Proof.Machine.execArrayPass c k s
  | .mv c k => Sys2Proof.Machine.execMv c k s
  | .vecAdd c k => Sys2Proof.Machine.execVecAdd c k s
  | .vecSubtract c k => Sys2Proof.Machine.execVecSubtract c k s
  | .vecMultiply c k => Sys2Proof.Machine.execVecMultiply c k s
  | .vecFma c k => Sys2Proof.Machine.execVecFma c k s
  | .vecMin c k => Sys2Proof.Machine.execVecMin c k s
  | .vecMax c k => Sys2Proof.Machine.execVecMax c k s
  | .vecCompare c k => Sys2Proof.Machine.execVecCompare c k s
  | .vecSelect c k => Sys2Proof.Machine.execVecSelect c k s
  | .vecConvert c k => Sys2Proof.Machine.execVecConvert c k s
  | .vecReciprocal c k => Sys2Proof.Machine.execVecReciprocal c k s
  | .vecRsqrt c k => Sys2Proof.Machine.execVecRsqrt c k s
  | .vecExp2 c k => Sys2Proof.Machine.execVecExp2 c k s
  | .vecExp c k => Sys2Proof.Machine.execVecExp c k s
  | .vecReduce c k => Sys2Proof.Machine.execVecReduce c k s
  | .vecSoftmaxStep c k => Sys2Proof.Machine.execVecSoftmaxStep c k s
  | .xnetTranspose c k => Sys2Proof.Machine.execXnetTranspose c k s
  | .xnetHadamard c k => Sys2Proof.Machine.execXnetHadamard c k s
  | .xferSend c k => Sys2Proof.Machine.execXferSend c k s
  | .xferRecv c k => Sys2Proof.Machine.execXferRecv c k s
  | .unitStart c k n m => Sys2Proof.Machine.execUnitStart c k n m s
  | .passDrain c a wait => Sys2Proof.Machine.execPassDrain c a wait s
  | .biasPreload c a => Sys2Proof.Machine.execBiasPreload c a s
  | .instructionComplete c k n => Sys2Proof.Machine.execInstructionComplete c k n s
  | .localStorePortGrant c t e busy => Sys2Proof.Machine.execLocalStorePortGrant c t e busy s
  | .portRequestUrgent c t n => Sys2Proof.Machine.execPortRequestUrgent c t n s
  | .remoteTokenArrival c q => Sys2Proof.Machine.execRemoteTokenArrival c q s
  | .remoteCreditReturn c q => Sys2Proof.Machine.execRemoteCreditReturn c q s
  | .stationWatchdog c k => Sys2Proof.Machine.execStationWatchdog c k s
  | .skAlu cl => Sys2Proof.Machine.execSkAlu cl s
  | .addi cl => Sys2Proof.Machine.execAddi cl s
  | .andi cl => Sys2Proof.Machine.execAndi cl s
  | .ori cl => Sys2Proof.Machine.execOri cl s
  | .lui cl => Sys2Proof.Machine.execLui cl s
  | .lw cl => Sys2Proof.Machine.execLw cl s
  | .sw cl => Sys2Proof.Machine.execSw cl s
  | .beq cl => Sys2Proof.Machine.execBeq cl s
  | .bne cl => Sys2Proof.Machine.execBne cl s
  | .blt cl => Sys2Proof.Machine.execBlt cl s
  | .bge cl => Sys2Proof.Machine.execBge cl s
  | .bltu cl => Sys2Proof.Machine.execBltu cl s
  | .bgeu cl => Sys2Proof.Machine.execBgeu cl s
  | .jal cl => Sys2Proof.Machine.execJal cl s
  | .jr cl => Sys2Proof.Machine.execJr cl s
  | .csrr cl => Sys2Proof.Machine.execCsrr cl s
  | .csrw cl => Sys2Proof.Machine.execCsrw cl s
  | .skWait cl => Sys2Proof.Machine.execSkWait cl s
  | .waitWake cl => Sys2Proof.Machine.execWaitWake cl s
  | .cctlStart cl => Sys2Proof.Machine.execCctlStart cl s
  | .cctlHalt cl => Sys2Proof.Machine.execCctlHalt cl s
  | .cctlResume cl => Sys2Proof.Machine.execCctlResume cl s
  | .cctlReset cl => Sys2Proof.Machine.execCctlReset cl s
  | .cctlInject cl => Sys2Proof.Machine.execCctlInject cl s
  | .pcmd cl => Sys2Proof.Machine.execPcmd cl s
  | .ccmd cl => Sys2Proof.Machine.execCcmd cl s
  | .skEnd cl => Sys2Proof.Machine.execSkEnd cl s
  | .evtPop cl => Sys2Proof.Machine.execEvtPop cl s
  | .timerArm cl => Sys2Proof.Machine.execTimerArm cl s
  | .timerEvent cl => Sys2Proof.Machine.execTimerEvent cl s
  | .startCapture cl => Sys2Proof.Machine.execStartCapture cl s
  | .startLo cl => Sys2Proof.Machine.execStartLo cl s
  | .startHi cl => Sys2Proof.Machine.execStartHi cl s
  | .nowLo cl => Sys2Proof.Machine.execNowLo cl s
  | .stopCapture cl => Sys2Proof.Machine.execStopCapture cl s
  | .normSel cl => Sys2Proof.Machine.execNormSel cl s
  | .normFactor cl => Sys2Proof.Machine.execNormFactor cl s
  | .crierCountWrite cl => Sys2Proof.Machine.execCrierCountWrite cl s
  | .crierFire cl ch => Sys2Proof.Machine.execCrierFire cl ch s
  | .crierBroadcastComplete cl n => Sys2Proof.Machine.execCrierBroadcastComplete cl n s
  | .porterCommandStart cl => Sys2Proof.Machine.execPorterCommandStart cl s
  | .porterMove cl n => Sys2Proof.Machine.execPorterMove cl n s
  | .porterMove2d cl n => Sys2Proof.Machine.execPorterMove2d cl n s
  | .porterGather cl n => Sys2Proof.Machine.execPorterGather cl n s
  | .porterFill cl n => Sys2Proof.Machine.execPorterFill cl n s
  | .porterSignal cl n => Sys2Proof.Machine.execPorterSignal cl n s
  | .porterCommandComplete cl n => Sys2Proof.Machine.execPorterCommandComplete cl n s
  | .launchTimeout l => Sys2Proof.Machine.execLaunchTimeout l s
  | .launchForcedEnd l cl => Sys2Proof.Machine.execLaunchForcedEnd l cl s
  | .clusterLaunchEnd cl => Sys2Proof.Machine.execClusterLaunchEnd cl s
  | .launchComplete l => Sys2Proof.Machine.execLaunchComplete l s
  | .watchArm cl => Sys2Proof.Machine.execWatchArm cl s
  | .cntClear cl => Sys2Proof.Machine.execCntClear cl s
  | .vk1Replay l => Sys2Proof.Machine.execVk1Replay l s
  | .lsScrubRead c t => Sys2Proof.Machine.execLsScrubRead c t s
  | .rowRepair c t => Sys2Proof.Machine.execRowRepair c t s
  | .matReplacement c t => Sys2Proof.Machine.execMatReplacement c t s
  | .coreRetirement c => Sys2Proof.Machine.execCoreRetirement c s
  | .gddr7CommandIssue ch e => Sys2Proof.Machine.execGddr7CommandIssue ch e s
  | .gddr7RequestUrgent ch n => Sys2Proof.Machine.execGddr7RequestUrgent ch n s
  | .gddr7EdcRetry ch ok => Sys2Proof.Machine.execGddr7EdcRetry ch ok s
  | .gddr7ScrubRead ch => Sys2Proof.Machine.execGddr7ScrubRead ch s
  | .gddr7RateChange => Sys2Proof.Machine.execGddr7RateChange s
  | .tgStart ch w => Sys2Proof.Machine.execTgStart ch w s
  | .tgStop ch w => Sys2Proof.Machine.execTgStop ch w s
  | .tgClear ch w => Sys2Proof.Machine.execTgClear ch w s
  | .tgRunDone ch lanes => Sys2Proof.Machine.execTgRunDone ch lanes s
  | .memCntClear w => Sys2Proof.Machine.execMemCntClear w s
  | .pcieFlr => Sys2Proof.Machine.execPcieFlr s
  | .hotReset => Sys2Proof.Machine.execHotReset s
  | .pcieLinkLoss => Sys2Proof.Machine.execPcieLinkLoss s
  | .doorbellWatchTimer r => Sys2Proof.Machine.execDoorbellWatchTimer r s
  | .doorbellReadReturn r w => Sys2Proof.Machine.execDoorbellReadReturn r w s
  | .mirrorTailWrite r off size w => Sys2Proof.Machine.execMirrorTailWrite r off size w s
  | .descriptorFetchReturn r slots => Sys2Proof.Machine.execDescriptorFetchReturn r slots s
  | .descriptorStart r => Sys2Proof.Machine.execDescriptorStart r s
  | .ringUrgent r => Sys2Proof.Machine.execRingUrgent r s
  | .nopDesc r n => Sys2Proof.Machine.execNopDesc r n s
  | .fenceDesc r n => Sys2Proof.Machine.execFenceDesc r n s
  | .sessionOpen r n => Sys2Proof.Machine.execSessionOpen r n s
  | .sessionClose r n => Sys2Proof.Machine.execSessionClose r n s
  | .copyByteMode r n => Sys2Proof.Machine.execCopyByteMode r n s
  | .copyTensorMode r n => Sys2Proof.Machine.execCopyTensorMode r n s
  | .gatherDesc r n => Sys2Proof.Machine.execGatherDesc r n s
  | .fillDesc r n => Sys2Proof.Machine.execFillDesc r n s
  | .programLoad r n => Sys2Proof.Machine.execProgramLoad r n s
  | .launchDesc r n => Sys2Proof.Machine.execLaunchDesc r n s
  | .allReduce r n => Sys2Proof.Machine.execAllReduce r n s
  | .reduceScatter r n => Sys2Proof.Machine.execReduceScatter r n s
  | .allGather r n => Sys2Proof.Machine.execAllGather r n s
  | .broadcastColl r n => Sys2Proof.Machine.execBroadcastColl r n s
  | .pipelineSend r n => Sys2Proof.Machine.execPipelineSend r n s
  | .pipelineReceive r n => Sys2Proof.Machine.execPipelineReceive r n s
  | .barrierDesc r n => Sys2Proof.Machine.execBarrierDesc r n s
  | .updateStep r n => Sys2Proof.Machine.execUpdateStep r n s
  | .updateRun r n u => Sys2Proof.Machine.execUpdateRun r n u s
  | .normReduce r n => Sys2Proof.Machine.execNormReduce r n s
  | .digestDesc r n => Sys2Proof.Machine.execDigestDesc r n s
  | .exportShard r n => Sys2Proof.Machine.execExportShard r n s
  | .importShard r n => Sys2Proof.Machine.execImportShard r n s
  | .powerSetCap r n => Sys2Proof.Machine.execPowerSetCap r n s
  | .powerSetRun r n => Sys2Proof.Machine.execPowerSetRun r n s
  | .powerSetIdle r n => Sys2Proof.Machine.execPowerSetIdle r n s
  | .powerSetDoze r n => Sys2Proof.Machine.execPowerSetDoze r n s
  | .powerSetSleep r n => Sys2Proof.Machine.execPowerSetSleep r n s
  | .stateReq r n => Sys2Proof.Machine.execStateReq r n s
  | .fwChunk r n => Sys2Proof.Machine.execFwChunk r n s
  | .fwVerify r n => Sys2Proof.Machine.execFwVerify r n s
  | .fwActivate r n => Sys2Proof.Machine.execFwActivate r n s
  | .fwConfirm r n => Sys2Proof.Machine.execFwConfirm r n s
  | .diagReadCounters r n => Sys2Proof.Machine.execDiagReadCounters r n s
  | .diagWriteCounters r n => Sys2Proof.Machine.execDiagWriteCounters r n s
  | .diagMarginSweep r n => Sys2Proof.Machine.execDiagMarginSweep r n s
  | .diagResumeSweep r n => Sys2Proof.Machine.execDiagResumeSweep r n s
  | .timeMark r n => Sys2Proof.Machine.execTimeMark r n s
  | .completionRecordWrite r => Sys2Proof.Machine.execCompletionRecordWrite r s
  | .msixModerationExpiry r => Sys2Proof.Machine.execMsixModerationExpiry r s
  | .ringReset r w => Sys2Proof.Machine.execRingReset r w s
  | .ringResetComplete r => Sys2Proof.Machine.execRingResetComplete r s
  | .ringEnable r w => Sys2Proof.Machine.execRingEnable r w s
  | .ringDisable r w => Sys2Proof.Machine.execRingDisable r w s
  | .ringIdleDisable r => Sys2Proof.Machine.execRingIdleDisable r s
  | .eventRingEnable w => Sys2Proof.Machine.execEventRingEnable w s
  | .evtFullPoll consumed => Sys2Proof.Machine.execEvtFullPoll consumed s
  | .msixUnmask v => Sys2Proof.Machine.execMsixUnmask v s
  | .registerWrite off size w => Sys2Proof.Machine.execRegisterWrite off size w s
  | .lowHalfRead bar2 off size => Sys2Proof.Machine.execLowHalfRead bar2 off size s
  | .nonceDraw size => Sys2Proof.Machine.execNonceDraw size s
  | .nonceExpiry t => Sys2Proof.Machine.execNonceExpiry t s
  | .sessionIdleTimeout r => Sys2Proof.Machine.execSessionIdleTimeout r s
  | .lockoutExpiry => Sys2Proof.Machine.execLockoutExpiry s
  | .debugEnable w => Sys2Proof.Machine.execDebugEnable w s
  | .debugDisable w => Sys2Proof.Machine.execDebugDisable w s
  | .modCtrlReset w e => Sys2Proof.Machine.execModCtrlReset w e s
  | .clerkWatchdog e => Sys2Proof.Machine.execClerkWatchdog e s
  | .getVersion => Sys2Proof.Machine.execGetVersion s
  | .getCapabilities => Sys2Proof.Machine.execGetCapabilities s
  | .negotiateAlgorithms asym hash => Sys2Proof.Machine.execNegotiateAlgorithms asym hash s
  | .getDigests => Sys2Proof.Machine.execGetDigests s
  | .getCertificate slot off len => Sys2Proof.Machine.execGetCertificate slot off len s
  | .spdmChallenge slot nonce => Sys2Proof.Machine.execSpdmChallenge slot nonce s
  | .getMeasurements op sign nonce => Sys2Proof.Machine.execGetMeasurements op sign nonce s
  | .spdmUnsupportedRequest code => Sys2Proof.Machine.execSpdmUnsupportedRequest code s
  | .claimKeys o => Sys2Proof.Machine.execClaimKeys o s
  | .setSlot o => Sys2Proof.Machine.execSetSlot o s
  | .clearSlot o => Sys2Proof.Machine.execClearSlot o s
  | .setPolicy o => Sys2Proof.Machine.execSetPolicy o s
  | .releaseKeys o => Sys2Proof.Machine.execReleaseKeys o s
  | .idleFrame p f fixed => Sys2Proof.Machine.execIdleFrame p f fixed s
  | .quarantineEnd p => Sys2Proof.Machine.execQuarantineEnd p s
  | .crcFailedFrame p raw errs => Sys2Proof.Machine.execCrcFailedFrame p raw errs s
  | .replayTimer p => Sys2Proof.Machine.execReplayTimer p s
  | .writeMsg p f => Sys2Proof.Machine.execWriteMsg p f s
  | .readMsg p f => Sys2Proof.Machine.execReadMsg p f s
  | .writeDone p f => Sys2Proof.Machine.execWriteDone p f s
  | .readData p f => Sys2Proof.Machine.execReadData p f s
  | .rejectMsg p f => Sys2Proof.Machine.execRejectMsg p f s
  | .restartNotice p f => Sys2Proof.Machine.execRestartNotice p f s
  | .sweepReq p f => Sys2Proof.Machine.execSweepReq p f s
  | .sweepResult p f => Sys2Proof.Machine.execSweepResult p f s
  | .sweepHopTimeout r n => Sys2Proof.Machine.execSweepHopTimeout r n s
  | .stepOpen p f => Sys2Proof.Machine.execStepOpen p f s
  | .rsData p f => Sys2Proof.Machine.execRsData p f s
  | .agData p f => Sys2Proof.Machine.execAgData p f s
  | .bcData p f => Sys2Proof.Machine.execBcData p f s
  | .pipeReady p f => Sys2Proof.Machine.execPipeReady p f s
  | .pipeData p f => Sys2Proof.Machine.execPipeData p f s
  | .arriveMsg p f => Sys2Proof.Machine.execArriveMsg p f s
  | .normPart p f => Sys2Proof.Machine.execNormPart p f s
  | .collectiveRoundTimeout g => Sys2Proof.Machine.execCollectiveRoundTimeout g s
  | .normWaitTimeout r n => Sys2Proof.Machine.execNormWaitTimeout r n s
  | .reproofFrame p f => Sys2Proof.Machine.execReproofFrame p f s
  | .partnerSignalDetect p txFailed rxFailed => Sys2Proof.Machine.execPartnerSignalDetect p txFailed rxFailed s
  | .helloFrame p f => Sys2Proof.Machine.execHelloFrame p f s
  | .pingFrame p f => Sys2Proof.Machine.execPingFrame p f s
  | .echoFrame p f => Sys2Proof.Machine.execEchoFrame p f s
  | .certFrame p f => Sys2Proof.Machine.execCertFrame p f s
  | .certTimeout p => Sys2Proof.Machine.execCertTimeout p s
  | .joinFrame p f => Sys2Proof.Machine.execJoinFrame p f s
  | .retrainFrame p f => Sys2Proof.Machine.execRetrainFrame p f s
  | .retrainEcho p f => Sys2Proof.Machine.execRetrainEcho p f s
  | .laneFail p rx lane => Sys2Proof.Machine.execLaneFail p rx lane s
  | .retrainPatternDetect p => Sys2Proof.Machine.execRetrainPatternDetect p s
  | .retryAttempt p => Sys2Proof.Machine.execRetryAttempt p s
  | .retryExpiry p => Sys2Proof.Machine.execRetryExpiry p s
  | .transactionTimeout t => Sys2Proof.Machine.execTransactionTimeout t s
  | .frameForward src pool => Sys2Proof.Machine.execFrameForward src pool s
  | .routerFrameUrgent src pool => Sys2Proof.Machine.execRouterFrameUrgent src pool s
  | .machBind w => Sys2Proof.Machine.execMachBind w s
  | .machUnbind w => Sys2Proof.Machine.execMachUnbind w s
  | .unbindWaitEnd => Sys2Proof.Machine.execUnbindWaitEnd s
  | .routeLoad w => Sys2Proof.Machine.execRouteLoad w s
  | .routeMasksReady => Sys2Proof.Machine.execRouteMasksReady s
  | .portEnable p w => Sys2Proof.Machine.execPortEnable p w s
  | .portDisable p w => Sys2Proof.Machine.execPortDisable p w s
  | .portRetrain p w => Sys2Proof.Machine.execPortRetrain p w s
  | .rehaggle p w => Sys2Proof.Machine.execRehaggle p w s
  | .portCntClear p w => Sys2Proof.Machine.execPortCntClear p w s
  | .laneSweepStart p w => Sys2Proof.Machine.execLaneSweepStart p w s
  | .laneSweepDone p v h => Sys2Proof.Machine.execLaneSweepDone p v h s
  | .timeSyncSend => Sys2Proof.Machine.execTimeSyncSend s
  | .timeSync p f => Sys2Proof.Machine.execTimeSync p f s
  | .syncLost => Sys2Proof.Machine.execSyncLost s
  | .timeBeacon errs => Sys2Proof.Machine.execTimeBeacon errs s
  | .fifoPointerCheck port n sep => Sys2Proof.Machine.execFifoPointerCheck port n sep s
  | .refLost edges freqErr => Sys2Proof.Machine.execRefLost edges freqErr s
  | .refRestored freqErr => Sys2Proof.Machine.execRefRestored freqErr s
  | .timeLoad w => Sys2Proof.Machine.execTimeLoad w s
  | .capLoopTick m => Sys2Proof.Machine.execCapLoopTick m s
  | .domainStatusTick ms => Sys2Proof.Machine.execDomainStatusTick ms s
  | .surgeCheck power current => Sys2Proof.Machine.execSurgeCheck power current s
  | .converterLimit current => Sys2Proof.Machine.execConverterLimit current s
  | .converterLimitRelease => Sys2Proof.Machine.execConverterLimitRelease s
  | .thermalPoll temps => Sys2Proof.Machine.execThermalPoll temps s
  | .thermalShutdown d temp => Sys2Proof.Machine.execThermalShutdown d temp s
  | .droopWarning d depth => Sys2Proof.Machine.execDroopWarning d depth s
  | .paceLimiterRelease d => Sys2Proof.Machine.execPaceLimiterRelease d s
  | .droopReset d depth stuck e => Sys2Proof.Machine.execDroopReset d depth stuck e s
  | .retentionFloorLoss st => Sys2Proof.Machine.execRetentionFloorLoss st s
  | .autoIdle cl => Sys2Proof.Machine.execAutoIdle cl s
  | .dozeWake cl => Sys2Proof.Machine.execDozeWake cl s
  | .powerDeferralExpiry => Sys2Proof.Machine.execPowerDeferralExpiry s
  | .domainStateEntry => Sys2Proof.Machine.execDomainStateEntry s
  | .sleepEntry => Sys2Proof.Machine.execSleepEntry s
  | .pcieWake => Sys2Proof.Machine.execPcieWake s
  | .wakeNAssert => Sys2Proof.Machine.execWakeNAssert s
  | .clusterHeartbeatPoll answered stuck => Sys2Proof.Machine.execClusterHeartbeatPoll answered stuck s
  | .seamLaneFail sm g lane => Sys2Proof.Machine.execSeamLaneFail sm g lane s
  | .seamFlitReplay sm g => Sys2Proof.Machine.execSeamFlitReplay sm g s
  | .ledgerLoad w => Sys2Proof.Machine.execLedgerLoad w s
  | .ledgerFlush => Sys2Proof.Machine.execLedgerFlush s
  | .normFactorTimeout cl => Sys2Proof.Machine.execNormFactorTimeout cl s

end Sys2Proof.Machine
end

