-- ==== Sys2Proof/Machine/Step.lean ====
section
/-! DEFINITION. One step: the command at the front of the queue, or a nanosecond of idling (log 2). -/
namespace Sys2Proof.Machine
open Sys2Proof

/-- The rest of the queue. -/
def State.popCmd (s : State) (rest : List Instr) : State := { s with pending := rest }

/-- The block idles: one nanosecond passes, and market time with it while it runs, in Sleep by 40 ns at a time (R400, R411; log 2); causes of SMB_ALERT_N that
have ended are armed again (R31; log 30). -/
def State.idle (s : State) : State :=
  { s with
    ns := s.ns + 1, time := if s.pwr.mstate = 2 then s.time.sleepTick (s.ns + 1 - s.pwr.sleepAt) else s.time.tick s.ns, pins := rearmed s }

/-- One step of the block. -/
def step (s : State) : Host.Outcome State Fault Refusal :=
  match s.pending with
  | [] => .next s.idle
  | c :: rest => exec c (s.popCmd rest)

/-- The state with the command a table word spells at the front of its queue; no word spells one. -/
def State.withFetchWord (s : State) (nbits w : Nat) : State :=
  match decodeTableWord nbits w with
  | some c => { s with pending := c :: s.pending }
  | none => s

end Sys2Proof.Machine
end

