-- ==== Sys2Proof/Safety.lean ====
section
/-! DEFINITION. The terms statements use: what counts as a safe state (every addressed memory of the block is in its canonical form), and
when a station or a stallkeeper executes the instruction it stands at. -/
namespace Sys2Proof.Machine
open Sys2Proof

/-- A core's memories are canonical. -/
def Core.memOk (co : Core) : Prop := co.istore.wf ∧ co.optab.wf ∧ co.qmap.wf ∧ co.ls.wf

/-- Every addressed memory of the block is canonical. -/
def State.memOk (s : State) : Prop :=
  s.host.wf ∧ s.gddr.mem.wf ∧ s.gddr.raw.wf ∧ s.sec.flashA.wf ∧ s.sec.flashB.wf
    ∧ (∀ c : Fin 384, (s.core c).memOk) ∧ ∀ cl : Fin 48, (s.sk cl).imem.wf ∧ (s.sk cl).dmem.wf

/-! ### Stations -/

/-- Station k of core c fires the instruction i it stands at: it is in RUN and has not fired END, none of the exceptions of R130
stands in the way, and conditions 1 to 8 of R127 hold. -/
def firesNow (s : State) (c : Fin 384) (k : Fin 8) (i : CoreInstr) : Bool :=
  let co := s.core c
  let st := s.station c k
  st.state = .run && !st.ending && decodeCore (co.instrAt st.pc) = some i && !entryIllegal co i.op && (popFault co k i).isNone
    && tokensReady co i && !regHazard st.inflight (touched i) && (operandFault co k (poppedRegs co i st.regs) i).isNone
    && readyToFire s c k i (poppedRegs co i st.regs)

/-- A station but for the tiles and blocks that its instructions in flight have still to pass through the exchange network: one that
joins or leaves the network may pass the turn to a stream of another station (R99). -/
def Station.offNet (st : Station) : Station := { st with inflight := st.inflight.map fun f => { f with pieces := [] } }

/-- The command that commands a vector operation (R123). -/
def vecCmd (c : Fin 384) (k : Fin 8) (op : BitVec 4) : Instr :=
  match op.toNat with
  | 0 => .vecAdd c k
  | 1 => .vecSubtract c k
  | 2 => .vecMultiply c k
  | 3 => .vecFma c k
  | 4 => .vecMin c k
  | 5 => .vecMax c k
  | 6 => .vecCompare c k
  | 7 => .vecSelect c k
  | 8 => .vecConvert c k
  | 9 => .vecReciprocal c k
  | 10 => .vecRsqrt c k
  | 11 => .vecExp2 c k
  | 12 => .vecExp c k
  | 13 => .vecReduce c k
  | _ => .vecSoftmaxStep c k

/-- The command that has a station execute an operation (R115 to R125). -/
def stationCmd (c : Fin 384) (k : Fin 8) : CoreOp → Instr
  | .nop => .stationNop c k
  | .alu _ _ _ _ _ _ => .stationAlu c k
  | .li _ _ => .li c k
  | .br _ _ _ _ => .br c k
  | .loop _ _ => .loopStn c k
  | .endStn => .stationEnd c k
  | .trap _ => .trapStn c k
  | .flags _ _ => .flagsStn c k
  | .join => .joinStn c k
  | .quiesce => .quiesce c k
  | .raise _ => .raiseStn c k
  | .notify _ => .notifyStn c k
  | .copy _ _ _ _ _ => .copyInstruction c k
  | .vload _ => .vload c k
  | .vstore _ => .vstore c k
  | .sload _ _ _ => .sload c k
  | .sstore _ _ _ => .sstore c k
  | .pass _ => .arrayPass c k
  | .mv _ => .mv c k
  | .vec op _ => vecCmd c k op
  | .transpose _ => .xnetTranspose c k
  | .hadamard _ => .xnetHadamard c k
  | .send _ => .xferSend c k
  | .recv _ => .xferRecv c k

/-- The effect an operation has at its firing, beside the firing itself: u is the number of the instruction in flight. -/
def fireEffect (c : Fin 384) (k : Fin 8) (i : CoreInstr) (u : Nat) (s : State) : State :=
  match i.op with
  | .alu _ _ _ _ _ _ => aluEff c k i u s
  | .li _ _ => liEff c k i u s
  | .br _ _ _ _ => brEff c k i u s
  | .loop _ _ => loopEff c k i u s
  | .flags _ _ => flagsEff c k i u s
  | .endStn => (markMoved c k u s).modStation c k fun st => { st with ending := true }
  | .raise ch => crierArrive (clusterOf c) ch.toFin 1 (markMoved c k u s)
  | .notify code => skPost (clusterOf c) 2 (c.val % 8) k.val code.toNat (markMoved c k u s)
  | .copy _ _ _ _ _ => memFired c k i u s
  | .vload _ => memFired c k i u s
  | .vstore _ => memFired c k i u s
  | .sload _ _ _ => memFired c k i u s
  | .sstore _ _ _ => memFired c k i u s
  | .vec _ _ => vecEff c k i u s
  | .transpose _ => xnetFired c k i u s
  | .hadamard _ => xnetFired c k i u s
  | .send _ => xferPost c k i u s
  | .recv _ => xferPost c k i u s
  | .pass _ => s
  | .mv _ => s
  | _ => markMoved c k u s

/-! ### Stallkeepers -/

/-- The stallkeeper of a cluster stands in RUN at the operation o. -/
def skRuns (s : State) (cl : Fin 48) (o : SkOp) : Bool :=
  (s.sk cl).st = .run && (skFetch (s.sk cl)).bind decodeSk = some o

/-- The command that has a stallkeeper execute an operation, in its general form (R140). -/
def skCmd (cl : Fin 48) : SkOp → Instr
  | .alu _ _ _ _ => .skAlu cl
  | .addi _ _ _ => .addi cl
  | .andi _ _ _ => .andi cl
  | .ori _ _ _ => .ori cl
  | .lui _ _ _ => .lui cl
  | .lw _ _ _ => .lw cl
  | .sw _ _ _ => .sw cl
  | .branch c _ _ _ =>
    match c.toNat with
    | 0 => .beq cl
    | 1 => .bne cl
    | 2 => .blt cl
    | 3 => .bge cl
    | 4 => .bltu cl
    | _ => .bgeu cl
  | .jal _ => .jal cl
  | .jr _ _ _ => .jr cl
  | .csrr _ _ _ => .csrr cl
  | .csrw _ _ _ => .csrw cl
  | .wait _ _ _ => .skWait cl
  | .cctl _ _ _ fn =>
    match fn.toNat with
    | 0 => .cctlStart cl
    | 1 => .cctlHalt cl
    | 2 => .cctlResume cl
    | 3 => .cctlReset cl
    | _ => .cctlInject cl
  | .pcmd _ _ _ => .pcmd cl
  | .ccmd _ _ _ => .ccmd cl
  | .endSk _ _ _ => .skEnd cl

end Sys2Proof.Machine
end

