-- ==== Sys2Proof/Certificates/Slice0/Obligations.lean ====
section
/-! DEFINITION. The statements for the provers. Each title in OBLIGATIONS.json names one of them. -/
section
open Sys2Proof Sys2Proof.Machine

/-- A step runs the command at the front of the queue, on the state with the queue's rest. -/
def Obligations.StepRunsFrontCommand : Prop :=
  ∀ (c : Instr) (l : List Instr) (s : State), s.pending = c :: l → step s = exec c { s with pending := l }

/-- On an empty queue a step passes one nanosecond: the model's choice (log 2). Market time goes on by R400 while it runs, by one step
more or less where a slew is due (R407), and in Sleep by the 40 ns of the AON domain (R411); nothing else changes but the causes of
SMB_ALERT_N that have ended (R31; log 30). -/
def Obligations.IdleStepPassesOneNanosecond : Prop :=
  ∀ s : State, s.pending = [] → ∃ t, step s = .next t ∧ t.ns = s.ns + 1
    ∧ (s.time.running = false → t.time = s.time)
    ∧ (s.pwr.mstate ≠ 2 → s.time.running = true →
      (s.time.slew = 0 ∨ s.ns < s.time.slewAt + 4096 → t.time = { s.time with mt := s.time.mt + 1 })
      ∧ (s.time.mt.toNat % 4096 ≠ 4095 → s.time.mt.toNat % 100000 ≠ 99999 → s.time.slewAt + 4096 ≤ s.ns →
        (0 < s.time.slew → t.time = { s.time with mt := s.time.mt + 2, slew := s.time.slew - 1, slewAt := s.ns })
        ∧ (s.time.slew < 0 → t.time = { s.time with slew := s.time.slew + 1, slewAt := s.ns })))
    ∧ (s.pwr.mstate = 2 → s.time.running = true →
      t.time = (if (s.ns + 1 - s.pwr.sleepAt) % 40 = 0 then { s.time with mt := s.time.mt + 40 } else s.time))
    ∧ t = { s with ns := t.ns, time := t.time, pins := { s.pins with alertOff := t.pins.alertOff } }

/-- Reset values that the register tables state, at State.reset. -/
def Obligations.RegistersResetToTheirStatedValues : Prop :=
  State.reset.pending = []
  ∧ (∀ c k, (State.reset.station c k).state = .idle ∧ (State.reset.station c k).haltUncorr = true
      ∧ (State.reset.station c k).haltMask = 0 ∧ (State.reset.station c k).enable = false ∧ (State.reset.station c k).wdog = 0)
  ∧ (∀ c (i : Fin 32), (State.reset.core c).qmap.word (16 * i.val) = 0xFFFF)
  ∧ (∀ cl, (State.reset.sk cl).interval = 0x80000000)
  ∧ State.reset.gddr.rateMax = 0 ∧ State.reset.gddr.scrubEn = true ∧ State.reset.gddr.ceEvtLog2 = 10
  ∧ (∀ ch, (State.reset.chan ch).edcRetry = 4 ∧ (State.reset.chan ch).ceEvtEn = true)
  ∧ (∀ r, (State.reset.ring r).state = .disabled ∧ (State.reset.ring r).log2 = 4 ∧ (State.reset.ring r).enable = false)
  ∧ State.reset.evt.log2 = 6 ∧ State.reset.evt.enable = false
  ∧ (∀ v : Fin 512, State.reset.pcie.entries[v].mask = true)
  ∧ State.reset.pwr.capDefault = 2400 ∧ State.reset.pwr.hostCap = 2400 ∧ State.reset.pwr.opReq = 10
  ∧ State.reset.pwr.idleAuto = true ∧ State.reset.pwr.surgeEn = false ∧ State.reset.pwr.smbEn = true
  ∧ State.reset.pwr.pcieEn = true ∧ State.reset.pwr.pinEn = true
  ∧ (∀ p, (State.reset.port p).enable = true ∧ (State.reset.port p).certReq = false ∧ (State.reset.port p).laneFailThr = 20)
  ∧ State.reset.time.follow = true ∧ State.reset.time.root = false ∧ State.reset.time.stratum = 15
  ∧ State.reset.sec.owned = false ∧ State.reset.sec.dbgActive = false

/-- Every addressed memory of the block is in its canonical form at reset. -/
def Obligations.ResetMemoriesAreCanonical : Prop := State.reset.memOk

/-- Every step keeps every addressed memory of the block in its canonical form. -/
def Obligations.EveryStepKeepsMemoriesCanonical : Prop := ∀ s t : State, s.memOk → step s = .next t → t.memOk

/-- Every command leaves the queue of waiting commands and the nanosecond clock alone, and answers a next state: a step on a
waiting command takes that command off the queue and does nothing else to it. -/
def Obligations.EveryCommandAnswersAndKeepsTheQueue : Prop :=
  ∀ (c : Instr) (s : State), ∃ t, exec c s = .next t ∧ t.pending = s.pending ∧ t.ns = s.ns

/-- Decoding the word of a legal core instruction gives the instruction back, every operand at every value; and a word decodes
to a legal instruction whose word agrees with it but for the number of a queue whose valid bit is 0 (R112, R115). -/
def Obligations.CoreInstructionWordsRoundTrip : Prop :=
  (∀ i : CoreInstr, i.op.ok = true → decodeCore (encodeCore i) = some i)
  ∧ ∀ (w : InstrWord) (i : CoreInstr), decodeCore w = some i →
      i.op.ok = true ∧ bits (encodeCore i) 0 96 = (bits w 0 96 : BitVec 96) ∧ bits (encodeCore i) 120 8 = (bits w 120 8 : Byte)
        ∧ i.inA = qref (bits w 114 6) ∧ i.inB = qref (bits w 108 6) ∧ i.outA = qref (bits w 102 6) ∧ i.outB = qref (bits w 96 6)

/-- Decoding the word of a legal stallkeeper operation gives the operation back, and a word that decodes is the word of the
operation it decodes to (R139, R140). -/
def Obligations.StallkeeperWordsRoundTrip : Prop :=
  (∀ o : SkOp, o.ok = true → decodeSk (encodeSk o) = some o)
  ∧ ∀ (w : Word) (o : SkOp), decodeSk w = some o → o.ok = true ∧ encodeSk o = w

/-- Any CLASS or OP value outside the table of R115 is illegal, and so is a word with any of bits [91:88] set.

Words written out from the encodings of R112 to R125 and R139, R140 decode to the instructions they stand for. -/
def Obligations.IllegalAndListedWords : Prop :=
  (∀ w : InstrWord,
    (let cls : BitVec 4 := bits w 124 4
     let op : BitVec 4 := bits w 120 4
     7 < cls.toNat ∨ (cls = 0 ∧ 7 < op.toNat) ∨ (cls = 1 ∧ 3 < op.toNat) ∨ (cls = 2 ∧ 4 < op.toNat)
       ∨ ((cls = 3 ∨ cls = 4) ∧ op ≠ 0) ∨ (cls = 5 ∧ op = 15) ∨ ((cls = 6 ∨ cls = 7) ∧ 1 < op.toNat)
       ∨ bits w 88 4 ≠ (0 : BitVec 4)) → decodeCore w = none)
  ∧ (-- CTRL ALU: s3 = s1 - s2, pops q4 and pushes s3 into q5
  decodeCore 0x01900940303121000000000000000000 = some ⟨.alu 3 1 2 1 false 0, some 4, none, some 5, none, 3⟩
  -- CTRL LI: s7 = 0xDEADBEEF
  ∧ decodeCore 0x0200000000700000DEADBEEF00000000 = some ⟨.li 7 0xDEADBEEF, none, none, none, none, 0⟩
  -- SYNC RAISE: channel 33
  ∧ decodeCore 0x12000000008400000000000000000000 = some ⟨.raise 33, none, none, none, none, 0⟩
  -- stallkeeper ADDI g5 = g3 - 1
  ∧ decodeSk 0x04A3FFFF = some (.addi 5 3 0xFFFF)
  -- stallkeeper BNE g1, g2, two instructions back
  ∧ decodeSk 0x4422FFFE = some (.branch 1 1 2 0xFFFE)
  -- stallkeeper CCTL START of the station that g4 names
  ∧ decodeSk 0xC0040000 = some (.cctl 0 4 0 0))

/-- Power-on with MOD_RESET_N low completes steps 1 and 2 and holds there: the straps are latched, RESET_CAUSE names power-on, SMBus
answers, and step 3 waits for the pin (R17, R279, R282).

From power-on with both reset pins high and a usable reference, start-up runs through step 9: the PCIe link is up, MOD_READY is
high and market time runs locked to the reference (R17, R279, R400); in recovery as well (R289).

A held start-up goes on: from step 2 when MOD_RESET_N rises, to step 9 when PERST_N rises, and past step 4 when the wait for the
reference ends, locked if one came and in holdover if none did (R17, R27). A pin that rises where nothing waits for it changes its
level, and EXTEST, alone; power that is good already and a wait that has not ended change nothing. -/
def Obligations.StartUpRunsItsSteps : Prop :=
  (∀ (e : StartupEnv) (p : Bool) (s : State), s.pwr.v48 = false → s.boot.cause ≠ 5 →
    ∃ t, exec (.powerOn48vGood e false p) s = .next t ∧ t.pwr.v48 = true ∧ t.boot.step = 2 ∧ t.boot.holdReset = true
      ∧ t.boot.cause = 1 ∧ t.boot.straps = e.straps ∧ t.pins.modResetN = false ∧ t.pins.perstN = p ∧ t.pins.modReady = s.pins.modReady
      ∧ smbAnswers t true = true ∧ t.cores = s.cores ∧ t.gddr = s.gddr ∧ t.rings = s.rings ∧ t.ledger = s.ledger ∧ t.sec = s.sec)
  ∧ (∀ (e : StartupEnv) (s : State), s.pwr.v48 = false → s.boot.cause ≠ 5 → e.refUsable = true →
    ∃ t, exec (.powerOn48vGood e true true) s = .next t ∧ t.boot.step = 9 ∧ t.pins.modReady = true ∧ t.pcie.up = true
      ∧ t.time.running = true ∧ t.time.locked = true ∧ t.time.mt = 0 ∧ t.boot.cause = 1 ∧ t.boot.straps = e.straps)
  ∧ ((∀ (e : StartupEnv) (s : State), s.pwr.v48 = true → s.boot.holdReset = true → s.boot.cause ≠ 5 → e.refUsable = false →
    ∃ t, exec (.modResetNRelease e) s = .next t ∧ t.pins.modResetN = true ∧ t.pins.extest = false ∧ t.boot.holdReset = false
      ∧ t.boot.step = 3 ∧ t.boot.refWait = some s.ns)
  ∧ (∀ s : State, s.pwr.v48 = true → s.boot.step = 8 →
    exec .perstNRelease s = .next { s with
      pins := { s.pins with perstN := true, modReady := true }, pcie := { s.pcie with up := true }, boot := { s.boot with step := 9 } })
  ∧ (∀ (e : StartupEnv) (s : State) (w : Nat), s.boot.refWait = some w → (s.time.present = true ∨ w + 10000000 ≤ s.ns) →
    ∃ t, exec (.refWaitTimeout e) s = .next t ∧ t.boot.step = (if s.pins.perstN then 9 else 8) ∧ t.boot.refWait = none
      ∧ t.time.running = true ∧ t.time.locked = s.time.present ∧ t.time.holdover = !s.time.present ∧ t.time.mt = 0)
  ∧ ∀ (e : StartupEnv) (s : State),
    (∀ m p, s.pwr.v48 = true → exec (.powerOn48vGood e m p) s = .next s)
    ∧ ((s.pwr.v48 = false ∨ s.boot.holdReset = false) →
      exec (.modResetNRelease e) s = .next { s with pins := { s.pins with modResetN := true, extest := false } })
    ∧ ((s.pwr.v48 = false ∨ s.boot.step ≠ 8) → exec .perstNRelease s = .next { s with pins := { s.pins with perstN := true } })
    ∧ (s.boot.refWait = none → exec (.refWaitTimeout e) s = .next s)
    ∧ ∀ w, s.boot.refWait = some w → s.time.present = false → s.ns < w + 10000000 → exec (.refWaitTimeout e) s = .next s)

/-- A low on MOD_RESET_N of a module with 48 V is a module reset that holds at the end of step 2 (R18, R281): RESET_CAUSE
names the pin, or the thermal shutdown that it ends (R447), the straps are latched again, the partner epoch is counted (R328), and the module keeps what R281 lists and loses
sessions, ring set-ups, local store and GDDR7.

Each other source of a module reset runs it and writes its own cause (R18, R281, R282, R288): MOD_CTRL with the right key,
PERST_N falling after step 9, and the clerk's watchdog after 2 s.

MOD_CTRL's reset bit with any other key, or without the bit, is discarded (R282), and a PERST_N low that begins before step 9 has
completed resets nothing (R18). A pin that is low already or that falls without 48 V resets nothing, a thermal shutdown is not left by
PERST_N (R447), and a clerk served within 2 s is not reset (R288). -/
def Obligations.ModuleResetsKeepAndLose : Prop :=
  (∀ (e : StartupEnv) (s : State), s.pwr.v48 = true → s.pins.modResetN = true →
    ∃ t, exec (.modResetNAssert e) s = .next t ∧ t.pins.modResetN = false ∧ t.boot.step = 2 ∧ t.boot.holdReset = true
      ∧ t.boot.cause = (if s.pwr.mstate = 4 then 5 else 2) ∧ t.boot.prior = (if s.boot.latchedOnce then s.boot.cause else 0) ∧ t.boot.straps = e.straps
      ∧ t.boot.epoch = nextEpoch s.boot.epoch
      ∧ t.pwr.v48 = true ∧ t.pwr.ceiling = s.pwr.ceiling ∧ t.pwr.capDefault = s.pwr.capDefault
      ∧ t.pwr.memStepEn = s.pwr.memStepEn ∧ t.pwr.linkStepEn = s.pwr.linkStepEn ∧ t.pwr.smbEn = s.pwr.smbEn
      ∧ t.pwr.pcieEn = s.pwr.pcieEn ∧ t.pwr.pinEn = s.pwr.pinEn ∧ t.pwr.till = s.pwr.till
      ∧ t.sec.level = s.sec.level ∧ t.sec.owned = s.sec.owned ∧ t.sec.debugLock = s.sec.debugLock ∧ t.sec.slots = s.sec.slots
      ∧ t.sec.counter = s.sec.counter ∧ t.sec.flashA = s.sec.flashA ∧ t.sec.flashB = s.sec.flashB
      ∧ t.ledger.sections = s.ledger.sections
      ∧ t.sec.sessions = [] ∧ (∀ r, (t.ring r).state = .disabled ∧ (t.ring r).tag = none) ∧ (∀ c, (t.core c).ls = [])
      ∧ t.gddr.mem = [] ∧ t.time.running = false ∧ t.pins.modReady = false)
  ∧ ((∀ (w : Word) (e : StartupEnv) (s : State), w.getLsbD 16 = true → bits w 0 16 = (0xA5C3 : Half) → s.pwr.v48 = true →
    ∃ t, exec (.modCtrlReset w e) s = .next t ∧ t.boot.cause = 4 ∧ t.sec.sessions = [])
  ∧ (∀ (e : StartupEnv) (s : State), s.pins.perstN = true → s.pwr.v48 = true → s.boot.step = 9 → s.pwr.mstate ≠ 4 →
    ∃ t, exec (.perstNAssert e) s = .next t ∧ t.boot.cause = 3 ∧ t.pins.perstN = false ∧ t.boot.step ≠ 9 ∧ t.sec.sessions = [])
  ∧ ∀ (e : StartupEnv) (s : State), s.pwr.v48 = true → 3 ≤ s.boot.step.toNat → s.boot.clerkServed + 2000000000 ≤ s.ns →
    ∃ t, exec (.clerkWatchdog e) s = .next t ∧ t.boot.cause = 6 ∧ t.sec.sessions = [])
  ∧ ((∀ (w : Word) (e : StartupEnv) (s : State), (w.getLsbD 16 = false ∨ bits w 0 16 ≠ (0xA5C3 : Half) ∨ s.pwr.v48 = false) →
    exec (.modCtrlReset w e) s = .next s)
  ∧ ∀ (e : StartupEnv) (s : State),
    ((s.boot.step ≠ 9 ∨ s.pins.perstN = false ∨ s.pwr.v48 = false ∨ s.pwr.mstate = 4) →
      exec (.perstNAssert e) s = .next (s.setPins { s.pins with perstN := false }))
    ∧ (s.pins.modResetN = false → exec (.modResetNAssert e) s = .next s)
    ∧ (s.pwr.v48 = false → exec (.modResetNAssert e) s = .next (s.setPins { s.pins with modResetN := false }))
    ∧ ((s.pwr.v48 = false ∨ s.boot.step.toNat < 3 ∨ s.ns < s.boot.clerkServed + 2000000000) →
      exec (.clerkWatchdog e) s = .next s))

/-- Loss of 48 V (without 48 V it changes nothing): the ceiling, the till, sessions and memories go; flash, fuses and the secure store stay (R16, R30, R428, R440, R477). -/
def Obligations.LossOfPowerKeepsTheSecureStore : Prop :=
  (∀ s : State, s.pwr.v48 = false → exec .lossOf48v s = .next s)
  ∧ ∀ s : State, s.pwr.v48 = true →
    ∃ t, exec .lossOf48v s = .next t ∧ t.pwr.v48 = false ∧ t.pwr.ceiling = 0 ∧ t.pwr.till = 0 ∧ t.pins.thermTripN = true
      ∧ t.sec.sessions = [] ∧ t.sec.level = 0 ∧ t.ledger.buffer = [] ∧ t.gddr.mem = [] ∧ (∀ c, (t.core c).ls = [])
      ∧ t.boot.step = 0 ∧ t.pcie.up = false
      ∧ t.sec.owned = s.sec.owned ∧ t.sec.slots = s.sec.slots ∧ t.sec.counter = s.sec.counter ∧ t.sec.flashA = s.sec.flashA
      ∧ t.sec.flashB = s.sec.flashB ∧ t.boot.epoch = s.boot.epoch ∧ t.ledger.sections = s.ledger.sections
      ∧ (∀ cl, (t.cpwr cl).wearMs = (s.cpwr cl).wearMs)

/-- The reads of 0x5A answer their bytes with the Packet Error Code at the end (its polynomial and the bytes it covers are the
SMBus standard's, log 37) and change nothing else; LEDGER_NEXT moves the read pointer to the entry it returns (R29).

CAP_CEILING takes 0 or 600 to 2,600 W and discards any other value; a write with a wrong code is counted and has no other
effect (R29).

What step 3 serves is not answered before it, and the rest not before step 2 (R28): nothing changes.

SMB_ALERT_N is low while THERM_TRIP_N or FAULT_N is low and not covered by an earlier release, and a module that holds it low
answers the Alert Response Address with 0x5A and releases it; one that does not hold it low stays silent (R31; log 30). -/
def Obligations.ManagementPort : Prop :=
  (∀ s : State,
    (smbAnswers s true = true →
      exec .smbIdent s = .next (smbBlock 0x01 (word4 (bits (Reg.modId.value s) 0 32) ++ word4 (bits (Reg.modRev.value s) 0 32)
        ++ word4 (bits (Reg.serialLo.value s) 0 32) ++ word4 (bits (Reg.serialHi.value s) 0 32)) s)
      ∧ exec .smbStatus s = .next (smbBlock 0x02 (word4 (modStatus s) ++ word4 (pwrStatus s) ++ word4 (strapStatus s.boot)) s))
    ∧ (smbAnswers s false = true →
      exec .smbTemp s = .next (smbReply 0x03 (leBytes (smbTempWord s).toNat 2) s)
      ∧ exec .smbTill s = .next (smbBlock 0x04 (leBytes s.pwr.till.toNat 8) s)
      ∧ exec .capCeilingRead s = .next (smbReply 0x10 (leBytes s.pwr.ceiling.toNat 2) s)
      ∧ (∀ e, ledgerFrom s.ledger (s.ledger.smbPtr + 1) = some e →
          exec .ledgerNext s = .next (smbBlock 0x05 (ledgerBytes e) (s.setLedger { s.ledger with smbPtr := e.seqNo })))
      ∧ (ledgerFrom s.ledger (s.ledger.smbPtr + 1) = none → exec .ledgerNext s = .next (smbBlock 0x05 [] s)))
    ∧ (smbAnswers s true = false → exec .smbIdent s = .next s ∧ exec .smbStatus s = .next s)
    ∧ (smbAnswers s false = false → exec .smbTemp s = .next s ∧ exec .smbTill s = .next s ∧ exec .capCeilingRead s = .next s
      ∧ exec .ledgerNext s = .next s ∧ ∀ w ok, exec (.capCeilingWrite w ok) s = .next s))
  ∧ (∀ (w : Half) (s : State), smbAnswers s false = true →
    exec (.capCeilingWrite w true) s =
        .next (if w = 0 ∨ (600 ≤ w.toNat ∧ w.toNat ≤ 2600) then s.setPwr { s.pwr with ceiling := w.setWidth 12 } else s)
    ∧ exec (.capCeilingWrite w false) s = .next (s.setPins { s.pins with pecErrors := s.pins.pecErrors + 1 }))
  ∧ ((∀ s : State, s.pwr.v48 = true → s.pins.alertOff.1 = 0 → (s.pins.thermTripN = false ∨ faultN s = false) → smbAlertN s = false)
  ∧ (∀ s : State, smbAlertN s = false → errorBeyond s (laterSeq s.ledger.smbPtr s.ledger.seqNo) = false →
    ∃ t, exec .smbusAlertResponse s = .next t ∧ t.out = { s.out with smb := [0x5A] } ∧ smbAlertN t = true
      ∧ t = { s with out := t.out, pins := { s.pins with alertOff := t.pins.alertOff } })
  ∧ ∀ s : State, smbAlertN s = true → exec .smbusAlertResponse s = .next s)

/-- With 48 V, IDCODE scans out MOD_ID and BYPASS delays its input by one bit; the boundary scan runs only while MOD_RESET_N is
held low, and acts as BYPASS otherwise (R32): it captures the levels at the pins, and under EXTEST the outputs then take the values of
their cells. A scan ends an access in progress and reports one that was cut off as denied (R33).

While debug is enabled, the debug port reads and writes registers, local store and stallkeeper memory, and MOD_CTRL resets the
module; while it is not, each such instruction acts as BYPASS and touches nothing (R32). The 4 bytes of an access are the model's
choice, as it is that one misaligned, or outside what it names, acts as BYPASS (log 41). Without 48 V nothing is scanned.

The end of debug cuts an access in progress off: its data is discarded, and the next scan reports it as denied (R33). When
MOD_RESET_N rises, EXTEST ends and every pin is driven as R12 gives it (R33). -/
def Obligations.DebugPort : Prop :=
  (∀ s : State, s.pwr.v48 = true →
    (∃ t, exec .idcode s = .next t ∧ t = scanOut t.out.scan s ∧ t.out.scan.length = 32
      ∧ ∀ i, i < 32 → t.out.scan[i]? = some ((bits (Reg.modId.value s) 0 32 : Word).getLsbD i))
    ∧ (∀ ir tdi, exec (.bypass ir tdi) s = .next (scanOut ((false :: tdi).take tdi.length) s))
    ∧ (∀ ins seen, s.pins.modResetN = false →
      (∃ t, exec (.samplePreload ins seen) s = .next t
        ∧ t.out.scan = (sideCells.map (pinLevel s) ++ seen ++ List.replicate ins.length false).take ins.length
        ∧ t = { s with out := t.out, pins := { s.pins with bscan := ins, extest := false, dbgBusy := false, dbgCut := false } })
      ∧ ∃ t, exec (.extest ins seen) s = .next t
        ∧ t.out.scan = (sideCells.map (pinLevel s) ++ seen ++ List.replicate ins.length false).take ins.length
        ∧ t = { s with out := t.out, pins := { s.pins with bscan := ins, extest := true, dbgBusy := false, dbgCut := false } }
        ∧ (∀ v, cellOf t .modReady = some v → pinDrive t .modReady = some v)
        ∧ ∀ v, cellOf t .faultN = some v → pinDrive t .faultN = (if v then none else some false))
    ∧ (∀ ins seen, s.pins.modResetN = true →
      exec (.samplePreload ins seen) s = exec (.bypass 0xFF ins) s ∧ exec (.extest ins seen) s = exec (.bypass 0xFF ins) s)
    ∧ ∀ bs, (scanOut bs s).out.denied = s.pins.dbgCut ∧ (scanOut bs s).pins.dbgCut = false)
  ∧ (∀ s : State, s.pwr.v48 = true →
    (s.sec.dbgActive = true →
      (∀ off : Half, off.toNat % 4 = 0 → ∀ e,
        (∀ v, off ≠ 0x100 → exec (.debugRegisterAccess off (some v) e) s = .next (write4 off.toNat v (debugBegin s)))
        ∧ ∃ t, exec (.debugRegisterAccess off none e) s = .next t ∧ t.out.scan = scanBits (read4 off.toNat s).1)
      ∧ (∀ (w : Word) (e : StartupEnv), w.getLsbD 16 = true → bits w 0 16 = (0xA5C3 : Half) →
        ∃ t, exec (.debugRegisterAccess 0x100 (some w) e) s = .next t ∧ t.boot.cause = 4 ∧ t.sec.dbgActive = false)
      ∧ (∀ (off : Half) (wr : Option Word) e, off.toNat % 4 ≠ 0 →
        exec (.debugRegisterAccess off wr e) s = exec (.bypass 0xFF (scanBits (wr.getD 0))) s)
      ∧ (∀ (c : Fin 384) (a : Nat) (wr : Option Word), (a % 4 ≠ 0 ∨ lsEnd ≤ a ∨ coreServes s c.val = false) →
        exec (.debugLocalStoreAccess c a wr) s = exec (.bypass 0xFF (scanBits (wr.getD 0))) s)
      ∧ (∀ (cl : Fin 48) (a : Word), (s.cluster cl).inService = false ∨ skRead s cl a.toNat = none →
        exec (.debugStallkeeperAccess cl a none) s = exec (.bypass 0xFF (scanBits 0)) s)
      ∧ (∀ (cl : Fin 48) (a v : Word), (s.cluster cl).inService = false ∨ skWrite (debugBegin s) cl a.toNat v = none →
        exec (.debugStallkeeperAccess cl a (some v)) s = exec (.bypass 0xFF (scanBits v)) s)
      ∧ (∀ (c : Fin 384) (a : Nat), a % 4 = 0 → a < lsEnd → coreServes s c.val = true →
        (∀ v, exec (.debugLocalStoreAccess c a (some v)) s = .next ((debugBegin s).modCore c fun co => co.lsWrite a (word4 v)))
        ∧ ∃ t, exec (.debugLocalStoreAccess c a none) s = .next t ∧ t.out.scan = scanBits (BitVec.ofNat 32 ((s.core c).ls.getLE a 4))
          ∧ t = { s with out := t.out, pins := { s.pins with dbgBusy := true, dbgCut := false } })
      ∧ (∀ (cl : Fin 48) (a : Word), (s.cluster cl).inService = true →
        (∀ v t, skWrite (debugBegin s) cl a.toNat v = some t → exec (.debugStallkeeperAccess cl a (some v)) s = .next t)
        ∧ ∀ v, skRead s cl a.toNat = some v → ∃ t, exec (.debugStallkeeperAccess cl a none) s = .next t ∧ t.out.scan = scanBits v
          ∧ t = { s with out := t.out, pins := { s.pins with dbgBusy := true, dbgCut := false } }))
    ∧ (s.sec.dbgActive = false → ∀ wr : Option Word,
      (∀ off e, ∃ t, exec (.debugRegisterAccess off wr e) s = .next t ∧ t = scanOut t.out.scan s)
      ∧ (∀ c a, ∃ t, exec (.debugLocalStoreAccess c a wr) s = .next t ∧ t = scanOut t.out.scan s)
      ∧ ∀ cl a, ∃ t, exec (.debugStallkeeperAccess cl a wr) s = .next t ∧ t = scanOut t.out.scan s))
  ∧ (∀ (s : State) (w : Word), s.sec.dbgActive = true → s.pins.dbgBusy = true → w.getLsbD 16 = false →
      ∃ t, exec (.debugDisable w) s = .next t ∧ t.sec.dbgActive = false ∧ t.out.scan = [] ∧ t.pins.dbgCut = true)
  ∧ (∀ s : State, s.pwr.v48 = false → exec .idcode s = .next s
      ∧ (∀ ir bs, exec (.bypass ir bs) s = .next s) ∧ (∀ i d, exec (.samplePreload i d) s = .next s ∧ exec (.extest i d) s = .next s)
      ∧ ∀ wr : Option Word, (∀ off e, exec (.debugRegisterAccess off wr e) s = .next s)
        ∧ (∀ c a, exec (.debugLocalStoreAccess c a wr) s = .next s) ∧ ∀ cl a, exec (.debugStallkeeperAccess cl a wr) s = .next s)
  ∧ ∀ (s : State) (e : StartupEnv), s.boot.holdReset = false →
      ∃ t, exec (.modResetNRelease e) s = .next t ∧ t.pins.extest = false ∧ ∀ p, pinDrive t p = pinOwn t p

/-- A station fires the instruction it stands at where R127's conditions hold and no exception of R130 stands in the way:
the command of that instruction takes the firing and the effect the instruction has at its firing.

Firing advances the station by one instruction, loads the popped tokens, records the instruction in flight with the registers
it read, and leaves every other station, core, memory and unit register alone (R112, R127).

Tokens: each IN field that names a queue pops one token of it and gives its credit back, over the wires where the producer is
remote; each OUT field reserves one credit; the tokens popped stand in s14 and s15; a queue no field names keeps tokens and credits
(R107, R109, R112, R127). -/
def Obligations.StationsFire : Prop :=
  (∀ (s : State) (c : Fin 384) (k : Fin 8) (i : CoreInstr), firesNow s c k i = true →
    exec (stationCmd c k i.op) s =
      .next (fireEffect c k i (s.station c k).nextUid (fireAt c k i ((s.core c).instrAt (s.station c k).pc) s)))
  ∧ (∀ (s : State) (c : Fin 384) (k : Fin 8) (i : CoreInstr) (w : InstrWord),
    let t := fireAt c k i w s
    (t.station c k).pc = (s.station c k).pc + 1
    ∧ (t.station c k).regs = poppedRegs (s.core c) i (s.station c k).regs
    ∧ (t.station c k).nextUid = (s.station c k).nextUid + 1
    ∧ (t.station c k).flags = (s.station c k).flags ∧ (t.station c k).state = (s.station c k).state
    ∧ (∃ f : Inflight, (t.station c k).offNet.inflight = (s.station c k).offNet.inflight ++ [{ f with pieces := [] }] ∧ f.uid = (s.station c k).nextUid
        ∧ f.pc = (s.station c k).pc ∧ f.word = w
        ∧ f.regs.take 16 = (poppedRegs (s.core c) i (s.station c k).regs).toList
        ∧ (∀ m, i.op = .vstore m → f.regs.drop 16 = ((s.core c).vregs[vregIx k m.v]).toList)
        ∧ f.outVal = regRead (poppedRegs (s.core c) i (s.station c k).regs) i.outVal ∧ f.moved = false)
    ∧ (∀ k' : Fin 8, k' ≠ k → (t.station c k').offNet = (s.station c k').offNet) ∧ (∀ c' : Fin 384, c' ≠ c → t.core c' = s.core c')
    ∧ (t.core c).ls = (s.core c).ls ∧ (t.core c).lsPoison = (s.core c).lsPoison ∧ (t.core c).vregs = (s.core c).vregs
    ∧ (t.core c).istore = (s.core c).istore ∧ (t.core c).optab = (s.core c).optab ∧ (t.core c).drainQ = (s.core c).drainQ
    ∧ t.clusters = s.clusters ∧ t.gddr = s.gddr ∧ t.host = s.host ∧ t.rings = s.rings)
  ∧ (∀ (s : State) (c : Fin 384) (k : Fin 8) (i : CoreInstr) (w : InstrWord),
    let t := fireAt c k i w s
    let names (x : QRef) (q : Fin 32) : Nat := b2n (x = some (BitVec.ofNat 5 q.val))
    (∀ q : Fin 32,
      let old := (s.core c).queues[q]
      let pops := names i.inA q + names i.inB q
      ((t.core c).queues[q]).tokens = old.tokens.drop pops
      ∧ ((t.core c).queues[q]).credits = old.credits + (if old.prod = 0x20 then 0 else pops) - (names i.outA q + names i.outB q))
    ∧ (∀ a, i.inA = some a → (t.station c k).regs[14] = ((s.core c).queues[ix 32 a.toNat]).tokens.headD 0)
    ∧ (∀ b, i.inB = some b → i.inA ≠ some b → (t.station c k).regs[15] = ((s.core c).queues[ix 32 b.toNat]).tokens.headD 0)
    ∧ (i.inA = none → i.inB = none → t.wires = s.wires)
    ∧ (∀ a, i.inA = some a → i.inB = none → ((s.core c).queues[ix 32 a.toNat]).prod = 0x20 →
      t.wires = s.wires ++ [⟨((s.core c).queues[ix 32 a.toNat]).peerCore.toNat, ((s.core c).queues[ix 32 a.toNat]).peerQ, 0, true⟩]))

/-- The results of the CTRL instructions (R116): the destination register, the program counter and, for FLAGS, the flags; every
other register, flag, station, core and byte of local store is unchanged. s0 takes no write and reads as zero (R106).

The functions and conditions of R116, and FN 11 and 12 of R140: arithmetic wraps modulo 2^32, shifts use bits [4:0]. -/
def Obligations.ControlInstructions : Prop :=
  (∀ (s : State) (c : Fin 384) (k : Fin 8) (i : CoreInstr), firesNow s c k i = true →
    let rs := poppedRegs (s.core c) i (s.station c k).regs
    let pc := (s.station c k).pc
    let fl := (s.station c k).flags
    let same (t : State) : Prop := (∀ k' : Fin 8, k' ≠ k → t.station c k' = s.station c k') ∧ (∀ c' : Fin 384, c' ≠ c → t.core c' = s.core c')
      ∧ (t.core c).ls = (s.core c).ls ∧ (t.core c).vregs = (s.core c).vregs ∧ t.host = s.host ∧ t.gddr = s.gddr
    (∀ sd sa sb fn u imm, i.op = .alu sd sa sb fn u imm → ∃ t, exec (.stationAlu c k) s = .next t
      ∧ (t.station c k).regs = regWrite rs sd (aluFn fn.toNat (regRead rs sa) (if u then imm else regRead rs sb))
      ∧ (t.station c k).pc = pc + 1 ∧ (t.station c k).flags = fl ∧ same t)
    ∧ (∀ sd imm, i.op = .li sd imm → ∃ t, exec (.li c k) s = .next t ∧ (t.station c k).regs = regWrite rs sd imm
      ∧ (t.station c k).pc = pc + 1 ∧ (t.station c k).flags = fl ∧ same t)
    ∧ (∀ sa sb cond target, i.op = .br sa sb cond target → ∃ t, exec (.br c k) s = .next t ∧ (t.station c k).regs = rs
      ∧ (t.station c k).pc = (if condHolds cond.toNat (regRead rs sa) (regRead rs sb) then target else pc + 1)
      ∧ (t.station c k).flags = fl ∧ same t)
    ∧ (∀ sa target, i.op = .loop sa target → sa ≠ 0 → ∃ t, exec (.loopStn c k) s = .next t
      ∧ (t.station c k).regs = rs.set sa.toNat (rs[sa.toNat] - 1)
      ∧ (t.station c k).pc = (if rs[sa.toNat] - 1 ≠ 0 then target else pc + 1) ∧ (t.station c k).flags = fl ∧ same t)
    ∧ (∀ target, i.op = .loop 0 target → ∃ t, exec (.loopStn c k) s = .next t
      ∧ (t.station c k).regs = rs ∧ (t.station c k).pc = pc + 1 ∧ (t.station c k).flags = fl ∧ same t)
    ∧ (∀ sd clear, i.op = .flags sd clear → ∃ t, exec (.flagsStn c k) s = .next t
      ∧ (t.station c k).regs = regWrite rs sd (fl.setWidth 32) ∧ (t.station c k).pc = pc + 1
      ∧ (t.station c k).flags = (if clear then 0 else fl) ∧ same t)
    ∧ (i.op = .nop → ∃ t, exec (.stationNop c k) s = .next t ∧ (t.station c k).regs = rs ∧ (t.station c k).pc = pc + 1
      ∧ (t.station c k).flags = fl ∧ same t)
    ∧ (i.op = .endStn → ∃ t, exec (.stationEnd c k) s = .next t ∧ (t.station c k).regs = rs ∧ (t.station c k).ending = true
      ∧ (t.station c k).flags = fl ∧ same t))
  ∧ (∀ a b : Word,
    aluFn 0 a b = a + b ∧ aluFn 1 a b = a - b ∧ aluFn 2 a b = a &&& b ∧ aluFn 3 a b = a ||| b ∧ aluFn 4 a b = a ^^^ b
    ∧ aluFn 5 a b = a <<< (bits b 0 5 : BitVec 5) ∧ aluFn 6 a b = a >>> (bits b 0 5 : BitVec 5) ∧ aluFn 7 a b = a * b
    ∧ (aluFn 8 a b = a ∨ aluFn 8 a b = b) ∧ (aluFn 8 a b).toNat = min a.toNat b.toNat ∧ (aluFn 9 a b).toNat = max a.toNat b.toNat
    ∧ aluFn 10 a b = (if a.slt b then 1 else 0) ∧ aluFn 11 a b = a.sshiftRight (bits b 0 5 : BitVec 5).toNat
    ∧ (aluFn 12 a b).toNat = a.toNat * b.toNat / 2 ^ 32
    ∧ (condHolds 0 a b ↔ a = b) ∧ (condHolds 1 a b ↔ a ≠ b) ∧ (condHolds 2 a b ↔ a.slt b = true) ∧ (condHolds 3 a b ↔ a.slt b = false)
    ∧ (condHolds 4 a b ↔ a.ult b = true) ∧ (condHolds 5 a b ↔ a.ult b = false) ∧ condHolds 6 a b = true)

/-- SYNC and XFER: RAISE adds one arrival to its crier channel, NOTIFY posts its event record, JOIN and QUIESCE have no effect beyond
their firing, SEND and RECV post their transfer to the station command queue of the cluster's porter (R117, R125, R141, R154).

SLOAD reads four bytes of local store, as its grants delivered their line (R94), into its register and SSTORE writes its register to
them; outside those four bytes local store is unchanged, and so is every register a store leaves (R118). -/
def Obligations.PostsTransfersAndScalarMoves : Prop :=
  (∀ (s : State) (c : Fin 384) (k : Fin 8) (i : CoreInstr), firesNow s c k i = true →
    let cl := clusterOf c
    let rs := poppedRegs (s.core c) i (s.station c k).regs
    (∀ ch, i.op = .raise ch → ∃ t, exec (.raiseStn c k) s = .next t
      ∧ (t.cluster cl).crier[ch.toFin].count = (s.cluster cl).crier[ch.toFin].count + 1
      ∧ (∀ ch' : Fin 64, ch' ≠ ch.toFin → (t.cluster cl).crier[ch'] = (s.cluster cl).crier[ch'])
      ∧ (t.station c k).pc = (s.station c k).pc + 1 ∧ ∀ cl' : Fin 48, cl' ≠ cl → t.cluster cl' = s.cluster cl')
    ∧ (∀ code, i.op = .notify code → ∃ t, exec (.notifyStn c k) s = .next t
      ∧ (t.sk cl).events = (s.sk cl).events ++ [BitVec.ofNat 32 (2 + 256 * (c.val % 8) + 2048 * k.val + 65536 * code.toNat)]
      ∧ (t.station c k).pc = (s.station c k).pc + 1 ∧ ∀ cl' : Fin 48, cl' ≠ cl → t.cluster cl' = s.cluster cl')
    ∧ (i.op = .join → ∃ t, exec (.joinStn c k) s = .next t ∧ (t.station c k).pc = (s.station c k).pc + 1
      ∧ (t.station c k).regs = rs ∧ t.clusters = s.clusters)
    ∧ (i.op = .quiesce → (s.station c k).inflight = [] ∧ ∃ t, exec (.quiesce c k) s = .next t
      ∧ (t.station c k).pc = (s.station c k).pc + 1 ∧ (t.station c k).regs = rs ∧ t.clusters = s.clusters)
    ∧ (∀ x, i.op = .send x ∨ i.op = .recv x → ∃ t, exec (stationCmd c k i.op) s = .next t
      ∧ (t.cluster cl).pq[3] = (s.cluster cl).pq[3] ++ [⟨0, some ⟨decide (i.op = .send x), c, k, (s.station c k).nextUid,
        ((s.core c).entry x.opnd).rowAddr (regRead rs x.off).toNat, x.peer.toNat,
        x.peerAddr.toNat + (regRead rs x.peerOff).toNat, x.len.toNat⟩⟩]
      ∧ (t.station c k).pc = (s.station c k).pc + 1))
  ∧ (∀ (co : Core) (k : Fin 8) (f : Inflight) (sd sa : BitVec 4) (imm : BitVec 28),
    let rs := f.regVec
    let a := (regRead rs sa).toNat + imm.toNat
    let stored := (moveData co k f (.sstore sd sa imm)).co
    (moveData co k f (.sload sd sa imm)).co = { co with stns := co.stns.set k { co.stns[k] with
        regs := regWrite co.stns[k].regs sd (BitVec.ofNat 32 ((co.seenBy f.seen).ls.getLE a 4)) } }
    ∧ co.seenBy [] = co ∧ (∀ l, co.ls.wf = true → (co.seenBy [co.readLine l]).ls = co.ls)
    ∧ (co.ls.wf = true → stored.ls.getLE a 4 = (regRead rs sd).toNat) ∧ (∀ b, b < a ∨ a + 4 ≤ b → stored.ls.get b = co.ls.get b)
    ∧ stored.stns = co.stns ∧ stored.vregs = co.vregs ∧ stored.queues = co.queues)

/-- A pre-fire exception comes before the firing (R130): an undecodable word or an illegal operand is ILLEGAL; of the others the lowest
code is raised, OUT_OF_RANGE and MISALIGNED before a queue bound elsewhere, and the command has no other effect. Where a pop names a
queue bound elsewhere, the operands are looked at with s14 and s15 as they stand (the model's choice, log 46).

A station that raises a pre-fire exception enters HALTED at its instruction, with STN_EXC and STN_EXC_DETAIL filled, posts the
EXCEPTION event, pops nothing and writes no register and no byte of local store (R130, R131, R136, R137, R141). -/
def Obligations.PreFireExceptionsHalt : Prop :=
  (∀ (s : State) (c : Fin 384) (k : Fin 8), (s.station c k).state = .run → (s.station c k).ending = false →
    let w := (s.core c).instrAt (s.station c k).pc
    (decodeCore w = none → ∀ o, exec (stationCmd c k o) s = .next (preFire c k 1 0 s))
    ∧ ∀ i, decodeCore w = some i →
      (entryIllegal (s.core c) i.op = true → exec (stationCmd c k i.op) s = .next (preFire c k 1 0 s))
      ∧ (entryIllegal (s.core c) i.op = false → regHazard (s.station c k).inflight (touched i) = false →
        (∀ q, popFault (s.core c) k i = some q →
          (∀ f, operandFault (s.core c) k (s.station c k).regs i = some f → f.1 < 4 →
            exec (stationCmd c k i.op) s = .next (preFire c k f.1 f.2 s))
          ∧ ((∀ f, operandFault (s.core c) k (s.station c k).regs i = some f → 4 ≤ f.1) →
            exec (stationCmd c k i.op) s = .next (preFire c k 4 q s)))
        ∧ (popFault (s.core c) k i = none → tokensReady (s.core c) i = true → ∀ f,
          operandFault (s.core c) k (poppedRegs (s.core c) i (s.station c k).regs) i = some f →
          exec (stationCmd c k i.op) s = .next (preFire c k f.1 f.2 s))))
  ∧ (∀ (co : Core) (k : Fin 8) (rs : Vector Word 16) (i : CoreInstr),
    (∀ a, (rangeFault co rs i.op).orElse (fun _ => regionFault co rs i.op) = some a → operandFault co k rs i = some (2, a))
    ∧ (rangeFault co rs i.op = none → regionFault co rs i.op = none →
      (∀ a, misalignFault co rs i.op = some a → operandFault co k rs i = some (3, a))
      ∧ (misalignFault co rs i.op = none →
        (∀ q, pushFault co k i = some q → operandFault co k rs i = some (4, q))
        ∧ (pushFault co k i = none → operandFault co k rs i = if chainFault co k i.op then some (5, 0) else none))))
  ∧ (∀ (s : State) (c : Fin 384) (k : Fin 8) (code detail : Nat), (s.station c k).state = .run →
    let t := preFire c k code detail s
    (t.station c k).state = .halted ∧ (t.station c k).excCode = BitVec.ofNat 8 code ∧ (t.station c k).excPost = false
    ∧ (t.station c k).excPc = (s.station c k).pc ∧ (t.station c k).excLost = 0
    ∧ (t.station c k).excDetail = BitVec.ofNat 32 detail ∧ (t.station c k).regs = (s.station c k).regs
    ∧ (t.station c k).pc = (s.station c k).pc ∧ (t.station c k).flags = (s.station c k).flags
    ∧ (t.core c).queues = (s.core c).queues ∧ (t.core c).ls = (s.core c).ls ∧ (t.core c).vregs = (s.core c).vregs
    ∧ (t.sk (clusterOf c)).events =
        (s.sk (clusterOf c)).events ++ [BitVec.ofNat 32 (256 * (c.val % 8) + 2048 * k.val + 65536 * code)]
    ∧ (∀ k' : Fin 8, k' ≠ k → (t.station c k').offNet = (s.station c k').offNet) ∧ ∀ c' : Fin 384, c' ≠ c → t.core c' = s.core c')

/-- Events between a station's firings: a unit starts an issued instruction, an array drains a column or counts its wait for a route, and preloads a
bias column, a port grants the request that R93 puts first, a waiting request becomes urgent after 32 handshakes, an instruction completes, and a token or a
credit arrives from another core (R78, R79, R93, R107, R109, R126, R127).

A completing instruction leaves the station, pushes OUT_VAL into the queues it names, and halts the station where it raised a flag
of HALT_MASK; the END of a station whose last instruction completes makes it DONE (R107, R116, R126, R130, R131). -/
def Obligations.StationsCompleteTheirInstructions : Prop :=
  (∀ (s : State) (c : Fin 384),
    (∀ (k : Fin 8) n f m, (s.station c k).inflight[n]? = some f →
      (f.started = false → exec (.unitStart c k n m) s = .next (startUnit c k f m s))
      ∧ (f.started = true → exec (.unitStart c k n m) s = .next s)
      ∧ (∀ op v, f.started = false → opOf f.word = some (.vec op v) → ∃ t, exec (.unitStart c k n m) s = .next t
        ∧ (t.core c).vecIssued = (s.core c).vecIssued - 1
        ∧ ∀ g ∈ (t.station c k).inflight, g.uid = f.uid → g.started = true))
    ∧ (∀ (a : Fin 4) d p wait, (s.core c).arrays[a].drain = some d → opOf d.word = some (.pass p) →
      (d.cols ≠ 63 →
        exec (.passDrain c a wait) s = .next (s.setCore c { s.core c with arrays := (s.core c).arrays.set a { (s.core c).arrays[a] with
          drain := some { d with cols := d.cols + 1, buf := d.buf ++ [bankCol (s.core c).arrays[a].shadow d.cols] } } }))
      ∧ (d.cols = 63 → lowerWaiting (s.core c) a (d.stn, d.uid) = true ∨ (p.drain = true ∧ (s.core c).drainQ ≠ []) →
        exec (.passDrain c a wait) s = .next (s.setCore c { s.core c with arrays := (s.core c).arrays.set a { (s.core c).arrays[a] with
          outWaitCnt := satAdd (s.core c).arrays[a].outWaitCnt wait } }))
      ∧ (d.cols = 63 → lowerWaiting (s.core c) a (d.stn, d.uid) = false → p.drain = true → (s.core c).drainQ = [] →
        ∃ t, exec (.passDrain c a wait) s = .next t ∧ (t.core c).arrays[a] = { (s.core c).arrays[a] with drain := none }
          ∧ (t.core c).drainQ.length = 64 ∧ (∀ r ∈ (t.core c).drainQ, r.stn.val = p.dqStn.toNat)
          ∧ (t.core c).ls = (s.core c).ls))
    ∧ (∀ (a : Fin 4) key f p, (s.core c).arrays[a].issued.head? = some key →
      ((s.station c key.1).inflight.find? fun f => f.uid = key.2) = some f → opOf f.word = some (.pass p) → p.biasMode ≠ 0 →
      (s.core c).arrays[a].bias = none → (s.core c).arrays[a].drain = none → (s.core c).arrays[a].finished = none →
      hasReqs (s.core c) key.1 key.2 = false →
      let col := biasCol ((s.core c).seenBy f.seen) ((s.core c).entry p.bias) p (offReg f.regVec p.biasOff)
        ((maskedArrays p.mask).filter fun x => x < a).length 0
      exec (.biasPreload c a) s = .next (raiseEv c key.1 key.2 { Ev.none with psn := psnCount col }
        (s.setCore c { s.core c with arrays := (s.core c).arrays.set a { (s.core c).arrays[a] with
          shadow := setBankCol (s.core c).arrays[a].shadow 0 (col.map fun x => BitVec.ofNat 32 (laneCode 4 x)),
          bias := some ⟨key.1, key.2, 1⟩ } })))
    ∧ (∀ (t : Fin 4) (e : Ecc) busy n r, pickReq (s.core c).lports[t].reqs = some n → (s.core c).lports[t].reqs[n]? = some r →
      let rest := ((s.core c).lports[t].reqs.eraseIdx n).map fun x => { x with waited := x.waited + 1 }
      let p : LsPort := ⟨rest, satAdd (s.core c).lports[t].grantCnt 1, satAdd (s.core c).lports[t].urgentCnt (b2n r.urgent)⟩
      let co : Core := { s.core c with lports := (s.core c).lports.set t p }
      let s1 := s.setCore c (if r.write then co else lsFind t r.line e co)
      (∀ k uid, r.owner = .stn k uid → exec (.localStorePortGrant c t e busy) s = .next (servePeers (grantTo c k uid r busy s1)))
      ∧ ∀ o, r.owner = .ext o → exec (.localStorePortGrant c t e busy) s = .next (servePeers (grantExt c o r e s1)))
    ∧ (∀ (t : Fin 4) n r, (s.core c).lports[t].reqs[n]? = some r → 32 ≤ r.waited →
      let p : LsPort := { (s.core c).lports[t] with reqs := (s.core c).lports[t].reqs.set n { r with urgent := true } }
      exec (.portRequestUrgent c t n) s = .next (s.setCore c { s.core c with lports := (s.core c).lports.set t p }))
    ∧ (∀ (k : Fin 8) n f, (s.station c k).inflight[n]? = some f → reached (s.core c) k f = true →
      pushHeld (s.station c k) f = false → (∀ m, opOf f.word ≠ some (.mv m)) →
      exec (.instructionComplete c k n) s = .next (completeNow c k f s))
    ∧ (∀ (k : Fin 8) n f m, (s.station c k).inflight[n]? = some f → reached (s.core c) k f = true →
      pushHeld (s.station c k) f = false → opOf f.word = some (.mv m) →
      (m.drain = false ∨ m.hold = true ∨ f.moved = true → exec (.instructionComplete c k n) s = .next (completeNow c k f s))
      ∧ (m.drain = true → m.hold = false → f.moved = false →
        (∀ t, mvQueue c k f m s = some t → exec (.instructionComplete c k n) s = .next (completeNow c k f t))
        ∧ (mvQueue c k f m s = none → exec (.instructionComplete c k n) s = .next s)))
    ∧ (∀ (k : Fin 8) n f, (s.station c k).inflight[n]? = some f →
      reached (s.core c) k f = false ∨ pushHeld (s.station c k) f = true → exec (.instructionComplete c k n) s = .next s)
    ∧ (∀ (q : Fin 32) n v, wireIx s c q false = some n → s.wires[n]? = some v →
      exec (.remoteTokenArrival c q) s = .next ((s.setWires (s.wires.eraseIdx n)).setCore c { s.core c with
        queues := (s.core c).queues.set q { (s.core c).queues[q] with tokens := (s.core c).queues[q].tokens ++ [v.val] } }))
    ∧ (∀ (q : Fin 32) n, wireIx s c q true = some n →
      exec (.remoteCreditReturn c q) s = .next ((s.setWires (s.wires.eraseIdx n)).setCore c { s.core c with
        queues := (s.core c).queues.set q { (s.core c).queues[q] with credits := (s.core c).queues[q].credits + 1 } }))
    ∧ ∀ k : Fin 8, (s.station c k).state = .run → (s.station c k).wdog ≠ 0 →
      ((s.station c k).wdog.toNat * 1000 : Int) ≤ (s.clusterTime (clusterOf c) - (s.station c k).wdogFrom).toInt →
      exec (.stationWatchdog c k) s = .next (preFire c k 9 0 s))
  ∧ (∀ (s : State) (c : Fin 384) (k : Fin 8) (f : Inflight),
    (s.station c k).state = .run → f.mute = false → f.remote = none → pushPeerOut s c f = none →
    (∀ q v, outQueues f.word = [q] → (s.core c).queues[q].cons ≠ 0x20 → v = f.outVal → postFault (s.station c k) f none = none →
      (s.station c k).ending = false →
      ((completeNow c k f s).core c).queues[q].tokens = (s.core c).queues[q].tokens ++ [v]
      ∧ ((completeNow c k f s).core c).queues[q].credits = (s.core c).queues[q].credits
      ∧ ((completeNow c k f s).station c k).inflight = (s.station c k).inflight.filter (fun g => g.uid ≠ f.uid)
      ∧ ((completeNow c k f s).station c k).state = .run)
    ∧ (outQueues f.word = [] → (s.station c k).ending = true → (s.station c k).inflight = [f] → postFault (s.station c k) f none = none →
      ((completeNow c k f s).station c k).state = .done
      ∧ ((completeNow c k f s).sk (clusterOf c)).events =
        (s.sk (clusterOf c)).events ++ [BitVec.ofNat 32 (1 + 256 * (c.val % 8) + 2048 * k.val)])
    ∧ (outQueues f.word = [] → f.raised &&& (s.station c k).haltMask ≠ 0 →
      ((completeNow c k f s).station c k).state = .halted ∧ ((completeNow c k f s).station c k).excCode = 6
      ∧ ((completeNow c k f s).station c k).excPost = true ∧ ((completeNow c k f s).station c k).excPc = f.pc
      ∧ ((completeNow c k f s).station c k).excDetail = f.raised.setWidth 32)
    ∧ (∀ code, opOf f.word = some (.trap code) → outQueues f.word = [] → f.raised &&& (s.station c k).haltMask = 0 →
      (f.marked = false ∨ (s.station c k).haltUncorr = false) →
      ((completeNow c k f s).station c k).state = .halted ∧ ((completeNow c k f s).station c k).excCode = 10
      ∧ ((completeNow c k f s).station c k).excPost = true ∧ ((completeNow c k f s).station c k).excDetail = code.setWidth 32))

/-- The register operations of a stallkeeper write gd, g0 excepted, and go on to the next word; nothing else changes (R138, R140).
That a stallkeeper's next instruction is four bytes on is R139's width.

Branches compare and go to the given number of instructions from the branch (taken so: log 17), else on; JAL leaves the address
of the next instruction in g31; JR jumps to the sum (R139, R140). -/
def Obligations.StallkeeperRegistersAndBranches : Prop :=
  (∀ (s : State) (cl : Fin 48),
    let k := s.sk cl
    let w (gd : BitVec 5) (v : Word) : State := s.setSk cl { k.setG gd v with pc := k.pc + 4 }
    (∀ gd ga gb fn, skRuns s cl (.alu gd ga gb fn) = true → exec (.skAlu cl) s = .next (w gd (aluFn fn.toNat (k.reg ga) (k.reg gb))))
    ∧ (∀ gd ga i, skRuns s cl (.addi gd ga i) = true → exec (.addi cl) s = .next (w gd (k.reg ga + i.signExtend 32)))
    ∧ (∀ gd ga i, skRuns s cl (.andi gd ga i) = true → exec (.andi cl) s = .next (w gd (k.reg ga &&& i.setWidth 32)))
    ∧ (∀ gd ga i, skRuns s cl (.ori gd ga i) = true → exec (.ori cl) s = .next (w gd (k.reg ga ||| i.setWidth 32)))
    ∧ (∀ gd ga i, skRuns s cl (.lui gd ga i) = true → exec (.lui cl) s = .next (w gd (BitVec.ofNat 32 (i.toNat * 2 ^ 16))))
    ∧ (∀ r v, (k.setG r v).reg 0 = 0 ∧ (r ≠ 0 → (k.setG r v).reg r = v) ∧ ∀ r', r' ≠ r → (k.setG r v).reg r' = k.reg r'))
  ∧ (∀ (s : State) (cl : Fin 48),
    let k := s.sk cl
    let go (pc : Word) : State := s.setSk cl { k with pc := pc }
    let br (taken : Bool) (i : Half) : State := go (if taken then k.pc + 4 * i.signExtend 32 else k.pc + 4)
    (∀ ga gb i, skRuns s cl (.branch 0 ga gb i) = true → exec (.beq cl) s = .next (br (k.reg ga = k.reg gb) i))
    ∧ (∀ ga gb i, skRuns s cl (.branch 1 ga gb i) = true → exec (.bne cl) s = .next (br (k.reg ga ≠ k.reg gb) i))
    ∧ (∀ ga gb i, skRuns s cl (.branch 2 ga gb i) = true → exec (.blt cl) s = .next (br ((k.reg ga).slt (k.reg gb)) i))
    ∧ (∀ ga gb i, skRuns s cl (.branch 3 ga gb i) = true → exec (.bge cl) s = .next (br ((k.reg gb).sle (k.reg ga)) i))
    ∧ (∀ ga gb i, skRuns s cl (.branch 4 ga gb i) = true → exec (.bltu cl) s = .next (br ((k.reg ga).ult (k.reg gb)) i))
    ∧ (∀ ga gb i, skRuns s cl (.branch 5 ga gb i) = true → exec (.bgeu cl) s = .next (br ((k.reg gb).ule (k.reg ga)) i))
    ∧ (∀ off, skRuns s cl (.jal off) = true →
      exec (.jal cl) s = .next (s.setSk cl { k.setG 31 (k.pc + 4) with pc := k.pc + 4 * off.signExtend 32 }))
    ∧ (∀ gd ga i, skRuns s cl (.jr gd ga i) = true → exec (.jr cl) s = .next (go (k.reg ga + i.signExtend 32))))

/-- Loads and stores reach the map of R138 at the sum of ga and the sign-extended immediate; outside it, or misaligned, they stop
the stallkeeper, which ends the launch on its cluster with ERR_MALFORMED (R140, R143). A word stored in data memory is read back.

Stores that the table lists apart (R104, R154, R169): 1 to a crier channel's COUNT is one arrival; ARM takes new bases of the
watch and clears its trigger bits; CNT_CLEAR clears the counters its bits name, and bit 5 takes new bases. -/
def Obligations.StallkeeperMemoryAndCounters : Prop :=
  (∀ (s : State) (cl : Fin 48),
    let k := s.sk cl
    (∀ gd ga i v, skRuns s cl (.lw gd ga i) = true → skRead s cl (k.reg ga + i.signExtend 32).toNat = some v →
      exec (.lw cl) s = .next (s.setSk cl { k.setG gd v with pc := k.pc + 4 }))
    ∧ (∀ gd ga i, skRuns s cl (.lw gd ga i) = true → skRead s cl (k.reg ga + i.signExtend 32).toNat = none →
      exec (.lw cl) s = .next (endCluster cl stMalformed s))
    ∧ (∀ gd ga i t, skRuns s cl (.sw gd ga i) = true → skWrite s cl (k.reg ga + i.signExtend 32).toNat (k.reg gd) = some t →
      exec (.sw cl) s = .next (t.setSk cl { t.sk cl with pc := (t.sk cl).pc + 4 }))
    ∧ (∀ gd ga i, skRuns s cl (.sw gd ga i) = true → skWrite s cl (k.reg ga + i.signExtend 32).toNat (k.reg gd) = none →
      exec (.sw cl) s = .next (endCluster cl stMalformed s))
    ∧ (∀ a v, a % 4 = 0 → 0x10000 ≤ a → a < 0x50000 → k.dmem.wf = true →
      ∃ t, skWrite s cl a v = some t ∧ skRead t cl a = some v ∧ t = s.setSk cl { k with dmem := (t.sk cl).dmem }
        ∧ ∀ b, b < a - 0x10000 ∨ a - 0x10000 + 4 ≤ b → (t.sk cl).dmem.get b = k.dmem.get b)
    ∧ (∀ a v, a % 4 ≠ 0 ∨ (0x50000 ≤ a ∧ a < 0x10000000) ∨ 0x21000014 ≤ a → skRead s cl a = none ∧ skWrite s cl a v = none))
  ∧ (∀ (s : State) (cl : Fin 48) (gd ga : BitVec 5) (i : Half),
    let k := s.sk cl
    let a := (k.reg ga + i.signExtend 32).toNat
    skRuns s cl (.sw gd ga i) = true →
    (∀ ch : Fin 64, a = 0x2000000C + 16 * ch.val → (bits (k.reg gd) 0 16 : Half) = 1 → ∃ t, exec (.crierCountWrite cl) s = .next t
      ∧ (t.cluster cl).crier[ch].count = (s.cluster cl).crier[ch].count + 1 ∧ (t.sk cl).pc = k.pc + 4)
    ∧ (∀ j : Fin 8, a = 0x10000000 + 0x100000 * j.val + 0x141A8 → (k.reg gd).getLsbD 0 = true →
      let c := coreOf cl j.val
      exec (.watchArm cl) s = .next (skNext cl (watchCheck c (s.setCore c (watchArm (s.core c)))))
      ∧ (watchArm (s.core c)).watch.satTrig = false ∧ (watchArm (s.core c)).watch.ufzTrig = false
      ∧ (watchArm (s.core c)).watch.edgeTrig = false ∧ (watchArm (s.core c)).watch.baseSat = (s.core c).satCnt
      ∧ (watchArm (s.core c)).watch.baseUfz = (s.core c).ufzCnt ∧ (watchArm (s.core c)).watch.baseEdge = (s.core c).edgeCnt
      ∧ (watchArm (s.core c)).watch.baseBlock = (s.core c).watch.blockCnt)
    ∧ (∀ j : Fin 8, a = 0x10000000 + 0x100000 * j.val + 0x141F8 → (k.reg gd) &&& 0x3F ≠ 0 →
      let c := coreOf cl j.val
      let co := cntClear (k.reg gd) (s.core c)
      exec (.cntClear cl) s = .next (skNext cl (watchCheck c (s.setCore c co)))
      ∧ (∀ b : Fin 4, (k.reg gd).getLsbD b.val = true → co.arrays[b].macCnt = 0 ∧ co.arrays[b].passCnt = 0 ∧ co.arrays[b].stallCnt = 0)
      ∧ (∀ b : Fin 4, (k.reg gd).getLsbD b.val = false → co.arrays[b] = (s.core c).arrays[b])
      ∧ ((k.reg gd).getLsbD 5 = true → co.satCnt = 0 ∧ co.ufzCnt = 0 ∧ co.psnCnt = 0 ∧ co.edgeCnt = 0 ∧ co.watch.baseSat = 0)
      ∧ ((k.reg gd).getLsbD 5 = false → co.satCnt = (s.core c).satCnt ∧ co.watch = (s.core c).watch)
      ∧ co.ls = (s.core c).ls ∧ co.stns = (s.core c).stns))

/-- Control registers (R140 to R142): CSRR reads each register the table makes readable into gd, EVT_POP taking the oldest event, and
reads any other number as zero (log 17); CSRW writes each writable one and ignores any other number (log 17). A write of TIMER arms it,
and the armed timer posts one TIMER event from its moment on. WAIT goes on where an event whose bit is set in ga is pending and sleeps
otherwise; a sleeping stallkeeper goes on once such an event is pending.

The interval registers of R412 and R413 and the clip factor's of R384: captures take the cluster's time, STOP_CAPTURE computes INTERVAL,
NOW_LO latches the upper half, NORM_FACTOR answers a published factor, poison for a failed one, and waits for a pending one and, up to
100 ms, for one that nobody has started. -/
def Obligations.StallkeeperTimersAndFactors : Prop :=
  (∀ (s : State) (cl : Fin 48),
    let k := s.sk cl
    let w (x : Stallkeeper) : State := s.setSk cl { x with pc := k.pc + 4 }
    (∀ gd ga i, skRuns s cl (.csrr gd ga i) = true →
      (i = 0x01 → exec (.csrr cl) s = .next (w { k.setG gd (k.events.headD 0) with events := k.events.tail })
        ∧ exec (.evtPop cl) s = exec (.csrr cl) s)
      ∧ (i = 0x10 → exec (.csrr cl) s = .next (w (k.setG gd k.timer)))
      ∧ (i = 0x14 → exec (.csrr cl) s = .next (w ({ k with nowHi := bits (s.clusterTime cl) 32 32 }.setG gd (bits (s.clusterTime cl) 0 32)))
        ∧ exec (.nowLo cl) s = exec (.csrr cl) s)
      ∧ (i = 0x15 → exec (.csrr cl) s = .next (w (k.setG gd k.nowHi)))
      ∧ (i = 0x17 → exec (.csrr cl) s = .next (w (k.setG gd k.interval)))
      ∧ (i = 0x20 → exec (.csrr cl) s = .next (w (k.setG gd k.normSel)))
      ∧ (i = 0x21 → exec (.csrr cl) s = exec (.normFactor cl) s)
      ∧ (i ∉ [0x01, 0x10, 0x14, 0x15, 0x17, 0x20, 0x21] → exec (.csrr cl) s = .next (w (k.setG gd 0))))
    ∧ (∀ gd ga i, skRuns s cl (.csrw gd ga i) = true →
      (i = 0x10 → exec (.csrw cl) s = .next (w { k with timer := k.reg ga, timerArmed := true }) ∧ exec (.timerArm cl) s = exec (.csrw cl) s)
      ∧ (i = 0x11 → exec (.csrw cl) s = exec (.startCapture cl) s) ∧ (i = 0x12 → exec (.csrw cl) s = exec (.startLo cl) s)
      ∧ (i = 0x13 → exec (.csrw cl) s = exec (.startHi cl) s) ∧ (i = 0x16 → exec (.csrw cl) s = exec (.stopCapture cl) s)
      ∧ (i = 0x20 → exec (.csrw cl) s = exec (.normSel cl) s)
      ∧ (i ∉ [0x10, 0x11, 0x12, 0x13, 0x16, 0x20] → exec (.csrw cl) s = .next (w k)))
    ∧ (k.timerArmed = true → ((bits (s.clusterTime cl) 0 32 : Word) - k.timer).toNat < 2 ^ 31 →
      exec (.timerEvent cl) s = .next (s.setSk cl { k with timerArmed := false, events := k.events ++ [5] }))
    ∧ (k.timerArmed = false ∨ 2 ^ 31 ≤ ((bits (s.clusterTime cl) 0 32 : Word) - k.timer).toNat → exec (.timerEvent cl) s = .next s)
    ∧ (∀ gd ga i, skRuns s cl (.wait gd ga i) = true →
      (eventPending k (k.reg ga) = true → exec (.skWait cl) s = .next (w k))
      ∧ (eventPending k (k.reg ga) = false → exec (.skWait cl) s = .next (s.setSk cl { k with st := .wait, waitMask := k.reg ga })))
    ∧ (k.st = .wait →
      (eventPending k k.waitMask = true → exec (.waitWake cl) s = .next (w { k with st := .run }))
      ∧ (eventPending k k.waitMask = false → exec (.waitWake cl) s = .next s))
    ∧ ∀ m, eventPending k m = true ↔ ∃ e ∈ k.events, m.getLsbD (e.toNat % 32) = true)
  ∧ (∀ (s : State) (cl : Fin 48),
    let k := s.sk cl
    let now := s.clusterTime cl
    let hold := s.time.holdover
    let w (x : Stallkeeper) : State := s.setSk cl { x with pc := k.pc + 4 }
    (∀ gd ga, skRuns s cl (.csrw gd ga 0x11) = true → exec (.startCapture cl) s = .next (w { k with start := some ⟨now, hold, false⟩ }))
    ∧ (∀ gd ga, skRuns s cl (.csrw gd ga 0x12) = true → exec (.startLo cl) s = .next (w { k with startLo := k.reg ga }))
    ∧ (∀ gd ga, skRuns s cl (.csrw gd ga 0x13) = true →
      exec (.startHi cl) s = .next (w { k with start := some ⟨k.reg ga ++ k.startLo, hold, false⟩ }))
    ∧ (∀ gd ga, skRuns s cl (.csrr gd ga 0x14) = true →
      exec (.nowLo cl) s = .next (w ({ k with nowHi := bits now 32 32 }.setG gd (bits now 0 32))))
    ∧ (∀ gd ga, skRuns s cl (.csrw gd ga 0x16) = true → exec (.stopCapture cl) s = .next (w { k with interval := intervalOf k.start now hold }))
    ∧ (∀ gd ga, skRuns s cl (.csrw gd ga 0x20) = true → exec (.normSel cl) s = .next (w { k with normSel := k.reg ga }))
    ∧ (∀ gd ga e, skRuns s cl (.csrr gd ga 0x21) = true → (s.coll.norms.find? fun n => n.id = k.normSel) = some e →
      (e.status = 1 → exec (.normFactor cl) s = .next (w ({ k with normSince := none }.setG gd e.factor)))
      ∧ (e.status = 2 → exec (.normFactor cl) s = .next (w ({ k with normSince := none }.setG gd 0x7FFFFFFF)))
      ∧ (e.status = 0 → exec (.normFactor cl) s = .next (s.setSk cl { k with normSince := none })))
    ∧ (∀ gd ga, skRuns s cl (.csrr gd ga 0x21) = true → (s.coll.norms.find? fun n => n.id = k.normSel) = none →
      exec (.normFactor cl) s = .next (s.setSk cl { k with normSince := some (k.normSince.getD s.ns) })
      ∧ ∀ t, k.normSince = some t →
        (t + 100000000 ≤ s.ns → exec (.normFactorTimeout cl) s = .next (w ({ k with normSince := none }.setG gd 0x7FFFFFFF)))
        ∧ (s.ns < t + 100000000 → exec (.normFactorTimeout cl) s = .next s))
    ∧ intervalOf none now hold = 0x80000000
    ∧ (∀ x, x.stepped = true ∨ (now - x.val).toInt < 0 → (intervalOf (some x) now hold).getLsbD 31 = true
        ∧ (bits (intervalOf (some x) now hold) 0 29 : BitVec 29) = 0)
    ∧ (∀ x, x.stepped = false → now = x.val → (bits (intervalOf (some x) now hold) 30 2 : BitVec 2) = 1
        ∧ (bits (intervalOf (some x) now hold) 0 29 : BitVec 29) = 0)
    ∧ (∀ x, x.stepped = false → 0 < (now - x.val).toInt → (bits (intervalOf (some x) now hold) 30 2 : BitVec 2) = 0
        ∧ (bits (intervalOf (some x) now hold) 0 29 : BitVec 29).toNat = min (now - x.val).toInt.toNat (2 ^ 29 - 1)
        ∧ (intervalOf (some x) now hold).getLsbD 29 = (x.hold || hold)))

/-- Station commands (R133, R140): each acts on the station that ga names, and the stallkeeper goes on; START acts only on an IDLE
station, HALT on a running one, RESUME on a halted one, RESET on every one, whose reserved credits return. INJECT pushes gd's value
into the queue that gb names, also where its producer or its consumer stands in another core, and waits where no credit is left. -/
def Obligations.StationCommandsMoveStations : Prop :=
  ∀ (s : State) (cl : Fin 48) (gd ga gb : BitVec 5),
    let v := (s.sk cl).reg ga
    let c := coreOf cl (bits v 0 3 : BitVec 3).toNat
    let k : Fin 8 := (bits v 3 3 : BitVec 3).toFin
    let st := s.station c k
    (skRuns s cl (.cctl gd ga gb 0) = true →
      ∃ t, exec (.cctlStart cl) s = .next t ∧ (t.sk cl).pc = (s.sk cl).pc + 4 ∧ (t.station c k).regs = st.regs
        ∧ (st.state = .idle → (t.station c k).state = .run ∧ (t.station c k).pc = st.entry)
        ∧ (st.state ≠ .idle → t.station c k = st)
        ∧ (∀ k' : Fin 8, k' ≠ k → t.station c k' = s.station c k') ∧ ∀ c' : Fin 384, c' ≠ c → t.core c' = s.core c')
    ∧ (skRuns s cl (.cctl gd ga gb 1) = true →
      ∃ t, exec (.cctlHalt cl) s = .next t ∧ (t.sk cl).pc = (s.sk cl).pc + 4 ∧ (t.station c k).regs = st.regs
        ∧ (st.state = .run → (t.station c k).state = .halted ∧ (t.station c k).excCode = 0x0B ∧ (t.station c k).excPost = false
            ∧ (t.station c k).excPc = st.pc)
        ∧ (st.state ≠ .run → t.station c k = st)
        ∧ (∀ k' : Fin 8, k' ≠ k → (t.station c k').offNet = (s.station c k').offNet) ∧ ∀ c' : Fin 384, c' ≠ c → t.core c' = s.core c')
    ∧ (skRuns s cl (.cctl gd ga gb 2) = true →
      ∃ t, exec (.cctlResume cl) s = .next t ∧ (t.sk cl).pc = (s.sk cl).pc + 4 ∧ (t.station c k).regs = st.regs
        ∧ (st.state = .halted → (t.station c k).excCode = 0 ∧ (t.station c k).excDetail = 0
            ∧ (t.station c k).pc = (if st.excPost then st.excPc + 1 else st.excPc)
            ∧ (t.station c k).state = (if st.ending ∧ st.inflight = [] then .done else .run))
        ∧ (st.state = .idle ∨ st.state = .done ∨ (st.state = .run ∧ (st.ending = false ∨ st.inflight ≠ [])) → t.station c k = st)
        ∧ (∀ k' : Fin 8, k' ≠ k → t.station c k' = s.station c k') ∧ ∀ c' : Fin 384, c' ≠ c → t.core c' = s.core c')
    ∧ (skRuns s cl (.cctl gd ga gb 3) = true →
      ∃ t, exec (.cctlReset cl) s = .next t ∧ (t.sk cl).pc = (s.sk cl).pc + 4 ∧ (t.station c k).state = .idle
        ∧ (t.station c k).regs = Vector.replicate 16 0 ∧ (t.station c k).flags = 0 ∧ (t.station c k).inflight = []
        ∧ (t.station c k).excCode = 0 ∧ (t.station c k).entry = st.entry ∧ (t.station c k).haltMask = st.haltMask
        ∧ (t.sk cl).events = (s.sk cl).events ∧ (t.core c).ls = (s.core c).ls
        ∧ (∀ q : Fin 32, ((t.core c).queues[q]).tokens = ((s.core c).queues[q]).tokens
          ∧ ((t.core c).queues[q]).credits = ((s.core c).queues[q]).credits
            + (st.stuck ++ st.inflight.flatMap fun f => outQueues f.word).count q)
        ∧ (∀ k' : Fin 8, k' ≠ k → (t.station c k').offNet = (s.station c k').offNet) ∧ ∀ c' : Fin 384, c' ≠ c → t.core c' = s.core c')
    ∧ (skRuns s cl (.cctl gd ga gb 4) = true →
      let q : Fin 32 := (bits ((s.sk cl).reg gb) 0 5 : BitVec 5).toFin
      let old := (s.core c).queues[q]
      let from_ : Fin 384 := ix 384 old.peerCore.toNat
      let val := (s.sk cl).reg gd
      (old.prod ≠ 0x20 → old.credits ≠ 0 → exec (.cctlInject cl) s = .next (skNext cl (pushToken c q val s))
        ∧ (old.cons ≠ 0x20 → (((pushToken c q val s).core c).queues[q]) = { old with tokens := old.tokens ++ [val], credits := old.credits - 1 })
        ∧ (old.cons = 0x20 → (pushToken c q val s).wires = s.wires ++ [⟨old.peerCore.toNat, old.peerQ, val, false⟩]
          ∧ (((pushToken c q val s).core c).queues[q]) = { old with credits := old.credits - 1 }))
      ∧ (old.prod ≠ 0x20 → old.credits = 0 → exec (.cctlInject cl) s = .next s)
      ∧ (old.prod = 0x20 → ((s.core from_).queues[old.peerQ]).credits ≠ 0 →
        exec (.cctlInject cl) s = .next (skNext cl (sendToken c q val (spendCredit from_ old.peerQ s))))
      ∧ (old.prod = 0x20 → ((s.core from_).queues[old.peerQ]).credits = 0 → exec (.cctlInject cl) s = .next s))

/-- PCMD posts the 64 bytes at its data address to one of the porter's command queues 0 to 2 and waits while that queue is full (one that
names queue 3 posts nothing: the model's choice, log 46); CCMD posts a broadcast; either stops the stallkeeper where its bytes do not
lie in data memory (R143). END halts the cluster's running stations and gives its launch the status (R140, R149, R151, R155).

Ending a launch on a cluster stops its stallkeeper, notes the status, and leaves no station of the cluster running (R149).

An illegal word, or a pc outside instruction memory, stops the stallkeeper in place of any command of it (R140, R143). A
command of a stallkeeper that is not in RUN, or that stands at another operation, changes nothing. -/
def Obligations.StallkeeperPostsAndEnds : Prop :=
  (∀ (s : State) (cl : Fin 48),
    let k := s.sk cl
    (∀ gd ga i, skRuns s cl (.pcmd gd ga i) = true → 0x10000 ≤ (k.reg ga).toNat → (k.reg ga).toNat + 64 ≤ 0x50000 →
      let q : Fin 4 := (bits i 0 2 : BitVec 2).toFin
      let p : PorterCmd := ⟨BitVec.ofNat 512 (leNat (k.dmem.getBytes ((k.reg ga).toNat - 0x10000) 64)), none⟩
      (q ≠ 3 → (s.cluster cl).pq[q].length < 64 → exec (.pcmd cl) s = .next (s.setCluster cl { s.cluster cl with
          pq := (s.cluster cl).pq.set q ((s.cluster cl).pq[q] ++ [p]), sk := { k with pc := k.pc + 4 } }))
      ∧ (q ≠ 3 → 64 ≤ (s.cluster cl).pq[q].length → exec (.pcmd cl) s = .next s)
      ∧ (q = 3 → exec (.pcmd cl) s = .next (s.setSk cl { k with pc := k.pc + 4 })))
    ∧ (∀ gd ga i, skRuns s cl (.pcmd gd ga i) = true → (k.reg ga).toNat < 0x10000 ∨ 0x50000 < (k.reg ga).toNat + 64 →
      exec (.pcmd cl) s = .next (endCluster cl stMalformed s))
    ∧ (∀ gd ga i, skRuns s cl (.ccmd gd ga i) = true → (k.reg ga).toNat < 0x10000 ∨ 0x50000 < (k.reg ga).toNat + 24 →
      exec (.ccmd cl) s = .next (endCluster cl stMalformed s))
    ∧ (∀ gd ga i, skRuns s cl (.ccmd gd ga i) = true → 0x10000 ≤ (k.reg ga).toNat → (k.reg ga).toNat + 24 ≤ 0x50000 →
      ∃ t b, exec (.ccmd cl) s = .next t ∧ (t.cluster cl).bcasts = (s.cluster cl).bcasts ++ [b] ∧ (t.sk cl).pc = k.pc + 4
        ∧ b.src = k.dmem.getLE ((k.reg ga).toNat - 0x10000) 2 ∧ b.coreMask = k.dmem.get ((k.reg ga).toNat - 0x10000 + 2)
        ∧ b.addr = k.dmem.getLE ((k.reg ga).toNat - 0x10000 + 4) 4 ∧ b.len = k.dmem.getLE ((k.reg ga).toNat - 0x10000 + 8) 4
        ∧ b.chan.val = (k.dmem.get ((k.reg ga).toNat - 0x10000 + 3)).toNat % 64
        ∧ b.clusters.toNat = k.dmem.getLE ((k.reg ga).toNat - 0x10000 + 12) 8 % 2 ^ 48
        ∧ t.cores = s.cores ∧ ∀ cl' : Fin 48, cl' ≠ cl → t.cluster cl' = s.cluster cl')
    ∧ (∀ gd ga i, skRuns s cl (.endSk gd ga i) = true →
      exec (.skEnd cl) s = .next (endCluster cl (endStatus (bits i 0 8)) s))
    ∧ (endStatus stOk = stOk ∧ endStatus stCorrected = stCorrected ∧ endStatus stUncorrected = stUncorrected
      ∧ endStatus stTimeout = stTimeout ∧ endStatus stMalformed = stMalformed ∧ endStatus stRecipe = stRecipe
      ∧ endStatus 0x55 = stMalformed))
  ∧ (∀ (s : State) (cl : Fin 48) (x : Byte),
    ((endCluster cl x s).sk cl).st = .stopped
    ∧ ((endCluster cl x s).cluster cl).ending = some ((s.cluster cl).ending.getD x)
    ∧ (∀ (j : Fin 8) (k : Fin 8), ((endCluster cl x s).station (coreOf cl j.val) k).state ≠ .run)
    ∧ (∀ c : Fin 384, clusterOf c ≠ cl → (endCluster cl x s).core c = s.core c)
    ∧ ∀ c : Fin 384, ((endCluster cl x s).core c).ls = (s.core c).ls)
  ∧ (∀ (s : State) (cl : Fin 48), (s.sk cl).st = .run → (skFetch (s.sk cl)).bind decodeSk = none →
    ∀ o : SkOp, exec (skCmd cl o) s = .next (endCluster cl stMalformed s))
  ∧ (∀ (s : State) (cl : Fin 48), (s.sk cl).st ≠ .run → (∀ o : SkOp, exec (skCmd cl o) s = .next s)
    ∧ ∀ i ∈ [Instr.evtPop cl, .timerArm cl, .startCapture cl, .startLo cl, .startHi cl, .nowLo cl, .stopCapture cl, .normSel cl,
        .normFactor cl, .normFactorTimeout cl, .crierCountWrite cl, .watchArm cl, .cntClear cl], exec i s = .next s)
  ∧ ∀ (s : State) (cl : Fin 48) (o o' : SkOp), skRuns s cl o' = true → skCmd cl o ≠ skCmd cl o' → exec (skCmd cl o) s = .next s

/-- The porter starts the head of the queue whose turn it is, in a tag of its own, and reserves the token's credit; a command it
cannot run carries ERR_MALFORMED (R150, R151, R153). Without a tag, while one is held off, and where no head may start, none starts.

Each operation of the porter: MOVE, MOVE_2D with its strides, GATHER, FILL with its 8-byte pattern, SIGNAL without data, a station's
SEND or RECV as a MOVE between local stores. A place that cannot be reached fails the command before any of its bytes moves. A command
presents its reads, and its writes to a local store, first, and moves its bytes once they have been served (R93, R94, R220; log 18);
until then, or behind a command it must not overtake (R224), it waits (R151 to R153, R225).

A command whose transfer is made and whose transactions and requests are over leaves the porter: with TOKEN its value enters the
queue, with EVENT its record is posted, and one that failed posts its error and gives its token's credit back (R153); a station's
transfer reaches its instruction (R125, R130). -/
def Obligations.PorterCommands : Prop :=
  (∀ (s : State) (cl : Fin 48) (q : Fin 4) (p : PorterCmd) (rest : List PorterCmd),
    tagFree s cl = true → heldOff s cl = false → pickQueue s cl = some q → (s.cluster cl).pq[q] = p :: rest →
    ∃ t, exec (.porterCommandStart cl) s = .next t
      ∧ (t.cluster cl).pq[q] = rest ∧ (∀ q' : Fin 4, q' ≠ q → (t.cluster cl).pq[q'] = (s.cluster cl).pq[q'])
      ∧ (t.cluster cl).pNext = q + 1 ∧ (∀ cl' : Fin 48, cl' ≠ cl → t.cluster cl' = s.cluster cl')
      ∧ (∃ r : PorterRun, (t.cluster cl).prun = (s.cluster cl).prun ++ [r] ∧ r.cmd = p ∧ r.q = q ∧ r.txns = 0 ∧ r.asked = 0
          ∧ (p.xfer.isSome = true → r.code = none ∧ r.moved = false)
          ∧ (p.xfer = none → (pOp p.word = 0 ∨ 5 < pOp p.word) → r.code = some 0x30 ∧ r.moved = true)
          ∧ (p.xfer = none → pToken p.word = true → tokenBound s p.word = false → r.code = some 0x30 ∧ r.moved = true)
          ∧ (p.xfer = none → 1 ≤ pOp p.word → pOp p.word ≤ 5 → (pToken p.word = false ∨ tokenBound s p.word = true) →
            r.code = none ∧ r.moved = false))
      ∧ (p.xfer.isSome = true ∨ pToken p.word = false → t.cores = s.cores)
      ∧ (p.xfer = none → pToken p.word = true → tokenBound s p.word = true →
        ((t.core (ix 384 (pTokCore p.word))).queues[pTokQueue p.word]).credits =
          ((s.core (ix 384 (pTokCore p.word))).queues[pTokQueue p.word]).credits - 1)
      ∧ t.gddr = s.gddr ∧ t.host = s.host)
  ∧ (∀ (s : State) (cl : Fin 48), (tagFree s cl = false ∨ heldOff s cl = true ∨ pickQueue s cl = none) →
    exec (.porterCommandStart cl) s = .next s)
  ∧ (∀ (s : State) (cl : Fin 48) (n : Nat) (r : PorterRun),
    let w := r.cmd.word
    let o : TxnOwner := .porter cl r.id
    let fails (f : Byte) : State := modRun cl r.id (fun r => { r with moved := true, code := some (f.setWidth 16) }) s
    let begins (k : Nat) (ask : State → State) (u : State) : State :=
      if r.asked ≤ k then ask (modRun cl r.id (fun r => { r with asked := k + 1 }) u) else u
    (runAt s cl n 1 = some r →
      (r.cmd.xfer = none → exec (.porterMove cl n) s = .next (runTransfers cl r [(placeOf s (pSrc w), placeOf s (pDst w), pDst w, pLen w)] s))
      ∧ ∀ x, r.cmd.xfer = some x →
        exec (.porterMove cl n) s = .next (runTransfers cl r [((xferPlaces x).1, (xferPlaces x).2.1, 0, (xferPlaces x).2.2)] s))
    ∧ (runAt s cl n 2 = some r → exec (.porterMove2d cl n) s = .next (runTransfers cl r ((List.range (pRows w)).map fun i =>
        (placeOf s (pSrc w + BitVec.ofNat 64 (i * pSrcStride w)), placeOf s (pDst w + BitVec.ofNat 64 (i * pDstStride w)),
          pDst w + BitVec.ofNat 64 (i * pDstStride w), pLen w)) s))
    ∧ (∀ moves : List (Place × Place × Dword × Nat),
      let fault := placesFault s (moves.flatMap fun m => [(m.1, m.2.2.2), (m.2.1, m.2.2.2)])
      let s1 := begins 0 (fun t => moves.foldl (fun t m => askMove o 0 m.1 m.2.1 m.2.2.2 t) t) s
      let v := runTransfers.seenState cl r s1
      (∀ f, fault = some f → runTransfers cl r moves s = fails f.1)
      ∧ (fault = none → r.asked = 0 → runBlocked s cl r = true → runTransfers cl r moves s = s)
      ∧ (fault = none → (r.asked ≠ 0 ∨ runBlocked s cl r = false) →
        (asking s1 o = true → runTransfers cl r moves s = s1)
        ∧ (asking s1 o = false → ∀ c a c' a' d k, moves = [(.ls c a, .ls c' a', d, k)] →
          let t := runTransfers cl r moves s
          ((s1.core c').ls.wf = true → ∀ i, i < k → (t.core c').ls.get (a' + i) = (v.core c).ls.get (a + i))
          ∧ (∀ b, b < a' ∨ a' + k ≤ b → (t.core c').ls.get b = (s1.core c').ls.get b) ∧ (∀ x, x ≠ c' → t.core x = s1.core x)
          ∧ (∀ y ∈ (t.cluster cl).prun, y.id = r.id → y.moved = true) ∧ t.gddr = s1.gddr ∧ t.host = s1.host)
        ∧ (asking s1 o = false → runTransfers cl r moves s =
          let x := moves.foldl (fun (a : State × Nat) m =>
            let y := transfer o 0 m.1 m.2.1 m.2.2.1 m.2.2.2 v a.1
            (y.1, a.2 + y.2)) (s1, 0)
          let bad := moves.any fun m => (readPlace v m.1 m.2.2.2).any Prod.snd
          fitTxns s1 (modRun cl r.id (fun r =>
            { r with moved := true, began := true, marked := r.marked || bad, txns := r.txns + x.2 }) x.1))))
    ∧ (runAt s cl n 3 = some r →
      let lp := placeOf s (pSrc w)
      let fault := (placeFault s lp (8 * pLen w)).orElse fun _ => placeFault s (placeOf s (pDst w)) (32 * pLen w)
      let blocked : Bool := r.asked < 2 && runBlocked s cl r
      (∀ f, fault = some f → exec (.porterGather cl n) s = .next (fails f.1))
      ∧ (fault = none → ∀ m low, lp = .remote m low →
        (r.staged = false → pLen w ≠ 0 → exec (.porterGather cl n) s = .next (fetchList cl r s))
        ∧ (r.staged = true ∨ pLen w = 0 → exec (.porterGather cl n) s =
          .next (if blocked then s else gatherRun cl r (r.stage.getBytes 0 (8 * pLen w)) s)))
      ∧ (fault = none → (∀ m low, lp ≠ .remote m low) →
        let s1 := begins 0 (acceptAt o 0 false lp (8 * pLen w)) s
        (blocked = true → exec (.porterGather cl n) s = .next s)
        ∧ (blocked = false → asking s1 o = true → exec (.porterGather cl n) s = .next s1)
        ∧ (blocked = false → asking s1 o = false →
          exec (.porterGather cl n) s = .next (gatherRun cl r (plain (readPlace s1 lp (8 * pLen w))) s1))))
    ∧ (∀ (bs : List Byte) (u : State),
      let rows := gatherList bs
      let u1 := begins 1 (askRows o 0 rows (placeOf u (pDst w))) u
      (∀ f, rows.findSome? (rowFault u) = some f →
        gatherRun cl r bs u = modRun cl r.id (fun r => { r with moved := true, code := some (f.1.setWidth 16) }) u)
      ∧ (rows.findSome? (rowFault u) = none →
        (asking u1 o = true → gatherRun cl r bs u = u1)
        ∧ (asking u1 o = false → gatherRun cl r bs u =
          let x := gatherRows o 0 rows (pDst w) u1
          fitTxns u1 (modRun cl r.id (fun r => { r with moved := true, began := true, txns := r.txns + x.2 }) x.1))))
    ∧ (runAt s cl n 4 = some r →
      let p := placeOf s (pDst w)
      let s1 := begins 0 (askMove o 0 .bad p (pLen w)) s
      (∀ f, placeFault s p (pLen w) = some f → exec (.porterFill cl n) s = .next (fails f.1))
      ∧ (placeFault s p (pLen w) = none → ∀ m low, p = .remote m low →
        let parts := chunks txnBytes (patternBytes (pSrc w) (pLen w))
        exec (.porterFill cl n) s = .next (fitTxns s (modRun cl r.id (fun r =>
            { r with moved := true, began := true, txns := r.txns + parts.length })
          ((List.range parts.length).foldl (fun t i => startWrite o m (low + BitVec.ofNat 44 (txnBytes * i)) (parts.getD i []) t) s))))
      ∧ (placeFault s p (pLen w) = none → (∀ m low, p ≠ .remote m low) →
        (r.asked = 0 → runBlocked s cl r = true → exec (.porterFill cl n) s = .next s)
        ∧ (r.asked ≠ 0 ∨ runBlocked s cl r = false →
          (asking s1 o = true → exec (.porterFill cl n) s = .next s1)
          ∧ (asking s1 o = false →
            exec (.porterFill cl n) s = .next (landAt o 0 p (pLen w)
              (writePlace p (patternBytes (pSrc w) (pLen w)) (modRun cl r.id (fun r => { r with moved := true }) s1)))
            ∧ ∀ c a, p = .ls c a → ∃ t, exec (.porterFill cl n) s = .next t
              ∧ ((s1.core c).ls.wf = true → ∀ i, i < pLen w → (t.core c).ls.get (a + i) = bits (pSrc w) (8 * (i % 8)) 8)
              ∧ (∀ b, b < a ∨ a + pLen w ≤ b → (t.core c).ls.get b = (s1.core c).ls.get b) ∧ ∀ c', c' ≠ c → t.core c' = s1.core c'))))
    ∧ (runAt s cl n 5 = some r → exec (.porterSignal cl n) s = .next (modRun cl r.id (fun r => { r with moved := true }) s)))
  ∧ (∀ (s : State) (cl : Fin 48) (n : Nat) (r : PorterRun), (s.cluster cl).prun[n]? = some r →
    let w := r.cmd.word
    let tc : Fin 384 := ix 384 (pTokCore w)
    (r.moved = false ∨ r.txns ≠ 0 ∨ asking s (.porter cl r.id) = true → exec (.porterCommandComplete cl n) s = .next s)
    ∧ (r.moved = true → r.txns = 0 → asking s (.porter cl r.id) = false →
      ∃ t, exec (.porterCommandComplete cl n) s = .next t
        ∧ (t.cluster cl).prun = (s.cluster cl).prun.filter (fun x => x.id ≠ r.id)
        ∧ (r.cmd.xfer = none → r.code = none →
          (t.sk cl).events = (s.sk cl).events ++ (if pEvent w then [BitVec.ofNat 32 (3 + 65536 * pTag w)] else []))
        ∧ (r.cmd.xfer = none → r.code = none → pToken w = true → ((s.core tc).queues[pTokQueue w]).cons ≠ 0x20 →
            (t.core tc).queues[pTokQueue w] = { (s.core tc).queues[pTokQueue w] with
              tokens := ((s.core tc).queues[pTokQueue w]).tokens ++ [pTokVal w] })
        ∧ (r.cmd.xfer = none → ∀ code, r.code = some code →
          (t.sk cl).events = (s.sk cl).events ++ [BitVec.ofNat 32 (3 + 65536 * code.toNat)]
          ∧ (pToken w = true → tokenBound s w = true → ((t.core tc).queues[pTokQueue w]).credits =
              ((s.core tc).queues[pTokQueue w]).credits + 1))
        ∧ (∀ x, r.cmd.xfer = some x → (t.station x.core x.stn).inflight = (s.station x.core x.stn).inflight.map fun f =>
            if f.uid = x.uid then (if r.code = none then { f with moved := true, marked := f.marked || r.marked }
              else { f with remote := some x.peer }) else f)
        ∧ t.gddr = s.gddr ∧ t.host = s.host))

/-- A crier channel that has reached its threshold fires once every token target has a credit: GEN counts on, COUNT gives up the
threshold's arrivals (R154, which says 0 and lets arrivals go on counting while a firing is held) and stands at 0 where it has fallen
below them, the CRIER event is posted and each target is served: a token valued GEN, or an arrival at another channel. Without a
credit it waits, and a channel that does not fire does nothing. A broadcast that R155 allows copies its bytes to every core in service
that it names and adds its arrival to the completion channel; another is dropped. -/
def Obligations.CrierFiresAndBroadcasts : Prop :=
  (∀ (s : State) (cl : Fin 48) (ch : Fin 64),
    let x := (s.cluster cl).crier[ch]
    let left : Half := BitVec.ofNat 16 (x.count.toNat - x.threshold.toNat)
    (x.firing = false → exec (.crierFire cl ch) s = .next s)
    ∧ (x.firing = true → reserveTargets x.targets.toList s = none → exec (.crierFire cl ch) s = .next s)
    ∧ (x.firing = true → ∀ u, reserveTargets x.targets.toList s = some u →
      let u1 := u.modCluster cl fun cu => { cu with crier := cu.crier.set ch { x with
        count := left, gen := x.gen + 1, firing := decide (x.threshold ≠ 0 ∧ x.threshold.toNat ≤ left.toNat) } }
      let u2 := if x.skEvent then skPost cl 4 0 0 ch.val u1 else u1
      exec (.crierFire cl ch) s = .next (x.targets.toList.foldl (fun t y => serveTarget (x.gen + 1) y t) u2))
    ∧ (x.firing = true → (∀ j : Fin 4, (bits (x.targets[j]) 14 2 : BitVec 2) = 0) →
      ∃ t, exec (.crierFire cl ch) s = .next t
        ∧ (t.cluster cl).crier[ch].gen = x.gen + 1 ∧ (t.cluster cl).crier[ch].count = left
        ∧ (∀ ch' : Fin 64, ch' ≠ ch → (t.cluster cl).crier[ch'] = (s.cluster cl).crier[ch'])
        ∧ (t.sk cl).events = (s.sk cl).events ++ (if x.skEvent then [BitVec.ofNat 32 (4 + 65536 * ch.val)] else [])
        ∧ t.cores = s.cores)
    ∧ ∀ (gen y : Half) (t : State),
      ((bits y 14 2 : BitVec 2) = 1 → serveTarget gen y t = sendToken (targetQueue y).1 (targetQueue y).2 (gen.setWidth 32) t)
      ∧ ((bits y 14 2 : BitVec 2) = 2 → (bits y 6 6 : BitVec 6).toNat < 48 → serveTarget gen y t =
        crierArrive (ix 48 (bits y 6 6 : BitVec 6).toNat) (bits y 0 6 : BitVec 6).toFin 1 t))
  ∧ ∀ (s : State) (cl : Fin 48) (n : Nat) (b : Broadcast), (s.cluster cl).bcasts[n]? = some b →
    (bcastOk b = true → ∃ t, exec (.crierBroadcastComplete cl n) s = .next t
      ∧ (t.cluster cl).bcasts = (s.cluster cl).bcasts.eraseIdx n
      ∧ (t.cluster cl).crier[b.chan].count = (s.cluster cl).crier[b.chan].count + 1
      ∧ (∀ (c : Fin 384) (cl' : Fin 48) (j : Fin 8), c = coreOf cl' j.val → b.clusters.getLsbD cl'.val = true →
          b.coreMask.getLsbD j.val = true → coreServes s c.val = true → ∀ i, i < b.len → (s.core c).ls.wf = true →
          (t.core c).ls.get (b.addr + i) = (s.core (ix 384 b.src)).ls.get (b.addr + i))
      ∧ ∀ (c : Fin 384) a, a < b.addr ∨ b.addr + b.len ≤ a → (t.core c).ls.get a = (s.core c).ls.get a)
    ∧ (bcastOk b = false → exec (.crierBroadcastComplete cl n) s =
      .next (s.modCluster cl fun cu => { cu with bcasts := cu.bcasts.eraseIdx n }))

/-- The scrubber presents the read of its next line to the slice's port in Run and Idle (R198), and nothing in the other modes; what a
read of a line finds is counted, and its uncorrectable sectors get their poison bits (R196, R197). A failing row moves to a spare row,
a mat without spare rows to the spare mat, and a slice with neither marks its core for retirement, which leaves service once its
cluster runs no launch (R199 to R203). -/
def Obligations.LocalStoreRepairs : Prop :=
  (∀ (s : State) (c : Fin 384) (t : Fin 4),
    (s.pwr.mstate ≠ 2 → (s.cpwr (clusterOf c)).mode = .run ∨ (s.cpwr (clusterOf c)).mode = .idle →
      ∃ u, exec (.lsScrubRead c t) s = .next u
        ∧ (u.core c).slices[t] = { (s.core c).slices[t] with scrubLine := ((s.core c).slices[t].scrubLine + 1) % 73728 }
        ∧ (u.core c).lports[t].reqs = (s.core c).lports[t].reqs ++
            [⟨.ext .none, 4, 4 * (s.core c).slices[t].scrubLine + t.val, false, 0, false, false⟩]
        ∧ (∀ t' : Fin 4, t' ≠ t → (u.core c).lports[t'] = (s.core c).lports[t']) ∧ (u.core c).ls = (s.core c).ls
        ∧ ∀ c', c' ≠ c → u.core c' = s.core c')
    ∧ (s.pwr.mstate = 2 ∨ ((s.cpwr (clusterOf c)).mode ≠ .run ∧ (s.cpwr (clusterOf c)).mode ≠ .idle) →
      exec (.lsScrubRead c t) s = .next s))
  ∧ (∀ (co : Core) (t : Fin 4) (line : Nat) (e : Ecc), (lsFind t line e co).lsCe = satAdd co.lsCe e.corrected
    ∧ (lsFind t line e co).ls = co.ls ∧ (∀ x ∈ e.bad, line * 8 + x.val % 8 ∈ (lsFind t line e co).lsPoison)
    ∧ (e.bad = [] → (lsFind t line e co).lsPoison = co.lsPoison ∧ (lsFind t line e co).lsUe = co.lsUe))
  ∧ (∀ (s : State) (c : Fin 384) (t : Fin 4), (s.core c).slices[t].repairs = [] →
    exec (.rowRepair c t) s = .next s ∧ exec (.matReplacement c t) s = .next s)
  ∧ (∀ (s : State) (c : Fin 384) (t : Fin 4) x rest, (s.core c).slices[t].repairs = x :: rest → 0 < spareRows c t (s.core c) x.1 →
    (∃ u, exec (.rowRepair c t) s = .next u ∧ (u.core c).slices[t].repairs = rest
      ∧ (u.core c).slices[t].rowsUsed = (s.core c).slices[t].rowsUsed ++ [x] ∧ (u.core c).lsRepair = satAdd (s.core c).lsRepair 1
      ∧ (u.core c).retire = (s.core c).retire ∧ (u.core c).ls = (s.core c).ls)
    ∧ exec (.matReplacement c t) s = .next s)
  ∧ (∀ (s : State) (c : Fin 384) (t : Fin 4) x rest, (s.core c).slices[t].repairs = x :: rest → spareRows c t (s.core c) x.1 = 0 →
    ((s.core c).slices[t].matSpent = true →
      (∃ u, exec (.rowRepair c t) s = .next u ∧ (u.core c).retire = true ∧ (u.core c).slices[t].repairs = rest
        ∧ (u.core c).slices[t].unrepaired = (s.core c).slices[t].unrepaired ++ [x] ∧ (u.core c).ls = (s.core c).ls)
      ∧ exec (.matReplacement c t) s = .next s)
    ∧ ((s.core c).slices[t].matSpent = false →
      (∃ u, exec (.matReplacement c t) s = .next u ∧ (u.core c).slices[t].repairs = rest ∧ (u.core c).slices[t].matSpent = true
        ∧ (u.core c).slices[t].replacedMat = some x.1 ∧ (u.core c).lsRepair = satAdd (s.core c).lsRepair 1 ∧ (u.core c).ls = (s.core c).ls)
      ∧ exec (.rowRepair c t) s = .next s))
  ∧ ∀ (s : State) (c : Fin 384),
    ((s.core c).retire = true → (s.core c).retired = false → (s.cluster (clusterOf c)).launch = none →
      ∃ u, exec (.coreRetirement c) s = .next u ∧ (u.core c).retired = true ∧ u.boot.degraded = true
        ∧ ((u.cluster (clusterOf c)).inService = ((s.cluster (clusterOf c)).inService
            && !(List.range 8).all fun j => (u.core (coreOf (clusterOf c) j)).retired))
        ∧ ∀ c', c' ≠ c → u.core c' = s.core c')
    ∧ ((s.core c).retire = false ∨ (s.core c).retired = true ∨ (s.cluster (clusterOf c)).launch.isSome = true →
      exec (.coreRetirement c) s = .next s)

/-- A channel issues the request that R222 and R224 put first, and those that wait before it move up (R220); what a read finds is
counted (R208, R235); one of class 1 to 3 that has waited 4,096 ns becomes urgent.

Retries of the request a channel serves are counted, and a channel in service whose last retry fails leaves it with cause 7; the
scrubber presents the read of the next group at class 3 (R221); a rate change takes the rate asked for; MEM_CTRL bit 3 clears every
channel's counts (R216, R218, R219, R231, R233).

Traffic generators, while debug is enabled (R215, R226, R238, R241): START of an allowed run makes the generator run, wakes
a spare channel and presents its first group, a refused START leaves it in error, STOP ends the run at its next end, CLEAR clears its
results, and a pass that ends counts what came wrong by lane. With debug off the writes are ignored. -/
def Obligations.Gddr7Channels : Prop :=
  ((∀ (s : State) (ch : Fin 50) (e : Ecc),
    (chanServes s ch = false ∨ pickGd (s.chan ch) = none → exec (.gddr7CommandIssue ch e) s = .next s)
    ∧ (∀ x, chanServes s ch = true → pickGd (s.chan ch) = some x →
      let c1 := takeReq s.ns x (s.chan ch)
      ((s.chan ch).waiting = [] → c1.burst = (s.chan ch).burst.filter (fun r => r.seq ≠ x.2.seq)
        ∧ c1.narrow = (s.chan ch).narrow.filter (fun r => r.seq ≠ x.2.seq))
      ∧ (x.2.owner = .gen → exec (.gddr7CommandIssue ch e) s = .next (tgServe ch x.2 e (s.setChan ch c1)))
      ∧ (x.2.owner ≠ .gen → ∃ t, exec (.gddr7CommandIssue ch e) s = .next t
        ∧ (t.chan ch).burst = c1.burst ∧ (t.chan ch).narrow = c1.narrow ∧ (t.chan ch).waiting = c1.waiting
        ∧ (t.chan ch).lastNarrow = x.1 ∧ (t.chan ch).openRow = some x.2.group ∧ t.gddr.mem = s.gddr.mem
        ∧ ((s.chan ch).state ≠ 4 → (t.chan ch).corrected = satAdd (s.chan ch).corrected (min e.corrected x.2.reads.length))
        ∧ ((s.chan ch).state = 4 →
          (t.chan ch).uncorrected = satAdd (s.chan ch).uncorrected (if x.2.write then 0 else x.2.cnt))
        ∧ ∀ ch' : Fin 50, ch' ≠ ch → t.chan ch' = s.chan ch')))
  ∧ (∀ (c : Channel) a, pickGd c = some a → (a.1 = false ∧ a.2 ∈ c.burst) ∨ (a.1 = true ∧ a.2 ∈ c.narrow))
  ∧ (∀ (s : State) (ch : Fin 50) n x, (s.chan ch).burst[n]? = some x →
    (1 ≤ x.cls → x.at_ + 4096 ≤ s.ns → exec (.gddr7RequestUrgent ch n) s =
      .next (s.setChan ch { s.chan ch with burst := (s.chan ch).burst.set n { x with urgent := true } }))
    ∧ (x.cls = 0 ∨ s.ns < x.at_ + 4096 → exec (.gddr7RequestUrgent ch n) s = .next s))
  ∧ ∀ (s : State) (ch : Fin 50) n x, (s.chan ch).narrow[n]? = some x →
    (1 ≤ x.cls → x.at_ + 4096 ≤ s.ns → exec (.gddr7RequestUrgent ch ((s.chan ch).burst.length + n)) s =
      .next (s.setChan ch { s.chan ch with narrow := (s.chan ch).narrow.set n { x with urgent := true } }))
    ∧ (x.cls = 0 ∨ s.ns < x.at_ + 4096 → exec (.gddr7RequestUrgent ch ((s.chan ch).burst.length + n)) s = .next s))
  ∧ ((∀ (s : State) (ch : Fin 50) (ok : Bool),
    let c := s.chan ch
    (c.state = 0 ∨ chanServes s ch = false ∨ pickGd c = none → exec (.gddr7EdcRetry ch ok) s = .next s)
    ∧ ∀ x, c.state ≠ 0 → chanServes s ch = true → pickGd c = some x →
      let c1 : Channel := { c with
        retries := satAdd c.retries 1, burst := c.burst.map (addTry x.2.seq), narrow := c.narrow.map (addTry x.2.seq),
        tg := { c.tg with edcSeen := c.tg.edcSeen || c.tg.state = 1 } }
      (edcLimit c ≤ x.2.tries → exec (.gddr7EdcRetry ch ok) s = .next s)
      ∧ (x.2.tries < edcLimit c → (ok = true ∨ c.state ≠ 1 ∨ x.2.tries + 1 < edcLimit c) →
        exec (.gddr7EdcRetry ch ok) s = .next (s.setChan ch c1))
      ∧ (c.state = 1 → x.2.tries + 1 = edcLimit c →
        ∃ t, exec (.gddr7EdcRetry ch false) s = .next t ∧ t.chan ch = { c1 with state := 4, cause := 7 }
          ∧ t.gddr.failedCh = s.gddr.failedCh + 1 ∧ t.boot.degraded = true ∧ t.gddr.mem = s.gddr.mem))
  ∧ (∀ (s : State) (ch : Fin 50),
    let c := s.chan ch
    (s.gddr.scrubEn = true → c.state = 1 → c.mapped = true → s.gddr.selfRefresh = false → s.pwr.mstate ≠ 2 →
      ∃ t, exec (.gddr7ScrubRead ch) s = .next t ∧ t = s.setChan ch (t.chan ch) ∧ (t.chan ch).scrubGroup = (c.scrubGroup + 1) % 2 ^ 22
        ∧ (c.waiting = [] → c.burst.length < 512 → (t.chan ch).burst = c.burst ++
            [{ groupReq .none 3 false c.scrubGroup 0 960 with at_ := s.ns, seq := c.accepted }])
        ∧ (512 ≤ c.burst.length → (t.chan ch).burst = c.burst))
    ∧ (s.gddr.scrubEn = false ∨ c.state ≠ 1 ∨ c.mapped = false ∨ s.gddr.selfRefresh = true ∨ s.pwr.mstate = 2 →
      exec (.gddr7ScrubRead ch) s = .next s))
  ∧ (∀ (s : State) x, s.gddr.rateTarget = some x → s.gddr.selfRefresh = false →
    exec .gddr7RateChange s = .next { s with
      gddr := { s.gddr with rate := x, rateTarget := none }, time := { s.time with fifoPhy := Vector.replicate 50 4 } })
  ∧ (∀ s : State, s.gddr.rateTarget = none ∨ s.gddr.selfRefresh = true → exec .gddr7RateChange s = .next s)
  ∧ ∀ (s : State) (w : Word),
    (w.getLsbD 3 = true → s.boot.recovery = false →
      ∃ t, exec (.memCntClear w) s = .next t ∧ t = s.setGddr t.gddr ∧ t.gddr.rateMax = bits w 0 2 ∧ t.gddr.scrubEn = w.getLsbD 2
        ∧ t.gddr.ceEvtLog2 = bits w 8 5 ∧ t.gddr.mem = s.gddr.mem
        ∧ ∀ ch : Fin 50, t.chan ch = { s.chan ch with corrected := 0, uncorrected := 0, retries := 0 })
    ∧ (w.getLsbD 3 = false ∨ s.boot.recovery = true → exec (.memCntClear w) s = .next s))
  ∧ (∀ (s : State) (ch : Fin 50) (w : Word),
    let c := s.chan ch
    let t : TrafficGen := { c.tg with mode := bits w 0 3, raw := w.getLsbD 3, walk := bits w 4 2, loop := w.getLsbD 6, laneSel := bits w 10 6 }
    (exec (.tgStart ch w) s = .next (if w.getLsbD 7 then tgCtrlWrite ch w s else s)
      ∧ exec (.tgStop ch w) s = .next (if w.getLsbD 8 then tgCtrlWrite ch w s else s)
      ∧ exec (.tgClear ch w) s = .next (if w.getLsbD 9 then tgCtrlWrite ch w s else s))
    ∧ (s.sec.dbgActive = false → exec (.tgStart ch w) s = .next s ∧ exec (.tgStop ch w) s = .next s ∧ exec (.tgClear ch w) s = .next s)
    ∧ (s.sec.dbgActive = true → s.boot.recovery = false →
      (w.getLsbD 7 = true → w.getLsbD 8 = false → w.getLsbD 9 = false → c.tg.state ≠ 1 →
        (tgRefused s { c with tg := t } = false → exec (.tgStart ch w) s = .next (tgNext ch (s.setChan ch { c with
            state := if c.state = 2 then 5 else c.state, sr := c.sr && c.state ≠ 2,
            tg := { t with state := 1, passes := 0, edcSeen := false, stopAsked := false, visited := [] } })))
        ∧ (tgRefused s { c with tg := t } = true →
          exec (.tgStart ch w) s = .next (s.setChan ch { c with tg := { t with state := 3 } })))
      ∧ (w.getLsbD 8 = true → w.getLsbD 9 = false → c.tg.state = 1 →
        exec (.tgStop ch w) s = .next (s.setChan ch { c with tg := { c.tg with stopAsked := true } }))
      ∧ (w.getLsbD 9 = true → w.getLsbD 7 = false → c.tg.state ≠ 1 →
        exec (.tgClear ch w) s = .next (s.setChan ch { c with tg := { t with
          state := 0, mismatch := false, edcSeen := false, passes := 0, counts := List.replicate 34 0 } }))
      ∧ (w.getLsbD 9 = true → w.getLsbD 8 = false → c.tg.state = 1 →
        exec (.tgClear ch w) s = .next (s.setChan ch { c with tg := { c.tg with
          mismatch := false, edcSeen := false, passes := 0, counts := List.replicate 34 0 } })))
    ∧ (∀ lanes,
      let busy := (c.burst ++ c.waiting.map Prod.snd).any fun r => r.owner = .gen
      let whole : Bool := tgCountOf c.tg ≤ c.tg.visited.length || !(tgWrites c.tg || tgReads c.tg)
      (c.tg.state ≠ 1 ∨ busy = true ∨ s.gddr.rateTarget.isSome = true ∨ (whole = false ∧ c.tg.stopAsked = false) →
        exec (.tgRunDone ch lanes) s = .next s)
      ∧ (c.tg.state = 1 → busy = false → s.gddr.rateTarget = none → whole = true ∨ c.tg.stopAsked = true →
        let t1 : TrafficGen := { tgCount c.tg lanes 0 with
          passes := if whole then satAdd c.tg.passes 1 else c.tg.passes, stopAsked := false, visited := [] }
        (c.tg.loop = true → c.tg.stopAsked = false →
          exec (.tgRunDone ch lanes) s = .next (tgNext ch (s.setChan ch { c with tg := { t1 with state := 1 } })))
        ∧ (c.tg.loop = false ∨ c.tg.stopAsked = true → exec (.tgRunDone ch lanes) s = .next (s.setChan ch { c with
            tg := { t1 with state := 2 }, state := if c.state = 5 then 2 else c.state, sr := c.sr || c.state = 5 })))
      ∧ (∀ i, i < 32 → (tgCount c.tg lanes 0).counts.getD i 0 =
        min (c.tg.counts.getD i 0 + if c.tg.mode = 2 ∨ c.tg.mode = 3 then lanes.getD i 0 else 0) (2 ^ 32 - 1))
      ∧ ((tgCount c.tg lanes 0).mismatch = true ↔
        c.tg.mismatch = true ∨ ((c.tg.mode = 2 ∨ c.tg.mode = 3) ∧ ∃ x ∈ lanes, x ≠ 0))))

/-- RING_CFG: ENABLE starts a disabled ring of an allowed size at 0, or sets CFG_ERR; ENABLE 0 leaves a live ring until it is idle,
when its binding ends; RESET drops what was fetched, ends the binding and waits for started descriptors (R250, R267, R271).

FLR, hot reset and loss of the link each reset the host interface: the event ring is off, every live ring resets, and every
vector is masked; local store, GDDR7 and sessions' keys are left (R245).

Interrupts: one held for moderation is sent when MOD has passed; unmasking a vector sends its one held message; the event ring
is enabled at an allowed size with its counts at 0; a full event ring is read again after 20 µs (R264, R275, R278, R490). -/
def Obligations.RingsAndHostInterface : Prop :=
  (∀ (s : State) (r : Fin 256) (w : Word),
    let g := s.ring r
    (exec (.ringEnable r w) s = .next (if w.getLsbD 0 then ringCfgWrite r w s else s)
      ∧ exec (.ringDisable r w) s = .next (if w.getLsbD 0 then s else ringCfgWrite r w s)
      ∧ exec (.ringReset r w) s = .next (if w.getLsbD 1 then ringCfgWrite r w s else s))
    ∧ (w.getLsbD 0 = true → w.getLsbD 1 = false → g.state ≠ .disabled →
      exec (.ringEnable r w) s = .next (s.setRing r { g with prio := bits w 7 2, enable := true }))
    ∧ (w.getLsbD 0 = true → w.getLsbD 1 = false → g.state = .disabled → s.boot.recovery = true → r ≠ 0 →
      exec (.ringEnable r w) s = .next (s.setRing r { g with log2 := bits w 2 5, prio := bits w 7 2 }))
    ∧ (w.getLsbD 0 = true → w.getLsbD 1 = false → g.state = .disabled → (s.boot.recovery = false ∨ r = 0) →
      ∃ t, exec (.ringEnable r w) s = .next t ∧ (∀ r', r' ≠ r → t.ring r' = s.ring r')
        ∧ (4 ≤ (bits w 2 5 : BitVec 5).toNat → (bits w 2 5 : BitVec 5).toNat ≤ 16 →
          (t.ring r).state = .unbound ∧ (t.ring r).enable = true ∧ (t.ring r).log2 = bits w 2 5 ∧ (t.ring r).prio = bits w 7 2
          ∧ (t.ring r).head = 0 ∧ (t.ring r).tail = 0 ∧ (t.ring r).fetchIdx = 0 ∧ (t.ring r).fetched = [] ∧ (t.ring r).started = []
          ∧ (t.ring r).epochTaken = false)
        ∧ ((bits w 2 5 : BitVec 5).toNat < 4 ∨ 16 < (bits w 2 5 : BitVec 5).toNat →
          (t.ring r).cfgErr = true ∧ (t.ring r).state = .disabled))
    ∧ (w.getLsbD 0 = false → w.getLsbD 1 = false →
      (g.state ≠ .disabled → exec (.ringDisable r w) s = .next (s.setRing r { g with prio := bits w 7 2, enable := false }))
      ∧ (g.state = .disabled → exec (.ringDisable r w) s =
        .next (s.setRing r { g with log2 := bits w 2 5, prio := bits w 7 2, enable := false })))
    ∧ (g.live = true → g.enable = false → g.fetched = [] → g.started = [] → g.tail = BitVec.ofNat 32 g.fetchIdx →
      ∃ t, exec (.ringIdleDisable r) s = .next t ∧ (t.ring r).state = .disabled ∧ (t.ring r).tag = none
        ∧ ∀ r', r' ≠ r → t.ring r' = s.ring r')
    ∧ (g.live = false ∨ g.enable = true ∨ g.fetched ≠ [] ∨ g.started ≠ [] ∨ g.tail ≠ BitVec.ofNat 32 g.fetchIdx →
      exec (.ringIdleDisable r) s = .next s)
    ∧ (w.getLsbD 1 = true → g.live = true →
      ∃ t, exec (.ringReset r w) s = .next t ∧ (t.ring r).state = .resetting ∧ (t.ring r).fetched = [] ∧ (t.ring r).tag = none
        ∧ (t.ring r).started = g.started.filter (fun c => c.run) ∧ (t.ring r).dropped = g.fetched.length + (g.started.filter fun c => !c.ran).length
        ∧ (t.ring r).enable = w.getLsbD 0 ∧ t.gddr = s.gddr ∧ t.cores = s.cores)
    ∧ (g.state ≠ .resetting ∨ g.started ≠ [] → exec (.ringResetComplete r) s = .next s)
    ∧ (g.state = .resetting → g.started = [] →
      (g.reEnable = false → exec (.ringResetComplete r) s = .next (s.setRing r { g with state := .disabled, enable := false }))
      ∧ (g.reEnable = true → ∃ t, exec (.ringResetComplete r) s = .next t ∧ (t.ring r).state = .unbound ∧ (t.ring r).head = 0
          ∧ (t.ring r).tail = 0 ∧ ∀ r', r' ≠ r → t.ring r' = s.ring r')))
  ∧ (∀ (s : State) (c : Instr), c = .pcieFlr ∨ c = .hotReset ∨ c = .pcieLinkLoss →
    ∃ t, exec c s = .next t ∧ t.evt.enable = false ∧ (∀ r, (s.ring r).live = true → (t.ring r).state = .resetting ∧ (t.ring r).fetched = []
        ∧ (t.ring r).tag = none)
      ∧ (∀ r, (s.ring r).live = false → (t.ring r).state = (s.ring r).state) ∧ (∀ v : Fin 512, t.pcie.entries[v].mask = true)
      ∧ t.cores = s.cores ∧ t.gddr = s.gddr ∧ t.sec.slots = s.sec.slots ∧ t.boot = s.boot)
  ∧ (∀ s : State,
    (∀ r, (s.ring r).irqHeld = true → (s.ring r).lastIrq.getD 0 + 1000 * (s.ring r).mod_.toNat ≤ s.ns →
      ∃ t, exec (.msixModerationExpiry r) s = .next t ∧ (t.ring r).irqHeld = false ∧ (t.ring r).lastIrq = some s.ns
        ∧ (∀ v : Fin 512, v.val = (s.ring r).vector.toNat → s.pcie.entries[v].mask = false → s.pcie.funcMask = false →
          t.out.msix = s.out.msix ++ [(BitVec.ofNat 64 (4 * s.pcie.entries[v].addr.toNat), s.pcie.entries[v].data)])
        ∧ (∀ v : Fin 512, v.val = (s.ring r).vector.toNat → s.pcie.entries[v].mask = true → t.pcie.entries[v].pend = true
          ∧ t.out = s.out))
    ∧ (∀ v : Fin 512, s.pcie.entries[v].pend = true → s.pcie.funcMask = false →
      ∃ t, exec (.msixUnmask v) s = .next t ∧ t.pcie.entries[v].mask = false ∧ t.pcie.entries[v].pend = false
        ∧ t.out.msix = s.out.msix ++ [(BitVec.ofNat 64 (4 * s.pcie.entries[v].addr.toNat), s.pcie.entries[v].data)])
    ∧ (∀ r, (s.ring r).irqHeld = false ∨ s.ns < (s.ring r).lastIrq.getD 0 + 1000 * (s.ring r).mod_.toNat →
      exec (.msixModerationExpiry r) s = .next s)
    ∧ (∀ v : Fin 512, s.pcie.entries[v].pend = true → s.pcie.funcMask = true →
      ∃ t, exec (.msixUnmask v) s = .next t ∧ t.pcie.entries[v].mask = false ∧ t.pcie.entries[v].pend = true ∧ t.out = s.out)
    ∧ (∀ v : Fin 512, s.pcie.entries[v].pend = false →
      ∃ t, exec (.msixUnmask v) s = .next t ∧ t.pcie.entries[v].mask = false ∧ t.pcie.entries[v].pend = false ∧ t.out = s.out)
    ∧ (∀ w : Word, s.evt.enable = false → w.getLsbD 0 = true →
      (6 ≤ (bits w 1 5 : BitVec 5).toNat → (bits w 1 5 : BitVec 5).toNat ≤ 16 → exec (.eventRingEnable w) s = .next (s.setEvt
        { s.evt with enable := true, log2 := bits w 1 5, w := 0, c := 0, lost := 0, spell := 0, full := false }))
      ∧ ((bits w 1 5 : BitVec 5).toNat < 6 ∨ 16 < (bits w 1 5 : BitVec 5).toNat →
        exec (.eventRingEnable w) s = .next (s.setEvt { s.evt with log2 := bits w 1 5 })))
    ∧ (∀ w : Word, s.evt.enable = true ∨ w.getLsbD 0 = false → exec (.eventRingEnable w) s = .next s)
    ∧ (∀ x : Word, s.evt.enable = false ∨ s.evt.full = false ∨ s.ns < s.evt.lastRead + 20000 → exec (.evtFullPoll x) s = .next s)
    ∧ (∀ x : Word, s.evt.enable = true → s.evt.full = true → s.evt.lastRead + 20000 ≤ s.ns →
      let c := s.evt.c + (x - BitVec.ofNat 32 s.evt.c).toNat
      let data := leBytes (min s.evt.spell (2 ^ 32 - 1)) 4
      s.evt.w - c < 2 ^ s.evt.log2.toNat → exec (.evtFullPoll x) s = .next (evtCheckFull (evtWrite 0x0201 1 0 data (ledgerAdd 0x0201 1 0 data
        ((s.setHost (s.host.putLE (s.evt.dbAddr.toNat * 8) 4 x.toNat)).setEvt
          { s.evt with c := c, full := false, spell := 0, lastRead := s.ns })))))
    ∧ (∀ x : Word, s.evt.enable = true → s.evt.full = true → s.evt.lastRead + 20000 ≤ s.ns →
      let c := s.evt.c + (x - BitVec.ofNat 32 s.evt.c).toNat
      (2 ^ s.evt.log2.toNat ≤ s.evt.w - c → ∃ t, exec (.evtFullPoll x) s = .next t
        ∧ t.evt = { s.evt with lastRead := s.ns } ∧ t.ledger = s.ledger)
      ∧ (s.evt.w - c + 1 < 2 ^ s.evt.log2.toNat → ∃ t, exec (.evtFullPoll x) s = .next t
        ∧ t.evt = { s.evt with c := c, full := false, spell := 0, lastRead := s.ns, w := s.evt.w + 1 })))

/-- Doorbells: the watch reads the line when its interval has passed, a mirror write reads it at once and is held against the value that
its own read returns, the first read of a ring takes the epoch, a later one with another epoch resets the ring, a tail within the
ring's size is taken, and one beyond it is refused (R254 to R257).

Descriptors are fetched in order, at most 16 at a time, never past the tail or the ring's end, and start in ring order by the
engine's choice; one whose header or operands fail a check ends without a start, and on a halted ring one without CONTINUE_ON_ERROR ends
HALTED_BY_PRIOR; a started one takes its time, its tensor descriptors and a STATE_REQ's record at its start; 50 µs able without
starting makes a ring urgent (R179, R258, R262, R265, R268 to R270). -/
def Obligations.DoorbellsAndDescriptorStarts : Prop :=
  (∀ (s : State) (r : Fin 256),
    let g := s.ring r
    let iv := (lineRings s r).foldl (fun a x => min a (s.ring x).interval) g.interval
    (g.live = true → s.pwr.mstate = 0 → (g.outstanding = 0 ∨ (iv = 200 ∧ g.outstanding < 8)) → g.lastRead + iv ≤ s.ns →
      ∃ t, exec (.doorbellWatchTimer r) s = .next t ∧ (t.ring r).outstanding = g.outstanding + 1 ∧ (t.ring r).lastRead = s.ns
        ∧ (t.ring r).tail = g.tail ∧ t.host = s.host)
    ∧ (g.live = false ∨ s.pwr.mstate ≠ 0 ∨ (g.outstanding ≠ 0 ∧ (iv ≠ 200 ∨ 8 ≤ g.outstanding)) ∨ s.ns < g.lastRead + iv →
      exec (.doorbellWatchTimer r) s = .next s)
    ∧ (∀ w, g.live = true → ∃ t, exec (.mirrorTailWrite r 0 4 w) s = .next t ∧ (t.ring r).mirrors = g.mirrors ++ [(w, g.outstanding)]
        ∧ (t.ring r).interval = 200 ∧ (t.ring r).outstanding = g.outstanding + 1 ∧ (t.ring r).tail = g.tail)
    ∧ (∀ off size w, off ≠ 0 ∨ size ≠ 4 ∨ g.live = false → exec (.mirrorTailWrite r off size w) s = .next s)
    ∧ (∀ w : Dword, g.live = false ∨ g.outstanding = 0 → exec (.doorbellReadReturn r w) s = .next s)
    ∧ (∀ w : Dword, g.live = true → g.outstanding ≠ 0 →
      let tail : Word := bits w 0 32
      let epoch : Half := bits w 32 16
      let g1 : Ring := { g with
        outstanding := g.outstanding - 1, mirrors := (g.mirrors.filter fun x => x.2 ≠ 0).map fun x => (x.1, x.2 - 1),
        mirrorMismatch := g.mirrorMismatch || g.mirrors.any fun x => x.2 = 0 && x.1 ≠ tail }
      (g.epochTaken = false → exec (.doorbellReadReturn r w) s =
        .next (takeTail r tail (s.setRing r { g1 with epochTaken := true, epoch := epoch })))
      ∧ (g.epochTaken = true → epoch ≠ g.epoch → ∃ t, exec (.doorbellReadReturn r w) s = .next t ∧ (t.ring r).state = .resetting
        ∧ (t.ring r).resetCause = 1 ∧ (t.ring r).reEnable = true ∧ (t.ring r).tag = none ∧ (t.ring r).fetched = [])
      ∧ (g.epochTaken = true → epoch = g.epoch → exec (.doorbellReadReturn r w) s = .next (takeTail r tail (s.setRing r g1)))
      ∧ ∀ t : State,
        (((tail - (t.ring r).head).toNat ≤ (t.ring r).size → ((takeTail r tail t).ring r).tail = tail
          ∧ ((takeTail r tail t).ring r).dbInvalid = (t.ring r).dbInvalid)
        ∧ ((t.ring r).size < (tail - (t.ring r).head).toNat → ((takeTail r tail t).ring r).tail = (t.ring r).tail
          ∧ ((takeTail r tail t).ring r).dbInvalid = true)
        ∧ ∀ r', r' ≠ r → (takeTail r tail t).ring r' = t.ring r')))
  ∧ (∀ (s : State) (r : Fin 256),
    let g := s.ring r
    (∀ slots : List DescWord,
      let n := min (min 16 slots.length) (min (g.tail - BitVec.ofNat 32 g.fetchIdx).toNat (g.size - g.fetchIdx % g.size))
      (g.live = true → n ≠ 0 →
        ∃ t, exec (.descriptorFetchReturn r slots) s = .next t ∧ (t.ring r).fetched = g.fetched ++ slots.take n
          ∧ (t.ring r).fetchIdx = g.fetchIdx + n ∧ (t.ring r).tail = g.tail ∧ ∀ r', r' ≠ r → t.ring r' = s.ring r')
      ∧ (g.live = false ∨ n = 0 → exec (.descriptorFetchReturn r slots) s = .next s))
    ∧ (∀ w rest, g.fetched = w :: rest → engineOpen s = true → g.live = true → (s.boot.recovery = false ∨ r = 0) →
      (g.state ≠ .halted ∨ dCont w = true) → pickRing s = some r → contextsUsed s < 1024 →
      (startFault s r w = none →
        ∃ t c, exec (.descriptorStart r) s = .next t ∧ (t.ring r).fetched = rest ∧ (t.ring r).startIdx = g.startIdx + 1
          ∧ (t.ring r).started.length = g.started.length + 1 ∧ (t.ring r).started.getLast? = some c
          ∧ (∀ (n : Nat) (d : DescCtx), g.started[n]? = some d → d.idx ≠ g.startIdx → (t.ring r).started[n]? = some d)
          ∧ c.word = w ∧ c.idx = g.startIdx ∧ c.time = s.time.mt ∧ c.since = s.ns ∧ c.run = true ∧ c.done = false ∧ c.issued = false
          ∧ c.asked = 0 ∧ c.tds = (namedTensors s w).map (fun a => (a, tdOf s a))
          ∧ (dOp w = 0x51 → c.snap = stateRecord s (bits (dW2 w) 0 8 : Byte).toNat (dW3 w).toNat)
          ∧ (dOp w = 0x08 → c.snap = if lockedOut s then [1] else [])
          ∧ t.cores = s.cores ∧ t.gddr = s.gddr ∧ t.host = s.host)
      ∧ (∀ f, startFault s r w = some f →
        ∃ t c, exec (.descriptorStart r) s = .next t ∧ (t.ring r).fetched = rest ∧ (t.ring r).startIdx = g.startIdx + 1
          ∧ (t.ring r).started = g.started ++ [c] ∧ c.word = w ∧ c.idx = g.startIdx
          ∧ c.run = false ∧ c.ran = false ∧ c.done = true ∧ c.status = f.1 ∧ c.detail = f.2
          ∧ t.cores = s.cores ∧ t.gddr = s.gddr ∧ t.host = s.host))
    ∧ (∀ w rest, g.fetched = w :: rest → engineOpen s = true → (s.boot.recovery = false ∨ r = 0) → g.state = .halted → dCont w = false →
      (clearing g = true → exec (.descriptorStart r) s = .next s)
      ∧ (clearing g = false →
        ∃ t c, exec (.descriptorStart r) s = .next t ∧ (t.ring r).fetched = rest ∧ (t.ring r).started = g.started ++ [c]
          ∧ c.run = false ∧ c.done = true ∧ c.status = 0xFF ∧ c.detail = g.haltSeq))
    ∧ (g.fetched = [] ∨ engineOpen s = false ∨ g.live = false ∨ (s.boot.recovery = true ∧ r ≠ 0) → exec (.descriptorStart r) s = .next s)
    ∧ (∀ w rest, g.fetched = w :: rest → (g.state ≠ .halted ∨ dCont w = true) → pickRing s ≠ some r ∨ 1024 ≤ contextsUsed s →
      exec (.descriptorStart r) s = .next s)
    ∧ (g.ableSince = none → exec (.ringUrgent r) s = .next s)
    ∧ (∀ t, g.ableSince = some t →
      let since := s.rings.toList.foldl (fun a x => max a x.freedAt) t
      (since + 50000 ≤ s.ns → contextsUsed s < 1024 → exec (.ringUrgent r) s = .next (s.setRing r { g with urgent := true }))
      ∧ (s.ns < since + 50000 ∨ 1024 ≤ contextsUsed s → exec (.ringUrgent r) s = .next s)))

/-- A descriptor that ends keeps its status, DETAIL and RESULT for its record; on a resetting ring it leaves without one; no other
descriptor of the ring, no other ring and no memory changes (R263, R268, R271).

The record of a ring's oldest descriptor goes to its slot of the completion ring and HEAD moves on; a failure halts a bound
ring, names its SEQ and raises an event (R263, R264, R268, R270); where its reads had sectors
corrected a good one ends OK_CORRECTED with their count (R265). Every byte of host memory outside the record and the records of
the event ring is unchanged. -/
def Obligations.DescriptorsEndWithRecords : Prop :=
  (∀ (s : State) (r : Fin 256) (i : Nat) (x : Byte) (d : Half) (v : Dword),
    ((s.ring r).state ≠ .resetting →
      ((finishDesc r i x d v s).ring r).started = (s.ring r).started.map fun c =>
        if c.idx = i then { c with run := false, done := true, effects := true, status := x, detail := d, result := v } else c)
    ∧ ((s.ring r).state = .resetting →
      ((finishDesc r i x d v s).ring r).started = (s.ring r).started.filter fun c => c.idx ≠ i)
    ∧ (∀ r', r' ≠ r → (finishDesc r i x d v s).ring r' = s.ring r')
    ∧ finishDesc r i x d v s = { s with rings := (finishDesc r i x d v s).rings })
  ∧ (∀ (s : State) (r : Fin 256) (c : DescCtx) (rest : List DescCtx),
    let g := s.ring r
    let c1 := corrected c
    let halt : Bool := g.state = .bound && !(c1.status = 0x00 || c1.status = 0x01)
    let at_ := g.cplBase.toNat * 4096 + 16 * (c.idx % g.size)
    (g.started = c :: rest → c.done = true → g.live = true →
      ∃ t, exec (.completionRecordWrite r) s = .next t ∧ (t.ring r).head = g.head + 1
        ∧ (t.ring r).started = rest.map (fun x =>
            if halt && x.ran then { x with early := true }
            else if halt && !dCont x.word then { x with status := 0xFF, detail := dSeq c.word } else x)
        ∧ (t.ring r).state = (if halt then .halted else g.state) ∧ (halt = true → (t.ring r).haltSeq = dSeq c.word)
        ∧ (s.evt.enable = false → s.host.wf = true →
          t.host.getBytes at_ 16 = cplBytes g c1 halt (dIrq c.word || g.irqAll || halt)
          ∧ ∀ b, b < at_ ∨ at_ + 16 ≤ b → t.host.get b = s.host.get b)
        ∧ (∀ r', r' ≠ r → t.ring r' = s.ring r') ∧ t.gddr = s.gddr ∧ t.cores = s.cores)
    ∧ (g.started = [] ∨ g.live = false ∨ (g.started = c :: rest ∧ c.done = false) → exec (.completionRecordWrite r) s = .next s)
    ∧ (c.status = 0x00 → c.corr ≠ 0 → c1.status = 0x01 ∧ c1.detail.toNat = min c.corr 0xFFFF) ∧ (c.status ≠ 0x00 ∨ c.corr = 0 → c1 = c))

/-- NOP ends OK; TIME_MARK answers the market time of its start with the holdover bit and ERA; FENCE ends once nothing earlier in
its scope is left, clears a halt where it carries CONTINUE_ON_ERROR, waits otherwise, and refuses the reserved scope (R261, R270,
R414).

A byte-mode COPY presents its requests, waits while one is out and then moves LENGTH bytes unchanged, marks and all, and FILL repeats
its 8-byte pattern; each ends once no transaction is left, or waits with its status kept (R261, R493). Shown on the bytes between host memory
and GDDR7: every byte outside the destination is unchanged. An operand that cannot be reached, a reserved bit or a LENGTH no multiple of 8 ends the
descriptor with its status and moves nothing (R265). A command that names no such descriptor does nothing. -/
def Obligations.NopFenceTimeMarkCopyAndFill : Prop :=
  (∀ (s : State) (r : Fin 256) (n : Nat) (c : DescCtx),
    (descAt s r n 0x01 = some c → exec (.nopDesc r n) s = .next (finishDesc r c.idx 0x00 0 0 s))
    ∧ (descAt s r n 0x71 = some c →
      exec (.timeMark r n) s = .next (finishDesc r c.idx 0x00 (BitVec.ofNat 16 (b2n c.hold + 256 * c.era.toNat)) c.time s))
    ∧ (descAt s r n 0x02 = some c →
      ((bits (dW2 c.word) 0 2 : BitVec 2) = 3 → exec (.fenceDesc r n) s = .next (finishDesc r c.idx 0x30 8 0 s))
      ∧ ((bits (dW2 c.word) 0 2 : BitVec 2) ≠ 3 → fenceWaits s r c = true → exec (.fenceDesc r n) s = .next s)
      ∧ ((bits (dW2 c.word) 0 2 : BitVec 2) ≠ 3 → fenceWaits s r c = false → dCont c.word = true → (s.ring r).state = .halted →
        exec (.fenceDesc r n) s = .next (finishDesc r c.idx 0x00 0 (BitVec.ofNat 64 ((s.ring r).haltSeq.toNat + 65536))
          (s.setRing r { s.ring r with state := .bound })))
      ∧ ((bits (dW2 c.word) 0 2 : BitVec 2) ≠ 3 → fenceWaits s r c = false → (dCont c.word = false ∨ (s.ring r).state ≠ .halted) →
        exec (.fenceDesc r n) s = .next (finishDesc r c.idx 0x00 0 0 s))))
  ∧ (∀ (s : State) (r : Fin 256) (n : Nat) (c : DescCtx),
    let w := c.word
    let len := (dQ w 0x20).toNat
    let o : TxnOwner := .desc r c.idx
    let p := placeOf s (dQ w 0x10)
    let q := placeOf s (dQ w 0x18)
    let s1 := askDesc r c 0 (askMove o 2 p q len) s
    let y := readStatus (markedSectors p.off (readPlace s1 p len))
    (descAt s r n 0x10 = some c → (dW2 w).getLsbD 0 = false →
      (∀ f, copyByteFault s w = some f → exec (.copyByteMode r n) s = .next (finishDesc r c.idx f.1 f.2 0 s))
      ∧ (∀ f, bits (dW2 w) 1 4 = (0 : BitVec 4) → opFault s (dQ w 0x10) len 0x10 = some f → opFault s (dQ w 0x18) len 0x18 = none →
        copyByteFault s w = some f)
      ∧ (copyByteFault s w = none → asking s1 o = true → exec (.copyByteMode r n) s = .next s1)
      ∧ (copyByteFault s w = none → asking s1 o = false → exec (.copyByteMode r n) s =
          .next (fitTxns s1 (endOrWait r c.idx y.1 y.2 0 (transfer o 2 p q (dQ w 0x18) len s1 s1).1)))
      ∧ (∀ a d, copyByteFault s w = none → asking s1 o = false → p = .host a → q = .gddr d → s.gddr.failedCh = 0 →
        ∃ t, exec (.copyByteMode r n) s = .next t
          ∧ (s.gddr.mem.wf = true → ∀ i, i < len → t.gddr.mem.get (d + i) = s.host.get (a + i))
          ∧ (∀ b, b < d ∨ d + len ≤ b → t.gddr.mem.get b = s.gddr.mem.get b) ∧ t.host = s.host ∧ t.cores = s.cores)
      ∧ (∀ a d, copyByteFault s w = none → asking s1 o = false → p = .gddr d → q = .host a →
        ∃ t, exec (.copyByteMode r n) s = .next t
          ∧ (s.host.wf = true → ∀ i, i < len → t.host.get (a + i) = s.gddr.mem.get (d + i))
          ∧ (∀ b, b < a ∨ a + len ≤ b → t.host.get b = s.host.get b) ∧ t.gddr.mem = s.gddr.mem ∧ t.cores = s.cores))
    ∧ (descAt s r n 0x10 = some c → (dW2 w).getLsbD 0 = true → exec (.copyByteMode r n) s = .next s)
    ∧ (descAt s r n 0x12 = some c →
      (∀ f, fillFault s w = some f → exec (.fillDesc r n) s = .next (finishDesc r c.idx f.1 f.2 0 s))
      ∧ (opFault s (dQ w 0x10) len 0x10 = none → len % 8 ≠ 0 → fillFault s w = some (0x30, 0x20))
      ∧ (fillFault s w = none → exec (.fillDesc r n) s =
          .next (fitTxns s (endOrWait r c.idx 0x00 0 0 (writeOut o 2 (dQ w 0x10) (patternBytes (dQ w 0x18) len) s))))
      ∧ (∀ a, fillFault s w = none → p = .host a →
        ∃ t, exec (.fillDesc r n) s = .next t
          ∧ (s.host.wf = true → ∀ i, i < len → t.host.get (a + i) = bits (dQ w 0x18) (8 * (i % 8)) 8)
          ∧ (∀ b, b < a ∨ a + len ≤ b → t.host.get b = s.host.get b) ∧ t.gddr = s.gddr ∧ t.cores = s.cores)))
  ∧ (∀ (s : State) (r : Fin 256) (n : Nat),
    ∀ k ∈ [(0x01, Instr.nopDesc r n), (0x02, .fenceDesc r n), (0x71, .timeMark r n), (0x10, .copyByteMode r n), (0x12, .fillDesc r n)],
      descAt s r n k.1 = none → exec k.2 s = .next s)

/-- PROGRAM_LOAD copies a checked image into every cluster of its mask once none of them runs a launch and its reads have been served, LAUNCH
starts every cluster of its mask once none of them runs a launch and no earlier LAUNCH waits for one, and a failed check ends either with its
status and changes nothing else (R146, R148, R265).

A launch past its TIMEOUT is told to abort on each cluster that still runs it, and ended there 1 ms later; a cluster that has
drained leaves its launch with its status, ERR_RECIPE where a good one triggered; a launch whose clusters have all ended answers
its descriptor; and a launch halted for VK1 replay restarts with its stored seed, or stops with ERR_RECIPE on every target cluster (R149, R171,
R172, R176, R177). A command whose condition does not hold does nothing. -/
def Obligations.ProgramsAndLaunches : Prop :=
  (∀ (s : State) (r : Fin 256) (n : Nat) (c : DescCtx),
    (descAt s r n 0x20 = none → exec (.programLoad r n) s = .next s)
    ∧ (descAt s r n 0x21 = none → exec (.launchDesc r n) s = .next s)
    ∧ (descAt s r n 0x20 = some c →
      let m : BitVec 48 := bits (dQ c.word 0x18) 0 48
      let len := (dW2 c.word).toNat
      let p := placeOf s (dQ c.word 0x10)
      let o : TxnOwner := .desc r c.idx
      let now := plain (readPlace s p len)
      let low : Bool := s.sec.feature.toNat < fieldAt now 0x0C 4
      let f1 := worst [maskOut s m, recordFault s (dQ c.word 0x10) len 0x10]
      let s1 := askDesc r c 0 (acceptAt o 2 false p len) s
      let img := readPlace s1 p len
      (maskBusy s m = true → exec (.programLoad r n) s = .next s)
      ∧ (maskBusy s m = false →
        (∀ f, programFault s c.word = some f → exec (.programLoad r n) s = .next (finishDesc r c.idx f.1 f.2 0 s))
        ∧ (∀ f, f1 = some f → programFault s c.word = some f)
        ∧ (f1 = none → imageOk now len = false → programFault s c.word = some (if low then (0x31, 1) else (0x30, 0x8000)))
        ∧ (f1 = none → imageOk now len = true → low = true → programFault s c.word =
            some ((retiredIn s m fun _ => imageCores (sectionsOf now)).getD (0x31, 1)))
        ∧ (f1 = none → imageOk now len = true → low = false →
          programFault s c.word = retiredIn s m fun _ => imageCores (sectionsOf now))
        ∧ (programFault s c.word = none → asking s1 o = true → exec (.programLoad r n) s = .next s1)
        ∧ (programFault s c.word = none → asking s1 o = false →
          ∃ t y, exec (.programLoad r n) s = .next (finishDesc r c.idx (readStatus (markedSectors p.off img)).1 y 0 t)
            ∧ y = (readStatus (markedSectors p.off img)).2
            ∧ (∀ cl ∈ maskList m, (t.cluster cl).loaded = true ∧ (t.cluster cl).handle = BitVec.ofNat 32 (fieldAt (plain img) 0x10 4)
                ∧ (t.cluster cl).entry = BitVec.ofNat 32 (fieldAt (plain img) 0x18 4) ∧ (t.cluster cl).launch = none)
            ∧ (∀ cl : Fin 48, cl ∉ maskList m → t.cluster cl = s.cluster cl)
            ∧ (∀ c : Fin 384, clusterOf c ∉ maskList m → t.core c = s1.core c) ∧ t.host = s.host ∧ t.gddr.mem = s.gddr.mem)))
    ∧ (descAt s r n 0x21 = some c →
      let m : BitVec 48 := bits (dQ c.word 0x10) 0 48
      let f := worst [maskOut s m, retiredIn s m fun cl => (s.cluster cl).imgCores,
        failIf ((maskList m).any fun cl => !(s.cluster cl).loaded || (s.cluster cl).handle ≠ dW2 c.word) 0x30 8,
        failIf (!pairsOk s m) 0x30 0x8000]
      (maskBusy s m = true ∨ launchWaits s c.order m = true → exec (.launchDesc r n) s = .next s)
      ∧ (∀ x, maskBusy s m = false → launchWaits s c.order m = false → f = some x → exec (.launchDesc r n) s = .next (finishDesc r c.idx x.1 x.2 0 s))
      ∧ (maskBusy s m = false → launchWaits s c.order m = false → f = none →
        ∃ t l, exec (.launchDesc r n) s = .next t ∧ t.launches = s.launches ++ [l]
          ∧ l.id = c.order ∧ l.ring = r ∧ l.idx = c.idx ∧ l.mask = m ∧ l.start = s.ns ∧ l.ended = [] ∧ l.abortAt = none
          ∧ l.seed = dQ c.word 0x18 ∧ l.arg = dW3 c.word ∧ l.timeout = bits (dQ c.word 0x20) 0 16
          ∧ (l.retaining = true ↔ ∀ k ∈ maskCores m, (s.core k).watch.action = 2)
          ∧ (∀ cl ∈ maskList m, (t.cluster cl).launch = some c.order ∧ (t.cluster cl).ending = none ∧ (t.sk cl).st = .run
              ∧ (t.sk cl).pc = (s.cluster cl).entry ∧ (t.sk cl).events = [] ∧ (t.sk cl).reg 1 = BitVec.ofNat 32 cl.val
              ∧ (t.sk cl).reg 2 = dW3 c.word ∧ (t.cpwr cl).mode = .run
              ∧ (∀ x ∈ (t.cluster cl).crier, x.gen = 0)
              ∧ ∀ (j : Fin 8) (k : Fin 8),
                (t.station (coreOf cl j.val) k).regs = Vector.replicate 16 0 ∧ (t.station (coreOf cl j.val) k).flags = 0
                ∧ (t.station (coreOf cl j.val) k).inflight = []
                ∧ ((s.station (coreOf cl j.val) k).enable = true → (t.station (coreOf cl j.val) k).state = .run
                  ∧ (t.station (coreOf cl j.val) k).pc = (s.station (coreOf cl j.val) k).entry)
                ∧ ((s.station (coreOf cl j.val) k).enable = false → (t.station (coreOf cl j.val) k).state = .idle))
          ∧ (∀ cl : Fin 48, cl ∉ maskList m → t.cluster cl = s.cluster cl)
          ∧ (∀ c : Fin 384, clusterOf c ∉ maskList m → t.core c = s.core c) ∧ t.gddr = s.gddr ∧ t.host = s.host)))
  ∧ (∀ s : State,
    (∀ l cl, s.launches[l]? = none → exec (.launchTimeout l) s = .next s ∧ exec (.launchForcedEnd l cl) s = .next s
      ∧ exec (.launchComplete l) s = .next s ∧ exec (.vk1Replay l) s = .next s)
    ∧ (∀ l x, s.launches[l]? = some x → x.timeout = 0 ∨ x.abortAt ≠ none ∨ s.ns < x.start + 1000000 * x.timeout.toNat →
      exec (.launchTimeout l) s = .next s)
    ∧ (∀ l cl x, s.launches[l]? = some x → x.abortAt = none ∨ (∃ t, x.abortAt = some t ∧ s.ns < t + 1000000) ∨ (s.cluster cl).launch ≠ some x.id
        ∨ (s.cluster cl).ending ≠ none → exec (.launchForcedEnd l cl) s = .next s)
    ∧ (∀ cl, (s.cluster cl).ending = none ∨ launchOf s cl = none ∨ drained s cl = false ∨ (∃ l, launchOf s cl = some l ∧ l.phase = 2) →
      exec (.clusterLaunchEnd cl) s = .next s)
    ∧ (∀ l x, s.launches[l]? = some x → (∃ cl ∈ maskList x.mask, ∀ e ∈ x.ended, e.1 ≠ cl.val) → exec (.launchComplete l) s = .next s)
    ∧ (∀ l x, s.launches[l]? = some x → x.phase ≠ 2 ∨ (∃ cl ∈ maskList x.mask, drained s cl = false) → exec (.vk1Replay l) s = .next s)
    ∧ (∀ l x, s.launches[l]? = some x → x.timeout ≠ 0 → x.abortAt = none → x.start + 1000000 * x.timeout.toNat ≤ s.ns →
      ∃ t, exec (.launchTimeout l) s = .next t
        ∧ t.launches = s.launches.map (fun y => if y.id = x.id then { x with abortAt := some s.ns } else y)
        ∧ (∀ cl ∈ maskList x.mask, (s.cluster cl).launch = some x.id → (s.cluster cl).ending = none →
            (t.sk cl).events = (s.sk cl).events ++ [7])
        ∧ t.cores = s.cores)
    ∧ (∀ l cl x t, s.launches[l]? = some x → x.abortAt = some t → t + 1000000 ≤ s.ns → (s.cluster cl).launch = some x.id →
      (s.cluster cl).ending = none → exec (.launchForcedEnd l cl) s = .next (endCluster cl 0x12 s))
    ∧ (∀ cl x l, (s.cluster cl).ending = some x → launchOf s cl = some l → l.phase ≠ 2 → drained s cl = true →
      ∃ t, exec (.clusterLaunchEnd cl) s = .next t ∧ (t.cluster cl).launch = none ∧ (t.cluster cl).ending = none
        ∧ (t.cpwr cl).idleSince = s.ns ∧ t.cores = s.cores
        ∧ t.launches = s.launches.map (fun y => if y.id = l.id then { l with ended := l.ended ++ [(cl.val,
            if (x = 0x00 ∨ x = 0x01) ∧ ∃ j : Fin 8, (s.core (coreOf cl j.val)).watch.trigCnt ≠ 0 then 0x40 else x)] } else y))
    ∧ (∀ l x, s.launches[l]? = some x → (∀ cl ∈ maskList x.mask, ∃ e ∈ x.ended, e.1 = cl.val) →
      exec (.launchComplete l) s = .next (finishDesc x.ring x.idx (launchResult x).1 (launchResult x).2.1 (launchResult x).2.2
        (s.setLaunches (s.launches.eraseIdx l))))
    ∧ (∀ x : Launch, (∀ e ∈ x.ended, e.2 ≤ (launchResult x).1)
      ∧ (x.abortAt ≠ none → 0x12 ≤ (launchResult x).1) ∧ (x.recipe ≠ none → 0x40 ≤ (launchResult x).1)
      ∧ (x.abortAt = none → x.recipe = none → (∀ e ∈ x.ended, e.2 = 0x00) → x.failed = none → launchResult x = (0x00, 0, 0)))
    ∧ (∀ l x, s.launches[l]? = some x → x.phase = 2 → (∀ cl ∈ maskList x.mask, drained s cl = true) →
      (mayReplay s x = true → ∃ t, exec (.vk1Replay l) s = .next t
        ∧ t.launches = s.launches.map (fun y => if y.id = x.id then
            { x with phase := 0, ended := [], recipe := none, retaining := false, replayed := true } else y)
        ∧ ∀ cl ∈ maskList x.mask, (t.cluster cl).launch = some x.id ∧ (t.sk cl).st = .run ∧ (t.sk cl).pc = (s.cluster cl).entry
            ∧ (t.sk cl).reg 2 = x.arg ∧ (t.cluster cl).ending = none)
      ∧ (mayReplay s x = false → ∃ t, exec (.vk1Replay l) s = .next t
        ∧ t.launches = s.launches.map (fun y => if y.id = x.id then
            { x with phase := 1, ended := x.ended.map fun e => (e.1, recipeStatus e.2) } else y)
        ∧ (∀ cl ∈ maskList x.mask, (s.cluster cl).launch = some x.id → (t.sk cl).st = .stopped
            ∧ (t.cluster cl).ending = some (recipeStatus ((s.cluster cl).ending.getD 0x40)))
        ∧ (∀ k ∈ maskCores x.mask, (t.core k).watch.refused = true)
        ∧ ∀ y : Byte, recipeStatus y = if y < 0x40 then 0x40 else y)))

/-- GATHER packs the 32-byte rows its list names at its destination; COPY in tensor mode stores the source tensor in
the destination's format; STATE writes the record of its start and DIAG reads and writes counter blocks; each fails with the status of its
first failed check and changes nothing else (R225, R261, R262, R265, R493). Each presents its reads, waits while one is out, and ends once no
transaction is left; an operand at a partner is read into the descriptor's staging buffer first. A command that names no such descriptor
does nothing. -/
def Obligations.GatherTensorStateAndDiag : Prop :=
  (∀ (s : State) (r : Fin 256) (n : Nat) (c : DescCtx),
    let w := c.word
    let o : TxnOwner := .desc r c.idx
    (descAt s r n 0x11 = some c →
      let count := (dW2 w).toNat
      (∀ f, gatherFault s w = some f → exec (.gatherDesc r n) s = .next (finishDesc r c.idx f.1 f.2 0 s))
      ∧ (gatherFault s w = none →
        exec (.gatherDesc r n) s = .next (withOperand r c 0 2 (dQ w 0x10) (8 * count) (gatherDesc r c) s))
      ∧ (∀ (lb : List MByte) (u : State),
        let rows := gatherList (plain lb)
        let u1 := askDesc r c 1 (askRows o 2 rows (placeOf u (dQ w 0x18))) u
        let y := readStatus (markedSectors (placeOf u1 (dQ w 0x10)).off lb
          + ((rows.map fun d => markedSectors (placeOf u1 d).off (readPlace u1 (placeOf u1 d) 32)).foldl (· + ·) 0))
        (∀ (m : Nat) (x : Dword) (f : Byte × Half), rows[m]? = some x → rowFault u x = some f →
          (∀ (k : Nat) (z : Dword), k < m → rows[k]? = some z → rowFault u z = none) →
          gatherDesc r c lb u = finishDesc r c.idx f.1 (if f.1 = 0x30 then 0x8000 else f.2) 0 u)
        ∧ ((∀ x ∈ rows, rowFault u x = none) →
          (asking u1 o = true → gatherDesc r c lb u = u1)
          ∧ (asking u1 o = false → gatherDesc r c lb u =
            fitTxns u1 (endOrWait r c.idx y.1 y.2 0 (gatherRows o 2 rows (dQ w 0x18) u1).1))))
      ∧ ∀ a d, gatherFault s w = none → c.asked = 2 → asking s o = false → placeOf s (dQ w 0x10) = .host a → placeOf s (dQ w 0x18) = .host d →
        (∀ i, i < count → rowFault s (BitVec.ofNat 64 (s.host.getLE (a + 8 * i) 8)) = none) →
        ∃ t, exec (.gatherDesc r n) s = .next t
          ∧ (s.host.wf = true → ∀ i, i < count → ∀ p, placeOf s (BitVec.ofNat 64 (s.host.getLE (a + 8 * i) 8)) = .gddr p →
              t.host.getBytes (d + 32 * i) 32 = s.gddr.mem.getBytes p 32)
          ∧ (∀ b, b < d ∨ d + 32 * count ≤ b → t.host.get b = s.host.get b) ∧ t.gddr.mem = s.gddr.mem ∧ t.cores = s.cores)
    ∧ (descAt s r n 0x10 = some c → (dW2 w).getLsbD 0 = false → exec (.copyTensorMode r n) s = .next s)
    ∧ (descAt s r n 0x10 = some c → (dW2 w).getLsbD 0 = true →
      let mode := (bits (dW2 w) 2 2 : BitVec 2).toNat
      let x := (dW2 w).getLsbD 4
      let a := c.td s (dQ w 0x10)
      let b := c.td s (dQ w 0x18)
      let ea := a.exts s.mach.logical
      let eb := b.exts s.mach.logical
      let f := worst [failIf (mode = 3) 0x30 8, tensorFaultOf s a (dQ w 0x10) 0x10 false x, tensorFaultOf s b (dQ w 0x18) 0x18 true x,
        failIf (dQ w 0x20 ≠ 0) 0x30 0x20]
      let s1 := askDesc r c 0 (askAll o 2 (a.spans true true ea ++ b.spans false (mode = 1) eb) (b.spans true (mode ≠ 1) eb)) s
      (∀ y, f = some y → exec (.copyTensorMode r n) s = .next (finishDesc r c.idx y.1 y.2 0 s))
      ∧ (f = none → ea ≠ (if x then swap2 eb else eb) → exec (.copyTensorMode r n) s = .next (finishDesc r c.idx 0x30 0x8000 0 s))
      ∧ (f = none → ea = (if x then swap2 eb else eb) → eb.contains 0 = true →
        exec (.copyTensorMode r n) s = .next (finishDesc r c.idx 0x00 0 0 s))
      ∧ (f = none → ea = (if x then swap2 eb else eb) → eb.contains 0 = false →
        (asking s1 o = true → exec (.copyTensorMode r n) s = .next s1)
        ∧ (asking s1 o = false → ∃ t, exec (.copyTensorMode r n) s = .next t
          ∧ t.gddr.mem = (tensorCopy a b mode ((dW2 w).getLsbD 1) x (dW3 w) s1).1.gddr.mem
          ∧ t.gddr.poison = (tensorCopy a b mode ((dW2 w).getLsbD 1) x (dW3 w) s1).1.gddr.poison
          ∧ t.cores = (tensorCopy a b mode ((dW2 w).getLsbD 1) x (dW3 w) s1).1.cores ∧ t.host = s.host)))
    ∧ (descAt s r n 0x51 = some c →
      let bs := if c.snap = [] then stateRecord s (bits (dW2 w) 0 8 : Byte).toNat (dW3 w).toNat else c.snap
      (∀ f, stateFault s w = some f → exec (.stateReq r n) s = .next (finishDesc r c.idx f.1 f.2 0 s))
      ∧ (stateFault s w = none → exec (.stateReq r n) s =
          .next (fitTxns s (endOrWait r c.idx 0x00 0 0 (writeOut o 2 (dQ w 0x10) (bs.map fun b => (b, false)) s))))
      ∧ ∀ d, stateFault s w = none → placeOf s (dQ w 0x10) = .host d →
        ∃ t, exec (.stateReq r n) s = .next t ∧ t.host = s.host.putBytes d bs ∧ t.gddr = s.gddr ∧ t.cores = s.cores)
    ∧ (descAt s r n 0x70 = some c →
      let off := (bits (dQ w 0x18) 0 32 : Word).toNat
      let l := (bits (dQ w 0x18) 32 32 : Word).toNat
      let k : Fin 384 := ix 384 (dW3 w).toNat
      let words := ((ctrBytes k (s.core k)).drop off).take l
      let put (bs : List MByte) (t : State) : State :=
        let y := readStatus (markedSectors (placeOf t (dQ w 0x10)).off bs)
        finishDesc r c.idx y.1 y.2 0 (diagWrite k off (plain bs) t)
      (bits (dW2 w) 0 8 ≠ (0 : Byte) → exec (.diagReadCounters r n) s = .next s)
      ∧ (bits (dW2 w) 0 8 ≠ (1 : Byte) → exec (.diagWriteCounters r n) s = .next s)
      ∧ (∀ f, diagFault s w = some f →
        (bits (dW2 w) 0 8 = (0 : Byte) → exec (.diagReadCounters r n) s = .next (finishDesc r c.idx f.1 f.2 0 s))
        ∧ (bits (dW2 w) 0 8 = (1 : Byte) → exec (.diagWriteCounters r n) s = .next (finishDesc r c.idx f.1 f.2 0 s)))
      ∧ (diagFault s w = none →
        (bits (dW2 w) 0 8 = (0 : Byte) → exec (.diagReadCounters r n) s =
          .next (fitTxns s (endOrWait r c.idx 0x00 0 0 (writeOut o 2 (dQ w 0x10) (words.map fun b => (b, false)) s))))
        ∧ (bits (dW2 w) 0 8 = (1 : Byte) → exec (.diagWriteCounters r n) s = .next (withOperand r c 0 2 (dQ w 0x10) l put s)))
      ∧ ∀ d, diagFault s w = none → placeOf s (dQ w 0x10) = .host d →
        (bits (dW2 w) 0 8 = (0 : Byte) → ∃ t, exec (.diagReadCounters r n) s = .next t
          ∧ t.host = s.host.putBytes d words ∧ t.gddr = s.gddr ∧ t.cores = s.cores)
        ∧ (bits (dW2 w) 0 8 = (1 : Byte) → c.asked = 1 → asking s o = false → exec (.diagWriteCounters r n) s =
          .next (finishDesc r c.idx 0x00 0 0 (diagWrite k off (s.host.getBytes d l) s)))))
  ∧ (∀ (s : State) (r : Fin 256) (c : DescCtx) (k cls n : Nat) (d : Dword) (go : List MByte → State → State),
    let o : TxnOwner := .desc r c.idx
    let p := placeOf s d
    let s1 := askDesc r c k (acceptAt o cls false p n) s
    ((∀ m low, p ≠ .remote m low) →
      (asking s1 o = true → withOperand r c k cls d n go s = s1)
      ∧ (asking s1 o = false → withOperand r c k cls d n go s = go (readPlace s1 p n) s1))
    ∧ ∀ m low, p = .remote m low →
      (c.staged = true → withOperand r c k cls d n go s = go ((c.stage.getBytes 0 n).map fun b => (b, decide (c.status = 0x10))) s)
      ∧ (c.staged = false → descWaits s r c.idx = true → withOperand r c k cls d n go s = s)
      ∧ (c.staged = false → descWaits s r c.idx = false →
        withOperand r c k cls d n go s = fitTxns s (transfer o 2 p .bad stageAddr n s s).1))
  ∧ (∀ (s : State) (r : Fin 256) (n : Nat), ∀ k ∈ [(0x11, Instr.gatherDesc r n), (0x10, .copyTensorMode r n), (0x51, .stateReq r n),
      (0x70, .diagReadCounters r n), (0x70, .diagWriteCounters r n)], descAt s r n k.1 = none → exec k.2 s = .next s)

/-- DIGEST writes the digest of a tensor's stream as it stood at its start, EXPORT the record whose header and stream it is, and IMPORT of a
record that passes every check stores its stream in the tensor; each waits while one of its requests is out, and a failed check ends it with its
status and changes nothing else (R272, R388 to R390, R392 to R394). A command that names no such descriptor does nothing. -/
def Obligations.ShardsAreDigestedExportedAndImported : Prop :=
  (∀ (s : State) (r : Fin 256) (n : Nat), ∀ k ∈ [(0x42, Instr.digestDesc r n), (0x43, .exportShard r n), (0x44, .importShard r n)],
    descAt s r n k.1 = none → exec k.2 s = .next s)
  ∧ ∀ (s : State) (r : Fin 256) (n : Nat) (c : DescCtx),
    let w := c.word
    let o : TxnOwner := .desc r c.idx
    let me := s.mach.logical
    let t := c.td s (dQ w 0x10)
    let ext := t.exts me
    let s1 := askDesc r c 0 (askAll o 2 (t.spans true true ext) []) s
    let bs := digestInput ((ctxOf s1 r c.idx).getD c) t ext s1
    let head := recordHead t me (streamData t ext).length (streamScales t ext).length (shardDigest bs)
    (descAt s r n 0x42 = some c →
      (∀ f, digestFault s c = some f → exec (.digestDesc r n) s = .next (finishDesc r c.idx f.1 f.2 0 s))
      ∧ (∀ f, tensorFaultOf s t (dQ w 0x10) 0x10 false false = some f → digestFault s c = some f)
      ∧ (digestFault s c = none → asking s1 o = true → exec (.digestDesc r n) s = .next s1)
      ∧ (digestFault s c = none → asking s1 o = false → exec (.digestDesc r n) s = .next (fitTxns s1 (digestNow r c t s1)))
      ∧ ∀ d, digestFault s c = none → asking s1 o = false → placeOf s (dQ ((ctxOf s1 r c.idx).getD c).word 0x18) = .host d → ∃ u, exec (.digestDesc r n) s = .next u
        ∧ u.host = s.host.putBytes d (if (dW2 ((ctxOf s1 r c.idx).getD c).word).getLsbD 0 then shardDigest bs ++ (subDigests bs).flatten
            else shardDigest bs)
        ∧ u.gddr.mem = s.gddr.mem ∧ u.cores = s1.cores)
    ∧ (descAt s r n 0x43 = some c →
      (∀ f, exportFault s c = some f → exec (.exportShard r n) s = .next (finishDesc r c.idx f.1 f.2 0 s))
      ∧ (∀ f, tensorFaultOf s t (dQ w 0x10) 0x10 false false = some f → exportFault s c = some f)
      ∧ (tensorFaultOf s t (dQ w 0x10) 0x10 false false = none → (∃ d, placeOf s (dQ w 0x18) = .host d) →
        (dQ w 0x20).toNat < 64 + 32 * t.dims.length + (streamAll t ext).length → exportFault s c = some (0x30, 0x20))
      ∧ (exportFault s c = none → asking s1 o = true → exec (.exportShard r n) s = .next s1)
      ∧ (exportFault s c = none → asking s1 o = false → exec (.exportShard r n) s = .next (fitTxns s1 (exportNow r c t s1)))
      ∧ ∀ d, exportFault s c = none → asking s1 o = false → placeOf s (dQ ((ctxOf s1 r c.idx).getD c).word 0x18) = .host d →
        ∃ u, exec (.exportShard r n) s = .next u ∧ u.host = s.host.putBytes d (head ++ plain bs)
          ∧ u.gddr.mem = s.gddr.mem ∧ u.cores = s1.cores)
    ∧ (∀ (u : State) (x : DescCtx), x.snap.length = (streamAll t ext).length →
      plain (digestInput x t ext u) = x.snap)
    ∧ (descAt s r n 0x44 = some c →
      let len := (dQ w 0x20).toNat
      let x := c.td s (dQ w 0x18)
      (∀ f, importFault s c = some f → exec (.importShard r n) s = .next (finishDesc r c.idx f.1 f.2 0 s))
      ∧ (importFault s c = none → exec (.importShard r n) s = .next (withOperand r c 0 2 (dQ w 0x10) len (importNow r c x) s))
      ∧ ∀ (rec_ : List MByte) (u : State),
        let me := u.mach.logical
        let body := (plain rec_).drop (64 + 32 * x.dims.length)
        let data := fieldAt (plain rec_) 0x20 8
        let y := readStatus (markedSectors (placeOf u (dQ w 0x10)).off rec_)
        let u1 := askDesc r c 1 (askAll o 2 [] (x.spans true true (x.exts me))) u
        (recordOk rec_ x me = false → importNow r c x rec_ u = finishDesc r c.idx 0x30 0x8000 0 u)
        ∧ (recordOk rec_ x me = true → asking u1 o = true → importNow r c x rec_ u = u1)
        ∧ (recordOk rec_ x me = true → asking u1 o = false → importNow r c x rec_ u = landAll o 2 (x.spans true true (x.exts me))
            (finishDesc r c.idx y.1 y.2 0 (importRows x (x.exts me) (body.take data) (body.drop data) u1))))

/-- A collective whose GROUP_ID has no earlier descriptor waiting and whose checks pass presents the reads of its SRC, and once they are served
becomes the last step of its group, with the group record's members and the tensor formats' counts, and its descriptor is under way; a failed
check ends it with its status. A barrier joins its group so too, once every earlier descriptor of its ring is visible. A step silent for its
TIMEOUT ends with ERR_TIMEOUT and the silent member's address, a norm reduction likewise (R362 to R365, R375, R376). A command that names no
such descriptor, step or reduction, or comes before its time, does nothing. -/
def Obligations.CollectivesStartAndTimeOut : Prop :=
  (∀ (s : State) (r : Fin 256) (n : Nat),
    ∀ k ∈ [(0, Instr.allReduce r n), (1, .reduceScatter r n), (2, .allGather r n), (3, .broadcastColl r n), (4, .pipelineSend r n),
        (5, .pipelineReceive r n)],
    (descAt s r n 0x30 = none → exec k.2 s = .next s)
    ∧ ∀ c : DescCtx, descAt s r n 0x30 = some c →
      ((bits (dW2 c.word) 0 4 : BitVec 4).toNat ≠ k.1 ∨ earlierStep s c = true → exec k.2 s = .next s)
      ∧ ((bits (dW2 c.word) 0 4 : BitVec 4).toNat = k.1 → earlierStep s c = false →
        (∀ f, collFault s c k.1 = some f → exec k.2 s = .next (finishDesc r c.idx f.1 f.2 0 s))
        ∧ (collFault s c k.1 = none →
          let o : TxnOwner := .desc r c.idx
          let x := newStep s r c k.1 (groupOf s (dQ c.word 0x20) (4 ≤ k.1) (bits c.word 320 16))
          let a := c.td s (dQ c.word 0x10)
          let s1 := askDesc r c 0 (askAll o 0 (if k.1 = 5 then [] else a.spans true true (a.exts s.mach.logical)) []) s
          (asking s1 o = true → exec k.2 s = .next s1)
          ∧ (asking s1 o = false → exec k.2 s = .next (collSettle (enqueueStep x (issueDesc r c.idx 0 0 0 s1))))
          ∧ x.ring = r ∧ x.idx = c.idx ∧ x.gid = dW3 c.word ∧ x.kind = k.1 ∧ x.phase = 0
          ∧ x.wire = (bits (dW2 c.word) 4 4 : BitVec 4).toNat ∧ x.finalWide = (dW2 c.word).getLsbD 8
          ∧ x.src = (if k.1 = 5 then none else some a) ∧ x.dst = (if k.1 = 4 then none else some (c.td s (dQ c.word 0x18)))
          ∧ (groupAt s x.gid = none →
            (enqueueStep x (issueDesc r c.idx 0 0 0 s1)).coll.groups = s.coll.groups ++ [⟨x.gid, 0, [x]⟩])
          ∧ (∀ g, groupAt s x.gid = some g →
            (groupAt (enqueueStep x (issueDesc r c.idx 0 0 0 s1)) x.gid).map (·.steps) = some (g.steps ++ [x])))))
  ∧ (∀ (s : State) (r : Fin 256) (n : Nat),
    (descAt s r n 0x31 = none → exec (.barrierDesc r n) s = .next s)
    ∧ ∀ c : DescCtx, descAt s r n 0x31 = some c →
      (earlierStep s c = true ∨ ((s.ring r).started.all fun d => c.idx ≤ d.idx || d.effects) = false →
        exec (.barrierDesc r n) s = .next s)
      ∧ (earlierStep s c = false → ((s.ring r).started.all fun d => c.idx ≤ d.idx || d.effects) = true →
        (∀ f, groupFault s (dQ c.word 0x10) 0x10 false 0 = some f → exec (.barrierDesc r n) s = .next (finishDesc r c.idx f.1 f.2 0 s))
        ∧ (groupFault s (dQ c.word 0x10) 0x10 false 0 = none → exec (.barrierDesc r n) s = .next (collSettle
            (enqueueStep (newStep s r c 6 (groupOf s (dQ c.word 0x10) false 0)) (issueDesc r c.idx 0 0 0 s))))))
  ∧ (∀ (s : State) (g : Nat) (gr : Group), s.coll.groups[g]? = some gr →
    (gr.steps = [] → exec (.collectiveRoundTimeout g) s = .next s)
    ∧ ∀ (x : CollStep) (l : List CollStep), gr.steps = x :: l →
      (x.phase = 0 ∨ s.ns < x.heard + 1000000 * x.timeout → exec (.collectiveRoundTimeout g) s = .next s)
      ∧ (x.phase ≠ 0 → x.heard + 1000000 * x.timeout ≤ s.ns →
        exec (.collectiveRoundTimeout g) s = .next (collSettle (endStep gr.id 0x12 (silentMember x) true s))))
  ∧ ∀ (s : State) (g : Nat),
    (s.coll.runs[g]? = none → exec (.collectiveRoundTimeout (s.coll.groups.length + g)) s = .next s)
    ∧ ∀ x : NormRun, s.coll.runs[g]? = some x →
      (s.ns < x.heard + 1000000 * x.timeout → exec (.collectiveRoundTimeout (s.coll.groups.length + g)) s = .next s)
      ∧ (x.heard + 1000000 * x.timeout ≤ s.ns →
        exec (.collectiveRoundTimeout (s.coll.groups.length + g)) s = .next (failNorm x 0x12 (x.members.getD (normRecv x).2 0) s))

/-- NORM_REDUCE marks its NORM_ID pending, reads its tensors once every gradient among them is visible and begins its reduction once the reads
are served; UPDATE takes its tensors, its hyperparameters and, where it waits for a norm, the factor that norm has published; a run of an
update is worked once its gradient is visible and its reads are served, the whole gradient's statistics first under the factored rules; a wait
of 100 ms for a norm nobody reduces ends with ERR_TIMEOUT (R183, R377, R378, R380, R385 to R387). A command whose condition does not hold does
nothing. -/
def Obligations.NormsAndUpdatesStart : Prop :=
  (∀ (s : State) (r : Fin 256) (n : Nat),
    (descAt s r n 0x41 = none → exec (.normReduce r n) s = .next s) ∧ (descAt s r n 0x40 = none → exec (.updateStep r n) s = .next s)
    ∧ ((s.ring r).started[n]? = none → exec (.normWaitTimeout r n) s = .next s ∧ ∀ i, exec (.updateRun r n i) s = .next s))
  ∧ ∀ (s : State) (r : Fin 256) (n : Nat) (c : DescCtx),
    let o : TxnOwner := .desc r c.idx
    (descAt s r n 0x41 = some c →
      let ready (t : State) : Prop := ∀ x ∈ normTensors t c,
        pendingScatter t r c.idx x.1 = none ∨ gradReady t r c.idx x.1 0 (x.2.count t.mach.logical) = true
      (∀ f, normFault s c = some f → exec (.normReduce r n) s = .next (finishDesc r c.idx f.1 f.2 0 s))
      ∧ (normFault s c = none → c.staged = true → exec (.normReduce r n) s = .next (readNorm r c s))
      ∧ (normFault s c = none → c.staged = false →
          (∃ x ∈ s.coll.runs, x.id = dW3 c.word) ∨ (∃ x ∈ s.coll.norms, x.id = dW3 c.word ∧ x.status = 0) ∨ markNorm (dW3 c.word) s = none →
          exec (.normReduce r n) s = .next s)
      ∧ (∀ t, normFault s c = none → c.staged = false → (∀ x ∈ s.coll.runs, x.id ≠ dW3 c.word) →
          (∀ x ∈ s.coll.norms, x.id = dW3 c.word → x.status ≠ 0) → markNorm (dW3 c.word) s = some t →
          let u := modCtx r c.idx (fun y => { y with staged := true }) t
          (∃ e ∈ u.coll.norms, e.id = dW3 c.word ∧ e.status = 0) ∧ exec (.normReduce r n) s = .next (readNorm r c u))
      ∧ ∀ u : State,
        let u1 := askDesc r c 0 (askAll o 1 ((normTensors u c).flatMap fun x => x.2.spans true true (x.2.exts u.mach.logical)) []) u
        (¬ ready u → readNorm r c u = u) ∧ (ready u → asking u1 o = true → readNorm r c u = u1)
        ∧ (ready u → asking u1 o = false → readNorm r c u = beginNorm r c u1))
    ∧ (descAt s r n 0x40 = some c →
      (∀ f, updateFault s c = some f → exec (.updateStep r n) s = .next (finishDesc r c.idx f.1 f.2 0 s))
      ∧ (updateFault s c = none → 0 ∈ (c.td s (dQ c.word 0x10)).exts s.mach.logical →
        exec (.updateStep r n) s = .next (finishDesc r c.idx 0x00 0 0 s))
      ∧ (updateFault s c = none → 0 ∉ (c.td s (dQ c.word 0x10)).exts s.mach.logical →
        ((dW2 c.word).getLsbD 9 = false ∨ (∀ e ∈ s.coll.norms, e.id = dW3 c.word → e.status = 0) →
          ∃ t u, exec (.updateStep r n) s = .next t ∧ t.coll.upds = s.coll.upds ++ [u] ∧ u.ring = r ∧ u.idx = c.idx
            ∧ u.waitNorm = (dW2 c.word).getLsbD 9 ∧ u.clip = none ∧ u.since = s.ns ∧ u.rule = (bits (dW2 c.word) 0 3 : BitVec 3).toNat
            ∧ u.step = bits c.word 448 32 ∧ u.decayOn = (dW2 c.word).getLsbD 8 ∧ u.normId = dW3 c.word
            ∧ u.hyper = readHyper (plain (readPlace s (placeOf s (dQ c.word 0x30)) 64)) ∧ u.master = c.td s (dQ c.word 0x10)
            ∧ u.stateT = (if dQ c.word 0x18 = 0 then none else some (c.td s (dQ c.word 0x18))) ∧ u.grad = c.td s (dQ c.word 0x20)
            ∧ u.compute = c.td s (dQ c.word 0x28) ∧ u.asked = [] ∧ u.stats = none ∧ u.badSectors = []
            ∧ t.gddr = s.gddr ∧ t.host = s.host)
        ∧ (∀ e, (dW2 c.word).getLsbD 9 = true → s.coll.norms.find? (fun e => e.id = dW3 c.word && e.status ≠ 0) = some e →
          (e.status = 1 → (vwNum e.factor).isPoison = false →
            ∃ t u, exec (.updateStep r n) s = .next t ∧ u ∈ t.coll.upds ∧ u.ring = r ∧ u.idx = c.idx ∧ u.waitNorm = false
              ∧ u.clip = some e.factor)
          ∧ (e.status ≠ 1 ∨ (vwNum e.factor).isPoison = true →
            ∃ t, exec (.updateStep r n) s = .next (finishDesc r c.idx e.endStatus e.endDetail 0 t)
              ∧ t.coll.upds = s.coll.upds.filter fun v => !(v.ring = r && v.idx = c.idx)))))
    ∧ ((s.ring r).started[n]? = some c →
      (updOf s r c.idx = none → exec (.normWaitTimeout r n) s = .next s ∧ ∀ i, exec (.updateRun r n i) s = .next s)
      ∧ ∀ x, updOf s r c.idx = some x →
        let ext := x.master.exts s.mach.logical
        (x.waitNorm = true → x.since + 100000000 ≤ s.ns → (∀ e ∈ s.coll.norms, e.id ≠ x.normId) →
          exec (.normWaitTimeout r n) s = .next (finishDesc r c.idx 0x12 0 0
            (s.setColl { s.coll with upds := s.coll.upds.filter fun v => !(v.ring = x.ring && v.idx = x.idx) })))
        ∧ (x.waitNorm = false ∨ s.ns < x.since + 100000000 ∨ (∃ e ∈ s.coll.norms, e.id = x.normId) →
          exec (.normWaitTimeout r n) s = .next s)
        ∧ ∀ i,
          (x.waitNorm = true ∨ i ∉ x.runsLeft ∨ runInTurn x ext i = false → exec (.updateRun r n i) s = .next s)
          ∧ (x.waitNorm = false → i ∈ x.runsLeft → runInTurn x ext i = true → pendingScatter s r c.idx x.gradTd = none →
            let first : Bool := 3 ≤ x.rule && x.stats.isNone
            let key := if first then 0 else i + 1
            let s1 := if key ∈ x.asked then s
              else if first then askFirst x (setUpd { x with asked := x.asked ++ [key] } s)
              else engineAsk x false (x.sources.flatMap fun t => x.spans t ext i) (setUpd { x with asked := x.asked ++ [key] } s)
            (asking s1 o = true → exec (.updateRun r n i) s = .next s1)
            ∧ (asking s1 o = false → ∀ v, updOf s1 r c.idx = some v →
              exec (.updateRun r n i) s = .next (if first then firstPass v s1 else workRun v i s1))
            ∧ (∃ v, updOf s1 r c.idx = some v ∧ v.runsLeft = x.runsLeft ∧ v.master = x.master ∧ v.grad = x.grad ∧ v.stats = x.stats)))

/-- NONCE_DRAW gives the next window a fresh value (free, log 7) and its tag; SESSION_OPEN uses the nonce its tag names and binds
the ring where the proof holds, and otherwise answers ERR_AUTH with its reason and counts a failure; SESSION_CLOSE and 10 idle
seconds end the binding; a lockout ends at its time (R295 to R300). A command whose condition does not hold does nothing. -/
def Obligations.SessionsOpenAndClose : Prop :=
  ∀ s : State,
    (∀ size, size = 4 ∨ size = 8 → ∃ t, exec (.nonceDraw size) s = .next t
      ∧ t.out.read = (BitVec.ofNat 16 (s.sec.draws % 4096 * 16 + s.sec.draws % 16)).setWidth 64
      ∧ t.sec.draws = s.sec.draws + 1
      ∧ t.sec.nonces[ix 16 s.sec.draws] = ⟨Config.freeWord s.free, BitVec.ofNat 16 (s.sec.draws % 4096 * 16 + s.sec.draws % 16), true, s.ns⟩
      ∧ (∀ i : Fin 16, i ≠ ix 16 s.sec.draws → t.sec.nonces[i] = s.sec.nonces[i]) ∧ t.free = s.free + 1)
    ∧ (∀ size, size ≠ 4 → size ≠ 8 → exec (.nonceDraw size) s = .next (s.setOut { s.out with read := 0 }))
    ∧ (∀ i : Fin 16, s.sec.nonces[i].live = false ∨ s.ns < s.sec.nonces[i].at_ + 10000000000 → exec (.nonceExpiry i) s = .next s)
    ∧ (∀ (r : Fin 256) (n : Nat), (descAt s r n 0x08 = none → exec (.sessionOpen r n) s = .next s)
      ∧ (descAt s r n 0x09 = none → exec (.sessionClose r n) s = .next s)
      ∧ ∀ c, descAt s r n 0x08 = some c → earlierRuns s [0x08] c = true → exec (.sessionOpen r n) s = .next s)
    ∧ (∀ i : Fin 16, s.sec.nonces[i].live = true → s.sec.nonces[i].at_ + 10000000000 ≤ s.ns →
      exec (.nonceExpiry i) s = .next (s.setSec { s.sec with nonces := s.sec.nonces.set i { s.sec.nonces[i] with live := false } }))
    ∧ (∀ (r : Fin 256) (n : Nat) (c : DescCtx), descAt s r n 0x08 = some c → earlierRuns s [0x08] c = false →
      let slot : Fin 8 := ix 8 (bits (dW2 c.word) 0 3 : BitVec 3).toNat
      let tag : Half := bits (dW3 c.word) 0 16
      let key := s.sec.slots[slot]
      let hit := s.sec.nonces.toList.find? fun x => nonceLive s x && x.tag = tag
      let s1 := s.setSec { s.sec with nonces := s.sec.nonces.map fun x => if x.tag = tag then { x with live := false } else x }
      (lockedOut s = true ∨ c.snap = [1] → exec (.sessionOpen r n) s = .next (finishDesc r c.idx 0x21 1 0 s))
      ∧ (lockedOut s = false → c.snap ≠ [1] → key.valid = false → exec (.sessionOpen r n) s = .next (finishDesc r c.idx 0x21 3 0 (countFail r s1)))
      ∧ (lockedOut s = false → c.snap ≠ [1] → key.valid = true → hit = none →
        exec (.sessionOpen r n) s = .next (finishDesc r c.idx 0x21 2 0 (countFail r s1)))
      ∧ (∀ x, lockedOut s = false → c.snap ≠ [1] → key.valid = true → hit = some x →
        let ok : Prop := hmac384 key.key (proofMessage x.val tag r (s.ring r).epoch slot.val) = leBytes (bits c.word 128 384 : BitVec 384).toNat 48
        (¬ ok → exec (.sessionOpen r n) s = .next (finishDesc r c.idx 0x21 0 0 (countFail r s1)))
        ∧ (ok → ∃ t y, exec (.sessionOpen r n) s = .next t ∧ y ∈ t.sec.sessions ∧ y.slot = slot ∧ (t.ring r).tag = some y.tag
            ∧ (t.ring r).state = .bound ∧ t.sec.fails = 0 ∧ t.sec.level = 0
            ∧ (∀ i : Fin 16, t.sec.nonces[i].tag = tag → t.sec.nonces[i].live = false)
            ∧ ∀ r', r' ≠ r → t.ring r' = s.ring r')))
    ∧ (∀ (r : Fin 256) (n : Nat) (c : DescCtx), descAt s r n 0x09 = some c →
      ∃ t, exec (.sessionClose r n) s = .next t ∧ (t.ring r).tag = none ∧ (∀ r', r' ≠ r → t.ring r' = s.ring r')
        ∧ (∀ tag, (s.ring r).tag = some tag → (∀ r', r' ≠ r → (s.ring r').tag ≠ some tag) → ∀ y ∈ t.sec.sessions, y.tag ≠ tag)
        ∧ (∀ tag r', (s.ring r).tag = some tag → r' ≠ r → (s.ring r').tag = some tag → t.sec.sessions = s.sec.sessions))
    ∧ (∀ r : Fin 256, (s.ring r).tag.isSome = true → (s.ring r).fetched = [] → (s.ring r).started = [] →
      (s.ring r).activeAt + 10000000000 ≤ s.ns → s.pwr.mstate = 0 →
      ∃ t, exec (.sessionIdleTimeout r) s = .next t ∧ (t.ring r).tag = none
        ∧ (t.ring r).state = (if (s.ring r).state = .bound ∨ (s.ring r).state = .halted then .unbound else (s.ring r).state))
    ∧ (∀ r : Fin 256, (s.ring r).tag = none ∨ (s.ring r).fetched ≠ [] ∨ (s.ring r).started ≠ [] ∨ s.ns < (s.ring r).activeAt + 10000000000
        ∨ s.pwr.mstate ≠ 0 → exec (.sessionIdleTimeout r) s = .next s)
    ∧ (s.sec.lockUntil = none ∨ (∃ t, s.sec.lockUntil = some t ∧ s.ns < t) → exec .lockoutExpiry s = .next s)
    ∧ (∀ t, s.sec.lockUntil = some t → t ≤ s.ns → exec .lockoutExpiry s = .next (s.setSec { s.sec with lockUntil := none }))

/-- DEBUG_CTRL: debug starts for a session with its right while the policy allows it, and ends when ENABLE is written 0 (R306, R307). Firmware
chunks are read, waited for and programmed, the image verified, activated and confirmed in their states, and refused in others (R302,
R303). A command that names no such descriptor, or comes before an earlier one has ended, does nothing. -/
def Obligations.DebugAndFirmware : Prop :=
  ∀ s : State,
    (∀ w : Word, w.getLsbD 16 = true →
      (∀ y, s.sec.sessions.find? (fun y => y.tag = (bits w 0 16 : Half) && y.rights.getLsbD 3) = some y → s.sec.debugLock = false →
        ∃ t, exec (.debugEnable w) s = .next t ∧ t.sec.dbgActive = true ∧ t.sec.dbgTag = bits w 0 16 ∧ t.sec.dbgSlot = y.slot)
      ∧ (s.sec.sessions.find? (fun y => y.tag = (bits w 0 16 : Half) && y.rights.getLsbD 3) = none ∨ s.sec.debugLock = true →
        ∃ t, exec (.debugEnable w) s = .next t ∧ t.sec.dbgActive = s.sec.dbgActive ∧ t.sec.dbgDenied = true))
    ∧ (∀ w : Word, w.getLsbD 16 = false → ∃ t, exec (.debugDisable w) s = .next t ∧ t.sec.dbgActive = false
      ∧ t.sec.dbgTag = bits w 0 16)
    ∧ (∀ w : Word, (w.getLsbD 16 = false → exec (.debugEnable w) s = .next s) ∧ (w.getLsbD 16 = true → exec (.debugDisable w) s = .next s))
    ∧ (∀ (r : Fin 256) (n : Nat), ∀ k ∈ [(0x60, Instr.fwChunk r n), (0x61, .fwVerify r n), (0x62, .fwActivate r n), (0x63, .fwConfirm r n)],
      (descAt s r n k.1 = none → exec k.2 s = .next s)
      ∧ ∀ c, descAt s r n k.1 = some c → earlierRuns s fwOps c = true → exec k.2 s = .next s)
    ∧ (∀ (r : Fin 256) (n : Nat) (c : DescCtx), descAt s r n 0x60 = some c → earlierRuns s fwOps c = false →
      let off := (dW2 c.word).toNat
      let len := (dW3 c.word).toNat
      let late : Bool := s.sec.fwState = 4 && !s.boot.recovery
      let f := worst [failIf late 0x30 0, failIf (off % 4096 ≠ 0 || 2 ^ 26 < off + len) 0x30 8, failIf (len % 4096 ≠ 0 || 2 ^ 24 < len) 0x30 0x0C,
        opFault s (dQ c.word 0x10) len 0x10]
      (∀ x, f = some x → exec (.fwChunk r n) s = .next (finishDesc r c.idx x.1 x.2 0 s))
      ∧ (f = none → exec (.fwChunk r n) s = .next (withOperand r c 0 2 (dQ c.word 0x10) len (programChunk r c) s))
      ∧ (∀ (bs : List MByte) (u : State), ∃ t, programChunk r c bs u = t ∧ t.sec.fwState = 1
          ∧ flashOf t.sec (fwSlot u) = (flashOf u.sec (fwSlot u)).putBytes off (plain bs)
          ∧ flashOf t.sec (!fwSlot u) = flashOf u.sec (!fwSlot u) ∧ (standing t.sec).active = (standing u.sec).active
          ∧ (standing t.sec).pending ≠ some (fwSlot u) ∧ (standing t.sec).verified ≠ some (fwSlot u))
      ∧ ∀ a, f = none → placeOf s (dQ c.word 0x10) = .host a → c.asked = 1 → asking s (.desc r c.idx) = false →
        ∃ t, exec (.fwChunk r n) s = .next t ∧ t.sec.fwState = 1
          ∧ flashOf t.sec (fwSlot s) = (flashOf s.sec (fwSlot s)).putBytes off (s.host.getBytes a len))
    ∧ (∀ (r : Fin 256) (n : Nat) (c : DescCtx), descAt s r n 0x61 = some c → earlierRuns s fwOps c = false →
      let m := flashOf s.sec (fwSlot s)
      let res : Dword := if fwField m 0 = 0x46574B56 then BitVec.ofNat 64 (fwField m 4 + 2 ^ 32 * fwField m 8) else 0
      (3 ≤ s.sec.fwState.toNat → exec (.fwVerify r n) s = .next (finishDesc r c.idx 0x30 0 0 s))
      ∧ (s.sec.fwState.toNat < 3 → fwShapeOk m = false → exec (.fwVerify r n) s = .next (finishDesc r c.idx 0x30 0x8000 res s))
      ∧ (s.sec.fwState.toNat < 3 → fwShapeOk m = true → exec (.fwVerify r n) s = .next (
          if Config.featureAccepted (BitVec.ofNat 32 (fwField m 0x10)) = false then finishDesc r c.idx 0x31 1 res s
          else if fwSigned s.sec m = false then finishDesc r c.idx 0x21 0 res s
          else finishDesc r c.idx 0x00 0 res (s.setSec
            { writeRec { standing s.sec with verified := some (fwSlot s) } s.sec with fwState := 2 }))))
    ∧ (∀ (r : Fin 256) (n : Nat) (c : DescCtx), descAt s r n 0x62 = some c → earlierRuns s fwOps c = false →
      (s.sec.fwState = 3 → exec (.fwActivate r n) s = .next (finishDesc r c.idx 0x00 0 0 s))
      ∧ (s.sec.fwState = 2 → ∃ t, exec (.fwActivate r n) s = .next t ∧ t.sec.fwState = 3
        ∧ (standing t.sec).pending = some (fwSlot s) ∧ (standing t.sec).tries = 0 ∧ (standing t.sec).active = (standing s.sec).active)
      ∧ (s.sec.fwState ≠ 2 → s.sec.fwState ≠ 3 → exec (.fwActivate r n) s = .next (finishDesc r c.idx 0x30 0 0 s)))
    ∧ (∀ (r : Fin 256) (n : Nat) (c : DescCtx), descAt s r n 0x63 = some c → earlierRuns s fwOps c = false →
      (s.sec.fwState = 4 → ∃ t, exec (.fwConfirm r n) s = .next t ∧ t.sec.fwState = 0 ∧ (standing t.sec).active = s.sec.bootSlot
        ∧ (standing t.sec).pending = none ∧ (standing t.sec).verified = none ∧ s.sec.arbFused ≤ t.sec.arbFused)
      ∧ (s.sec.fwState ≠ 4 → exec (.fwConfirm r n) s = .next (finishDesc r c.idx 0x30 0 0 s)))

/-- Provisioning objects: an object with a fault answers its status and changes nothing; CLAIM stores slot 0 of a module without an
owner, SET_SLOT and CLEAR_SLOT a key, SET_POLICY the debug lock, RELEASE ends ownership; each taken object keeps its counter (R292 to R294). A mailbox
that does not serve changes nothing. -/
def Obligations.ProvisioningObjects : Prop :=
  (∀ (s : State) (o : ProvObject), doeServes s = false →
    ∀ i ∈ [Instr.claimKeys o, .setSlot o, .clearSlot o, .setPolicy o, .releaseKeys o], exec i s = .next s)
  ∧ ∀ (s : State) (o : ProvObject), doeServes s = true →
    (o.op ≠ 1 ∨ 7 < o.slot.toNat ∨ 7 < o.authSlot.toNat ∨ allZero o.auth = false → exec (.claimKeys o) s = .next (doeAnswer [4] s))
    ∧ (o.op = 1 → o.slot.toNat ≤ 7 → o.authSlot.toNat ≤ 7 → allZero o.auth = true →
      (s.sec.owned = true → exec (.claimKeys o) s = .next (doeAnswer [3] s))
      ∧ (s.sec.owned = false → o.counter ≤ s.sec.counter → exec (.claimKeys o) s = .next (doeAnswer [2] s))
      ∧ (s.sec.owned = false → s.sec.counter < o.counter → ∃ t, exec (.claimKeys o) s = .next t
        ∧ (match Config.aesUnwrap (hkdf384 (Config.ecdhModule o.ephemeral) (ascii "VK2CLAIM") 32) o.wrapped with
          | none => t = doeAnswer [4] s
          | some k => t.out.doe = [0] ∧ t.sec.owned = true ∧ t.sec.counter = o.counter
            ∧ t.sec.slots = s.sec.slots.set 0 ⟨true, fit 32 k, 0x1F⟩)))
    ∧ (∀ st, st ≠ 0 →
      (provStatus s o 2 true = st → exec (.setSlot o) s = .next (doeAnswer [st] s))
      ∧ (provStatus s o 3 (allZero o.wrapped) = st → exec (.clearSlot o) s = .next (doeAnswer [st] s))
      ∧ (provStatus s o 4 (allZero o.wrapped) = st → exec (.setPolicy o) s = .next (doeAnswer [st] s))
      ∧ (provStatus s o 5 (allZero o.wrapped) = st → exec (.releaseKeys o) s = .next (doeAnswer [st] s)))
    ∧ (provStatus s o 2 true = 0 → ∃ t, exec (.setSlot o) s = .next t
      ∧ (match Config.aesUnwrap (hkdf384 (authKey s o).key (ascii "VK2WRAP" ++ leBytes o.counter.toNat 4) 32) o.wrapped with
        | none => t = doeAnswer [4] s
        | some k => t.out.doe = [0] ∧ t.sec.counter = o.counter
          ∧ t.sec.slots = s.sec.slots.set (ix 8 o.slot.toNat) ⟨true, fit 32 k, bits o.rights 0 5⟩))
    ∧ (provStatus s o 3 (allZero o.wrapped) = 0 →
      ((∃ k : Fin 8, k ≠ ix 8 o.slot.toNat ∧ s.sec.slots[k].valid = true ∧ s.sec.slots[k].rights.getLsbD 4 = true) →
        ∃ t, exec (.clearSlot o) s = .next t ∧ t.out.doe = [0] ∧ t.sec.slots = s.sec.slots.set (ix 8 o.slot.toNat) ⟨false, [], 0⟩
          ∧ t.sec.counter = o.counter)
      ∧ ((∀ k : Fin 8, k ≠ ix 8 o.slot.toNat → s.sec.slots[k].valid = true → s.sec.slots[k].rights.getLsbD 4 = false) →
        exec (.clearSlot o) s = .next (doeAnswer [3] s)))
    ∧ (provStatus s o 4 (allZero o.wrapped) = 0 → exec (.setPolicy o) s = .next (doeAnswer [0]
        (s.setSec { s.sec with debugLock := o.policy.getLsbD 0, counter := o.counter })))
    ∧ (provStatus s o 5 (allZero o.wrapped) = 0 → ∃ t, exec (.releaseKeys o) s = .next t ∧ t.out.doe = [0] ∧ t.sec.owned = false
      ∧ t.sec.debugLock = false ∧ t.sec.slots = Vector.replicate 8 ⟨false, [], 0⟩ ∧ t.sec.counter = o.counter)

/-- SPDM requests are answered in their order, unsupported ones with error 7; the signed answers carry a fresh nonce (free, log 7)
and a signature over the transcript, the request and the answer (R291). A mailbox that does not serve changes nothing. -/
def Obligations.SpdmAnswers : Prop :=
  (∀ s : State, doeServes s = false → ∀ (slot : Fin 8) (off len : Half) (asym hash : Word) (op code : Byte) (sign : Bool) (nonce : List Byte),
    ∀ i ∈ [Instr.getVersion, .getCapabilities, .negotiateAlgorithms asym hash, .getDigests, .getCertificate slot off len,
        .spdmChallenge slot nonce, .getMeasurements op sign nonce, .spdmUnsupportedRequest code], exec i s = .next s)
  ∧ ∀ s : State, doeServes s = true →
    (∃ t, exec .getVersion s = .next t ∧ t.out.doe = [0x10, 0x04, 0, 0, 0, 1, 0x00, 0x12] ∧ t.sec.spdmVersion = true
      ∧ t.sec.spdmCaps = false ∧ t.sec.spdmAlgs = false ∧ t.sec.transcript = [0x10, 0x84, 0, 0] ++ t.out.doe)
    ∧ (s.sec.spdmVersion = false → exec .getCapabilities s = .next (spdmError 4 0 s))
    ∧ (s.sec.spdmVersion = true → ∃ t, exec .getCapabilities s = .next t ∧ t.sec.spdmCaps = true
      ∧ t.out.doe = [0x12, 0x61, 0, 0, 0, 0, 0, 0, 0x16, 0, 0, 0]
      ∧ t.sec.transcript = s.sec.transcript ++ [0x12, 0xE1, 0, 0] ++ t.out.doe)
    ∧ (s.sec.spdmCaps = false → ∀ asym hash : Word, exec (.negotiateAlgorithms asym hash) s = .next (spdmError 4 0 s))
    ∧ (s.sec.spdmCaps = true → ∀ asym hash : Word,
      (asym.getLsbD 7 = true → hash.getLsbD 1 = true → ∃ t, exec (.negotiateAlgorithms asym hash) s = .next t
        ∧ t.sec.spdmAlgs = true ∧ t.out.doe = [0x12, 0x63, 0, 0, 0x80, 0, 0, 0, 0x02, 0, 0, 0])
      ∧ (asym.getLsbD 7 = false ∨ hash.getLsbD 1 = false → exec (.negotiateAlgorithms asym hash) s = .next (spdmError 1 0 s)))
    ∧ (s.sec.spdmAlgs = false → exec .getDigests s = .next (spdmError 4 0 s)
      ∧ (∀ slot off len, exec (.getCertificate slot off len) s = .next (spdmError 4 0 s))
      ∧ (∀ slot nonce, exec (.spdmChallenge slot nonce) s = .next (spdmError 4 0 s))
      ∧ ∀ op sign nonce, exec (.getMeasurements op sign nonce) s = .next (spdmError 4 0 s))
    ∧ (s.sec.spdmAlgs = true →
      (∃ t, exec .getDigests s = .next t ∧ t.out.doe = [0x12, 0x01, 0, if s.sec.standbyCert then 0x0F else 0x07]
        ++ (if s.sec.standbyCert then [0, 1, 2, 3] else [0, 1, 2]).flatMap fun i => sha384 (certChain i))
      ∧ (∀ (slot : Fin 8) (off len : Half), exec (.getCertificate slot off len) s =
        .next (if (spdmSlots s.sec).contains slot.val = false ∨ (certChain slot.val).length < off.toNat then spdmError 1 0 s
          else
            let part := ((certChain slot.val).drop off.toNat).take len.toNat
            spdmAnswer (spdmMsg 0x82 slot.val 0 (leBytes off.toNat 2 ++ leBytes len.toNat 2))
              (spdmMsg 0x02 slot.val 0 (leBytes part.length 2
                ++ leBytes ((certChain slot.val).length - off.toNat - part.length) 2 ++ part)) s))
      ∧ (∀ (slot : Fin 8) nonce, (spdmSlots s.sec).contains slot.val = true →
        exec (.spdmChallenge slot nonce) s = .next (signedAnswer slot.val (spdmMsg 0x83 slot.val 0 nonce)
          (spdmMsg 0x03 slot.val (2 ^ slot.val) (sha384 (certChain slot.val))) [0, 0] s))
      ∧ (∀ (slot : Fin 8) nonce, (spdmSlots s.sec).contains slot.val = false → exec (.spdmChallenge slot nonce) s = .next (spdmError 1 0 s))
      ∧ (∀ (op : Byte) sign nonce, 3 < op.toNat → op ≠ 0xFF → exec (.getMeasurements op sign nonce) s = .next (spdmError 1 0 s))
      ∧ (∀ nonce, ∃ t, exec (.getMeasurements 0 false nonce) s = .next t ∧ t.out.doe =
        [0x12, 0x60, 3, 0, 0, 0, 0, 0] ++ leBytes (Config.freeWord s.free).toNat 32 ++ [0, 0])
      ∧ (∀ (op : Byte) nonce, op.toNat ≤ 3 ∨ op = 0xFF →
        let which := if op = 0 then [] else if op = 0xFF then [1, 2, 3] else [op.toNat]
        let b := which.flatMap (measBlock s.sec)
        let head := spdmMsg 0x60 (if op = 0 then 3 else 0) 0 ([BitVec.ofNat 8 which.length] ++ leBytes b.length 3 ++ b)
        exec (.getMeasurements op true nonce) s = .next (signedAnswer 0 (spdmMsg 0xE0 1 op.toNat nonce) head [0, 0] s)
        ∧ ∃ t, exec (.getMeasurements op false nonce) s = .next t ∧ t.sec.transcript = s.sec.transcript ++ spdmMsg 0xE0 0 op.toNat nonce ++ t.out.doe
          ∧ t.out.doe = head ++ leBytes (Config.freeWord s.free).toNat 32 ++ [0, 0] ∧ t.free = s.free + 1))
    ∧ ∀ code : Byte, exec (.spdmUnsupportedRequest code) s = .next (s.setOut { s.out with doe := [0x12, 0x7F, 0x07, code] })

/-- A cluster that answers the heartbeat keeps its moment, one silent for 1 ms fails and restarts without its launch,
or leaves service with its third failure or a reset that does not complete; a seam group
replays over a failed lane, is disabled by a second; the ledger's buffer moves to flash, and LEDGER_SEL loads an entry (R469 to R473, R477, R480). -/
def Obligations.HeartbeatsSeamsAndLedger : Prop :=
  ∀ s : State,
    (∀ answered stuck : BitVec 48, s.boot.step.toNat < 6 ∨ s.pwr.mstate ≠ 0 ∨ s.boot.recovery = true →
      exec (.clusterHeartbeatPoll answered stuck) s = .next s)
    ∧ (∀ answered stuck : BitVec 48, 6 ≤ s.boot.step.toNat → s.pwr.mstate = 0 → s.boot.recovery = false →
      let silent (cl : Fin 48) : Prop :=
        (s.cluster cl).inService = true ∧ answered.getLsbD cl.val = false ∧ (s.cluster cl).lastAnswer.toNat + 1000000 ≤ s.ns
      ((∀ cl, ¬ silent cl) →
        ∃ t, exec (.clusterHeartbeatPoll answered stuck) s = .next t ∧ t = { s with clusters := t.clusters }
          ∧ ∀ cl : Fin 48, t.cluster cl = if (s.cluster cl).inService = true ∧ answered.getLsbD cl.val = true
              then { s.cluster cl with lastAnswer := BitVec.ofNat 64 s.ns } else s.cluster cl)
      ∧ (∀ cl : Fin 48, silent cl → (∀ cl', cl' ≠ cl → ¬ silent cl') →
        ∃ t, exec (.clusterHeartbeatPoll answered stuck) s = .next t ∧ (t.sk cl).st ≠ .run ∧ (t.sk cl).events = []
          ∧ (t.cluster cl).prun = [] ∧ (∀ j k : Fin 8, (t.station (coreOf cl j.val) k).state = .idle)
          ∧ (t.sk cl).imem = (s.sk cl).imem ∧ (t.sk cl).dmem = (s.sk cl).dmem ∧ (t.cluster cl).failures = recentFailures s cl
          ∧ ((recentFailures s cl).length < 3 → stuck.getLsbD cl.val = false → (t.cluster cl).inService = true)
          ∧ (3 ≤ (recentFailures s cl).length ∨ stuck.getLsbD cl.val = true → (t.cluster cl).inService = false ∧ t.boot.degraded = true)))
    ∧ (∀ (sm : Fin 12) (g : Fin 32), s.seams[sm][g].disabled = true →
      exec (.seamFlitReplay sm g) s = .next s ∧ ∀ lane, exec (.seamLaneFail sm g lane) s = .next s)
    ∧ (∀ (sm : Fin 12) (g : Fin 32) (lane : Fin 17), lane ∈ s.seams[sm][g].failed → exec (.seamLaneFail sm g lane) s = .next s)
    ∧ (∀ (sm : Fin 12) (g : Fin 32) (lane : Fin 17), s.seams[sm][g].disabled = false →
      (s.seams[sm][g].failed = [] → ∃ t, exec (.seamLaneFail sm g lane) s = .next t ∧ t.seams[sm][g].failed = [lane]
        ∧ t.seams[sm][g].disabled = false ∧ t.clusters = s.clusters ∧ t.cores = s.cores)
      ∧ (s.seams[sm][g].failed ≠ [] → lane ∉ s.seams[sm][g].failed → ∃ t, exec (.seamLaneFail sm g lane) s = .next t
        ∧ t.seams[sm][g].disabled = true ∧ t.boot.degraded = true)
      ∧ (∃ t, exec (.seamFlitReplay sm g) s = .next t ∧ t.seams[sm][g] = { s.seams[sm][g] with replays := s.seams[sm][g].replays + 1 }
        ∧ t = { s with seams := t.seams }))
    ∧ (∃ t, exec .ledgerFlush s = .next t ∧ t.ledger.buffer = [] ∧ t.ledger.seqNo = s.ledger.seqNo
      ∧ t.ledger.sections = (s.ledger.buffer.foldl (fun l x => flashEntry l x.1) s.ledger).sections ∧ t = s.setLedger t.ledger)
    ∧ (∀ w : Word,
      (∀ e, ledgerFrom s.ledger w = some e → exec (.ledgerLoad w) s = .next (s.setLedger
        { s.ledger with sel := w, valid := true, skipped := decide (e.seqNo ≠ w), data := ledgerBytes e }))
      ∧ (ledgerFrom s.ledger w = none → exec (.ledgerLoad w) s = .next (s.setLedger
        { s.ledger with sel := w, valid := false, skipped := false, data := List.replicate 32 0 })))

/-- Host register accesses (R247, R257, R453, R485, R486): an access whose offset is no multiple of its size has no effect, and reads zero; a
64-bit write is whole; a write over two registers writes both, the lower first; a 32-bit write of a 64-bit register's low half is held until
its high half comes; reading a low half latches the high half, and the next read of the high half answers it; BAR2 and offsets of no register
read as 0. An access in Sleep wakes the module first, where the link is a wake source, and never arrives where it is not. -/
def Obligations.HostRegisterAccesses : Prop :=
  (∀ (s : State) (off : Half) (size : Nat) (v : Dword) (bar2 : Bool),
    let i := Instr.registerWrite off size v
    let j := Instr.lowHalfRead bar2 off size
    (s.pwr.mstate = 2 → s.pwr.pcieEn = false → exec i s = .next s ∧ exec j s = .next s)
    ∧ (s.pwr.mstate = 2 → s.pwr.pcieEn = true →
      exec i s = .next (hostWrite off.toNat size v (wakeUp 2 s)) ∧ exec j s = .next (hostRead bar2 off.toNat size (wakeUp 2 s)))
    ∧ (s.pwr.mstate = 1 → s.pwr.pcieEn = true →
      let t := s.setPwr { s.pwr with wakes := s.pwr.wakes ||| 2 }
      exec i s = .next (hostWrite off.toNat size v t) ∧ exec j s = .next (hostRead bar2 off.toNat size t))
    ∧ (s.pwr.mstate ≠ 2 → s.pwr.mstate ≠ 1 ∨ s.pwr.pcieEn = false →
      exec i s = .next (hostWrite off.toNat size v s) ∧ exec j s = .next (hostRead bar2 off.toNat size s)))
  ∧ (∀ (s : State) (off : Half) (v : Dword),
    let o := off.toNat
    let lo : Word := bits v 0 32
    let hi : Word := bits v 32 32
    (∀ size, o % size ≠ 0 ∨ (size ≠ 2 ∧ size ≠ 4 ∧ size ≠ 8) → hostWrite o size v s = s)
    ∧ (o % 2 = 0 →
      (∀ x, regAt o = some (x, o) → x.width = 2 → hostWrite o 2 v s = x.write ((bits v 0 16 : Half).setWidth 64) s)
      ∧ (regAt o = none ∨ (∃ x b, regAt o = some (x, b) ∧ (x.width ≠ 2 ∨ b ≠ o)) → hostWrite o 2 v s = s))
    ∧ (o % 4 = 0 →
      (regAt o = none → hostWrite o 4 v s = s)
      ∧ (∀ x b, regAt o = some (x, b) → x.width = 4 → hostWrite o 4 v s = x.write (lo.setWidth 64) s)
      ∧ (∀ x y, regAt o = some (x, o) → x.width = 2 → regAt (o + 2) = some (y, o + 2) → y.width = 2 →
        hostWrite o 4 v s = y.write ((bits lo 16 16 : Half).setWidth 64) (x.write ((bits lo 0 16 : Half).setWidth 64) s))
      ∧ (∀ x, regAt o = some (x, o) → x.width = 8 → ∃ t, hostWrite o 4 v s = t ∧ t.pcie.staged.head? = some (o, lo)
          ∧ t = s.setPcie { s.pcie with staged := t.pcie.staged })
      ∧ (∀ x b, regAt o = some (x, b) → b ≠ o → x.width = 8 →
        hostWrite o 4 v s = x.write (lo ++ ((s.pcie.staged.find? fun y => y.1 = b).map Prod.snd).getD (bits (x.value s) 0 32)) (unstage b s)))
    ∧ (o % 8 = 0 →
      (∀ x b, regAt o = some (x, b) → x.width = 8 → hostWrite o 8 v s = x.write v (unstage b s))
      ∧ (∀ x y b c, regAt o = some (x, b) → x.width = 4 → regAt (o + 4) = some (y, c) → y.width = 4 →
        hostWrite o 8 v s = y.write (hi.setWidth 64) (x.write (lo.setWidth 64) s))
      ∧ (regAt o = none → regAt (o + 4) = none → hostWrite o 8 v s = s)))
  ∧ ∀ (s : State) (off : Half),
    let o := off.toNat
    let answer (x : Dword) (t : State) : State := t.setOut { t.out with read := x }
    (∀ size, hostRead true o size s = answer 0 s)
    ∧ (∀ size, o % max 1 size ≠ 0 ∨ (size ≠ 2 ∧ size ≠ 4 ∧ size ≠ 8) → hostRead false o size s = answer 0 s)
    ∧ (o % 8 = 0 → hostRead false o 8 s = answer (peek4 s (o + 4) ++ peek4 s o) s)
    ∧ (o % 4 = 0 →
      (latches o = true → ∃ t, hostRead false o 4 s = answer ((peek4 s o).setWidth 64) t
        ∧ t.pcie.latched.head? = some (o + 4, peek4 s (o + 4)) ∧ t = s.setPcie { s.pcie with latched := t.pcie.latched })
      ∧ (latches o = false → (∀ y ∈ s.pcie.latched, y.1 ≠ o) → hostRead false o 4 s = answer ((peek4 s o).setWidth 64) s)
      ∧ (∀ y, latches o = false → s.pcie.latched.find? (fun y => y.1 = o) = some y → hostRead false o 4 s = answer (y.2.setWidth 64)
          (s.setPcie { s.pcie with latched := s.pcie.latched.filter fun x => x.1 ≠ o })))
    ∧ (o % 2 = 0 →
      (∀ x, regAt o = some (x, o) → x.width = 2 → hostRead false o 2 s = answer ((bits (x.value s) 0 16 : Half).setWidth 64) s)
      ∧ (regAt o = none ∨ (∃ x b, regAt o = some (x, b) ∧ (x.width ≠ 2 ∨ b ≠ o)) → hostRead false o 2 s = answer 0 s))
    ∧ (regAt o = none → peek4 s o = 0)
    ∧ (∀ x y b c, regAt o = some (x, b) → x.width = 2 → regAt (o + 2) = some (y, c) →
      peek4 s o = (bits (y.value s) 0 16 : Half) ++ (bits (x.value s) 0 16 : Half))
    ∧ (∀ x b, regAt o = some (x, b) → x.width = 4 ∨ (x.width = 8 ∧ o = b) → peek4 s o = bits (x.value s) 0 32)
    ∧ (∀ x b, regAt o = some (x, b) → x.width = 8 → o ≠ b → peek4 s o = bits (x.value s) 32 32)

/-- An unsequenced frame that R336 allows has its link fields' effect, a REPROOF is counted and logged besides, and one with a fault is a
violation; a sequenced frame is accepted, asks for a replay, is a duplicate or a violation by its SEQ (R313); every frame is answered by the
next one sent, an IDLE frame where there is none (R311, R312); 256 bytes that fail their CRC set NAK, and a codeword with more than 8 symbol
errors counts as uncorrectable (R309, R310). The oldest unacknowledged frame is sent again after 2 µs, and the link is lost after 8 fruitless replays; a
quarantine ends in a new haggle; a RETRY tries each 1 ms and ends after 100 ms (R314, R336 to R338, R342, R345).

PORT_CFG and the lane sweep (R354, R357, R359): ENABLE 0 takes the port down; REHAGGLE starts a haggle on a port that is not DOWN, RETRAIN a
retrain on an UP one, CNT_CLEAR clears the port's counters; a sweep runs under debug and answers its margins. A command
whose condition does not hold does nothing. -/
def Obligations.LinksAndPortConfiguration : Prop :=
  (∀ (s : State) (pt : Fin 16) (f : Frame) (eff : State → State),
    let p := s.port pt
    let acc := s.setPort pt p.accepted
    (seqAct p.expects f.seq = .lost → recvSequenced pt f eff s = answered pt s (linkFields pt f (s.setPort pt { p with nak := true })))
    ∧ (seqAct p.expects f.seq = .duplicate → recvSequenced pt f eff s = answered pt s (linkFields pt f s))
    ∧ (seqAct p.expects f.seq = .outside → recvSequenced pt f eff s = answered pt s (violation pt 2 true f (heard pt s)))
    ∧ (seqAct p.expects f.seq = .accept → frameFault p f = none → recvSequenced pt f eff s = answered pt s (eff (linkFields pt f acc)))
    ∧ (∀ code, seqAct p.expects f.seq = .accept → frameFault p f = some code → recvSequenced pt f eff s = answered pt s
        (violation pt code true f (heard pt (if f.typ = 1 ∧ f.vc.toNat < 4 then freeBuffer pt (poolOf f) acc else acc))))
    ∧ (seqAct p.expects f.seq = .accept ↔ f.seq = p.expects)
    ∧ (∀ t : State,
      ((t.port pt).sending = false ∨ (t.port pt).sent.length ≠ p.sent.length → answered pt s t = t)
      ∧ ((t.port pt).sending = true → (t.port pt).sent.length = p.sent.length →
        ∃ g, answered pt s t = t.setPort pt { t.port pt with sent := (t.port pt).sent ++ [g] } ∧ g.typ = 0
          ∧ g.ack = (t.port pt).expects - 1 ∧ g.nak = (t.port pt).nak ∧ g.ackValid = (t.port pt).ackValid)))
  ∧ (∀ f : Frame, crcPasses (frameImage f) = true)
  ∧ (∀ (s : State) (pt : Fin 16),
    let p := s.port pt
    (∀ f fixed, p.receives = false ∨ (f.typ ≠ 0 ∧ f.typ.toNat < 5) → exec (.idleFrame pt f fixed) s = .next s)
    ∧ (∀ f fixed, p.receives = true → f.typ = 0 ∨ 5 ≤ f.typ.toNat →
      let s1 := countFixed pt fixed s
      (frameFault (s1.port pt) f = none → exec (.idleFrame pt f fixed) s = .next (answered pt s1 (linkFields pt f s1)))
      ∧ (∀ code, frameFault (s1.port pt) f = some code →
        exec (.idleFrame pt f fixed) s = .next (answered pt s1 (violation pt code true f (heard pt s1))))
      ∧ ((∀ l : Fin 9, p.laneFixed[l] + fixed.length < 1024) → (s1.port pt).corrected = satAdd p.corrected fixed.length
        ∧ s1 = s.setPort pt { p with corrected := (s1.port pt).corrected, laneFixed := (s1.port pt).laneFixed, laneWindow := s.ns / 1000000 }))
    ∧ (∀ raw errs, p.receives = false ∨ crcPasses raw = true → exec (.crcFailedFrame pt raw errs) s = .next s)
    ∧ (∀ raw errs, p.receives = true → crcPasses raw = false → exec (.crcFailedFrame pt raw errs) s = .next (answered pt s (s.setPort pt
        { p with nak := true, uncorrectable := satAdd p.uncorrectable (if 8 < errs then 1 else 0) })))
    ∧ (let buf := if p.haggling then p.hgBuf else p.buf
      (buf = [] → exec (.replayTimer pt) s = .next s)
      ∧ ∀ e l, buf = e :: l →
        ((p.haggling = false ∧ p.state ≠ 3) ∨ s.ns < e.sentAt + 2000 → exec (.replayTimer pt) s = .next s)
        ∧ (p.haggling = false → p.state = 3 → e.sentAt + 2000 ≤ s.ns →
          (p.fruitless + 1 < 8 → ∃ t, exec (.replayTimer pt) s = .next t ∧ (t.port pt).replays = satAdd p.replays 1
            ∧ (t.port pt).buf = p.buf.map (fun e => { e with sentAt := s.ns }) ∧ (t.port pt).fruitless = p.fruitless + 1
            ∧ (t.port pt).sent.length = p.sent.length + p.buf.length ∧ (t.port pt).state = 3 ∧ ∀ q, q ≠ pt → t.port q = s.port q)
          ∧ (8 ≤ p.fruitless + 1 → ∃ t, exec (.replayTimer pt) s = .next t ∧ (t.port pt).state = 5
            ∧ (t.port pt).retrySince = some s.ns))
        ∧ (p.haggling = true → e.sentAt + 2000 ≤ s.ns →
          (p.fruitless + 1 < 8 → ∃ t, exec (.replayTimer pt) s = .next t ∧ (t.port pt).replays = satAdd p.replays 1
            ∧ (t.port pt).hgBuf = p.hgBuf.map (fun e => { e with sentAt := s.ns }) ∧ (t.port pt).fruitless = p.fruitless + 1
            ∧ (t.port pt).state = p.state ∧ ∀ q, q ≠ pt → t.port q = s.port q)
          ∧ (8 ≤ p.fruitless + 1 → ∃ t, exec (.replayTimer pt) s = .next t ∧ (t.port pt).state = 0)))
    ∧ (∀ f, p.receives = false ∨ f.typ ≠ 2 → exec (.reproofFrame pt f) s = .next s)
    ∧ (∀ f, p.receives = true → f.typ = 2 →
      (frameFault p f = none → exec (.reproofFrame pt f) s = .next (answered pt s (violationEntry pt 0 f ((linkFields pt f s).setPort pt
        { (linkFields pt f s).port pt with reproofs := satAdd ((linkFields pt f s).port pt).reproofs 1 }))))
      ∧ (∀ code, frameFault p f = some code →
        exec (.reproofFrame pt f) s = .next (answered pt s (violation pt code false f (heard pt s)))))
    ∧ (p.quarEnd = none ∨ (∃ t, p.quarEnd = some t ∧ s.ns < t) ∨ p.state ≠ 6 → exec (.quarantineEnd pt) s = .next s)
    ∧ (∀ t, p.quarEnd = some t → t ≤ s.ns → p.state = 6 → ∃ u, exec (.quarantineEnd pt) s = .next u ∧ (u.port pt).state = 1
      ∧ (u.port pt).phase = 0 ∧ (u.port pt).quarEnd = none ∧ ∀ q, q ≠ pt → u.port q = s.port q)
    ∧ (p.retrySince = none ∨ (∃ t, p.retrySince = some t ∧ s.ns < t + 100000000) ∨ p.state ≠ 5 → exec (.retryExpiry pt) s = .next s)
    ∧ (∀ t, p.retrySince = some t → p.state = 5 → t + 100000000 ≤ s.ns →
      ∃ u, exec (.retryExpiry pt) s = .next u ∧ (u.port pt).state = 0 ∧ (u.port pt).buf = [] ∧ (u.port pt).retrySince = none)
    ∧ (p.state ≠ 5 ∨ s.ns < p.retryAt + 1000000 → exec (.retryAttempt pt) s = .next s)
    ∧ (p.state = 5 → p.retryAt + 1000000 ≤ s.ns → ∃ u, exec (.retryAttempt pt) s = .next u ∧ (u.port pt).retryAt = s.ns
      ∧ (u.port pt).sent.length = p.sent.length + 16 ∧ (u.port pt).state = 5))
  ∧ (∀ (s : State) (pt : Fin 16) (w : Word),
    let p := s.port pt
    (∀ k ∈ [(w.getLsbD 0, Instr.portEnable pt w), (!w.getLsbD 0, .portDisable pt w), (w.getLsbD 2, .portRetrain pt w),
        (w.getLsbD 3, .rehaggle pt w), (w.getLsbD 4, .portCntClear pt w)],
      exec k.2 s = .next (if k.1 then portCfgWrite pt w s else s))
    ∧ (∃ t, portCfgWrite pt w s = t ∧ (t.port pt).enable = w.getLsbD 0 ∧ (t.port pt).certReq = w.getLsbD 1
      ∧ (t.port pt).laneFailThr = bits w 8 5
      ∧ (w.getLsbD 4 = true → (t.port pt).corrected = 0 ∧ (t.port pt).uncorrectable = 0 ∧ (t.port pt).replays = 0
        ∧ (t.port pt).viol = Vector.replicate 5 0 ∧ (t.port pt).reproofs = 0 ∧ (t.port pt).quarantines = 0)
      ∧ (w.getLsbD 4 = false → (t.port pt).corrected = p.corrected ∧ (t.port pt).uncorrectable = p.uncorrectable
        ∧ (t.port pt).replays = p.replays ∧ (t.port pt).viol = p.viol ∧ (t.port pt).reproofs = p.reproofs
        ∧ (t.port pt).quarantines = p.quarantines)
      ∧ (w.getLsbD 0 = false → (t.port pt).state = 0 ∧ (t.port pt).buf = [])
      ∧ (w.getLsbD 0 = true → w.getLsbD 3 = true → p.state ≠ 0 → (t.port pt).state = 1 ∧ (t.port pt).phase = 0 ∧ (t.port pt).hgTx = 0
        ∧ (t.port pt).hgRx = 0)
      ∧ (w.getLsbD 0 = true → w.getLsbD 3 = false → w.getLsbD 2 = true → p.state = 3 →
        (t.port pt).state = 4 ∧ (t.port pt).sent.length = p.sent.length + 16)
      ∧ (w.getLsbD 0 = true → w.getLsbD 3 = false ∨ p.state = 0 → w.getLsbD 2 = false ∨ p.state ≠ 3 → w.getLsbD 4 = false →
        t = s.setPort pt { p with enable := true, certReq := w.getLsbD 1, laneFailThr := bits w 8 5 })
      ∧ (w.getLsbD 0 = true → w.getLsbD 3 = false ∨ p.state = 0 → w.getLsbD 2 = false ∨ p.state ≠ 3 →
        (t.port pt).state = p.state ∧ (t.port pt).sent = p.sent ∧ ∀ q, q ≠ pt → t.port q = s.port q))
    ∧ (w.getLsbD 4 = true → s.sec.dbgActive = true → p.sweepState ≠ 1 →
      ((bits w 0 4 : BitVec 4).toNat < 9 → exec (.laneSweepStart pt w) s =
        .next (s.setPort pt { p with sweepLane := bits w 0 4, sweepState := 1 }))
      ∧ (9 ≤ (bits w 0 4 : BitVec 4).toNat → exec (.laneSweepStart pt w) s =
        .next (s.setPort pt { p with sweepLane := bits w 0 4, sweepState := 3 })))
    ∧ (w.getLsbD 4 = false ∨ s.sec.dbgActive = false ∨ p.sweepState = 1 → exec (.laneSweepStart pt w) s = .next s)
    ∧ (∀ v h, p.sweepState ≠ 1 → exec (.laneSweepDone pt v h) s = .next s)
    ∧ (∀ v h, p.sweepState = 1 → exec (.laneSweepDone pt v h) s =
      .next (s.setPort pt { p with sweepState := 2, vMargin := v, hMargin := h })))

/-- The haggle (R324 to R327, R340, R343): a partner's signal on an open, enabled port sends HELLO over the lanes that work, or takes the
port down where too few do; each haggle frame in order has its phase's effect after its link fields; a HELLO at a port that had a link, or
of another partner, starts the haggle anew, and a JOIN at an UP port makes step 8 again; a certificate that has not come in 70 ms blocks the
port with cause 3.

Retrains: a retrain frame of the known partner is answered with its T_SEND, 16 echoes end the retrain, one of another partner starts a full
haggle, the pattern starts a retrain on an UP port, and a lane that fails lowers the port's width and retrains it, or takes it down (R339
to R343). A command whose condition does not hold does nothing. -/
def Obligations.PortsHaggleAndRetrain : Prop :=
  (∀ (s : State) (pt : Fin 16),
    let p := s.port pt
    (∀ tx rx : BitVec 9, p.enable = false ∨ s.boot.step.toNat < 8 ∨ s.boot.recovery = true ∨ s.pwr.mstate ≠ 0
        ∨ (p.state ≠ 0 ∧ (p.state ≠ 1 ∨ p.phase ≠ 0)) → exec (.partnerSignalDetect pt tx rx) s = .next s)
    ∧ (∀ tx rx : BitVec 9, p.enable = true → 8 ≤ s.boot.step.toNat → s.boot.recovery = false → s.pwr.mstate = 0 →
      p.state = 0 ∨ (p.state = 1 ∧ p.phase = 0) →
      (widthOf tx ≠ 0 → widthOf rx ≠ 0 → ∃ t f, exec (.partnerSignalDetect pt tx rx) s = .next t
        ∧ (t.port pt).state = 1 ∧ (t.port pt).phase = 1 ∧ (t.port pt).txLanes = widthOf tx ∧ (t.port pt).rxLanes = widthOf rx
        ∧ (t.port pt).hgTx = 1 ∧ (t.port pt).sent = p.sent ++ [f] ∧ f.typ = 3 ∧ hPhase f = 1 ∧ f.payload = (t.port pt).ownHello)
      ∧ (widthOf tx = 0 ∨ widthOf rx = 0 → ∃ t, exec (.partnerSignalDetect pt tx rx) s = .next t ∧ (t.port pt).state = 0
        ∧ (t.port pt).txLanes = 0 ∧ t.boot.degraded = true))
    ∧ (∀ (f : Frame) (k : Nat × Instr × (State → State)),
      k ∈ [(1, Instr.helloFrame pt f, onHello pt f), (2, .pingFrame pt f, fun t => sendHaggle pt 3 (hSend f) [] t),
        (3, .echoFrame pt f, onEcho pt f), (4, .certFrame pt f, onCert pt f), (5, .joinFrame pt f, onJoin pt f)] →
      let other : Prop := k.1 = 1 ∧ (p.state = 2 ∨ (p.state = 1 ∧ 2 ≤ p.phase)) ∧ p.known = true ∧ samePartner p f = false
        ∧ frameFault { p with verAgreed := 0 } f = none
      (p.receives = false ∨ f.typ ≠ 3 ∨ hPhase f ≠ k.1 → exec k.2.1 s = .next s)
      ∧ (p.receives = true → f.typ = 3 → hPhase f = k.1 →
        (other → exec k.2.1 s = .next (startHaggle pt s))
        ∧ (¬ other → p.haggling = true → exec k.2.1 s = .next (recvSequenced pt f k.2.2 s))
        ∧ (p.haggling = true → f.seq = p.hgRx → frameFault p f = none → ¬ other →
          exec k.2.1 s = .next (answered pt s (k.2.2 (linkFields pt f (s.setPort pt p.accepted)))))
        ∧ (p.haggling = false → k.1 = 1 → frameFault { p with verAgreed := 0 } f = none → exec k.2.1 s = .next (startHaggle pt s))
        ∧ (p.haggling = false → k.1 = 5 → p.state = 3 → f.seq = p.hgRx →
          exec k.2.1 s = .next (recvSequenced pt f k.2.2 (sendJoin pt (s.setPort pt { p with state := 2, phase := 5 }))))
        ∧ (p.haggling = false → (k.1 = 1 → frameFault { p with verAgreed := 0 } f ≠ none) → (k.1 = 5 → p.state ≠ 3 ∨ f.seq ≠ p.hgRx) →
          exec k.2.1 s = .next s)))
    ∧ (p.state = 1 → p.phase = 4 → p.signalAt + 70000000 ≤ s.ns →
      ∃ t, exec (.certTimeout pt) s = .next t ∧ (t.port pt).state = 7 ∧ (t.port pt).blockCause = 3)
    ∧ (p.state ≠ 1 ∨ p.phase ≠ 4 ∨ s.ns < p.signalAt + 70000000 → exec (.certTimeout pt) s = .next s))
  ∧ (∀ (s : State) (pt : Fin 16),
    let p := s.port pt
    (∀ f, ∀ k ∈ [(6, Instr.retrainFrame pt f), (7, .retrainEcho pt f)],
      (p.receives = false ∨ f.typ ≠ 4 ∨ hPhase f ≠ k.1 ∨ p.state.toNat < 3 ∨ 5 < p.state.toNat → exec k.2 s = .next s)
      ∧ (p.receives = true → f.typ = 4 → hPhase f = k.1 → 3 ≤ p.state.toNat → p.state.toNat ≤ 5 →
        (∀ code, frameFault p f = some code → exec k.2 s = .next (answered pt s (violation pt code true f (heard pt s))))
        ∧ (frameFault p f = none → samePartner p f = false → exec k.2 s = .next (startHaggle pt s))))
    ∧ (∀ f, p.receives = true → f.typ = 4 → 3 ≤ p.state.toNat → p.state.toNat ≤ 5 → frameFault p f = none → samePartner p f = true →
      let s1 := linkFields pt f s
      (hPhase f = 6 →
        let s2 := enterRetrain pt s1
        exec (.retrainFrame pt f) s =
          .next (answered pt s (sendRetrain pt 7 (hSend f) (s2.setPort pt { s2.port pt with peerNext := hRxNext f }))))
      ∧ (hPhase f = 7 → (s1.port pt).state = 3 → exec (.retrainEcho pt f) s = .next (answered pt s s1))
      ∧ (hPhase f = 7 → (s1.port pt).state ≠ 3 →
        let s2 := s1.setPort pt { s1.port pt with
          samples := (s1.port pt).samples ++ [flightSample (s1.port pt) s1.time.mt (hSend f)], peerNext := hRxNext f }
        ((s1.port pt).samples.length < 15 → exec (.retrainEcho pt f) s = .next (answered pt s s2))
        ∧ (15 ≤ (s1.port pt).samples.length → exec (.retrainEcho pt f) s = .next (answered pt s (retrainDone pt s2)))))
    ∧ (p.state = 3 → ∃ t, exec (.retrainPatternDetect pt) s = .next t ∧ (t.port pt).state = 4
      ∧ (t.port pt).sent.length = p.sent.length + 16 ∧ (t.port pt).samples = [] ∧ ∀ q, q ≠ pt → t.port q = s.port q)
    ∧ (p.state ≠ 3 → exec (.retrainPatternDetect pt) s = .next s)
    ∧ (∀ rx lane, (p.state ≠ 3 ∧ p.state ≠ 4) ∨ (if rx then p.rxFailed else p.txFailed).getLsbD lane.val = true →
      exec (.laneFail pt rx lane) s = .next s)
    ∧ (∀ rx lane, p.state = 3 ∨ p.state = 4 → (if rx then p.rxFailed else p.txFailed).getLsbD lane.val = false →
      let now := (if rx then p.rxFailed else p.txFailed) ||| BitVec.ofNat 9 (2 ^ lane.val)
      (widthOf now = 0 → ∃ t, exec (.laneFail pt rx lane) s = .next t ∧ (t.port pt).state = 0 ∧ t.boot.degraded = true)
      ∧ (widthOf now ≠ 0 → ∃ t, exec (.laneFail pt rx lane) s = .next t ∧ (t.port pt).state = 4 ∧ t.boot.degraded = true
        ∧ (if rx then (t.port pt).rxFailed else (t.port pt).txFailed) = now
        ∧ (if rx then (t.port pt).rxLanes else (t.port pt).txLanes) = (if p.narrowed then 4 else widthOf now))))

/-- A message that arrives in order with a buffer granted to its pool has its operation's effect when it is addressed to this module
(a restart notice wherever it is addressed), and gives its buffer back; another is held for the router; one whose pool is full, or with a
fault, is a violation; each is answered by the next frame sent (R311, R313, R317, R320, R336, R343). A frame that is not the row's, or at a
port that is not UP, does nothing. -/
def Obligations.MessagesTakeEffectHere : Prop :=
  (∀ (s : State) (pt : Fin 16) (f : Frame),
    let p := s.port pt
    let s1 := linkFields pt f (s.setPort pt p.accepted)
    let x := (s1.port pt).pools[poolOf f]
    let here (y : State × Bool) : State := if y.2 then freeBuffer pt (poolOf f) y.1 else y.1
    ∀ m ∈ [(0, 0x01, Instr.writeMsg pt f), (0, 0x02, .readMsg pt f), (1, 0x11, .writeDone pt f), (1, 0x12, .readData pt f),
        (1, 0x13, .rejectMsg pt f), (3, 0x30, .restartNotice pt f), (3, 0x31, .sweepReq pt f), (3, 0x32, .sweepResult pt f),
        (2, 0x20, .stepOpen pt f), (2, 0x21, .rsData pt f), (2, 0x22, .agData pt f), (2, 0x23, .bcData pt f),
        (2, 0x24, .pipeReady pt f), (2, 0x25, .pipeData pt f), (2, 0x26, .arriveMsg pt f), (2, 0x27, .normPart pt f),
        (3, 0x38, .timeSync pt f)],
      let named : Prop := f.vc.toNat = m.1 ∧ f.op.toNat = m.2.1
      (p.receives = false ∨ p.state ≠ 3 ∨ f.typ ≠ 1 ∨ (¬ named ∧ frameFault p f = none) → exec m.2.2 s = .next s)
      ∧ (p.receives = true → p.state = 3 → f.typ = 1 →
        (named ∨ frameFault p f ≠ none → seqAct p.rxNext f.seq = .lost →
          exec m.2.2 s = .next (answered pt s (linkFields pt f (s.setPort pt { p with nak := true }))))
        ∧ (named ∨ frameFault p f ≠ none → seqAct p.rxNext f.seq = .duplicate → exec m.2.2 s = .next (answered pt s (linkFields pt f s)))
        ∧ (named ∨ frameFault p f ≠ none → seqAct p.rxNext f.seq = .outside →
          exec m.2.2 s = .next (answered pt s (violation pt 2 true f (heard pt s))))
        ∧ (∀ code, frameFault p f = some code → f.seq = p.rxNext → exec m.2.2 s = .next (answered pt s (violation pt code true f
            (heard pt (if f.vc.toNat < 4 then freeBuffer pt (poolOf f) (s.setPort pt p.accepted) else s.setPort pt p.accepted)))))
        ∧ (named → frameFault p f = none → f.seq = p.rxNext →
          (x.granted ≤ x.held.length + waitingIn s1 pt (poolOf f) → exec m.2.2 s = .next (answered pt s (violation pt 3 true f s1)))
          ∧ (x.held.length + waitingIn s1 pt (poolOf f) < x.granted →
            (f.dest = s1.mach.logical ∨ m.2.1 = 0x30 →
              (m.2.1 ≠ 0x38 → exec m.2.2 s = .next (answered pt s (here (effectOf pt f s1))))
              ∧ (m.2.1 = 0x38 → exec m.2.2 s = .next (answered pt s (here (onSync pt f s1, true)))))
            ∧ (f.dest ≠ s1.mach.logical → m.2.1 ≠ 0x30 → exec m.2.2 s = .next (answered pt s (s1.setPort pt { s1.port pt with
                pools := (s1.port pt).pools.set (poolOf f) { x with held := x.held ++ [⟨f, none, false⟩] } })))))))
  ∧ ∀ (s : State) (pt : Fin 16) (f : Frame),
    (f.vc = 0 → f.op = 0x01 → effectOf pt f s = (onWrite f s, true)) ∧ (f.vc = 0 → f.op ≠ 0x01 → effectOf pt f s = (onRead f s, true))
    ∧ (f.vc = 1 → f.op = 0x11 → effectOf pt f s = (onWriteDone f (noteEpoch f s), true))
    ∧ (f.vc = 1 → f.op = 0x12 → effectOf pt f s = (onReadData f (noteEpoch f s), true))
    ∧ (f.vc = 1 → f.op = 0x13 → effectOf pt f s = (onReject f (noteEpoch f s), true))
    ∧ (f.vc = 2 → staleEpoch s f = true → effectOf pt f s = (refuseStale f s, true))
    ∧ (f.vc = 2 → staleEpoch s f = false → effectOf pt f s = collArrive pt f s)
    ∧ (f.vc = 3 → f.op = 0x30 → effectOf pt f s = (onNotice (some pt) f s, true))
    ∧ (f.vc = 3 → f.op = 0x31 → effectOf pt f s = (onSweepReq f s, true))
    ∧ (f.vc = 3 → f.op = 0x32 → effectOf pt f s = (onSweepResult f s, true))

/-- What the effects are: a WRITE stores its bytes and its last frame answers WRITE_DONE, a READ is read and then answers its data, WRITE_DONE and
REJECT end their transaction, READ_DATA places its bytes; a transaction whose first frame went out 200 ms ago ends with ERR_TIMEOUT and its
module's address, and a request of a stale epoch or that cannot be reached is rejected with its reason (R320, R321, R323, R344). -/
def Obligations.RequestsAndResponses : Prop :=
  ∀ (s : State) (f : Frame),
    (∀ c a, reqFault s f f.len.toNat = none → framePlace f = .ls c a → f.len.toNat ≤ f.payload.length → (inboundOf s f).dead = false →
      ((s.core c).ls.wf = true → ∀ i, i < f.len.toNat → ((onWrite f s).core c).ls.get (a + i) = f.payload.getD i 0)
      ∧ (∀ b, b < a ∨ a + f.len.toNat ≤ b → ((onWrite f s).core c).ls.get b = (s.core c).ls.get b)
      ∧ (∀ c', c' ≠ c → (onWrite f s).core c' = s.core c') ∧ (onWrite f s).gddr = s.gddr
      ∧ ((inboundOf s f).left = 1 → (onWrite f s).mach.inject = (inject (respFrame s 0x11 f.src f.tag []) s).mach.inject)
      ∧ ((inboundOf s f).left ≠ 1 → (inboundOf s f).left ≠ 0 → (onWrite f s).mach.inject = s.mach.inject))
    ∧ (∀ a, reqFault s f f.len.toNat = none → framePlace f = .gddr a → f.len.toNat ≤ f.payload.length → (inboundOf s f).dead = false →
      s.gddr.failedCh = 0 → s.gddr.mem.wf = true →
      (∀ i, i < f.len.toNat → (onWrite f s).gddr.mem.get (a + i) = f.payload.getD i 0)
      ∧ (∀ b, b < a ∨ a + f.len.toNat ≤ b → (onWrite f s).gddr.mem.get b = s.gddr.mem.get b) ∧ (onWrite f s).cores = s.cores)
    ∧ ((inboundOf s f).dead = true → (onWrite f s).cores = s.cores ∧ (onWrite f s).gddr = s.gddr ∧ (onWrite f s).mach.inject = s.mach.inject)
    ∧ (∀ x, reqFault s f f.len.toNat = some x → (inboundOf s f).dead = false →
      (onWrite f s).mach.inject = (inject (rejectFrame s f x 0) s).mach.inject ∧ (onWrite f s).cores = s.cores
        ∧ (onWrite f s).gddr = s.gddr)
    ∧ (f.destEpoch ≠ 0 → f.destEpoch ≠ bits s.boot.epoch 0 16 → ∀ n, reqFault s f n = some 1)
    ∧ (let n := pay f 0 4
      (txnBytes < n → onRead f s = inject (rejectFrame s f 4 0) s)
      ∧ (∀ x, n ≤ txnBytes → reqFault s f n = some x → onRead f s = inject (rejectFrame s f x 0) s)
      ∧ (n ≤ txnBytes → reqFault s f n = none → s.mach.serving = [] →
        let s1 := acceptAt (.peer f.src f.tag) 0 false (framePlace f) n s
        let s2 := s1.setMach { s1.mach with serving := [f] }
        (asking s2 (.peer f.src f.tag) = true → onRead f s = s2)
        ∧ (asking s2 (.peer f.src f.tag) = false → onRead f s = answerRead f (s2.setMach { s2.mach with serving := [] }))))
    ∧ (txnFor s f = none → onWriteDone f s = s ∧ onReadData f s = s)
    ∧ (∀ t, txnFor s f = some t → t.isRead = true ∨ t.dest ≠ f.src → onWriteDone f s = s)
    ∧ (∀ t, txnFor s f = some t → t.isRead = false → t.dest = f.src → onWriteDone f s = closeTxn t 0x00 0 s)
    ∧ (∀ t, txnFor s f = some t → t.isRead = false ∨ t.dest ≠ f.src ∨ t.len < f.addr.toNat + f.len.toNat → onReadData f s = s)
    ∧ (∀ t c a, txnFor s f = some t → t.isRead = true → t.dest = f.src → t.got + f.len.toNat < t.len → f.addr.toNat + f.len.toNat ≤ t.len →
      placeOf s (t.dstAddr + BitVec.ofNat 64 f.addr.toNat) = .ls c a → t.dstAddr + BitVec.ofNat 64 f.addr.toNat < stageAddr →
      f.len.toNat ≤ f.payload.length →
      ((s.core c).ls.wf = true → ∀ i, i < f.len.toNat → ((onReadData f s).core c).ls.get (a + i) = f.payload.getD i 0)
      ∧ (∀ b, b < a ∨ a + f.len.toNat ≤ b → ((onReadData f s).core c).ls.get b = (s.core c).ls.get b)
      ∧ (∀ c', c' ≠ c → (onReadData f s).core c' = s.core c')
      ∧ (onReadData f s).mach.txns.map (fun x => (x.tag, x.got)) =
        s.mach.txns.map (fun x => (x.tag, if x.tag = t.tag then t.got + f.len.toNat else x.got)))
    ∧ (∀ t, txnFor s f = some t →
      (pay f 0 1 = 1 → onReject f s = closeTxn t 0x11 t.dest s)
      ∧ (pay f 0 1 = 2 → onReject f s = closeTxn t 0x51 (BitVec.ofNat 16 (0x0200 + pay f 1 1)) s)
      ∧ (pay f 0 1 ≠ 1 → pay f 0 1 ≠ 2 → onReject f s = closeTxn t 0x30 0 s))
    ∧ (txnFor s f = none →
      (pay f 0 1 = 1 → onReject f s = failTag f.tag 0x11 f.src s)
      ∧ (pay f 0 1 = 2 → onReject f s = failTag f.tag 0x51 (BitVec.ofNat 16 (0x0200 + pay f 1 1)) s)
      ∧ (pay f 0 1 ≠ 1 → pay f 0 1 ≠ 2 → onReject f s = failTag f.tag 0x30 0 s))
    ∧ (∀ y, s.mach.txns[y]? = none → exec (.transactionTimeout y) s = .next s)
    ∧ (∀ t y st d, (closeTxn t st d s).mach.txns = s.mach.txns.filter (fun x => x.tag ≠ t.tag)
      ∧ (t.owner = .none → (closeTxn t st d s).rings = s.rings)
      ∧ (s.mach.txns[y]? = some t → t.sent = true → t.at_ + 200000000 ≤ s.ns →
        exec (.transactionTimeout y) s = .next (closeTxn t 0x12 t.dest s))
      ∧ (s.mach.txns[y]? = some t → t.sent = false ∨ s.ns < t.at_ + 200000000 → exec (.transactionTimeout y) s = .next s))

/-- The router: the frame at the head of a queue that is addressed here has its effect, one without a way is dropped or waits, one
served goes out on its port with one more hop, and one that has waited 1 µs for its port becomes urgent; a dropped frame is answered with
REJECT, and a transaction's 200 ms run from its first frame (R318, R322, R323, R334, R345, R475). An empty queue, or a head that is not the
one served, changes nothing but the times its heads have held credit since. -/
def Obligations.TheRouterForwards : Prop :=
  (∀ (s0 : State) (fr : Fin 17) (q : Fin 16), poolQueue (noteHeads s0) fr q = [] →
    exec (.frameForward fr q) s0 = .next (noteHeads s0) ∧ exec (.routerFrameUrgent fr q) s0 = .next (noteHeads s0))
  ∧ (∀ (s0 : State) (fr : Fin 17) (q : Fin 16) (x : QFrame) (l : List QFrame),
    let s := noteHeads s0
    poolQueue s fr q = x :: l →
    (x.frame.dest = s.mach.logical → exec (.frameForward fr q) s0 = .next (effectOf 0 x.frame (popQueue fr q s)).1)
    ∧ (x.frame.dest ≠ s.mach.logical →
      (hopOf s x.frame = .wait → exec (.frameForward fr q) s0 = .next s)
      ∧ (∀ p, hopOf s x.frame = .drop p → exec (.frameForward fr q) s0 = .next (dropFrame x.frame p (popQueue fr q s)))
      ∧ (∀ p c, hopOf s x.frame = .out p c → served s p q x = false → exec (.frameForward fr q) s0 = .next s)
      ∧ (∀ p c, hopOf s x.frame = .out p c → served s p q x = true →
        let s1 := popQueue fr q (s.setPort p { s.port p with rrPool := q })
        (39 ≤ x.frame.hops.toNat → exec (.frameForward fr q) s0 = .next (dropFrame x.frame p s1))
        ∧ (x.frame.hops.toNat < 39 → ∃ t g, exec (.frameForward fr q) s0 = .next t ∧ (t.port p).sent = (s1.port p).sent ++ [g]
          ∧ g.hops = x.frame.hops + 1 ∧ g.cls = c ∧ g.dest = x.frame.dest ∧ g.src = x.frame.src ∧ g.op = x.frame.op
          ∧ (t.port p).txSeq = (s1.port p).txSeq + 1
          ∧ (∀ y ∈ t.mach.txns, x.frame.vc = 0 → x.frame.src = s.mach.logical → y.tag = x.frame.tag → y.dest = x.frame.dest → y.sent = true))))
    ∧ (∀ t, x.since = some t → t + 1000 ≤ s.ns → exec (.routerFrameUrgent fr q) s0 = .next (setPool fr q ({ x with urgent := true } :: l) s))
    ∧ (x.since = none ∨ (∃ t, x.since = some t ∧ s.ns < t + 1000) → exec (.routerFrameUrgent fr q) s0 = .next s))
  ∧ ∀ (u : State) (f : Frame) (p : Fin 16),
    let r := { rejectFrame u f 2 p.val with src := u.mach.logical }
    (f.src ≠ u.mach.logical → dropFrame f p u = inject r u)
    ∧ (f.src = u.mach.logical → f.vc = 1 → dropFrame f p u = u) ∧ (f.src = u.mach.logical → f.vc ≠ 1 → dropFrame f p u = onReject r u)

/-- Binding: a write of MACH_BIND on an unbound module takes the address and flags, BIND binds it where its straps agree or answers the cause
that forbids it, UNBIND ends it once nothing is in flight or 1 ms has passed; a route descriptor that passes its checks is loaded and then
used, where the bound address is one of its machine (R330 to R333, R352).

Margin sweeps (R349, R350): a sweep of 1 to 64 ports reads its buffer, starts at this module and measures its hops in turn, a resumed one at the
hop its buffer names; one already under way lets a second wait; a hop silent for 10 ms ends the sweep with cause 2. A command whose condition
does not hold does nothing. -/
def Obligations.BindingRoutesAndSweeps : Prop :=
  (∀ (s : State) (w : Dword),
    let m : State := if s.mach.bound then s else
      s.setMach { s.mach with logical := bits w 0 16, slot := bits w 16 6, block := bits w 22 10, standby := w.getLsbD 32 }
    let b := if w.getLsbD 33 then bind m else m
    (w.getLsbD 33 = false → exec (.machBind w) s = .next s) ∧ (w.getLsbD 34 = false → exec (.machUnbind w) s = .next s)
    ∧ (w.getLsbD 33 = true → exec (.machBind w) s = .next (if w.getLsbD 34 then unbind b else b))
    ∧ (w.getLsbD 34 = true → exec (.machUnbind w) s = .next (unbind b))
    ∧ (∀ c, bindFault m = some c → bind m = m.setMach { m.mach with bindErr := true, bindCause := c })
    ∧ (bindFault m = none → ∃ t, bind m = t ∧ t.mach.bound = true ∧ t.mach.logical = m.mach.logical ∧ t.mach.slot = m.mach.slot
        ∧ t.mach.block = m.mach.block)
    ∧ (m.mach.bound = true → ∃ c, bindFault m = some c)
    ∧ (∀ u : State, (u.mach.bound = true → u.mach.unbinding = none → unbind u = u.setMach { u.mach with unbinding := some u.ns })
        ∧ (u.mach.bound = false ∨ u.mach.unbinding ≠ none → unbind u = u))
    ∧ (let busy : Prop := s.mach.txns ≠ [] ∨ s.coll.runs ≠ [] ∨ ∃ g ∈ s.coll.groups, ∃ x ∈ g.steps, x.phase ≠ 0
      (s.mach.unbinding = none → exec .unbindWaitEnd s = .next s)
      ∧ ∀ t, s.mach.unbinding = some t →
        (busy → s.ns < t + 1000000 → exec .unbindWaitEnd s = .next s)
        ∧ (¬ busy ∨ t + 1000000 ≤ s.ns →
          ∃ u, exec .unbindWaitEnd s = .next u ∧ u.mach.bound = false ∧ u.mach.unbinding = none ∧ ∀ p, (u.port p).state ≠ 3))
    ∧ (w.getLsbD 0 = false → exec (.routeLoad w) s = .next s)
    ∧ (w.getLsbD 0 = true →
      let s1 := s.setMach { s.mach with routeAddr := bits w 6 58 }
      (s.mach.loading ≠ none → exec (.routeLoad w) s = .next s1)
      ∧ (∀ x, s.mach.loading = none → readRoute s1 (BitVec.ofNat 64 (64 * (bits w 6 58 : BitVec 58).toNat)) = some x →
        exec (.routeLoad w) s = .next (s1.setMach { s1.mach with loading := some (x, s.ns) }))
      ∧ (s.mach.loading = none → readRoute s1 (BitVec.ofNat 64 (64 * (bits w 6 58 : BitVec 58).toNat)) = none →
        exec (.routeLoad w) s = .next (s1.setMach { s1.mach with routeErr := true })))
    ∧ (s.mach.loading = none → exec .routeMasksReady s = .next s)
    ∧ (∀ x a, s.mach.loading = some (x, a) →
      (s.mach.bound = false ∨ s.mach.logical.toNat < 2 ^ x.dims →
        ∃ u, exec .routeMasksReady s = .next u ∧ u.mach.route = some x ∧ u.mach.loading = none)
      ∧ (s.mach.bound = true → 2 ^ x.dims ≤ s.mach.logical.toNat →
        exec .routeMasksReady s = .next (s.setMach { s.mach with loading := none, routeErr := true }))))
  ∧ (∀ (s : State) (r : Fin 256) (n : Nat),
    ((s.ring r).started[n]? = none ∨ s.mach.sweep = none → exec (.sweepHopTimeout r n) s = .next s)
    ∧ (descAt s r n 0x70 = none → exec (.diagMarginSweep r n) s = .next s ∧ exec (.diagResumeSweep r n) s = .next s)
    ∧ ∀ c : DescCtx,
      (∀ x, (s.ring r).started[n]? = some c → s.mach.sweep = some x →
        (x.ring = r → x.idx = c.idx → x.at_ + 10000000 ≤ s.ns → exec (.sweepHopTimeout r n) s = .next (endSweep x (x.ended.getD 2) s))
        ∧ (x.ring ≠ r ∨ x.idx ≠ c.idx ∨ s.ns < x.at_ + 10000000 → exec (.sweepHopTimeout r n) s = .next s))
      ∧ (descAt s r n 0x70 = some c → ∀ k ∈ [(2, Instr.diagMarginSweep r n), (3, .diagResumeSweep r n)],
        let len := (dW3 c.word).toNat
        let size := 0x80 + 48 * len
        let f := worst [failIf (len = 0 || 64 < len) 0x30 0x0C, opFault s (dQ c.word 0x10) size 0x10, failIf (dQ c.word 0x18 ≠ 0) 0x30 0x18]
        ((bits (dW2 c.word) 0 8 : Byte).toNat ≠ k.1 ∨ s.mach.sweep ≠ none → exec k.2 s = .next s)
        ∧ ((bits (dW2 c.word) 0 8 : Byte).toNat = k.1 → s.mach.sweep = none →
          (∀ y, f = some y → exec k.2 s = .next (finishDesc r c.idx y.1 y.2 0 s))
          ∧ (f = none → exec k.2 s =
            .next (withOperand r c 0 2 (dQ c.word 0x10) size (fun mb t => beginSweep k.1 r c (plain mb) t) s))))
      ∧ ∀ (bs : List Byte) (u : State),
        let len := (dW3 c.word).toNat
        let chain := (List.range len).map fun i => fieldAt bs (0x40 + i) 1
        let done := min (fieldAt bs 3 1) len
        let old := (List.range done).map fun i => (bs.drop (0x80 + 48 * i)).take 48
        beginSweep 2 r c bs u = runSweep 65 ⟨r, c.idx, chain, 0, u.mach.logical, u.ns, u.time.mt, [], none⟩ (issueDesc r c.idx 0 0 0 u)
        ∧ beginSweep 3 r c bs u = runSweep 65 ⟨r, c.idx, chain, done, (old.getLast?.map nextModule).getD u.mach.logical, u.ns,
            BitVec.ofNat 64 (fieldAt bs 4 8), old, none⟩ (issueDesc r c.idx 0 0 0 u))

/-- The reference (R26, R410, R411): its loss, which is missing edges or more than 200 ppm, begins holdover and is counted, and its
return within 200 ppm ends it; before market time runs and in Sleep a loss is only noted; loading a time steps it and counts ERA
on a root or a module that does not follow, and is an error elsewhere (R416, R417); 1 ms without a usable upstream loses it (R407, R408);
TIME_SYNC goes out of every UP port (R406). A command whose condition does not hold does nothing.

Beacons and elastic buffers (R399, R403, R404): each 4,096 ns a cluster's clock moves one step toward market time, or is set to
it where it is more than 64 ns off; a buffer whose pointers are 2 to 6 apart keeps its separation, another is centred again. -/
def Obligations.MarketTime : Prop :=
  (∀ s : State,
    (∀ (edges : Bool) (err : Half), s.time.present = false ∨ (edges = true ∧ err.toInt.natAbs ≤ 20000) →
      exec (.refLost edges err) s = .next s)
    ∧ (∀ (edges : Bool) (err : Half), s.time.present = true → s.time.running = true → s.pwr.mstate ≠ 2 →
      (edges = false ∨ 20000 < err.toInt.natAbs) → ∃ t, exec (.refLost edges err) s = .next t ∧ t.time.present = false ∧ t.time.locked = false ∧ t.time.holdover = true ∧ t.time.lost = true
        ∧ t.time.lossCnt = satAdd s.time.lossCnt 1 ∧ t.time.freqErr = err ∧ t.time.mt = s.time.mt
        ∧ t.time.holdSince = (if s.time.holdover then s.time.holdSince else s.ns))
    ∧ (∀ (edges : Bool) (err : Half), s.time.present = true → (s.time.running = false ∨ s.pwr.mstate = 2) →
      (edges = false ∨ 20000 < err.toInt.natAbs) →
      exec (.refLost edges err) s = .next (s.setTime { s.time with present := false, freqErr := err }))
    ∧ (∀ err : Half, s.time.present = false → 20000 < err.toInt.natAbs → exec (.refRestored err) s = .next s)
    ∧ (∀ err : Half, s.time.present = false → s.time.running = true → s.pwr.mstate ≠ 2 → err.toInt.natAbs ≤ 20000 →
      ∃ t, exec (.refRestored err) s = .next t ∧ t.time = { s.time with present := true, freqErr := err, locked := true, holdover := false })
    ∧ (∀ err : Half, s.time.present = true ∨ (s.time.running = false ∧ s.boot.refWait = none) → exec (.refRestored err) s = .next s)
    ∧ (∀ err : Half, s.time.present = false → err.toInt.natAbs ≤ 20000 →
      (s.time.running = false ∧ s.boot.refWait ≠ none) ∨ (s.time.running = true ∧ s.pwr.mstate = 2) →
      exec (.refRestored err) s = .next (s.setTime { s.time with present := true, freqErr := err }))
    ∧ (∀ w : Word, w.getLsbD 2 = false → exec (.timeLoad w) s = .next s)
    ∧ (s.time.root = true ∨ s.time.follow = false ∨ s.time.running = false ∨ s.time.lostTold = true ∨ s.ns < s.time.upAt + 1000000 →
      exec .syncLost s = .next s)
    ∧ ((s.time.follow = false ∧ s.time.root = false) ∨ s.time.running = false ∨ (s.time.mt - s.time.lastSend).toNat < 65536 →
      exec .timeSyncSend s = .next s)
    ∧ (∀ w : Word, w.getLsbD 2 = true →
      (w.getLsbD 0 = true ∨ w.getLsbD 1 = false → ∃ t, exec (.timeLoad w) s = .next t
        ∧ t.time.mt = BitVec.ofNat 64 (s.time.stagedLo.toNat + 2 ^ 32 * s.time.stagedHi.toNat) ∧ t.time.era = s.time.era + 1
        ∧ t.time.stepped = true ∧ t.time.root = w.getLsbD 0 ∧ t.time.follow = w.getLsbD 1
        ∧ (∀ cl : Fin 48, (t.cluster cl).tkErr = 0 ∧ ∀ x, (t.sk cl).start = some x → x.stepped = true))
      ∧ (w.getLsbD 0 = false → w.getLsbD 1 = true → exec (.timeLoad w) s = .next (s.setTime
        { s.time with root := false, follow := true, loadErr := true })))
    ∧ (s.time.root = false → s.time.follow = true → s.time.running = true → s.time.lostTold = false → s.time.upAt + 1000000 ≤ s.ns →
      ∃ t, exec .syncLost s = .next t ∧ t.time.stratum = 15 ∧ t.time.upstream = none ∧ t.time.lastSample = none ∧ t.time.slew = 0
        ∧ t.time.lostTold = true ∧ t.time.mt = s.time.mt)
    ∧ (s.time.follow = true ∨ s.time.root = true → s.time.running = true → 65536 ≤ (s.time.mt - s.time.lastSend).toNat →
      ∃ t, exec .timeSyncSend s = .next t ∧ t.time = { s.time with lastSend := s.time.mt }
        ∧ ((∀ p, (s.port p).state ≠ 3) → t.mach = s.mach)
        ∧ (t.mach.inject.toList.map List.length).sum =
          (s.mach.inject.toList.map List.length).sum + ((List.finRange 16).filter fun p => (s.port p).state = 3).length))
  ∧ (∀ (s : State) (errs : List Int) (port : Bool) (i : Fin 50) (n : Nat), s.time.running = false →
    exec (.timeBeacon errs) s = .next s ∧ exec (.fifoPointerCheck port i n) s = .next s)
  ∧ (∀ s : State, s.time.running = true →
    (∀ errs : List Int, s.time.mt.toNat % 4096 = 0 → ∃ t, exec (.timeBeacon errs) s = .next t ∧ t.time = s.time
      ∧ ∀ cl : Fin 48, (t.cluster cl).tkErr =
        (let e := errs.getD cl.val (s.cluster cl).tkErr; if 64 < e.natAbs then 0 else e - e.sign))
    ∧ (∀ errs : List Int, s.time.mt.toNat % 4096 ≠ 0 → exec (.timeBeacon errs) s = .next s)
    ∧ (∀ (i : Fin 50) (n : Nat), 2 ≤ n → n ≤ 6 →
      exec (.fifoPointerCheck false i n) s = .next (s.setTime { s.time with fifoPhy := s.time.fifoPhy.set i n })
      ∧ (i.val < 16 → exec (.fifoPointerCheck true i n) s =
        .next (s.setTime { s.time with fifoPort := s.time.fifoPort.set (ix 16 i.val) n })))
    ∧ (∀ (i : Fin 50) (n : Nat), n < 2 ∨ 6 < n →
      ∃ t, exec (.fifoPointerCheck false i n) s = .next t ∧ t.time = { s.time with fifoPhy := s.time.fifoPhy.set i 4 })
    ∧ (∀ (i : Fin 50) (n : Nat), i.val < 16 → n < 2 ∨ 6 < n →
      ∃ t, exec (.fifoPointerCheck true i n) s = .next t ∧ t.time = { s.time with fifoPort := s.time.fifoPort.set (ix 16 i.val) 4 })
    ∧ (∀ (i : Fin 50) (n : Nat), 16 ≤ i.val → exec (.fifoPointerCheck true i n) s = .next s))

/-- The cap loop (R424, R428, R432, R433, R437, R439): each millisecond the till takes the energy, the window its sample and the cap in force is the lower
of the ceiling and the host's; a reading above 3,400 W or 4,400 A ends every surge, as does the energy of the trailing 100 ms; without surge
a check does nothing. The converter limit engages above 3,600 A and releases once (R424). -/
def Obligations.TheCapLoopMeasures : Prop :=
  ∀ s : State,
    (∀ m : CapMeas, s.pwr.v48 = false → exec (.capLoopTick m) s = .next s)
    ∧ (∀ m : CapMeas, s.pwr.v48 = true → s.pwr.mstate = 0 → 9 ≤ s.boot.step.toNat → s.boot.recovery = false →
      ∃ t, exec (.capLoopTick m) s = .next t ∧ t.pwr.till = s.pwr.till + BitVec.ofNat 64 m.energy
        ∧ t.pwr.samples = (m.energy :: s.pwr.samples).take 100 ∧ t.pwr.coreCurrent = m.current ∧ t.pwr.hostCap = s.pwr.hostCap
        ∧ t.pwr.capForce = (if s.pwr.ceiling ≠ 0 ∧ s.pwr.ceiling < s.pwr.hostCap then s.pwr.ceiling else s.pwr.hostCap)
        ∧ t.gddr.mem = s.gddr.mem ∧ (∀ c, (t.core c).ls = (s.core c).ls))
    ∧ (∀ m : CapMeas, s.pwr.v48 = true → s.pwr.mstate ≠ 0 ∨ s.boot.step.toNat < 9 ∨ s.boot.recovery = true → exec (.capLoopTick m) s =
      .next (s.setPwr { s.pwr with till := s.pwr.till + BitVec.ofNat 64 m.energy }))
    ∧ (∀ p a : Nat, (∀ cl, (s.cpwr cl).op ≠ 15) → exec (.surgeCheck p a) s = .next s)
    ∧ (∀ p a : Nat, (∃ cl, (s.cpwr cl).op = 15) → 3400000 < p ∨ 44000 < a →
      ∃ t, exec (.surgeCheck p a) s = .next t ∧ ∀ cl, (t.cpwr cl).op ≠ 15)
    ∧ (∀ p a : Nat, (∃ cl, (s.cpwr cl).op = 15) → p ≤ 3400000 → a ≤ 44000 →
      let part := (p / 10 :: s.pwr.part).take 10
      let tenfold := 10 * (part.foldl (· + ·) 0 + (s.pwr.samples.take 99).foldl (· + ·) 0) + (s.pwr.samples.drop 99).headD 0 * (10 - part.length)
      (tenfold < 1000000 * s.pwr.capForce.toNat → exec (.surgeCheck p a) s = .next (s.setPwr { s.pwr with part := part }))
      ∧ (1000000 * s.pwr.capForce.toNat ≤ tenfold →
        ∃ t, exec (.surgeCheck p a) s = .next t ∧ t.pwr.part = part ∧ ∀ cl, (t.cpwr cl).op ≠ 15))
    ∧ (∀ a : Nat, s.pwr.v48 = false ∨ a ≤ 36000 → exec (.converterLimit a) s = .next s)
    ∧ (s.pwr.conv = false → exec .converterLimitRelease s = .next s)
    ∧ (∀ a : Nat, s.pwr.v48 = true → 36000 < a → ∃ t, exec (.converterLimit a) s = .next t ∧ t.pwr.conv = true
      ∧ t.pwr = { s.pwr with conv := true } ∧ t.cores = s.cores)
    ∧ (s.pwr.conv = true → ∃ t, exec .converterLimitRelease s = .next t ∧ t.pwr.conv = false
      ∧ ∀ cl : Fin 48, (t.dom (ix 59 cl.val)).limitUntil =
        (if (s.dom (ix 59 cl.val)).engaged then (s.dom (ix 59 cl.val)).limitUntil else some s.ns))

/-- Droops (R441, R442): a warning of 40 mV engages the domain's pace limiter for 100 µs and ends its cluster's surge; a deeper one
resets what the rail feeds: the cluster, the stack's accesses, the module, or the standby rail as a loss of 48 V.

The limiter releases at its time; a dozing stack that falls under the retention floor marks every sector of its local stores
(R441, R442); a domain reports what was measured of it (R427, R462). A command whose condition does not hold does nothing. -/
def Obligations.DroopsLimitsAndReports : Prop :=
  (∀ (s : State) (d : Fin 59) (depth : Nat) (stuck : Bool) (e : StartupEnv), domLive s d = false →
    exec (.droopWarning d depth) s = .next s ∧ exec (.droopReset d depth stuck e) s = .next s)
  ∧ (∀ (s : State) (d : Fin 59) (depth : Nat), domLive s d = true →
    (depth < 40 → exec (.droopWarning d depth) s = .next s) ∧
    (40 ≤ depth → ∃ t, exec (.droopWarning d depth) s = .next t ∧ (t.dom d).engaged = true
      ∧ (t.dom d).limitUntil = some (s.ns + 100000) ∧ t.pwr.warnAt = some s.ns
      ∧ (d.val < 48 → (t.cpwr (ix 48 d.val)).op ≠ 15 ∧ (t.cpwr (ix 48 d.val)).warnAt = some s.ns))
    ∧ (∀ stuck e, depth < 120 → depth + 400 ≤ setpoint s d → exec (.droopReset d depth stuck e) s = .next s)
    ∧ (∀ stuck e, 120 ≤ depth ∨ setpoint s d < 400 + depth →
      (∀ cl : Fin 48, d.val = cl.val → ∃ t, exec (.droopReset d depth stuck e) s = .next t ∧ (t.sk cl).st ≠ .run
        ∧ (∀ j k : Fin 8, (t.station (coreOf cl j.val) k).state = .idle) ∧ (t.sk cl).imem = (s.sk cl).imem
        ∧ (stuck = true → (t.cluster cl).inService = false))
      ∧ (48 ≤ d.val → d.val < 52 → ∃ t, exec (.droopReset d depth stuck e) s = .next t
        ∧ t.clusters = s.clusters ∧ ∀ c : Fin 384, (clusterOf c).val / 12 ≠ d.val - 48 → t.core c = s.core c)
      ∧ (52 ≤ d.val → d.val < 58 → ∃ t, exec (.droopReset d depth stuck e) s = .next t ∧ t.boot.cause = 7 ∧ t.sec.sessions = [])
      ∧ (d.val = 58 → ∃ t, exec (.droopReset d depth stuck e) s = .next t ∧ t.pwr.v48 = false ∧ t.sec.sessions = [])))
  ∧ (∀ s : State,
    (∀ (d : Fin 59) t, (s.dom d).limitUntil = some t → (s.dom d).engaged = true → t ≤ s.ns →
      exec (.paceLimiterRelease d) s = .next (s.setDom d { s.dom d with engaged := false, limitUntil := some s.ns }))
    ∧ (∀ d : Fin 59, (s.dom d).limitUntil = none ∨ (s.dom d).engaged = false ∨ (∃ t, (s.dom d).limitUntil = some t ∧ s.ns < t) →
      exec (.paceLimiterRelease d) s = .next s)
    ∧ (∀ st : Fin 4, s.pwr.mstate ≠ 2 → (∃ cl ∈ stackClusters st.val, (s.cpwr cl).mode ≠ .doze) → exec (.retentionFloorLoss st) s = .next s)
    ∧ (∀ ms : List DomMeas, s.pwr.mstate ≠ 0 ∨ s.pwr.v48 = false → exec (.domainStatusTick ms) s = .next s)
    ∧ (∀ st : Fin 4, s.pwr.mstate = 2 ∨ (∀ cl ∈ stackClusters st.val, (s.cpwr cl).mode = .doze) →
      ∃ t, exec (.retentionFloorLoss st) s = .next t
        ∧ (∀ c : Fin 384, (clusterOf c).val / 12 = st.val → (t.core c).lsPoison = List.range (lsEnd / 64) ∧ (t.core c).ls = (s.core c).ls)
        ∧ ∀ c : Fin 384, (clusterOf c).val / 12 ≠ st.val → t.core c = s.core c)
    ∧ (∀ ms : List DomMeas, s.pwr.mstate = 0 → s.pwr.v48 = true → ∃ t, exec (.domainStatusTick ms) s = .next t
      ∧ (∀ (d : Fin 59) m, ms[d.val]? = some m → (t.dom d).current = m.current ∧ (t.dom d).voltage = m.voltage ∧ (t.dom d).temp = m.temp
          ∧ (t.dom d).engaged = (s.dom d).engaged)
      ∧ ∀ d : Fin 59, ms[d.val]? = none → t.dom d = s.dom d))

/-- Thermal protection (R446, R447): a poll reads the sensors and 105 °C anywhere limits the duty of every cluster; 115 °C ends
operation until MOD_RESET_N or 48 V, keeps the secure store, and pulls THERM_TRIP_N low. Before the clusters are up, and after a shutdown, a
poll reads the sensors alone; without 48 V, in Sleep and on the way to it, it does nothing. -/
def Obligations.ThermalProtection : Prop :=
  ∀ s : State,
    (∀ temps : List Int, s.pwr.v48 = true → s.pwr.mstate = 0 → 6 ≤ s.boot.step.toNat →
      ∃ t, exec (.thermalPoll temps) s = .next t
        ∧ (∀ d : Fin 59, (t.dom d).sensor = temps.getD d.val (s.dom d).sensor)
        ∧ ((∃ d : Fin 59, 840 ≤ temps.getD d.val (s.dom d).sensor) → t.pwr.limit105 = true ∧ ∀ cl, (t.cpwr cl).duty = 10 ∧ (t.cpwr cl).op ≠ 15)
        ∧ (s.pwr.limit105 = true → (∀ d : Fin 59, temps.getD d.val (s.dom d).sensor < 800) → t.pwr.limit105 = false))
    ∧ (∀ temps : List Int, s.pwr.v48 = false ∨ s.pwr.mstate = 1 ∨ s.pwr.mstate = 2 ∨ s.pwr.mstate = 3 → exec (.thermalPoll temps) s = .next s)
    ∧ (∀ temps : List Int, s.pwr.v48 = true → s.pwr.mstate = 4 ∨ (s.pwr.mstate = 0 ∧ s.boot.step.toNat < 6) →
      ∃ t, exec (.thermalPoll temps) s = .next t ∧ t.pwr = { s.pwr with doms := t.pwr.doms } ∧ t.cores = s.cores ∧ t.pins = s.pins
        ∧ ∀ d : Fin 59, t.dom d = { s.dom d with sensor := temps.getD d.val (s.dom d).sensor })
    ∧ (∀ (d : Fin 59) (x : Byte), s.pwr.v48 = false ∨ s.pwr.mstate = 4 → exec (.thermalShutdown d x) s = .next s)
    ∧ (∀ (d : Fin 59) (x : Byte), 115 ≤ x.toInt → s.pwr.v48 = true → s.pwr.mstate ≠ 4 →
      ∃ t, exec (.thermalShutdown d x) s = .next t ∧ t.pwr.mstate = 4 ∧ t.pins.thermTripN = false ∧ t.pins.modReady = false
        ∧ t.boot.step = 2 ∧ t.sec.sessions = [] ∧ t.sec.slots = s.sec.slots ∧ t.sec.flashA = s.sec.flashA ∧ t.gddr.mem = []
        ∧ (∀ c, (t.core c).ls = []) ∧ (∀ r, (t.ring r).state = .disabled) ∧ (t.dom d).sensor = x.toInt * 8)
    ∧ (∀ (d : Fin 59) (x : Byte), x.toInt < 115 → exec (.thermalShutdown d x) s = .next s)

/-- POWER_SET: a refused one ends with its status; the host's cap and surge enable are taken; Run and Idle are entered at once,
Doze and Sleep are deferred until nothing holds them up (R448, R449, R451, R455). One that names another state, or comes while an entry or a
deferral is under way, waits. -/
def Obligations.PowerSetEntersStates : Prop :=
  (∀ (s : State) (r : Fin 256) (n : Nat), ∀ k ∈ [((0 : BitVec 3), Instr.powerSetCap r n), (1, .powerSetRun r n), (2, .powerSetIdle r n),
      (3, .powerSetDoze r n), (4, .powerSetSleep r n)],
    (descAt s r n 0x50 = none ∨ s.pwr.deferral ≠ none ∨ s.pwr.mstate ≠ 0 → exec k.2 s = .next s)
    ∧ ∀ c, descAt s r n 0x50 = some c → (bits (dW3 c.word) 0 3 : BitVec 3) ≠ k.1 → exec k.2 s = .next s)
  ∧ ∀ (s : State) (r : Fin 256) (n : Nat) (c : DescCtx), descAt s r n 0x50 = some c → s.pwr.deferral = none → s.pwr.mstate = 0 →
    let st : BitVec 3 := bits (dW3 c.word) 0 3
    let cap : BitVec 12 := bits (dW2 c.word) 0 12
    let surge : Bool := if (dW2 c.word).getLsbD 13 then (dW2 c.word).getLsbD 12 else s.pwr.surgeEn
    let m : BitVec 48 := bits (dQ c.word 0x10) 0 48
    (∀ f, powerFault s c.word = some f → ∀ k ∈ [((0 : BitVec 3), Instr.powerSetCap r n), (1, .powerSetRun r n), (2, .powerSetIdle r n),
        (3, .powerSetDoze r n), (4, .powerSetSleep r n)], st = k.1 → exec k.2 s = .next (finishDesc r c.idx f.1 f.2 0 s))
    ∧ (powerFault s c.word = none →
      (st = 0 → ∃ t, exec (.powerSetCap r n) s = .next t ∧ t.pwr.hostCap = (if cap = 0 then s.pwr.hostCap else cap)
        ∧ t.pwr.surgeEn = surge ∧ t.pwr.clusters = s.pwr.clusters
        ∧ (cap = 0 → t = finishDesc r c.idx 0x00 0 0 (s.setPwr { s.pwr with surgeEn := surge })))
      ∧ (st = 1 → ∃ t, exec (.powerSetRun r n) s = .next t ∧ t.pwr.surgeEn = surge
        ∧ t.pwr.hostCap = (if cap = 0 then s.pwr.hostCap else cap)
        ∧ ∀ cl : Fin 48, (t.cpwr cl).mode = (if (s.cluster cl).inService then .run else (s.cpwr cl).mode))
      ∧ (st = 2 → ∃ t, exec (.powerSetIdle r n) s = .next t ∧ t.pwr.surgeEn = surge
        ∧ t.pwr.hostCap = (if cap = 0 then s.pwr.hostCap else cap)
        ∧ ∀ cl : Fin 48, (t.cpwr cl).mode = (if (s.cluster cl).inService ∧ m.getLsbD cl.val then .idle else (s.cpwr cl).mode))
      ∧ (st = 3 → ∃ t, exec (.powerSetDoze r n) s = .next t
        ∧ t.pwr = { s.pwr with deferral := some ⟨r, c.idx, 3, m, s.ns⟩ } ∧ t.cores = s.cores)
      ∧ (st = 4 → ∃ t, exec (.powerSetSleep r n) s = .next t
        ∧ t.pwr = { s.pwr with deferral := some ⟨r, c.idx, 4, m, s.ns⟩ } ∧ t.cores = s.cores))

/-- A deferred Doze is entered once nothing holds it up, a deferred Sleep then waits for its record, and either fails after 1 ms;
idle clusters enter Idle after 100 µs where the host allows it; a dozing cluster wakes to Idle (R449 to R452, R454).

From Sleep an enabled source wakes the module, and PWR_STATUS names it; a disabled source changes nothing but its pin; one that comes during
the entry is kept until Sleep is reached (R453, R454, R460). A command whose condition does not hold does nothing. -/
def Obligations.StatesEnteredAndLeft : Prop :=
  (∀ s : State,
    (s.pwr.deferral = none → exec .domainStateEntry s = .next s ∧ exec .powerDeferralExpiry s = .next s)
    ∧ (∀ d, s.pwr.deferral = some d → holdup s d = none → exec .powerDeferralExpiry s = .next s)
    ∧ (∀ cl : Fin 48, s.pwr.idleAuto = false ∨ (s.cpwr cl).mode ≠ .run ∨ (s.cluster cl).launch ≠ none ∨ s.ns < (s.cpwr cl).idleSince + 100000 →
      exec (.autoIdle cl) s = .next s)
    ∧ (∀ cl : Fin 48, (s.cpwr cl).mode ≠ .doze → exec (.dozeWake cl) s = .next s)
    ∧ ((∃ r, (s.ring r).started ≠ []) ∨ s.pwr.mstate ≠ 1 → exec .sleepEntry s = .next s)
    ∧ (∀ d, s.pwr.deferral = some d → holdup s d = none →
      ∃ t, exec .domainStateEntry s = .next t ∧ t.pwr.deferral = none
        ∧ (d.state = 4 → t.pwr.mstate = 1)
        ∧ (d.state ≠ 4 → t.pwr.mstate = s.pwr.mstate
          ∧ ∀ cl : Fin 48, (t.cpwr cl).mode = (if (s.cluster cl).inService ∧ d.mask.getLsbD cl.val then .doze else (s.cpwr cl).mode)))
    ∧ (∀ d k, s.pwr.deferral = some d → holdup s d = some k →
      (d.since + 1000000 ≤ s.ns → exec .powerDeferralExpiry s = .next (finishDesc d.ring d.idx 0x50 (BitVec.ofNat 16 k) 0
        (s.setPwr { s.pwr with deferral := none })))
      ∧ (s.ns < d.since + 1000000 → exec .powerDeferralExpiry s = .next s) ∧ exec .domainStateEntry s = .next s)
    ∧ (∀ cl : Fin 48, s.pwr.idleAuto = true → (s.cpwr cl).mode = .run → (s.cluster cl).launch = none → (s.cpwr cl).idleSince + 100000 ≤ s.ns →
      exec (.autoIdle cl) s = .next (s.setCpwr cl { s.cpwr cl with mode := .idle, op := 0 }))
    ∧ (∀ cl : Fin 48, (s.cpwr cl).mode = .doze →
      exec (.dozeWake cl) s = .next (s.setCpwr cl { s.cpwr cl with mode := .idle, op := 0 }))
    ∧ ((∀ r, (s.ring r).started = []) → s.pwr.mstate = 1 →
      (s.pwr.wakes = 0 → ∃ t, exec .sleepEntry s = .next t ∧ t.pwr.mstate = 2 ∧ t.time.locked = false ∧ t.time.holdover = true
        ∧ t.gddr.selfRefresh = true ∧ t.pins.modReady = false ∧ (∀ p, (t.port p).state = 0) ∧ t.gddr.mem = s.gddr.mem
        ∧ t.cores = s.cores ∧ t.rings = s.rings)
      ∧ (s.pwr.wakes ≠ 0 → ∃ t, exec .sleepEntry s = .next t ∧ t.pwr.mstate = 0 ∧ t.gddr.selfRefresh = false ∧ t.pins.modReady = true)))
  ∧ (∀ s : State, s.pwr.mstate ≠ 2 →
    let kept (b : BitVec 3) (en : Bool) (u : State) : State :=
      if en = true ∧ s.pwr.mstate = 1 then u.setPwr { u.pwr with wakes := u.pwr.wakes ||| b } else u
    exec .pcieWake s = .next (kept 2 s.pwr.pcieEn s) ∧ exec .smbusWakeAddress s = .next (kept 1 s.pwr.smbEn s)
    ∧ exec .wakeNAssert s = .next (kept 4 s.pwr.pinEn (s.setPins { s.pins with wakeN := false })))
  ∧ (∀ s : State, s.pwr.mstate = 2 →
    (s.pwr.pcieEn = true → ∃ t, exec .pcieWake s = .next t ∧ t.pwr.mstate = 0 ∧ t.pwr.pcieSeen = true ∧ t.pwr.smbSeen = false
      ∧ t.pwr.pinSeen = false ∧ t.gddr.selfRefresh = false ∧ t.pins.modReady = true ∧ t.gddr.mem = s.gddr.mem ∧ t.cores = s.cores)
    ∧ (s.pwr.pinEn = true → ∃ t, exec .wakeNAssert s = .next t ∧ t.pwr.mstate = 0 ∧ t.pwr.pinSeen = true ∧ t.pins.wakeN = false)
    ∧ (s.pwr.smbEn = true → ∃ t, exec .smbusWakeAddress s = .next t ∧ t.pwr.mstate = 0 ∧ t.pwr.smbSeen = true)
    ∧ (s.pwr.pcieEn = false → exec .pcieWake s = .next s) ∧ (s.pwr.smbEn = false → exec .smbusWakeAddress s = .next s)
    ∧ (s.pwr.pinEn = false → exec .wakeNAssert s = .next (s.setPins { s.pins with wakeN := false }))
    ∧ (s.time.present = true → ∀ t, exec .pcieWake s = .next t → s.pwr.pcieEn = true → t.time.locked = true ∧ t.time.holdover = false))

/-- VF4 code 1000 loads as +0 without a flag, and no store that rounds a value writes it (R36); a copy that keeps codes unchanged
(R67) writes what it copies, the model's choice where the two rules meet (log 46). -/
def Obligations.NoStoreWritesVf4Code8 : Prop :=
  (∀ scale : Byte, (elemNum 0 8 scale false).isZero = true ∧ (elemNum 0 8 scale false).isPoison = false)
  ∧ ∀ (full sr : Bool) (scale : Byte) (x : FNum) (g : Dword), (storeElem 0 full sr scale x g).1 ≠ 8

/-- A product with a poison operand is poison; a product with a zero operand and no poison operand is zero. -/
def Obligations.ProductsOfPoisonAndZero : Prop :=
  ∀ x y : FNum, (x.isPoison = true ∨ y.isPoison = true → (FNum.mul x y).isPoison = true)
    ∧ (x.isPoison = false → y.isPoison = false → x.isZero = true ∨ y.isZero = true → (FNum.mul x y).isZero = true)

/-- Stores to VI4 and VW32 ignore a request for stochastic rounding and draw nothing from the generator. -/
def Obligations.Vi4AndVw32IgnoreStochasticRounding : Prop :=
  ∀ (full : Bool) (scale : Byte) (x : FNum) (g : Dword),
    storeElem 1 full true scale x g = storeElem 1 full false scale x g ∧ storeElem 4 full true scale x g = storeElem 4 full false scale x g

/-- A vector operation leaves the registers of its result at its firing and takes its row from the drain queue where A names it;
lane operations 0 to 5 are the exact sum, difference, product, fused product and sum, minimum and maximum, rounded once (R88, R89, R123). -/
def Obligations.VectorResults : Prop :=
  (∀ (s : State) (c : Fin 384) (k : Fin 8) (i : CoreInstr) (op : BitVec 4) (v : VecOp), firesNow s c k i = true → i.op = .vec op v →
    ∃ t, exec (vecCmd c k op) s = .next t
      ∧ (t.core c).vregs = (vecResult (s.core c) k op.toNat v (poppedRegs (s.core c) i (s.station c k).regs)).1
      ∧ (t.core c).drainQ = (if v.aDq then (s.core c).drainQ.tail else (s.core c).drainQ)
      ∧ (t.core c).ls = (s.core c).ls ∧ t.gddr = s.gddr)
  ∧ (∀ (co : Core) (k : Fin 8) (op : Nat) (v : VecOp) (rs : Vector Word 16), op < 6 →
    (vecResult co k op v rs).1 = co.vregs.set (vregIx k v.vd) (regOfLanes v.lanes ((List.range (if v.lanes then 128 else 64)).map fun i =>
      (laneOp op (if v.lanes then 3 else 4) ((vecA co k v).getD i 0) ((vecB co k v rs).getD i 0)
        ((lanesOf v.lanes co.vregs[vregIx k v.vc]).getD i 0)).1)))
  ∧ ∀ f a b c : Nat, laneOp 0 f a b c = laneRound f (FNum.add (codeNum f a) (codeNum f b))
    ∧ laneOp 1 f a b c = laneRound f (FNum.sub (codeNum f a) (codeNum f b))
    ∧ laneOp 2 f a b c = laneRound f (FNum.mul (codeNum f a) (codeNum f b))
    ∧ laneOp 3 f a b c = laneRound f (FNum.add (FNum.mul (codeNum f a) (codeNum f b)) (codeNum f c))
    ∧ (let x := codeNum f a
      let y := codeNum f b
      (x.isPoison = true ∨ y.isPoison = true → laneOp 4 f a b c = laneRound f .poison ∧ laneOp 5 f a b c = laneRound f .poison)
      ∧ (x.isPoison = false → y.isPoison = false →
        laneOp 4 f a b c = laneRound f (if FNum.lt y x then y else x) ∧ laneOp 5 f a b c = laneRound f (if FNum.lt x y then y else x)))

/-- A poison element of a run is stored as a poison code in VF8, VF16 and VW32 and as code 0000 in VF4 and VI4, and each raises PSN;
a scale chosen from the block leaves the poison elements out (R62). -/
def Obligations.PoisonElementsAreStored : Prop :=
  ∀ (f : Nat) (full sr : Bool) (scale : Byte) (xs : List FNum) (g : Dword), f ≤ 4 →
    let r := storeElems f full sr scale xs g
    (∀ (i : Nat) (x : FNum), xs[i]? = some x → x.isPoison = true →
      ∃ c, r.1[i]? = some c ∧ (if f ≤ 1 then c = 0 else (codeNum f c).isPoison = true))
    ∧ r.2.1.psn = psnCount xs ∧ amaxScale f xs = amaxScale f (xs.filter fun x => !x.isPoison)
end
end

