-- ==== Sys2Proof/Laws/Memory.lean ====
section
/-! SUPPORT. Byte memories: a read after a write, and that every write keeps the canonical form. -/
namespace Sys2Proof.Machine
open Sys2Proof

/-- Every address of a memory lies above a bound. -/
def Memory.above (m : Memory) (a : Nat) : Prop := ∀ c ∈ m, a < c.1

theorem Memory.wf_nil : Memory.wf [] = true := rfl

theorem Memory.wf_cons (k : Nat) (v : Byte) (m : Memory) :
    Memory.wf ((k, v) :: m) = true ↔ m.above k ∧ v ≠ 0 ∧ m.wf = true := by
  simp only [Memory.wf, Memory.above, List.pairwise_cons, List.all_cons, Bool.and_eq_true, decide_eq_true_eq, bne_iff_ne]
  tauto

theorem Memory.get_above (m : Memory) (a : Nat) (h : m.above a) : m.get a = 0 := by
  induction m with
  | nil => rfl
  | cons c m ih =>
    have hc : a < c.1 := h c (by simp)
    simp only [Memory.get]
    rw [if_neg (by omega)]
    exact ih fun x hx => h x (by simp [hx])

theorem Memory.put_mem (m : Memory) (a : Nat) (v : Byte) (c : Host.Cell) (h : c ∈ m.put a v) : c.1 = a ∨ c ∈ m := by
  induction m with
  | nil =>
    simp only [Memory.put] at h
    split at h <;> simp_all
  | cons d m ih =>
    obtain ⟨k, w⟩ := d
    simp only [Memory.put] at h
    split at h
    · split at h <;> simp_all
      rcases h with h | h | h <;> simp [h]
    · split at h
      · split at h <;> simp_all
        rcases h with h | h <;> simp [h]
      · simp only [List.mem_cons] at h ⊢
        rcases h with h | h
        · tauto
        · rcases ih h with h | h <;> tauto

/-- Writing a byte keeps the canonical form. -/
theorem Memory.put_wf (m : Memory) (a : Nat) (v : Byte) (h : m.wf = true) : (m.put a v).wf = true := by
  induction m with
  | nil =>
    simp only [Memory.put]
    split
    · rfl
    · exact (Memory.wf_cons _ _ _).2 ⟨by simp [Memory.above], by assumption, rfl⟩
  | cons d m ih =>
    obtain ⟨k, w⟩ := d
    obtain ⟨ha, hw, hm⟩ := (Memory.wf_cons _ _ _).1 h
    simp only [Memory.put]
    split
    · split
      · exact h
      · refine (Memory.wf_cons _ _ _).2 ⟨?_, by assumption, h⟩
        intro c hc
        rcases List.mem_cons.1 hc with rfl | hc
        · assumption
        · have := ha c hc
          omega
    · split
      · split
        · exact hm
        · refine (Memory.wf_cons _ _ _).2 ⟨?_, by assumption, hm⟩
          intro c hc
          have := ha c hc
          omega
      · refine (Memory.wf_cons _ _ _).2 ⟨?_, hw, ih hm⟩
        intro c hc
        rcases Memory.put_mem m a v c hc with h1 | h1
        · omega
        · exact ha c h1

/-- A read of the byte just written gives it, in a canonical memory. -/
theorem Memory.get_put_same (m : Memory) (a : Nat) (v : Byte) (h : m.wf = true) : (m.put a v).get a = v := by
  induction m with
  | nil =>
    simp only [Memory.put]
    split <;> simp_all [Memory.get]
  | cons d m ih =>
    obtain ⟨k, w⟩ := d
    obtain ⟨ha, hw, hm⟩ := (Memory.wf_cons _ _ _).1 h
    simp only [Memory.put]
    split
    · split
      · subst v
        apply Memory.get_above
        intro c hc
        rcases List.mem_cons.1 hc with rfl | hc
        · assumption
        · have := ha c hc
          omega
      · simp [Memory.get]
    · split
      · subst a
        split
        · subst v
          exact Memory.get_above m _ ha
        · simp [Memory.get]
      · simp only [Memory.get]
        rw [if_neg (by omega)]
        exact ih hm

/-- A write leaves every other byte alone. -/
theorem Memory.get_put_other (m : Memory) (a b : Nat) (v : Byte) (h : b ≠ a) : (m.put a v).get b = m.get b := by
  induction m with
  | nil =>
    simp only [Memory.put]
    split
    · rfl
    · simp [Memory.get, Ne.symm h]
  | cons d m ih =>
    obtain ⟨k, w⟩ := d
    simp only [Memory.put]
    split
    · split
      · rfl
      · rw [Memory.get, if_neg (Ne.symm h)]
    · split
      · subst a
        split
        · rw [Memory.get, if_neg (Ne.symm h)]
        · simp [Memory.get, Ne.symm h]
      · simp only [Memory.get, ih]

theorem Memory.putBytes_wf (m : Memory) (a : Nat) (bs : List Byte) (h : m.wf = true) : (m.putBytes a bs).wf = true := by
  induction bs generalizing m a with
  | nil => exact h
  | cons b bs ih => exact ih _ _ (Memory.put_wf m a b h)

theorem Memory.putLE_wf (m : Memory) (a n v : Nat) (h : m.wf = true) : (m.putLE a n v).wf = true :=
  Memory.putBytes_wf m a _ h

/-- Bytes outside the range written read as before. -/
theorem Memory.get_putBytes_other (m : Memory) (a b : Nat) (bs : List Byte) (h : b < a ∨ a + bs.length ≤ b) :
    (m.putBytes a bs).get b = m.get b := by
  induction bs generalizing m a with
  | nil => rfl
  | cons x bs ih =>
    simp only [List.length_cons] at h
    rw [Memory.putBytes, ih _ _ (by omega), Memory.get_put_other _ _ _ _ (by omega)]

/-- Byte i of the range written reads as byte i of the bytes, in a canonical memory. -/
theorem Memory.get_putBytes_same (m : Memory) (a i : Nat) (bs : List Byte) (h : m.wf = true) (hi : i < bs.length) :
    (m.putBytes a bs).get (a + i) = bs[i] := by
  induction bs generalizing m a i with
  | nil => simp at hi
  | cons x bs ih =>
    rw [Memory.putBytes]
    cases i with
    | zero =>
      rw [Memory.get_putBytes_other _ _ _ _ (by omega)]
      simpa using Memory.get_put_same m a x h
    | succ i =>
      have := ih (m.put a x) (a + 1) i (Memory.put_wf m a x h) (by simpa using hi)
      simpa [Nat.add_assoc, Nat.add_comm, Nat.add_left_comm] using this

theorem leBytes_length (v n : Nat) : (leBytes v n).length = n := by
  induction n generalizing v with
  | zero => rfl
  | succ n ih => simp [leBytes, ih]

/-- The number a list of bytes spells is the one it was made from. -/
theorem leNat_leBytes (v n : Nat) : leNat (leBytes v n) = v % 256 ^ n := by
  induction n generalizing v with
  | zero => simp [leBytes, leNat, Nat.mod_one]
  | succ n ih =>
    have h : (BitVec.ofNat 8 v).toNat = v % 256 := by simp
    rw [leBytes, leNat, ih, h, Nat.pow_succ', Nat.mod_mul]

end Sys2Proof.Machine
end

