-- ==== Sys2Proof/Laws/State.lean ====
section
/-! SUPPORT. What each update of the state leaves and sets: one lemma per field and update, and what a component reads as after
an update of the same or of another one. -/
namespace Sys2Proof.Machine
open Sys2Proof

/-! ### setPwr -/
@[simp] theorem State.setPwr_pending (s : State) (x : Power) : (s.setPwr x).pending = s.pending := rfl
@[simp] theorem State.setPwr_ns (s : State) (x : Power) : (s.setPwr x).ns = s.ns := rfl
@[simp] theorem State.setPwr_free (s : State) (x : Power) : (s.setPwr x).free = s.free := rfl
@[simp] theorem State.setPwr_pwr (s : State) (x : Power) : (s.setPwr x).pwr = x := rfl
@[simp] theorem State.setPwr_pins (s : State) (x : Power) : (s.setPwr x).pins = s.pins := rfl
@[simp] theorem State.setPwr_boot (s : State) (x : Power) : (s.setPwr x).boot = s.boot := rfl
@[simp] theorem State.setPwr_sec (s : State) (x : Power) : (s.setPwr x).sec = s.sec := rfl
@[simp] theorem State.setPwr_pcie (s : State) (x : Power) : (s.setPwr x).pcie = s.pcie := rfl
@[simp] theorem State.setPwr_rings (s : State) (x : Power) : (s.setPwr x).rings = s.rings := rfl
@[simp] theorem State.setPwr_evt (s : State) (x : Power) : (s.setPwr x).evt = s.evt := rfl
@[simp] theorem State.setPwr_host (s : State) (x : Power) : (s.setPwr x).host = s.host := rfl
@[simp] theorem State.setPwr_cores (s : State) (x : Power) : (s.setPwr x).cores = s.cores := rfl
@[simp] theorem State.setPwr_clusters (s : State) (x : Power) : (s.setPwr x).clusters = s.clusters := rfl
@[simp] theorem State.setPwr_launches (s : State) (x : Power) : (s.setPwr x).launches = s.launches := rfl
@[simp] theorem State.setPwr_wires (s : State) (x : Power) : (s.setPwr x).wires = s.wires := rfl
@[simp] theorem State.setPwr_gddr (s : State) (x : Power) : (s.setPwr x).gddr = s.gddr := rfl
@[simp] theorem State.setPwr_ports (s : State) (x : Power) : (s.setPwr x).ports = s.ports := rfl
@[simp] theorem State.setPwr_mach (s : State) (x : Power) : (s.setPwr x).mach = s.mach := rfl
@[simp] theorem State.setPwr_coll (s : State) (x : Power) : (s.setPwr x).coll = s.coll := rfl
@[simp] theorem State.setPwr_time (s : State) (x : Power) : (s.setPwr x).time = s.time := rfl
@[simp] theorem State.setPwr_seams (s : State) (x : Power) : (s.setPwr x).seams = s.seams := rfl
@[simp] theorem State.setPwr_ledger (s : State) (x : Power) : (s.setPwr x).ledger = s.ledger := rfl
@[simp] theorem State.setPwr_watchTotal (s : State) (x : Power) : (s.setPwr x).watchTotal = s.watchTotal := rfl
@[simp] theorem State.setPwr_out (s : State) (x : Power) : (s.setPwr x).out = s.out := rfl

/-! ### setPins -/
@[simp] theorem State.setPins_pending (s : State) (x : Pins) : (s.setPins x).pending = s.pending := rfl
@[simp] theorem State.setPins_ns (s : State) (x : Pins) : (s.setPins x).ns = s.ns := rfl
@[simp] theorem State.setPins_free (s : State) (x : Pins) : (s.setPins x).free = s.free := rfl
@[simp] theorem State.setPins_pwr (s : State) (x : Pins) : (s.setPins x).pwr = s.pwr := rfl
@[simp] theorem State.setPins_pins (s : State) (x : Pins) : (s.setPins x).pins = x := rfl
@[simp] theorem State.setPins_boot (s : State) (x : Pins) : (s.setPins x).boot = s.boot := rfl
@[simp] theorem State.setPins_sec (s : State) (x : Pins) : (s.setPins x).sec = s.sec := rfl
@[simp] theorem State.setPins_pcie (s : State) (x : Pins) : (s.setPins x).pcie = s.pcie := rfl
@[simp] theorem State.setPins_rings (s : State) (x : Pins) : (s.setPins x).rings = s.rings := rfl
@[simp] theorem State.setPins_evt (s : State) (x : Pins) : (s.setPins x).evt = s.evt := rfl
@[simp] theorem State.setPins_host (s : State) (x : Pins) : (s.setPins x).host = s.host := rfl
@[simp] theorem State.setPins_cores (s : State) (x : Pins) : (s.setPins x).cores = s.cores := rfl
@[simp] theorem State.setPins_clusters (s : State) (x : Pins) : (s.setPins x).clusters = s.clusters := rfl
@[simp] theorem State.setPins_launches (s : State) (x : Pins) : (s.setPins x).launches = s.launches := rfl
@[simp] theorem State.setPins_wires (s : State) (x : Pins) : (s.setPins x).wires = s.wires := rfl
@[simp] theorem State.setPins_gddr (s : State) (x : Pins) : (s.setPins x).gddr = s.gddr := rfl
@[simp] theorem State.setPins_ports (s : State) (x : Pins) : (s.setPins x).ports = s.ports := rfl
@[simp] theorem State.setPins_mach (s : State) (x : Pins) : (s.setPins x).mach = s.mach := rfl
@[simp] theorem State.setPins_coll (s : State) (x : Pins) : (s.setPins x).coll = s.coll := rfl
@[simp] theorem State.setPins_time (s : State) (x : Pins) : (s.setPins x).time = s.time := rfl
@[simp] theorem State.setPins_seams (s : State) (x : Pins) : (s.setPins x).seams = s.seams := rfl
@[simp] theorem State.setPins_ledger (s : State) (x : Pins) : (s.setPins x).ledger = s.ledger := rfl
@[simp] theorem State.setPins_watchTotal (s : State) (x : Pins) : (s.setPins x).watchTotal = s.watchTotal := rfl
@[simp] theorem State.setPins_out (s : State) (x : Pins) : (s.setPins x).out = s.out := rfl

/-! ### setBoot -/
@[simp] theorem State.setBoot_pending (s : State) (x : Boot) : (s.setBoot x).pending = s.pending := rfl
@[simp] theorem State.setBoot_ns (s : State) (x : Boot) : (s.setBoot x).ns = s.ns := rfl
@[simp] theorem State.setBoot_free (s : State) (x : Boot) : (s.setBoot x).free = s.free := rfl
@[simp] theorem State.setBoot_pwr (s : State) (x : Boot) : (s.setBoot x).pwr = s.pwr := rfl
@[simp] theorem State.setBoot_pins (s : State) (x : Boot) : (s.setBoot x).pins = s.pins := rfl
@[simp] theorem State.setBoot_boot (s : State) (x : Boot) : (s.setBoot x).boot = x := rfl
@[simp] theorem State.setBoot_sec (s : State) (x : Boot) : (s.setBoot x).sec = s.sec := rfl
@[simp] theorem State.setBoot_pcie (s : State) (x : Boot) : (s.setBoot x).pcie = s.pcie := rfl
@[simp] theorem State.setBoot_rings (s : State) (x : Boot) : (s.setBoot x).rings = s.rings := rfl
@[simp] theorem State.setBoot_evt (s : State) (x : Boot) : (s.setBoot x).evt = s.evt := rfl
@[simp] theorem State.setBoot_host (s : State) (x : Boot) : (s.setBoot x).host = s.host := rfl
@[simp] theorem State.setBoot_cores (s : State) (x : Boot) : (s.setBoot x).cores = s.cores := rfl
@[simp] theorem State.setBoot_clusters (s : State) (x : Boot) : (s.setBoot x).clusters = s.clusters := rfl
@[simp] theorem State.setBoot_launches (s : State) (x : Boot) : (s.setBoot x).launches = s.launches := rfl
@[simp] theorem State.setBoot_wires (s : State) (x : Boot) : (s.setBoot x).wires = s.wires := rfl
@[simp] theorem State.setBoot_gddr (s : State) (x : Boot) : (s.setBoot x).gddr = s.gddr := rfl
@[simp] theorem State.setBoot_ports (s : State) (x : Boot) : (s.setBoot x).ports = s.ports := rfl
@[simp] theorem State.setBoot_mach (s : State) (x : Boot) : (s.setBoot x).mach = s.mach := rfl
@[simp] theorem State.setBoot_coll (s : State) (x : Boot) : (s.setBoot x).coll = s.coll := rfl
@[simp] theorem State.setBoot_time (s : State) (x : Boot) : (s.setBoot x).time = s.time := rfl
@[simp] theorem State.setBoot_seams (s : State) (x : Boot) : (s.setBoot x).seams = s.seams := rfl
@[simp] theorem State.setBoot_ledger (s : State) (x : Boot) : (s.setBoot x).ledger = s.ledger := rfl
@[simp] theorem State.setBoot_watchTotal (s : State) (x : Boot) : (s.setBoot x).watchTotal = s.watchTotal := rfl
@[simp] theorem State.setBoot_out (s : State) (x : Boot) : (s.setBoot x).out = s.out := rfl

/-! ### setSec -/
@[simp] theorem State.setSec_pending (s : State) (x : Security) : (s.setSec x).pending = s.pending := rfl
@[simp] theorem State.setSec_ns (s : State) (x : Security) : (s.setSec x).ns = s.ns := rfl
@[simp] theorem State.setSec_free (s : State) (x : Security) : (s.setSec x).free = s.free := rfl
@[simp] theorem State.setSec_pwr (s : State) (x : Security) : (s.setSec x).pwr = s.pwr := rfl
@[simp] theorem State.setSec_pins (s : State) (x : Security) : (s.setSec x).pins = s.pins := rfl
@[simp] theorem State.setSec_boot (s : State) (x : Security) : (s.setSec x).boot = s.boot := rfl
@[simp] theorem State.setSec_sec (s : State) (x : Security) : (s.setSec x).sec = x := rfl
@[simp] theorem State.setSec_pcie (s : State) (x : Security) : (s.setSec x).pcie = s.pcie := rfl
@[simp] theorem State.setSec_rings (s : State) (x : Security) : (s.setSec x).rings = s.rings := rfl
@[simp] theorem State.setSec_evt (s : State) (x : Security) : (s.setSec x).evt = s.evt := rfl
@[simp] theorem State.setSec_host (s : State) (x : Security) : (s.setSec x).host = s.host := rfl
@[simp] theorem State.setSec_cores (s : State) (x : Security) : (s.setSec x).cores = s.cores := rfl
@[simp] theorem State.setSec_clusters (s : State) (x : Security) : (s.setSec x).clusters = s.clusters := rfl
@[simp] theorem State.setSec_launches (s : State) (x : Security) : (s.setSec x).launches = s.launches := rfl
@[simp] theorem State.setSec_wires (s : State) (x : Security) : (s.setSec x).wires = s.wires := rfl
@[simp] theorem State.setSec_gddr (s : State) (x : Security) : (s.setSec x).gddr = s.gddr := rfl
@[simp] theorem State.setSec_ports (s : State) (x : Security) : (s.setSec x).ports = s.ports := rfl
@[simp] theorem State.setSec_mach (s : State) (x : Security) : (s.setSec x).mach = s.mach := rfl
@[simp] theorem State.setSec_coll (s : State) (x : Security) : (s.setSec x).coll = s.coll := rfl
@[simp] theorem State.setSec_time (s : State) (x : Security) : (s.setSec x).time = s.time := rfl
@[simp] theorem State.setSec_seams (s : State) (x : Security) : (s.setSec x).seams = s.seams := rfl
@[simp] theorem State.setSec_ledger (s : State) (x : Security) : (s.setSec x).ledger = s.ledger := rfl
@[simp] theorem State.setSec_watchTotal (s : State) (x : Security) : (s.setSec x).watchTotal = s.watchTotal := rfl
@[simp] theorem State.setSec_out (s : State) (x : Security) : (s.setSec x).out = s.out := rfl

/-! ### setPcie -/
@[simp] theorem State.setPcie_pending (s : State) (x : Pcie) : (s.setPcie x).pending = s.pending := rfl
@[simp] theorem State.setPcie_ns (s : State) (x : Pcie) : (s.setPcie x).ns = s.ns := rfl
@[simp] theorem State.setPcie_free (s : State) (x : Pcie) : (s.setPcie x).free = s.free := rfl
@[simp] theorem State.setPcie_pwr (s : State) (x : Pcie) : (s.setPcie x).pwr = s.pwr := rfl
@[simp] theorem State.setPcie_pins (s : State) (x : Pcie) : (s.setPcie x).pins = s.pins := rfl
@[simp] theorem State.setPcie_boot (s : State) (x : Pcie) : (s.setPcie x).boot = s.boot := rfl
@[simp] theorem State.setPcie_sec (s : State) (x : Pcie) : (s.setPcie x).sec = s.sec := rfl
@[simp] theorem State.setPcie_pcie (s : State) (x : Pcie) : (s.setPcie x).pcie = x := rfl
@[simp] theorem State.setPcie_rings (s : State) (x : Pcie) : (s.setPcie x).rings = s.rings := rfl
@[simp] theorem State.setPcie_evt (s : State) (x : Pcie) : (s.setPcie x).evt = s.evt := rfl
@[simp] theorem State.setPcie_host (s : State) (x : Pcie) : (s.setPcie x).host = s.host := rfl
@[simp] theorem State.setPcie_cores (s : State) (x : Pcie) : (s.setPcie x).cores = s.cores := rfl
@[simp] theorem State.setPcie_clusters (s : State) (x : Pcie) : (s.setPcie x).clusters = s.clusters := rfl
@[simp] theorem State.setPcie_launches (s : State) (x : Pcie) : (s.setPcie x).launches = s.launches := rfl
@[simp] theorem State.setPcie_wires (s : State) (x : Pcie) : (s.setPcie x).wires = s.wires := rfl
@[simp] theorem State.setPcie_gddr (s : State) (x : Pcie) : (s.setPcie x).gddr = s.gddr := rfl
@[simp] theorem State.setPcie_ports (s : State) (x : Pcie) : (s.setPcie x).ports = s.ports := rfl
@[simp] theorem State.setPcie_mach (s : State) (x : Pcie) : (s.setPcie x).mach = s.mach := rfl
@[simp] theorem State.setPcie_coll (s : State) (x : Pcie) : (s.setPcie x).coll = s.coll := rfl
@[simp] theorem State.setPcie_time (s : State) (x : Pcie) : (s.setPcie x).time = s.time := rfl
@[simp] theorem State.setPcie_seams (s : State) (x : Pcie) : (s.setPcie x).seams = s.seams := rfl
@[simp] theorem State.setPcie_ledger (s : State) (x : Pcie) : (s.setPcie x).ledger = s.ledger := rfl
@[simp] theorem State.setPcie_watchTotal (s : State) (x : Pcie) : (s.setPcie x).watchTotal = s.watchTotal := rfl
@[simp] theorem State.setPcie_out (s : State) (x : Pcie) : (s.setPcie x).out = s.out := rfl

/-! ### setEvt -/
@[simp] theorem State.setEvt_pending (s : State) (x : EventRing) : (s.setEvt x).pending = s.pending := rfl
@[simp] theorem State.setEvt_ns (s : State) (x : EventRing) : (s.setEvt x).ns = s.ns := rfl
@[simp] theorem State.setEvt_free (s : State) (x : EventRing) : (s.setEvt x).free = s.free := rfl
@[simp] theorem State.setEvt_pwr (s : State) (x : EventRing) : (s.setEvt x).pwr = s.pwr := rfl
@[simp] theorem State.setEvt_pins (s : State) (x : EventRing) : (s.setEvt x).pins = s.pins := rfl
@[simp] theorem State.setEvt_boot (s : State) (x : EventRing) : (s.setEvt x).boot = s.boot := rfl
@[simp] theorem State.setEvt_sec (s : State) (x : EventRing) : (s.setEvt x).sec = s.sec := rfl
@[simp] theorem State.setEvt_pcie (s : State) (x : EventRing) : (s.setEvt x).pcie = s.pcie := rfl
@[simp] theorem State.setEvt_rings (s : State) (x : EventRing) : (s.setEvt x).rings = s.rings := rfl
@[simp] theorem State.setEvt_evt (s : State) (x : EventRing) : (s.setEvt x).evt = x := rfl
@[simp] theorem State.setEvt_host (s : State) (x : EventRing) : (s.setEvt x).host = s.host := rfl
@[simp] theorem State.setEvt_cores (s : State) (x : EventRing) : (s.setEvt x).cores = s.cores := rfl
@[simp] theorem State.setEvt_clusters (s : State) (x : EventRing) : (s.setEvt x).clusters = s.clusters := rfl
@[simp] theorem State.setEvt_launches (s : State) (x : EventRing) : (s.setEvt x).launches = s.launches := rfl
@[simp] theorem State.setEvt_wires (s : State) (x : EventRing) : (s.setEvt x).wires = s.wires := rfl
@[simp] theorem State.setEvt_gddr (s : State) (x : EventRing) : (s.setEvt x).gddr = s.gddr := rfl
@[simp] theorem State.setEvt_ports (s : State) (x : EventRing) : (s.setEvt x).ports = s.ports := rfl
@[simp] theorem State.setEvt_mach (s : State) (x : EventRing) : (s.setEvt x).mach = s.mach := rfl
@[simp] theorem State.setEvt_coll (s : State) (x : EventRing) : (s.setEvt x).coll = s.coll := rfl
@[simp] theorem State.setEvt_time (s : State) (x : EventRing) : (s.setEvt x).time = s.time := rfl
@[simp] theorem State.setEvt_seams (s : State) (x : EventRing) : (s.setEvt x).seams = s.seams := rfl
@[simp] theorem State.setEvt_ledger (s : State) (x : EventRing) : (s.setEvt x).ledger = s.ledger := rfl
@[simp] theorem State.setEvt_watchTotal (s : State) (x : EventRing) : (s.setEvt x).watchTotal = s.watchTotal := rfl
@[simp] theorem State.setEvt_out (s : State) (x : EventRing) : (s.setEvt x).out = s.out := rfl

/-! ### setHost -/
@[simp] theorem State.setHost_pending (s : State) (x : Memory) : (s.setHost x).pending = s.pending := rfl
@[simp] theorem State.setHost_ns (s : State) (x : Memory) : (s.setHost x).ns = s.ns := rfl
@[simp] theorem State.setHost_free (s : State) (x : Memory) : (s.setHost x).free = s.free := rfl
@[simp] theorem State.setHost_pwr (s : State) (x : Memory) : (s.setHost x).pwr = s.pwr := rfl
@[simp] theorem State.setHost_pins (s : State) (x : Memory) : (s.setHost x).pins = s.pins := rfl
@[simp] theorem State.setHost_boot (s : State) (x : Memory) : (s.setHost x).boot = s.boot := rfl
@[simp] theorem State.setHost_sec (s : State) (x : Memory) : (s.setHost x).sec = s.sec := rfl
@[simp] theorem State.setHost_pcie (s : State) (x : Memory) : (s.setHost x).pcie = s.pcie := rfl
@[simp] theorem State.setHost_rings (s : State) (x : Memory) : (s.setHost x).rings = s.rings := rfl
@[simp] theorem State.setHost_evt (s : State) (x : Memory) : (s.setHost x).evt = s.evt := rfl
@[simp] theorem State.setHost_host (s : State) (x : Memory) : (s.setHost x).host = x := rfl
@[simp] theorem State.setHost_cores (s : State) (x : Memory) : (s.setHost x).cores = s.cores := rfl
@[simp] theorem State.setHost_clusters (s : State) (x : Memory) : (s.setHost x).clusters = s.clusters := rfl
@[simp] theorem State.setHost_launches (s : State) (x : Memory) : (s.setHost x).launches = s.launches := rfl
@[simp] theorem State.setHost_wires (s : State) (x : Memory) : (s.setHost x).wires = s.wires := rfl
@[simp] theorem State.setHost_gddr (s : State) (x : Memory) : (s.setHost x).gddr = s.gddr := rfl
@[simp] theorem State.setHost_ports (s : State) (x : Memory) : (s.setHost x).ports = s.ports := rfl
@[simp] theorem State.setHost_mach (s : State) (x : Memory) : (s.setHost x).mach = s.mach := rfl
@[simp] theorem State.setHost_coll (s : State) (x : Memory) : (s.setHost x).coll = s.coll := rfl
@[simp] theorem State.setHost_time (s : State) (x : Memory) : (s.setHost x).time = s.time := rfl
@[simp] theorem State.setHost_seams (s : State) (x : Memory) : (s.setHost x).seams = s.seams := rfl
@[simp] theorem State.setHost_ledger (s : State) (x : Memory) : (s.setHost x).ledger = s.ledger := rfl
@[simp] theorem State.setHost_watchTotal (s : State) (x : Memory) : (s.setHost x).watchTotal = s.watchTotal := rfl
@[simp] theorem State.setHost_out (s : State) (x : Memory) : (s.setHost x).out = s.out := rfl

/-! ### setLaunches -/
@[simp] theorem State.setLaunches_pending (s : State) (x : List Launch) : (s.setLaunches x).pending = s.pending := rfl
@[simp] theorem State.setLaunches_ns (s : State) (x : List Launch) : (s.setLaunches x).ns = s.ns := rfl
@[simp] theorem State.setLaunches_free (s : State) (x : List Launch) : (s.setLaunches x).free = s.free := rfl
@[simp] theorem State.setLaunches_pwr (s : State) (x : List Launch) : (s.setLaunches x).pwr = s.pwr := rfl
@[simp] theorem State.setLaunches_pins (s : State) (x : List Launch) : (s.setLaunches x).pins = s.pins := rfl
@[simp] theorem State.setLaunches_boot (s : State) (x : List Launch) : (s.setLaunches x).boot = s.boot := rfl
@[simp] theorem State.setLaunches_sec (s : State) (x : List Launch) : (s.setLaunches x).sec = s.sec := rfl
@[simp] theorem State.setLaunches_pcie (s : State) (x : List Launch) : (s.setLaunches x).pcie = s.pcie := rfl
@[simp] theorem State.setLaunches_rings (s : State) (x : List Launch) : (s.setLaunches x).rings = s.rings := rfl
@[simp] theorem State.setLaunches_evt (s : State) (x : List Launch) : (s.setLaunches x).evt = s.evt := rfl
@[simp] theorem State.setLaunches_host (s : State) (x : List Launch) : (s.setLaunches x).host = s.host := rfl
@[simp] theorem State.setLaunches_cores (s : State) (x : List Launch) : (s.setLaunches x).cores = s.cores := rfl
@[simp] theorem State.setLaunches_clusters (s : State) (x : List Launch) : (s.setLaunches x).clusters = s.clusters := rfl
@[simp] theorem State.setLaunches_launches (s : State) (x : List Launch) : (s.setLaunches x).launches = x := rfl
@[simp] theorem State.setLaunches_wires (s : State) (x : List Launch) : (s.setLaunches x).wires = s.wires := rfl
@[simp] theorem State.setLaunches_gddr (s : State) (x : List Launch) : (s.setLaunches x).gddr = s.gddr := rfl
@[simp] theorem State.setLaunches_ports (s : State) (x : List Launch) : (s.setLaunches x).ports = s.ports := rfl
@[simp] theorem State.setLaunches_mach (s : State) (x : List Launch) : (s.setLaunches x).mach = s.mach := rfl
@[simp] theorem State.setLaunches_coll (s : State) (x : List Launch) : (s.setLaunches x).coll = s.coll := rfl
@[simp] theorem State.setLaunches_time (s : State) (x : List Launch) : (s.setLaunches x).time = s.time := rfl
@[simp] theorem State.setLaunches_seams (s : State) (x : List Launch) : (s.setLaunches x).seams = s.seams := rfl
@[simp] theorem State.setLaunches_ledger (s : State) (x : List Launch) : (s.setLaunches x).ledger = s.ledger := rfl
@[simp] theorem State.setLaunches_watchTotal (s : State) (x : List Launch) : (s.setLaunches x).watchTotal = s.watchTotal := rfl
@[simp] theorem State.setLaunches_out (s : State) (x : List Launch) : (s.setLaunches x).out = s.out := rfl

/-! ### setWires -/
@[simp] theorem State.setWires_pending (s : State) (x : List Transit) : (s.setWires x).pending = s.pending := rfl
@[simp] theorem State.setWires_ns (s : State) (x : List Transit) : (s.setWires x).ns = s.ns := rfl
@[simp] theorem State.setWires_free (s : State) (x : List Transit) : (s.setWires x).free = s.free := rfl
@[simp] theorem State.setWires_pwr (s : State) (x : List Transit) : (s.setWires x).pwr = s.pwr := rfl
@[simp] theorem State.setWires_pins (s : State) (x : List Transit) : (s.setWires x).pins = s.pins := rfl
@[simp] theorem State.setWires_boot (s : State) (x : List Transit) : (s.setWires x).boot = s.boot := rfl
@[simp] theorem State.setWires_sec (s : State) (x : List Transit) : (s.setWires x).sec = s.sec := rfl
@[simp] theorem State.setWires_pcie (s : State) (x : List Transit) : (s.setWires x).pcie = s.pcie := rfl
@[simp] theorem State.setWires_rings (s : State) (x : List Transit) : (s.setWires x).rings = s.rings := rfl
@[simp] theorem State.setWires_evt (s : State) (x : List Transit) : (s.setWires x).evt = s.evt := rfl
@[simp] theorem State.setWires_host (s : State) (x : List Transit) : (s.setWires x).host = s.host := rfl
@[simp] theorem State.setWires_cores (s : State) (x : List Transit) : (s.setWires x).cores = s.cores := rfl
@[simp] theorem State.setWires_clusters (s : State) (x : List Transit) : (s.setWires x).clusters = s.clusters := rfl
@[simp] theorem State.setWires_launches (s : State) (x : List Transit) : (s.setWires x).launches = s.launches := rfl
@[simp] theorem State.setWires_wires (s : State) (x : List Transit) : (s.setWires x).wires = x := rfl
@[simp] theorem State.setWires_gddr (s : State) (x : List Transit) : (s.setWires x).gddr = s.gddr := rfl
@[simp] theorem State.setWires_ports (s : State) (x : List Transit) : (s.setWires x).ports = s.ports := rfl
@[simp] theorem State.setWires_mach (s : State) (x : List Transit) : (s.setWires x).mach = s.mach := rfl
@[simp] theorem State.setWires_coll (s : State) (x : List Transit) : (s.setWires x).coll = s.coll := rfl
@[simp] theorem State.setWires_time (s : State) (x : List Transit) : (s.setWires x).time = s.time := rfl
@[simp] theorem State.setWires_seams (s : State) (x : List Transit) : (s.setWires x).seams = s.seams := rfl
@[simp] theorem State.setWires_ledger (s : State) (x : List Transit) : (s.setWires x).ledger = s.ledger := rfl
@[simp] theorem State.setWires_watchTotal (s : State) (x : List Transit) : (s.setWires x).watchTotal = s.watchTotal := rfl
@[simp] theorem State.setWires_out (s : State) (x : List Transit) : (s.setWires x).out = s.out := rfl

/-! ### setGddr -/
@[simp] theorem State.setGddr_pending (s : State) (x : Gddr) : (s.setGddr x).pending = s.pending := rfl
@[simp] theorem State.setGddr_ns (s : State) (x : Gddr) : (s.setGddr x).ns = s.ns := rfl
@[simp] theorem State.setGddr_free (s : State) (x : Gddr) : (s.setGddr x).free = s.free := rfl
@[simp] theorem State.setGddr_pwr (s : State) (x : Gddr) : (s.setGddr x).pwr = s.pwr := rfl
@[simp] theorem State.setGddr_pins (s : State) (x : Gddr) : (s.setGddr x).pins = s.pins := rfl
@[simp] theorem State.setGddr_boot (s : State) (x : Gddr) : (s.setGddr x).boot = s.boot := rfl
@[simp] theorem State.setGddr_sec (s : State) (x : Gddr) : (s.setGddr x).sec = s.sec := rfl
@[simp] theorem State.setGddr_pcie (s : State) (x : Gddr) : (s.setGddr x).pcie = s.pcie := rfl
@[simp] theorem State.setGddr_rings (s : State) (x : Gddr) : (s.setGddr x).rings = s.rings := rfl
@[simp] theorem State.setGddr_evt (s : State) (x : Gddr) : (s.setGddr x).evt = s.evt := rfl
@[simp] theorem State.setGddr_host (s : State) (x : Gddr) : (s.setGddr x).host = s.host := rfl
@[simp] theorem State.setGddr_cores (s : State) (x : Gddr) : (s.setGddr x).cores = s.cores := rfl
@[simp] theorem State.setGddr_clusters (s : State) (x : Gddr) : (s.setGddr x).clusters = s.clusters := rfl
@[simp] theorem State.setGddr_launches (s : State) (x : Gddr) : (s.setGddr x).launches = s.launches := rfl
@[simp] theorem State.setGddr_wires (s : State) (x : Gddr) : (s.setGddr x).wires = s.wires := rfl
@[simp] theorem State.setGddr_gddr (s : State) (x : Gddr) : (s.setGddr x).gddr = x := rfl
@[simp] theorem State.setGddr_ports (s : State) (x : Gddr) : (s.setGddr x).ports = s.ports := rfl
@[simp] theorem State.setGddr_mach (s : State) (x : Gddr) : (s.setGddr x).mach = s.mach := rfl
@[simp] theorem State.setGddr_coll (s : State) (x : Gddr) : (s.setGddr x).coll = s.coll := rfl
@[simp] theorem State.setGddr_time (s : State) (x : Gddr) : (s.setGddr x).time = s.time := rfl
@[simp] theorem State.setGddr_seams (s : State) (x : Gddr) : (s.setGddr x).seams = s.seams := rfl
@[simp] theorem State.setGddr_ledger (s : State) (x : Gddr) : (s.setGddr x).ledger = s.ledger := rfl
@[simp] theorem State.setGddr_watchTotal (s : State) (x : Gddr) : (s.setGddr x).watchTotal = s.watchTotal := rfl
@[simp] theorem State.setGddr_out (s : State) (x : Gddr) : (s.setGddr x).out = s.out := rfl

/-! ### setMach -/
@[simp] theorem State.setMach_pending (s : State) (x : Mach) : (s.setMach x).pending = s.pending := rfl
@[simp] theorem State.setMach_ns (s : State) (x : Mach) : (s.setMach x).ns = s.ns := rfl
@[simp] theorem State.setMach_free (s : State) (x : Mach) : (s.setMach x).free = s.free := rfl
@[simp] theorem State.setMach_pwr (s : State) (x : Mach) : (s.setMach x).pwr = s.pwr := rfl
@[simp] theorem State.setMach_pins (s : State) (x : Mach) : (s.setMach x).pins = s.pins := rfl
@[simp] theorem State.setMach_boot (s : State) (x : Mach) : (s.setMach x).boot = s.boot := rfl
@[simp] theorem State.setMach_sec (s : State) (x : Mach) : (s.setMach x).sec = s.sec := rfl
@[simp] theorem State.setMach_pcie (s : State) (x : Mach) : (s.setMach x).pcie = s.pcie := rfl
@[simp] theorem State.setMach_rings (s : State) (x : Mach) : (s.setMach x).rings = s.rings := rfl
@[simp] theorem State.setMach_evt (s : State) (x : Mach) : (s.setMach x).evt = s.evt := rfl
@[simp] theorem State.setMach_host (s : State) (x : Mach) : (s.setMach x).host = s.host := rfl
@[simp] theorem State.setMach_cores (s : State) (x : Mach) : (s.setMach x).cores = s.cores := rfl
@[simp] theorem State.setMach_clusters (s : State) (x : Mach) : (s.setMach x).clusters = s.clusters := rfl
@[simp] theorem State.setMach_launches (s : State) (x : Mach) : (s.setMach x).launches = s.launches := rfl
@[simp] theorem State.setMach_wires (s : State) (x : Mach) : (s.setMach x).wires = s.wires := rfl
@[simp] theorem State.setMach_gddr (s : State) (x : Mach) : (s.setMach x).gddr = s.gddr := rfl
@[simp] theorem State.setMach_ports (s : State) (x : Mach) : (s.setMach x).ports = s.ports := rfl
@[simp] theorem State.setMach_mach (s : State) (x : Mach) : (s.setMach x).mach = x := rfl
@[simp] theorem State.setMach_coll (s : State) (x : Mach) : (s.setMach x).coll = s.coll := rfl
@[simp] theorem State.setMach_time (s : State) (x : Mach) : (s.setMach x).time = s.time := rfl
@[simp] theorem State.setMach_seams (s : State) (x : Mach) : (s.setMach x).seams = s.seams := rfl
@[simp] theorem State.setMach_ledger (s : State) (x : Mach) : (s.setMach x).ledger = s.ledger := rfl
@[simp] theorem State.setMach_watchTotal (s : State) (x : Mach) : (s.setMach x).watchTotal = s.watchTotal := rfl
@[simp] theorem State.setMach_out (s : State) (x : Mach) : (s.setMach x).out = s.out := rfl

/-! ### setColl -/
@[simp] theorem State.setColl_pending (s : State) (x : Coll) : (s.setColl x).pending = s.pending := rfl
@[simp] theorem State.setColl_ns (s : State) (x : Coll) : (s.setColl x).ns = s.ns := rfl
@[simp] theorem State.setColl_free (s : State) (x : Coll) : (s.setColl x).free = s.free := rfl
@[simp] theorem State.setColl_pwr (s : State) (x : Coll) : (s.setColl x).pwr = s.pwr := rfl
@[simp] theorem State.setColl_pins (s : State) (x : Coll) : (s.setColl x).pins = s.pins := rfl
@[simp] theorem State.setColl_boot (s : State) (x : Coll) : (s.setColl x).boot = s.boot := rfl
@[simp] theorem State.setColl_sec (s : State) (x : Coll) : (s.setColl x).sec = s.sec := rfl
@[simp] theorem State.setColl_pcie (s : State) (x : Coll) : (s.setColl x).pcie = s.pcie := rfl
@[simp] theorem State.setColl_rings (s : State) (x : Coll) : (s.setColl x).rings = s.rings := rfl
@[simp] theorem State.setColl_evt (s : State) (x : Coll) : (s.setColl x).evt = s.evt := rfl
@[simp] theorem State.setColl_host (s : State) (x : Coll) : (s.setColl x).host = s.host := rfl
@[simp] theorem State.setColl_cores (s : State) (x : Coll) : (s.setColl x).cores = s.cores := rfl
@[simp] theorem State.setColl_clusters (s : State) (x : Coll) : (s.setColl x).clusters = s.clusters := rfl
@[simp] theorem State.setColl_launches (s : State) (x : Coll) : (s.setColl x).launches = s.launches := rfl
@[simp] theorem State.setColl_wires (s : State) (x : Coll) : (s.setColl x).wires = s.wires := rfl
@[simp] theorem State.setColl_gddr (s : State) (x : Coll) : (s.setColl x).gddr = s.gddr := rfl
@[simp] theorem State.setColl_ports (s : State) (x : Coll) : (s.setColl x).ports = s.ports := rfl
@[simp] theorem State.setColl_mach (s : State) (x : Coll) : (s.setColl x).mach = s.mach := rfl
@[simp] theorem State.setColl_coll (s : State) (x : Coll) : (s.setColl x).coll = x := rfl
@[simp] theorem State.setColl_time (s : State) (x : Coll) : (s.setColl x).time = s.time := rfl
@[simp] theorem State.setColl_seams (s : State) (x : Coll) : (s.setColl x).seams = s.seams := rfl
@[simp] theorem State.setColl_ledger (s : State) (x : Coll) : (s.setColl x).ledger = s.ledger := rfl
@[simp] theorem State.setColl_watchTotal (s : State) (x : Coll) : (s.setColl x).watchTotal = s.watchTotal := rfl
@[simp] theorem State.setColl_out (s : State) (x : Coll) : (s.setColl x).out = s.out := rfl

/-! ### setTime -/
@[simp] theorem State.setTime_pending (s : State) (x : TimeBase) : (s.setTime x).pending = s.pending := rfl
@[simp] theorem State.setTime_ns (s : State) (x : TimeBase) : (s.setTime x).ns = s.ns := rfl
@[simp] theorem State.setTime_free (s : State) (x : TimeBase) : (s.setTime x).free = s.free := rfl
@[simp] theorem State.setTime_pwr (s : State) (x : TimeBase) : (s.setTime x).pwr = s.pwr := rfl
@[simp] theorem State.setTime_pins (s : State) (x : TimeBase) : (s.setTime x).pins = s.pins := rfl
@[simp] theorem State.setTime_boot (s : State) (x : TimeBase) : (s.setTime x).boot = s.boot := rfl
@[simp] theorem State.setTime_sec (s : State) (x : TimeBase) : (s.setTime x).sec = s.sec := rfl
@[simp] theorem State.setTime_pcie (s : State) (x : TimeBase) : (s.setTime x).pcie = s.pcie := rfl
@[simp] theorem State.setTime_rings (s : State) (x : TimeBase) : (s.setTime x).rings = s.rings := rfl
@[simp] theorem State.setTime_evt (s : State) (x : TimeBase) : (s.setTime x).evt = s.evt := rfl
@[simp] theorem State.setTime_host (s : State) (x : TimeBase) : (s.setTime x).host = s.host := rfl
@[simp] theorem State.setTime_cores (s : State) (x : TimeBase) : (s.setTime x).cores = s.cores := rfl
@[simp] theorem State.setTime_clusters (s : State) (x : TimeBase) : (s.setTime x).clusters = s.clusters := rfl
@[simp] theorem State.setTime_launches (s : State) (x : TimeBase) : (s.setTime x).launches = s.launches := rfl
@[simp] theorem State.setTime_wires (s : State) (x : TimeBase) : (s.setTime x).wires = s.wires := rfl
@[simp] theorem State.setTime_gddr (s : State) (x : TimeBase) : (s.setTime x).gddr = s.gddr := rfl
@[simp] theorem State.setTime_ports (s : State) (x : TimeBase) : (s.setTime x).ports = s.ports := rfl
@[simp] theorem State.setTime_mach (s : State) (x : TimeBase) : (s.setTime x).mach = s.mach := rfl
@[simp] theorem State.setTime_coll (s : State) (x : TimeBase) : (s.setTime x).coll = s.coll := rfl
@[simp] theorem State.setTime_time (s : State) (x : TimeBase) : (s.setTime x).time = x := rfl
@[simp] theorem State.setTime_seams (s : State) (x : TimeBase) : (s.setTime x).seams = s.seams := rfl
@[simp] theorem State.setTime_ledger (s : State) (x : TimeBase) : (s.setTime x).ledger = s.ledger := rfl
@[simp] theorem State.setTime_watchTotal (s : State) (x : TimeBase) : (s.setTime x).watchTotal = s.watchTotal := rfl
@[simp] theorem State.setTime_out (s : State) (x : TimeBase) : (s.setTime x).out = s.out := rfl

/-! ### setLedger -/
@[simp] theorem State.setLedger_pending (s : State) (x : Ledger) : (s.setLedger x).pending = s.pending := rfl
@[simp] theorem State.setLedger_ns (s : State) (x : Ledger) : (s.setLedger x).ns = s.ns := rfl
@[simp] theorem State.setLedger_free (s : State) (x : Ledger) : (s.setLedger x).free = s.free := rfl
@[simp] theorem State.setLedger_pwr (s : State) (x : Ledger) : (s.setLedger x).pwr = s.pwr := rfl
@[simp] theorem State.setLedger_pins (s : State) (x : Ledger) : (s.setLedger x).pins = s.pins := rfl
@[simp] theorem State.setLedger_boot (s : State) (x : Ledger) : (s.setLedger x).boot = s.boot := rfl
@[simp] theorem State.setLedger_sec (s : State) (x : Ledger) : (s.setLedger x).sec = s.sec := rfl
@[simp] theorem State.setLedger_pcie (s : State) (x : Ledger) : (s.setLedger x).pcie = s.pcie := rfl
@[simp] theorem State.setLedger_rings (s : State) (x : Ledger) : (s.setLedger x).rings = s.rings := rfl
@[simp] theorem State.setLedger_evt (s : State) (x : Ledger) : (s.setLedger x).evt = s.evt := rfl
@[simp] theorem State.setLedger_host (s : State) (x : Ledger) : (s.setLedger x).host = s.host := rfl
@[simp] theorem State.setLedger_cores (s : State) (x : Ledger) : (s.setLedger x).cores = s.cores := rfl
@[simp] theorem State.setLedger_clusters (s : State) (x : Ledger) : (s.setLedger x).clusters = s.clusters := rfl
@[simp] theorem State.setLedger_launches (s : State) (x : Ledger) : (s.setLedger x).launches = s.launches := rfl
@[simp] theorem State.setLedger_wires (s : State) (x : Ledger) : (s.setLedger x).wires = s.wires := rfl
@[simp] theorem State.setLedger_gddr (s : State) (x : Ledger) : (s.setLedger x).gddr = s.gddr := rfl
@[simp] theorem State.setLedger_ports (s : State) (x : Ledger) : (s.setLedger x).ports = s.ports := rfl
@[simp] theorem State.setLedger_mach (s : State) (x : Ledger) : (s.setLedger x).mach = s.mach := rfl
@[simp] theorem State.setLedger_coll (s : State) (x : Ledger) : (s.setLedger x).coll = s.coll := rfl
@[simp] theorem State.setLedger_time (s : State) (x : Ledger) : (s.setLedger x).time = s.time := rfl
@[simp] theorem State.setLedger_seams (s : State) (x : Ledger) : (s.setLedger x).seams = s.seams := rfl
@[simp] theorem State.setLedger_ledger (s : State) (x : Ledger) : (s.setLedger x).ledger = x := rfl
@[simp] theorem State.setLedger_watchTotal (s : State) (x : Ledger) : (s.setLedger x).watchTotal = s.watchTotal := rfl
@[simp] theorem State.setLedger_out (s : State) (x : Ledger) : (s.setLedger x).out = s.out := rfl

/-! ### setOut -/
@[simp] theorem State.setOut_pending (s : State) (x : Output) : (s.setOut x).pending = s.pending := rfl
@[simp] theorem State.setOut_ns (s : State) (x : Output) : (s.setOut x).ns = s.ns := rfl
@[simp] theorem State.setOut_free (s : State) (x : Output) : (s.setOut x).free = s.free := rfl
@[simp] theorem State.setOut_pwr (s : State) (x : Output) : (s.setOut x).pwr = s.pwr := rfl
@[simp] theorem State.setOut_pins (s : State) (x : Output) : (s.setOut x).pins = s.pins := rfl
@[simp] theorem State.setOut_boot (s : State) (x : Output) : (s.setOut x).boot = s.boot := rfl
@[simp] theorem State.setOut_sec (s : State) (x : Output) : (s.setOut x).sec = s.sec := rfl
@[simp] theorem State.setOut_pcie (s : State) (x : Output) : (s.setOut x).pcie = s.pcie := rfl
@[simp] theorem State.setOut_rings (s : State) (x : Output) : (s.setOut x).rings = s.rings := rfl
@[simp] theorem State.setOut_evt (s : State) (x : Output) : (s.setOut x).evt = s.evt := rfl
@[simp] theorem State.setOut_host (s : State) (x : Output) : (s.setOut x).host = s.host := rfl
@[simp] theorem State.setOut_cores (s : State) (x : Output) : (s.setOut x).cores = s.cores := rfl
@[simp] theorem State.setOut_clusters (s : State) (x : Output) : (s.setOut x).clusters = s.clusters := rfl
@[simp] theorem State.setOut_launches (s : State) (x : Output) : (s.setOut x).launches = s.launches := rfl
@[simp] theorem State.setOut_wires (s : State) (x : Output) : (s.setOut x).wires = s.wires := rfl
@[simp] theorem State.setOut_gddr (s : State) (x : Output) : (s.setOut x).gddr = s.gddr := rfl
@[simp] theorem State.setOut_ports (s : State) (x : Output) : (s.setOut x).ports = s.ports := rfl
@[simp] theorem State.setOut_mach (s : State) (x : Output) : (s.setOut x).mach = s.mach := rfl
@[simp] theorem State.setOut_coll (s : State) (x : Output) : (s.setOut x).coll = s.coll := rfl
@[simp] theorem State.setOut_time (s : State) (x : Output) : (s.setOut x).time = s.time := rfl
@[simp] theorem State.setOut_seams (s : State) (x : Output) : (s.setOut x).seams = s.seams := rfl
@[simp] theorem State.setOut_ledger (s : State) (x : Output) : (s.setOut x).ledger = s.ledger := rfl
@[simp] theorem State.setOut_watchTotal (s : State) (x : Output) : (s.setOut x).watchTotal = s.watchTotal := rfl
@[simp] theorem State.setOut_out (s : State) (x : Output) : (s.setOut x).out = x := rfl

/-! ### setFree -/
@[simp] theorem State.setFree_pending (s : State) (x : Nat) : (s.setFree x).pending = s.pending := rfl
@[simp] theorem State.setFree_ns (s : State) (x : Nat) : (s.setFree x).ns = s.ns := rfl
@[simp] theorem State.setFree_free (s : State) (x : Nat) : (s.setFree x).free = x := rfl
@[simp] theorem State.setFree_pwr (s : State) (x : Nat) : (s.setFree x).pwr = s.pwr := rfl
@[simp] theorem State.setFree_pins (s : State) (x : Nat) : (s.setFree x).pins = s.pins := rfl
@[simp] theorem State.setFree_boot (s : State) (x : Nat) : (s.setFree x).boot = s.boot := rfl
@[simp] theorem State.setFree_sec (s : State) (x : Nat) : (s.setFree x).sec = s.sec := rfl
@[simp] theorem State.setFree_pcie (s : State) (x : Nat) : (s.setFree x).pcie = s.pcie := rfl
@[simp] theorem State.setFree_rings (s : State) (x : Nat) : (s.setFree x).rings = s.rings := rfl
@[simp] theorem State.setFree_evt (s : State) (x : Nat) : (s.setFree x).evt = s.evt := rfl
@[simp] theorem State.setFree_host (s : State) (x : Nat) : (s.setFree x).host = s.host := rfl
@[simp] theorem State.setFree_cores (s : State) (x : Nat) : (s.setFree x).cores = s.cores := rfl
@[simp] theorem State.setFree_clusters (s : State) (x : Nat) : (s.setFree x).clusters = s.clusters := rfl
@[simp] theorem State.setFree_launches (s : State) (x : Nat) : (s.setFree x).launches = s.launches := rfl
@[simp] theorem State.setFree_wires (s : State) (x : Nat) : (s.setFree x).wires = s.wires := rfl
@[simp] theorem State.setFree_gddr (s : State) (x : Nat) : (s.setFree x).gddr = s.gddr := rfl
@[simp] theorem State.setFree_ports (s : State) (x : Nat) : (s.setFree x).ports = s.ports := rfl
@[simp] theorem State.setFree_mach (s : State) (x : Nat) : (s.setFree x).mach = s.mach := rfl
@[simp] theorem State.setFree_coll (s : State) (x : Nat) : (s.setFree x).coll = s.coll := rfl
@[simp] theorem State.setFree_time (s : State) (x : Nat) : (s.setFree x).time = s.time := rfl
@[simp] theorem State.setFree_seams (s : State) (x : Nat) : (s.setFree x).seams = s.seams := rfl
@[simp] theorem State.setFree_ledger (s : State) (x : Nat) : (s.setFree x).ledger = s.ledger := rfl
@[simp] theorem State.setFree_watchTotal (s : State) (x : Nat) : (s.setFree x).watchTotal = s.watchTotal := rfl
@[simp] theorem State.setFree_out (s : State) (x : Nat) : (s.setFree x).out = s.out := rfl

/-! ### popCmd -/
@[simp] theorem State.popCmd_pending (s : State) (x : List Instr) : (s.popCmd x).pending = x := rfl
@[simp] theorem State.popCmd_ns (s : State) (x : List Instr) : (s.popCmd x).ns = s.ns := rfl
@[simp] theorem State.popCmd_free (s : State) (x : List Instr) : (s.popCmd x).free = s.free := rfl
@[simp] theorem State.popCmd_pwr (s : State) (x : List Instr) : (s.popCmd x).pwr = s.pwr := rfl
@[simp] theorem State.popCmd_pins (s : State) (x : List Instr) : (s.popCmd x).pins = s.pins := rfl
@[simp] theorem State.popCmd_boot (s : State) (x : List Instr) : (s.popCmd x).boot = s.boot := rfl
@[simp] theorem State.popCmd_sec (s : State) (x : List Instr) : (s.popCmd x).sec = s.sec := rfl
@[simp] theorem State.popCmd_pcie (s : State) (x : List Instr) : (s.popCmd x).pcie = s.pcie := rfl
@[simp] theorem State.popCmd_rings (s : State) (x : List Instr) : (s.popCmd x).rings = s.rings := rfl
@[simp] theorem State.popCmd_evt (s : State) (x : List Instr) : (s.popCmd x).evt = s.evt := rfl
@[simp] theorem State.popCmd_host (s : State) (x : List Instr) : (s.popCmd x).host = s.host := rfl
@[simp] theorem State.popCmd_cores (s : State) (x : List Instr) : (s.popCmd x).cores = s.cores := rfl
@[simp] theorem State.popCmd_clusters (s : State) (x : List Instr) : (s.popCmd x).clusters = s.clusters := rfl
@[simp] theorem State.popCmd_launches (s : State) (x : List Instr) : (s.popCmd x).launches = s.launches := rfl
@[simp] theorem State.popCmd_wires (s : State) (x : List Instr) : (s.popCmd x).wires = s.wires := rfl
@[simp] theorem State.popCmd_gddr (s : State) (x : List Instr) : (s.popCmd x).gddr = s.gddr := rfl
@[simp] theorem State.popCmd_ports (s : State) (x : List Instr) : (s.popCmd x).ports = s.ports := rfl
@[simp] theorem State.popCmd_mach (s : State) (x : List Instr) : (s.popCmd x).mach = s.mach := rfl
@[simp] theorem State.popCmd_coll (s : State) (x : List Instr) : (s.popCmd x).coll = s.coll := rfl
@[simp] theorem State.popCmd_time (s : State) (x : List Instr) : (s.popCmd x).time = s.time := rfl
@[simp] theorem State.popCmd_seams (s : State) (x : List Instr) : (s.popCmd x).seams = s.seams := rfl
@[simp] theorem State.popCmd_ledger (s : State) (x : List Instr) : (s.popCmd x).ledger = s.ledger := rfl
@[simp] theorem State.popCmd_watchTotal (s : State) (x : List Instr) : (s.popCmd x).watchTotal = s.watchTotal := rfl
@[simp] theorem State.popCmd_out (s : State) (x : List Instr) : (s.popCmd x).out = s.out := rfl

/-! ### setRing -/
@[simp] theorem State.setRing_pending (s : State) (r : Fin 256) (x : Ring) : (s.setRing r x).pending = s.pending := rfl
@[simp] theorem State.setRing_ns (s : State) (r : Fin 256) (x : Ring) : (s.setRing r x).ns = s.ns := rfl
@[simp] theorem State.setRing_free (s : State) (r : Fin 256) (x : Ring) : (s.setRing r x).free = s.free := rfl
@[simp] theorem State.setRing_pwr (s : State) (r : Fin 256) (x : Ring) : (s.setRing r x).pwr = s.pwr := rfl
@[simp] theorem State.setRing_pins (s : State) (r : Fin 256) (x : Ring) : (s.setRing r x).pins = s.pins := rfl
@[simp] theorem State.setRing_boot (s : State) (r : Fin 256) (x : Ring) : (s.setRing r x).boot = s.boot := rfl
@[simp] theorem State.setRing_sec (s : State) (r : Fin 256) (x : Ring) : (s.setRing r x).sec = s.sec := rfl
@[simp] theorem State.setRing_pcie (s : State) (r : Fin 256) (x : Ring) : (s.setRing r x).pcie = s.pcie := rfl
@[simp] theorem State.setRing_evt (s : State) (r : Fin 256) (x : Ring) : (s.setRing r x).evt = s.evt := rfl
@[simp] theorem State.setRing_host (s : State) (r : Fin 256) (x : Ring) : (s.setRing r x).host = s.host := rfl
@[simp] theorem State.setRing_cores (s : State) (r : Fin 256) (x : Ring) : (s.setRing r x).cores = s.cores := rfl
@[simp] theorem State.setRing_clusters (s : State) (r : Fin 256) (x : Ring) : (s.setRing r x).clusters = s.clusters := rfl
@[simp] theorem State.setRing_launches (s : State) (r : Fin 256) (x : Ring) : (s.setRing r x).launches = s.launches := rfl
@[simp] theorem State.setRing_wires (s : State) (r : Fin 256) (x : Ring) : (s.setRing r x).wires = s.wires := rfl
@[simp] theorem State.setRing_gddr (s : State) (r : Fin 256) (x : Ring) : (s.setRing r x).gddr = s.gddr := rfl
@[simp] theorem State.setRing_ports (s : State) (r : Fin 256) (x : Ring) : (s.setRing r x).ports = s.ports := rfl
@[simp] theorem State.setRing_mach (s : State) (r : Fin 256) (x : Ring) : (s.setRing r x).mach = s.mach := rfl
@[simp] theorem State.setRing_coll (s : State) (r : Fin 256) (x : Ring) : (s.setRing r x).coll = s.coll := rfl
@[simp] theorem State.setRing_time (s : State) (r : Fin 256) (x : Ring) : (s.setRing r x).time = s.time := rfl
@[simp] theorem State.setRing_seams (s : State) (r : Fin 256) (x : Ring) : (s.setRing r x).seams = s.seams := rfl
@[simp] theorem State.setRing_ledger (s : State) (r : Fin 256) (x : Ring) : (s.setRing r x).ledger = s.ledger := rfl
@[simp] theorem State.setRing_watchTotal (s : State) (r : Fin 256) (x : Ring) : (s.setRing r x).watchTotal = s.watchTotal := rfl
@[simp] theorem State.setRing_out (s : State) (r : Fin 256) (x : Ring) : (s.setRing r x).out = s.out := rfl

/-! ### setCore -/
@[simp] theorem State.setCore_pending (s : State) (c : Fin 384) (x : Core) : (s.setCore c x).pending = s.pending := rfl
@[simp] theorem State.setCore_ns (s : State) (c : Fin 384) (x : Core) : (s.setCore c x).ns = s.ns := rfl
@[simp] theorem State.setCore_free (s : State) (c : Fin 384) (x : Core) : (s.setCore c x).free = s.free := rfl
@[simp] theorem State.setCore_pwr (s : State) (c : Fin 384) (x : Core) : (s.setCore c x).pwr = s.pwr := rfl
@[simp] theorem State.setCore_pins (s : State) (c : Fin 384) (x : Core) : (s.setCore c x).pins = s.pins := rfl
@[simp] theorem State.setCore_boot (s : State) (c : Fin 384) (x : Core) : (s.setCore c x).boot = s.boot := rfl
@[simp] theorem State.setCore_sec (s : State) (c : Fin 384) (x : Core) : (s.setCore c x).sec = s.sec := rfl
@[simp] theorem State.setCore_pcie (s : State) (c : Fin 384) (x : Core) : (s.setCore c x).pcie = s.pcie := rfl
@[simp] theorem State.setCore_rings (s : State) (c : Fin 384) (x : Core) : (s.setCore c x).rings = s.rings := rfl
@[simp] theorem State.setCore_evt (s : State) (c : Fin 384) (x : Core) : (s.setCore c x).evt = s.evt := rfl
@[simp] theorem State.setCore_host (s : State) (c : Fin 384) (x : Core) : (s.setCore c x).host = s.host := rfl
@[simp] theorem State.setCore_clusters (s : State) (c : Fin 384) (x : Core) : (s.setCore c x).clusters = s.clusters := rfl
@[simp] theorem State.setCore_launches (s : State) (c : Fin 384) (x : Core) : (s.setCore c x).launches = s.launches := rfl
@[simp] theorem State.setCore_wires (s : State) (c : Fin 384) (x : Core) : (s.setCore c x).wires = s.wires := rfl
@[simp] theorem State.setCore_gddr (s : State) (c : Fin 384) (x : Core) : (s.setCore c x).gddr = s.gddr := rfl
@[simp] theorem State.setCore_ports (s : State) (c : Fin 384) (x : Core) : (s.setCore c x).ports = s.ports := rfl
@[simp] theorem State.setCore_mach (s : State) (c : Fin 384) (x : Core) : (s.setCore c x).mach = s.mach := rfl
@[simp] theorem State.setCore_coll (s : State) (c : Fin 384) (x : Core) : (s.setCore c x).coll = s.coll := rfl
@[simp] theorem State.setCore_time (s : State) (c : Fin 384) (x : Core) : (s.setCore c x).time = s.time := rfl
@[simp] theorem State.setCore_seams (s : State) (c : Fin 384) (x : Core) : (s.setCore c x).seams = s.seams := rfl
@[simp] theorem State.setCore_ledger (s : State) (c : Fin 384) (x : Core) : (s.setCore c x).ledger = s.ledger := rfl
@[simp] theorem State.setCore_watchTotal (s : State) (c : Fin 384) (x : Core) : (s.setCore c x).watchTotal = s.watchTotal := rfl
@[simp] theorem State.setCore_out (s : State) (c : Fin 384) (x : Core) : (s.setCore c x).out = s.out := rfl

/-! ### setCluster -/
@[simp] theorem State.setCluster_pending (s : State) (c : Fin 48) (x : Cluster) : (s.setCluster c x).pending = s.pending := rfl
@[simp] theorem State.setCluster_ns (s : State) (c : Fin 48) (x : Cluster) : (s.setCluster c x).ns = s.ns := rfl
@[simp] theorem State.setCluster_free (s : State) (c : Fin 48) (x : Cluster) : (s.setCluster c x).free = s.free := rfl
@[simp] theorem State.setCluster_pwr (s : State) (c : Fin 48) (x : Cluster) : (s.setCluster c x).pwr = s.pwr := rfl
@[simp] theorem State.setCluster_pins (s : State) (c : Fin 48) (x : Cluster) : (s.setCluster c x).pins = s.pins := rfl
@[simp] theorem State.setCluster_boot (s : State) (c : Fin 48) (x : Cluster) : (s.setCluster c x).boot = s.boot := rfl
@[simp] theorem State.setCluster_sec (s : State) (c : Fin 48) (x : Cluster) : (s.setCluster c x).sec = s.sec := rfl
@[simp] theorem State.setCluster_pcie (s : State) (c : Fin 48) (x : Cluster) : (s.setCluster c x).pcie = s.pcie := rfl
@[simp] theorem State.setCluster_rings (s : State) (c : Fin 48) (x : Cluster) : (s.setCluster c x).rings = s.rings := rfl
@[simp] theorem State.setCluster_evt (s : State) (c : Fin 48) (x : Cluster) : (s.setCluster c x).evt = s.evt := rfl
@[simp] theorem State.setCluster_host (s : State) (c : Fin 48) (x : Cluster) : (s.setCluster c x).host = s.host := rfl
@[simp] theorem State.setCluster_cores (s : State) (c : Fin 48) (x : Cluster) : (s.setCluster c x).cores = s.cores := rfl
@[simp] theorem State.setCluster_launches (s : State) (c : Fin 48) (x : Cluster) : (s.setCluster c x).launches = s.launches := rfl
@[simp] theorem State.setCluster_wires (s : State) (c : Fin 48) (x : Cluster) : (s.setCluster c x).wires = s.wires := rfl
@[simp] theorem State.setCluster_gddr (s : State) (c : Fin 48) (x : Cluster) : (s.setCluster c x).gddr = s.gddr := rfl
@[simp] theorem State.setCluster_ports (s : State) (c : Fin 48) (x : Cluster) : (s.setCluster c x).ports = s.ports := rfl
@[simp] theorem State.setCluster_mach (s : State) (c : Fin 48) (x : Cluster) : (s.setCluster c x).mach = s.mach := rfl
@[simp] theorem State.setCluster_coll (s : State) (c : Fin 48) (x : Cluster) : (s.setCluster c x).coll = s.coll := rfl
@[simp] theorem State.setCluster_time (s : State) (c : Fin 48) (x : Cluster) : (s.setCluster c x).time = s.time := rfl
@[simp] theorem State.setCluster_seams (s : State) (c : Fin 48) (x : Cluster) : (s.setCluster c x).seams = s.seams := rfl
@[simp] theorem State.setCluster_ledger (s : State) (c : Fin 48) (x : Cluster) : (s.setCluster c x).ledger = s.ledger := rfl
@[simp] theorem State.setCluster_watchTotal (s : State) (c : Fin 48) (x : Cluster) : (s.setCluster c x).watchTotal = s.watchTotal := rfl
@[simp] theorem State.setCluster_out (s : State) (c : Fin 48) (x : Cluster) : (s.setCluster c x).out = s.out := rfl

/-! ### setPort -/
@[simp] theorem State.setPort_pending (s : State) (p : Fin 16) (x : Port) : (s.setPort p x).pending = s.pending := rfl
@[simp] theorem State.setPort_ns (s : State) (p : Fin 16) (x : Port) : (s.setPort p x).ns = s.ns := rfl
@[simp] theorem State.setPort_free (s : State) (p : Fin 16) (x : Port) : (s.setPort p x).free = s.free := rfl
@[simp] theorem State.setPort_pwr (s : State) (p : Fin 16) (x : Port) : (s.setPort p x).pwr = s.pwr := rfl
@[simp] theorem State.setPort_pins (s : State) (p : Fin 16) (x : Port) : (s.setPort p x).pins = s.pins := rfl
@[simp] theorem State.setPort_boot (s : State) (p : Fin 16) (x : Port) : (s.setPort p x).boot = s.boot := rfl
@[simp] theorem State.setPort_sec (s : State) (p : Fin 16) (x : Port) : (s.setPort p x).sec = s.sec := rfl
@[simp] theorem State.setPort_pcie (s : State) (p : Fin 16) (x : Port) : (s.setPort p x).pcie = s.pcie := rfl
@[simp] theorem State.setPort_rings (s : State) (p : Fin 16) (x : Port) : (s.setPort p x).rings = s.rings := rfl
@[simp] theorem State.setPort_evt (s : State) (p : Fin 16) (x : Port) : (s.setPort p x).evt = s.evt := rfl
@[simp] theorem State.setPort_host (s : State) (p : Fin 16) (x : Port) : (s.setPort p x).host = s.host := rfl
@[simp] theorem State.setPort_cores (s : State) (p : Fin 16) (x : Port) : (s.setPort p x).cores = s.cores := rfl
@[simp] theorem State.setPort_clusters (s : State) (p : Fin 16) (x : Port) : (s.setPort p x).clusters = s.clusters := rfl
@[simp] theorem State.setPort_launches (s : State) (p : Fin 16) (x : Port) : (s.setPort p x).launches = s.launches := rfl
@[simp] theorem State.setPort_wires (s : State) (p : Fin 16) (x : Port) : (s.setPort p x).wires = s.wires := rfl
@[simp] theorem State.setPort_gddr (s : State) (p : Fin 16) (x : Port) : (s.setPort p x).gddr = s.gddr := rfl
@[simp] theorem State.setPort_mach (s : State) (p : Fin 16) (x : Port) : (s.setPort p x).mach = s.mach := rfl
@[simp] theorem State.setPort_coll (s : State) (p : Fin 16) (x : Port) : (s.setPort p x).coll = s.coll := rfl
@[simp] theorem State.setPort_time (s : State) (p : Fin 16) (x : Port) : (s.setPort p x).time = s.time := rfl
@[simp] theorem State.setPort_seams (s : State) (p : Fin 16) (x : Port) : (s.setPort p x).seams = s.seams := rfl
@[simp] theorem State.setPort_ledger (s : State) (p : Fin 16) (x : Port) : (s.setPort p x).ledger = s.ledger := rfl
@[simp] theorem State.setPort_watchTotal (s : State) (p : Fin 16) (x : Port) : (s.setPort p x).watchTotal = s.watchTotal := rfl
@[simp] theorem State.setPort_out (s : State) (p : Fin 16) (x : Port) : (s.setPort p x).out = s.out := rfl

/-! ### modRing -/
@[simp] theorem State.modRing_pending (s : State) (r : Fin 256) (f : Ring → Ring) : (s.modRing r f).pending = s.pending := rfl
@[simp] theorem State.modRing_ns (s : State) (r : Fin 256) (f : Ring → Ring) : (s.modRing r f).ns = s.ns := rfl
@[simp] theorem State.modRing_free (s : State) (r : Fin 256) (f : Ring → Ring) : (s.modRing r f).free = s.free := rfl
@[simp] theorem State.modRing_pwr (s : State) (r : Fin 256) (f : Ring → Ring) : (s.modRing r f).pwr = s.pwr := rfl
@[simp] theorem State.modRing_pins (s : State) (r : Fin 256) (f : Ring → Ring) : (s.modRing r f).pins = s.pins := rfl
@[simp] theorem State.modRing_boot (s : State) (r : Fin 256) (f : Ring → Ring) : (s.modRing r f).boot = s.boot := rfl
@[simp] theorem State.modRing_sec (s : State) (r : Fin 256) (f : Ring → Ring) : (s.modRing r f).sec = s.sec := rfl
@[simp] theorem State.modRing_pcie (s : State) (r : Fin 256) (f : Ring → Ring) : (s.modRing r f).pcie = s.pcie := rfl
@[simp] theorem State.modRing_evt (s : State) (r : Fin 256) (f : Ring → Ring) : (s.modRing r f).evt = s.evt := rfl
@[simp] theorem State.modRing_host (s : State) (r : Fin 256) (f : Ring → Ring) : (s.modRing r f).host = s.host := rfl
@[simp] theorem State.modRing_cores (s : State) (r : Fin 256) (f : Ring → Ring) : (s.modRing r f).cores = s.cores := rfl
@[simp] theorem State.modRing_clusters (s : State) (r : Fin 256) (f : Ring → Ring) : (s.modRing r f).clusters = s.clusters := rfl
@[simp] theorem State.modRing_launches (s : State) (r : Fin 256) (f : Ring → Ring) : (s.modRing r f).launches = s.launches := rfl
@[simp] theorem State.modRing_wires (s : State) (r : Fin 256) (f : Ring → Ring) : (s.modRing r f).wires = s.wires := rfl
@[simp] theorem State.modRing_gddr (s : State) (r : Fin 256) (f : Ring → Ring) : (s.modRing r f).gddr = s.gddr := rfl
@[simp] theorem State.modRing_ports (s : State) (r : Fin 256) (f : Ring → Ring) : (s.modRing r f).ports = s.ports := rfl
@[simp] theorem State.modRing_mach (s : State) (r : Fin 256) (f : Ring → Ring) : (s.modRing r f).mach = s.mach := rfl
@[simp] theorem State.modRing_coll (s : State) (r : Fin 256) (f : Ring → Ring) : (s.modRing r f).coll = s.coll := rfl
@[simp] theorem State.modRing_time (s : State) (r : Fin 256) (f : Ring → Ring) : (s.modRing r f).time = s.time := rfl
@[simp] theorem State.modRing_seams (s : State) (r : Fin 256) (f : Ring → Ring) : (s.modRing r f).seams = s.seams := rfl
@[simp] theorem State.modRing_ledger (s : State) (r : Fin 256) (f : Ring → Ring) : (s.modRing r f).ledger = s.ledger := rfl
@[simp] theorem State.modRing_watchTotal (s : State) (r : Fin 256) (f : Ring → Ring) : (s.modRing r f).watchTotal = s.watchTotal := rfl
@[simp] theorem State.modRing_out (s : State) (r : Fin 256) (f : Ring → Ring) : (s.modRing r f).out = s.out := rfl

/-! ### modCore -/
@[simp] theorem State.modCore_pending (s : State) (c : Fin 384) (f : Core → Core) : (s.modCore c f).pending = s.pending := rfl
@[simp] theorem State.modCore_ns (s : State) (c : Fin 384) (f : Core → Core) : (s.modCore c f).ns = s.ns := rfl
@[simp] theorem State.modCore_free (s : State) (c : Fin 384) (f : Core → Core) : (s.modCore c f).free = s.free := rfl
@[simp] theorem State.modCore_pwr (s : State) (c : Fin 384) (f : Core → Core) : (s.modCore c f).pwr = s.pwr := rfl
@[simp] theorem State.modCore_pins (s : State) (c : Fin 384) (f : Core → Core) : (s.modCore c f).pins = s.pins := rfl
@[simp] theorem State.modCore_boot (s : State) (c : Fin 384) (f : Core → Core) : (s.modCore c f).boot = s.boot := rfl
@[simp] theorem State.modCore_sec (s : State) (c : Fin 384) (f : Core → Core) : (s.modCore c f).sec = s.sec := rfl
@[simp] theorem State.modCore_pcie (s : State) (c : Fin 384) (f : Core → Core) : (s.modCore c f).pcie = s.pcie := rfl
@[simp] theorem State.modCore_rings (s : State) (c : Fin 384) (f : Core → Core) : (s.modCore c f).rings = s.rings := rfl
@[simp] theorem State.modCore_evt (s : State) (c : Fin 384) (f : Core → Core) : (s.modCore c f).evt = s.evt := rfl
@[simp] theorem State.modCore_host (s : State) (c : Fin 384) (f : Core → Core) : (s.modCore c f).host = s.host := rfl
@[simp] theorem State.modCore_clusters (s : State) (c : Fin 384) (f : Core → Core) : (s.modCore c f).clusters = s.clusters := rfl
@[simp] theorem State.modCore_launches (s : State) (c : Fin 384) (f : Core → Core) : (s.modCore c f).launches = s.launches := rfl
@[simp] theorem State.modCore_wires (s : State) (c : Fin 384) (f : Core → Core) : (s.modCore c f).wires = s.wires := rfl
@[simp] theorem State.modCore_gddr (s : State) (c : Fin 384) (f : Core → Core) : (s.modCore c f).gddr = s.gddr := rfl
@[simp] theorem State.modCore_ports (s : State) (c : Fin 384) (f : Core → Core) : (s.modCore c f).ports = s.ports := rfl
@[simp] theorem State.modCore_mach (s : State) (c : Fin 384) (f : Core → Core) : (s.modCore c f).mach = s.mach := rfl
@[simp] theorem State.modCore_coll (s : State) (c : Fin 384) (f : Core → Core) : (s.modCore c f).coll = s.coll := rfl
@[simp] theorem State.modCore_time (s : State) (c : Fin 384) (f : Core → Core) : (s.modCore c f).time = s.time := rfl
@[simp] theorem State.modCore_seams (s : State) (c : Fin 384) (f : Core → Core) : (s.modCore c f).seams = s.seams := rfl
@[simp] theorem State.modCore_ledger (s : State) (c : Fin 384) (f : Core → Core) : (s.modCore c f).ledger = s.ledger := rfl
@[simp] theorem State.modCore_watchTotal (s : State) (c : Fin 384) (f : Core → Core) : (s.modCore c f).watchTotal = s.watchTotal := rfl
@[simp] theorem State.modCore_out (s : State) (c : Fin 384) (f : Core → Core) : (s.modCore c f).out = s.out := rfl

/-! ### modCluster -/
@[simp] theorem State.modCluster_pending (s : State) (c : Fin 48) (f : Cluster → Cluster) : (s.modCluster c f).pending = s.pending := rfl
@[simp] theorem State.modCluster_ns (s : State) (c : Fin 48) (f : Cluster → Cluster) : (s.modCluster c f).ns = s.ns := rfl
@[simp] theorem State.modCluster_free (s : State) (c : Fin 48) (f : Cluster → Cluster) : (s.modCluster c f).free = s.free := rfl
@[simp] theorem State.modCluster_pwr (s : State) (c : Fin 48) (f : Cluster → Cluster) : (s.modCluster c f).pwr = s.pwr := rfl
@[simp] theorem State.modCluster_pins (s : State) (c : Fin 48) (f : Cluster → Cluster) : (s.modCluster c f).pins = s.pins := rfl
@[simp] theorem State.modCluster_boot (s : State) (c : Fin 48) (f : Cluster → Cluster) : (s.modCluster c f).boot = s.boot := rfl
@[simp] theorem State.modCluster_sec (s : State) (c : Fin 48) (f : Cluster → Cluster) : (s.modCluster c f).sec = s.sec := rfl
@[simp] theorem State.modCluster_pcie (s : State) (c : Fin 48) (f : Cluster → Cluster) : (s.modCluster c f).pcie = s.pcie := rfl
@[simp] theorem State.modCluster_rings (s : State) (c : Fin 48) (f : Cluster → Cluster) : (s.modCluster c f).rings = s.rings := rfl
@[simp] theorem State.modCluster_evt (s : State) (c : Fin 48) (f : Cluster → Cluster) : (s.modCluster c f).evt = s.evt := rfl
@[simp] theorem State.modCluster_host (s : State) (c : Fin 48) (f : Cluster → Cluster) : (s.modCluster c f).host = s.host := rfl
@[simp] theorem State.modCluster_cores (s : State) (c : Fin 48) (f : Cluster → Cluster) : (s.modCluster c f).cores = s.cores := rfl
@[simp] theorem State.modCluster_launches (s : State) (c : Fin 48) (f : Cluster → Cluster) : (s.modCluster c f).launches = s.launches := rfl
@[simp] theorem State.modCluster_wires (s : State) (c : Fin 48) (f : Cluster → Cluster) : (s.modCluster c f).wires = s.wires := rfl
@[simp] theorem State.modCluster_gddr (s : State) (c : Fin 48) (f : Cluster → Cluster) : (s.modCluster c f).gddr = s.gddr := rfl
@[simp] theorem State.modCluster_ports (s : State) (c : Fin 48) (f : Cluster → Cluster) : (s.modCluster c f).ports = s.ports := rfl
@[simp] theorem State.modCluster_mach (s : State) (c : Fin 48) (f : Cluster → Cluster) : (s.modCluster c f).mach = s.mach := rfl
@[simp] theorem State.modCluster_coll (s : State) (c : Fin 48) (f : Cluster → Cluster) : (s.modCluster c f).coll = s.coll := rfl
@[simp] theorem State.modCluster_time (s : State) (c : Fin 48) (f : Cluster → Cluster) : (s.modCluster c f).time = s.time := rfl
@[simp] theorem State.modCluster_seams (s : State) (c : Fin 48) (f : Cluster → Cluster) : (s.modCluster c f).seams = s.seams := rfl
@[simp] theorem State.modCluster_ledger (s : State) (c : Fin 48) (f : Cluster → Cluster) : (s.modCluster c f).ledger = s.ledger := rfl
@[simp] theorem State.modCluster_watchTotal (s : State) (c : Fin 48) (f : Cluster → Cluster) : (s.modCluster c f).watchTotal = s.watchTotal := rfl
@[simp] theorem State.modCluster_out (s : State) (c : Fin 48) (f : Cluster → Cluster) : (s.modCluster c f).out = s.out := rfl

/-! ### modPort -/
@[simp] theorem State.modPort_pending (s : State) (p : Fin 16) (f : Port → Port) : (s.modPort p f).pending = s.pending := rfl
@[simp] theorem State.modPort_ns (s : State) (p : Fin 16) (f : Port → Port) : (s.modPort p f).ns = s.ns := rfl
@[simp] theorem State.modPort_free (s : State) (p : Fin 16) (f : Port → Port) : (s.modPort p f).free = s.free := rfl
@[simp] theorem State.modPort_pwr (s : State) (p : Fin 16) (f : Port → Port) : (s.modPort p f).pwr = s.pwr := rfl
@[simp] theorem State.modPort_pins (s : State) (p : Fin 16) (f : Port → Port) : (s.modPort p f).pins = s.pins := rfl
@[simp] theorem State.modPort_boot (s : State) (p : Fin 16) (f : Port → Port) : (s.modPort p f).boot = s.boot := rfl
@[simp] theorem State.modPort_sec (s : State) (p : Fin 16) (f : Port → Port) : (s.modPort p f).sec = s.sec := rfl
@[simp] theorem State.modPort_pcie (s : State) (p : Fin 16) (f : Port → Port) : (s.modPort p f).pcie = s.pcie := rfl
@[simp] theorem State.modPort_rings (s : State) (p : Fin 16) (f : Port → Port) : (s.modPort p f).rings = s.rings := rfl
@[simp] theorem State.modPort_evt (s : State) (p : Fin 16) (f : Port → Port) : (s.modPort p f).evt = s.evt := rfl
@[simp] theorem State.modPort_host (s : State) (p : Fin 16) (f : Port → Port) : (s.modPort p f).host = s.host := rfl
@[simp] theorem State.modPort_cores (s : State) (p : Fin 16) (f : Port → Port) : (s.modPort p f).cores = s.cores := rfl
@[simp] theorem State.modPort_clusters (s : State) (p : Fin 16) (f : Port → Port) : (s.modPort p f).clusters = s.clusters := rfl
@[simp] theorem State.modPort_launches (s : State) (p : Fin 16) (f : Port → Port) : (s.modPort p f).launches = s.launches := rfl
@[simp] theorem State.modPort_wires (s : State) (p : Fin 16) (f : Port → Port) : (s.modPort p f).wires = s.wires := rfl
@[simp] theorem State.modPort_gddr (s : State) (p : Fin 16) (f : Port → Port) : (s.modPort p f).gddr = s.gddr := rfl
@[simp] theorem State.modPort_mach (s : State) (p : Fin 16) (f : Port → Port) : (s.modPort p f).mach = s.mach := rfl
@[simp] theorem State.modPort_coll (s : State) (p : Fin 16) (f : Port → Port) : (s.modPort p f).coll = s.coll := rfl
@[simp] theorem State.modPort_time (s : State) (p : Fin 16) (f : Port → Port) : (s.modPort p f).time = s.time := rfl
@[simp] theorem State.modPort_seams (s : State) (p : Fin 16) (f : Port → Port) : (s.modPort p f).seams = s.seams := rfl
@[simp] theorem State.modPort_ledger (s : State) (p : Fin 16) (f : Port → Port) : (s.modPort p f).ledger = s.ledger := rfl
@[simp] theorem State.modPort_watchTotal (s : State) (p : Fin 16) (f : Port → Port) : (s.modPort p f).watchTotal = s.watchTotal := rfl
@[simp] theorem State.modPort_out (s : State) (p : Fin 16) (f : Port → Port) : (s.modPort p f).out = s.out := rfl

/-! ### modSk -/
@[simp] theorem State.modSk_pending (s : State) (c : Fin 48) (f : Stallkeeper → Stallkeeper) : (s.modSk c f).pending = s.pending := rfl
@[simp] theorem State.modSk_ns (s : State) (c : Fin 48) (f : Stallkeeper → Stallkeeper) : (s.modSk c f).ns = s.ns := rfl
@[simp] theorem State.modSk_free (s : State) (c : Fin 48) (f : Stallkeeper → Stallkeeper) : (s.modSk c f).free = s.free := rfl
@[simp] theorem State.modSk_pwr (s : State) (c : Fin 48) (f : Stallkeeper → Stallkeeper) : (s.modSk c f).pwr = s.pwr := rfl
@[simp] theorem State.modSk_pins (s : State) (c : Fin 48) (f : Stallkeeper → Stallkeeper) : (s.modSk c f).pins = s.pins := rfl
@[simp] theorem State.modSk_boot (s : State) (c : Fin 48) (f : Stallkeeper → Stallkeeper) : (s.modSk c f).boot = s.boot := rfl
@[simp] theorem State.modSk_sec (s : State) (c : Fin 48) (f : Stallkeeper → Stallkeeper) : (s.modSk c f).sec = s.sec := rfl
@[simp] theorem State.modSk_pcie (s : State) (c : Fin 48) (f : Stallkeeper → Stallkeeper) : (s.modSk c f).pcie = s.pcie := rfl
@[simp] theorem State.modSk_rings (s : State) (c : Fin 48) (f : Stallkeeper → Stallkeeper) : (s.modSk c f).rings = s.rings := rfl
@[simp] theorem State.modSk_evt (s : State) (c : Fin 48) (f : Stallkeeper → Stallkeeper) : (s.modSk c f).evt = s.evt := rfl
@[simp] theorem State.modSk_host (s : State) (c : Fin 48) (f : Stallkeeper → Stallkeeper) : (s.modSk c f).host = s.host := rfl
@[simp] theorem State.modSk_cores (s : State) (c : Fin 48) (f : Stallkeeper → Stallkeeper) : (s.modSk c f).cores = s.cores := rfl
@[simp] theorem State.modSk_launches (s : State) (c : Fin 48) (f : Stallkeeper → Stallkeeper) : (s.modSk c f).launches = s.launches := rfl
@[simp] theorem State.modSk_wires (s : State) (c : Fin 48) (f : Stallkeeper → Stallkeeper) : (s.modSk c f).wires = s.wires := rfl
@[simp] theorem State.modSk_gddr (s : State) (c : Fin 48) (f : Stallkeeper → Stallkeeper) : (s.modSk c f).gddr = s.gddr := rfl
@[simp] theorem State.modSk_ports (s : State) (c : Fin 48) (f : Stallkeeper → Stallkeeper) : (s.modSk c f).ports = s.ports := rfl
@[simp] theorem State.modSk_mach (s : State) (c : Fin 48) (f : Stallkeeper → Stallkeeper) : (s.modSk c f).mach = s.mach := rfl
@[simp] theorem State.modSk_coll (s : State) (c : Fin 48) (f : Stallkeeper → Stallkeeper) : (s.modSk c f).coll = s.coll := rfl
@[simp] theorem State.modSk_time (s : State) (c : Fin 48) (f : Stallkeeper → Stallkeeper) : (s.modSk c f).time = s.time := rfl
@[simp] theorem State.modSk_seams (s : State) (c : Fin 48) (f : Stallkeeper → Stallkeeper) : (s.modSk c f).seams = s.seams := rfl
@[simp] theorem State.modSk_ledger (s : State) (c : Fin 48) (f : Stallkeeper → Stallkeeper) : (s.modSk c f).ledger = s.ledger := rfl
@[simp] theorem State.modSk_watchTotal (s : State) (c : Fin 48) (f : Stallkeeper → Stallkeeper) : (s.modSk c f).watchTotal = s.watchTotal := rfl
@[simp] theorem State.modSk_out (s : State) (c : Fin 48) (f : Stallkeeper → Stallkeeper) : (s.modSk c f).out = s.out := rfl

/-! ### setSk -/
@[simp] theorem State.setSk_pending (s : State) (c : Fin 48) (x : Stallkeeper) : (s.setSk c x).pending = s.pending := rfl
@[simp] theorem State.setSk_ns (s : State) (c : Fin 48) (x : Stallkeeper) : (s.setSk c x).ns = s.ns := rfl
@[simp] theorem State.setSk_free (s : State) (c : Fin 48) (x : Stallkeeper) : (s.setSk c x).free = s.free := rfl
@[simp] theorem State.setSk_pwr (s : State) (c : Fin 48) (x : Stallkeeper) : (s.setSk c x).pwr = s.pwr := rfl
@[simp] theorem State.setSk_pins (s : State) (c : Fin 48) (x : Stallkeeper) : (s.setSk c x).pins = s.pins := rfl
@[simp] theorem State.setSk_boot (s : State) (c : Fin 48) (x : Stallkeeper) : (s.setSk c x).boot = s.boot := rfl
@[simp] theorem State.setSk_sec (s : State) (c : Fin 48) (x : Stallkeeper) : (s.setSk c x).sec = s.sec := rfl
@[simp] theorem State.setSk_pcie (s : State) (c : Fin 48) (x : Stallkeeper) : (s.setSk c x).pcie = s.pcie := rfl
@[simp] theorem State.setSk_rings (s : State) (c : Fin 48) (x : Stallkeeper) : (s.setSk c x).rings = s.rings := rfl
@[simp] theorem State.setSk_evt (s : State) (c : Fin 48) (x : Stallkeeper) : (s.setSk c x).evt = s.evt := rfl
@[simp] theorem State.setSk_host (s : State) (c : Fin 48) (x : Stallkeeper) : (s.setSk c x).host = s.host := rfl
@[simp] theorem State.setSk_cores (s : State) (c : Fin 48) (x : Stallkeeper) : (s.setSk c x).cores = s.cores := rfl
@[simp] theorem State.setSk_launches (s : State) (c : Fin 48) (x : Stallkeeper) : (s.setSk c x).launches = s.launches := rfl
@[simp] theorem State.setSk_wires (s : State) (c : Fin 48) (x : Stallkeeper) : (s.setSk c x).wires = s.wires := rfl
@[simp] theorem State.setSk_gddr (s : State) (c : Fin 48) (x : Stallkeeper) : (s.setSk c x).gddr = s.gddr := rfl
@[simp] theorem State.setSk_ports (s : State) (c : Fin 48) (x : Stallkeeper) : (s.setSk c x).ports = s.ports := rfl
@[simp] theorem State.setSk_mach (s : State) (c : Fin 48) (x : Stallkeeper) : (s.setSk c x).mach = s.mach := rfl
@[simp] theorem State.setSk_coll (s : State) (c : Fin 48) (x : Stallkeeper) : (s.setSk c x).coll = s.coll := rfl
@[simp] theorem State.setSk_time (s : State) (c : Fin 48) (x : Stallkeeper) : (s.setSk c x).time = s.time := rfl
@[simp] theorem State.setSk_seams (s : State) (c : Fin 48) (x : Stallkeeper) : (s.setSk c x).seams = s.seams := rfl
@[simp] theorem State.setSk_ledger (s : State) (c : Fin 48) (x : Stallkeeper) : (s.setSk c x).ledger = s.ledger := rfl
@[simp] theorem State.setSk_watchTotal (s : State) (c : Fin 48) (x : Stallkeeper) : (s.setSk c x).watchTotal = s.watchTotal := rfl
@[simp] theorem State.setSk_out (s : State) (c : Fin 48) (x : Stallkeeper) : (s.setSk c x).out = s.out := rfl

/-! ### setStation -/
@[simp] theorem State.setStation_pending (s : State) (c : Fin 384) (k : Fin 8) (x : Station) : (s.setStation c k x).pending = s.pending := rfl
@[simp] theorem State.setStation_ns (s : State) (c : Fin 384) (k : Fin 8) (x : Station) : (s.setStation c k x).ns = s.ns := rfl
@[simp] theorem State.setStation_free (s : State) (c : Fin 384) (k : Fin 8) (x : Station) : (s.setStation c k x).free = s.free := rfl
@[simp] theorem State.setStation_pwr (s : State) (c : Fin 384) (k : Fin 8) (x : Station) : (s.setStation c k x).pwr = s.pwr := rfl
@[simp] theorem State.setStation_pins (s : State) (c : Fin 384) (k : Fin 8) (x : Station) : (s.setStation c k x).pins = s.pins := rfl
@[simp] theorem State.setStation_boot (s : State) (c : Fin 384) (k : Fin 8) (x : Station) : (s.setStation c k x).boot = s.boot := rfl
@[simp] theorem State.setStation_sec (s : State) (c : Fin 384) (k : Fin 8) (x : Station) : (s.setStation c k x).sec = s.sec := rfl
@[simp] theorem State.setStation_pcie (s : State) (c : Fin 384) (k : Fin 8) (x : Station) : (s.setStation c k x).pcie = s.pcie := rfl
@[simp] theorem State.setStation_rings (s : State) (c : Fin 384) (k : Fin 8) (x : Station) : (s.setStation c k x).rings = s.rings := rfl
@[simp] theorem State.setStation_evt (s : State) (c : Fin 384) (k : Fin 8) (x : Station) : (s.setStation c k x).evt = s.evt := rfl
@[simp] theorem State.setStation_host (s : State) (c : Fin 384) (k : Fin 8) (x : Station) : (s.setStation c k x).host = s.host := rfl
@[simp] theorem State.setStation_clusters (s : State) (c : Fin 384) (k : Fin 8) (x : Station) : (s.setStation c k x).clusters = s.clusters := rfl
@[simp] theorem State.setStation_launches (s : State) (c : Fin 384) (k : Fin 8) (x : Station) : (s.setStation c k x).launches = s.launches := rfl
@[simp] theorem State.setStation_wires (s : State) (c : Fin 384) (k : Fin 8) (x : Station) : (s.setStation c k x).wires = s.wires := rfl
@[simp] theorem State.setStation_gddr (s : State) (c : Fin 384) (k : Fin 8) (x : Station) : (s.setStation c k x).gddr = s.gddr := rfl
@[simp] theorem State.setStation_ports (s : State) (c : Fin 384) (k : Fin 8) (x : Station) : (s.setStation c k x).ports = s.ports := rfl
@[simp] theorem State.setStation_mach (s : State) (c : Fin 384) (k : Fin 8) (x : Station) : (s.setStation c k x).mach = s.mach := rfl
@[simp] theorem State.setStation_coll (s : State) (c : Fin 384) (k : Fin 8) (x : Station) : (s.setStation c k x).coll = s.coll := rfl
@[simp] theorem State.setStation_time (s : State) (c : Fin 384) (k : Fin 8) (x : Station) : (s.setStation c k x).time = s.time := rfl
@[simp] theorem State.setStation_seams (s : State) (c : Fin 384) (k : Fin 8) (x : Station) : (s.setStation c k x).seams = s.seams := rfl
@[simp] theorem State.setStation_ledger (s : State) (c : Fin 384) (k : Fin 8) (x : Station) : (s.setStation c k x).ledger = s.ledger := rfl
@[simp] theorem State.setStation_watchTotal (s : State) (c : Fin 384) (k : Fin 8) (x : Station) : (s.setStation c k x).watchTotal = s.watchTotal := rfl
@[simp] theorem State.setStation_out (s : State) (c : Fin 384) (k : Fin 8) (x : Station) : (s.setStation c k x).out = s.out := rfl

/-! ### modStation -/
@[simp] theorem State.modStation_pending (s : State) (c : Fin 384) (k : Fin 8) (f : Station → Station) : (s.modStation c k f).pending = s.pending := rfl
@[simp] theorem State.modStation_ns (s : State) (c : Fin 384) (k : Fin 8) (f : Station → Station) : (s.modStation c k f).ns = s.ns := rfl
@[simp] theorem State.modStation_free (s : State) (c : Fin 384) (k : Fin 8) (f : Station → Station) : (s.modStation c k f).free = s.free := rfl
@[simp] theorem State.modStation_pwr (s : State) (c : Fin 384) (k : Fin 8) (f : Station → Station) : (s.modStation c k f).pwr = s.pwr := rfl
@[simp] theorem State.modStation_pins (s : State) (c : Fin 384) (k : Fin 8) (f : Station → Station) : (s.modStation c k f).pins = s.pins := rfl
@[simp] theorem State.modStation_boot (s : State) (c : Fin 384) (k : Fin 8) (f : Station → Station) : (s.modStation c k f).boot = s.boot := rfl
@[simp] theorem State.modStation_sec (s : State) (c : Fin 384) (k : Fin 8) (f : Station → Station) : (s.modStation c k f).sec = s.sec := rfl
@[simp] theorem State.modStation_pcie (s : State) (c : Fin 384) (k : Fin 8) (f : Station → Station) : (s.modStation c k f).pcie = s.pcie := rfl
@[simp] theorem State.modStation_rings (s : State) (c : Fin 384) (k : Fin 8) (f : Station → Station) : (s.modStation c k f).rings = s.rings := rfl
@[simp] theorem State.modStation_evt (s : State) (c : Fin 384) (k : Fin 8) (f : Station → Station) : (s.modStation c k f).evt = s.evt := rfl
@[simp] theorem State.modStation_host (s : State) (c : Fin 384) (k : Fin 8) (f : Station → Station) : (s.modStation c k f).host = s.host := rfl
@[simp] theorem State.modStation_clusters (s : State) (c : Fin 384) (k : Fin 8) (f : Station → Station) : (s.modStation c k f).clusters = s.clusters := rfl
@[simp] theorem State.modStation_launches (s : State) (c : Fin 384) (k : Fin 8) (f : Station → Station) : (s.modStation c k f).launches = s.launches := rfl
@[simp] theorem State.modStation_wires (s : State) (c : Fin 384) (k : Fin 8) (f : Station → Station) : (s.modStation c k f).wires = s.wires := rfl
@[simp] theorem State.modStation_gddr (s : State) (c : Fin 384) (k : Fin 8) (f : Station → Station) : (s.modStation c k f).gddr = s.gddr := rfl
@[simp] theorem State.modStation_ports (s : State) (c : Fin 384) (k : Fin 8) (f : Station → Station) : (s.modStation c k f).ports = s.ports := rfl
@[simp] theorem State.modStation_mach (s : State) (c : Fin 384) (k : Fin 8) (f : Station → Station) : (s.modStation c k f).mach = s.mach := rfl
@[simp] theorem State.modStation_coll (s : State) (c : Fin 384) (k : Fin 8) (f : Station → Station) : (s.modStation c k f).coll = s.coll := rfl
@[simp] theorem State.modStation_time (s : State) (c : Fin 384) (k : Fin 8) (f : Station → Station) : (s.modStation c k f).time = s.time := rfl
@[simp] theorem State.modStation_seams (s : State) (c : Fin 384) (k : Fin 8) (f : Station → Station) : (s.modStation c k f).seams = s.seams := rfl
@[simp] theorem State.modStation_ledger (s : State) (c : Fin 384) (k : Fin 8) (f : Station → Station) : (s.modStation c k f).ledger = s.ledger := rfl
@[simp] theorem State.modStation_watchTotal (s : State) (c : Fin 384) (k : Fin 8) (f : Station → Station) : (s.modStation c k f).watchTotal = s.watchTotal := rfl
@[simp] theorem State.modStation_out (s : State) (c : Fin 384) (k : Fin 8) (f : Station → Station) : (s.modStation c k f).out = s.out := rfl

/-! ### setChan -/
@[simp] theorem State.setChan_pending (s : State) (ch : Fin 50) (x : Channel) : (s.setChan ch x).pending = s.pending := rfl
@[simp] theorem State.setChan_ns (s : State) (ch : Fin 50) (x : Channel) : (s.setChan ch x).ns = s.ns := rfl
@[simp] theorem State.setChan_free (s : State) (ch : Fin 50) (x : Channel) : (s.setChan ch x).free = s.free := rfl
@[simp] theorem State.setChan_pwr (s : State) (ch : Fin 50) (x : Channel) : (s.setChan ch x).pwr = s.pwr := rfl
@[simp] theorem State.setChan_pins (s : State) (ch : Fin 50) (x : Channel) : (s.setChan ch x).pins = s.pins := rfl
@[simp] theorem State.setChan_boot (s : State) (ch : Fin 50) (x : Channel) : (s.setChan ch x).boot = s.boot := rfl
@[simp] theorem State.setChan_sec (s : State) (ch : Fin 50) (x : Channel) : (s.setChan ch x).sec = s.sec := rfl
@[simp] theorem State.setChan_pcie (s : State) (ch : Fin 50) (x : Channel) : (s.setChan ch x).pcie = s.pcie := rfl
@[simp] theorem State.setChan_rings (s : State) (ch : Fin 50) (x : Channel) : (s.setChan ch x).rings = s.rings := rfl
@[simp] theorem State.setChan_evt (s : State) (ch : Fin 50) (x : Channel) : (s.setChan ch x).evt = s.evt := rfl
@[simp] theorem State.setChan_host (s : State) (ch : Fin 50) (x : Channel) : (s.setChan ch x).host = s.host := rfl
@[simp] theorem State.setChan_cores (s : State) (ch : Fin 50) (x : Channel) : (s.setChan ch x).cores = s.cores := rfl
@[simp] theorem State.setChan_clusters (s : State) (ch : Fin 50) (x : Channel) : (s.setChan ch x).clusters = s.clusters := rfl
@[simp] theorem State.setChan_launches (s : State) (ch : Fin 50) (x : Channel) : (s.setChan ch x).launches = s.launches := rfl
@[simp] theorem State.setChan_wires (s : State) (ch : Fin 50) (x : Channel) : (s.setChan ch x).wires = s.wires := rfl
@[simp] theorem State.setChan_ports (s : State) (ch : Fin 50) (x : Channel) : (s.setChan ch x).ports = s.ports := rfl
@[simp] theorem State.setChan_mach (s : State) (ch : Fin 50) (x : Channel) : (s.setChan ch x).mach = s.mach := rfl
@[simp] theorem State.setChan_coll (s : State) (ch : Fin 50) (x : Channel) : (s.setChan ch x).coll = s.coll := rfl
@[simp] theorem State.setChan_time (s : State) (ch : Fin 50) (x : Channel) : (s.setChan ch x).time = s.time := rfl
@[simp] theorem State.setChan_seams (s : State) (ch : Fin 50) (x : Channel) : (s.setChan ch x).seams = s.seams := rfl
@[simp] theorem State.setChan_ledger (s : State) (ch : Fin 50) (x : Channel) : (s.setChan ch x).ledger = s.ledger := rfl
@[simp] theorem State.setChan_watchTotal (s : State) (ch : Fin 50) (x : Channel) : (s.setChan ch x).watchTotal = s.watchTotal := rfl
@[simp] theorem State.setChan_out (s : State) (ch : Fin 50) (x : Channel) : (s.setChan ch x).out = s.out := rfl

/-! ### setCpwr -/
@[simp] theorem State.setCpwr_pending (s : State) (c : Fin 48) (x : ClusterPower) : (s.setCpwr c x).pending = s.pending := rfl
@[simp] theorem State.setCpwr_ns (s : State) (c : Fin 48) (x : ClusterPower) : (s.setCpwr c x).ns = s.ns := rfl
@[simp] theorem State.setCpwr_free (s : State) (c : Fin 48) (x : ClusterPower) : (s.setCpwr c x).free = s.free := rfl
@[simp] theorem State.setCpwr_pins (s : State) (c : Fin 48) (x : ClusterPower) : (s.setCpwr c x).pins = s.pins := rfl
@[simp] theorem State.setCpwr_boot (s : State) (c : Fin 48) (x : ClusterPower) : (s.setCpwr c x).boot = s.boot := rfl
@[simp] theorem State.setCpwr_sec (s : State) (c : Fin 48) (x : ClusterPower) : (s.setCpwr c x).sec = s.sec := rfl
@[simp] theorem State.setCpwr_pcie (s : State) (c : Fin 48) (x : ClusterPower) : (s.setCpwr c x).pcie = s.pcie := rfl
@[simp] theorem State.setCpwr_rings (s : State) (c : Fin 48) (x : ClusterPower) : (s.setCpwr c x).rings = s.rings := rfl
@[simp] theorem State.setCpwr_evt (s : State) (c : Fin 48) (x : ClusterPower) : (s.setCpwr c x).evt = s.evt := rfl
@[simp] theorem State.setCpwr_host (s : State) (c : Fin 48) (x : ClusterPower) : (s.setCpwr c x).host = s.host := rfl
@[simp] theorem State.setCpwr_cores (s : State) (c : Fin 48) (x : ClusterPower) : (s.setCpwr c x).cores = s.cores := rfl
@[simp] theorem State.setCpwr_clusters (s : State) (c : Fin 48) (x : ClusterPower) : (s.setCpwr c x).clusters = s.clusters := rfl
@[simp] theorem State.setCpwr_launches (s : State) (c : Fin 48) (x : ClusterPower) : (s.setCpwr c x).launches = s.launches := rfl
@[simp] theorem State.setCpwr_wires (s : State) (c : Fin 48) (x : ClusterPower) : (s.setCpwr c x).wires = s.wires := rfl
@[simp] theorem State.setCpwr_gddr (s : State) (c : Fin 48) (x : ClusterPower) : (s.setCpwr c x).gddr = s.gddr := rfl
@[simp] theorem State.setCpwr_ports (s : State) (c : Fin 48) (x : ClusterPower) : (s.setCpwr c x).ports = s.ports := rfl
@[simp] theorem State.setCpwr_mach (s : State) (c : Fin 48) (x : ClusterPower) : (s.setCpwr c x).mach = s.mach := rfl
@[simp] theorem State.setCpwr_coll (s : State) (c : Fin 48) (x : ClusterPower) : (s.setCpwr c x).coll = s.coll := rfl
@[simp] theorem State.setCpwr_time (s : State) (c : Fin 48) (x : ClusterPower) : (s.setCpwr c x).time = s.time := rfl
@[simp] theorem State.setCpwr_seams (s : State) (c : Fin 48) (x : ClusterPower) : (s.setCpwr c x).seams = s.seams := rfl
@[simp] theorem State.setCpwr_ledger (s : State) (c : Fin 48) (x : ClusterPower) : (s.setCpwr c x).ledger = s.ledger := rfl
@[simp] theorem State.setCpwr_watchTotal (s : State) (c : Fin 48) (x : ClusterPower) : (s.setCpwr c x).watchTotal = s.watchTotal := rfl
@[simp] theorem State.setCpwr_out (s : State) (c : Fin 48) (x : ClusterPower) : (s.setCpwr c x).out = s.out := rfl

/-! ### setDom -/
@[simp] theorem State.setDom_pending (s : State) (d : Fin 59) (x : Domain) : (s.setDom d x).pending = s.pending := rfl
@[simp] theorem State.setDom_ns (s : State) (d : Fin 59) (x : Domain) : (s.setDom d x).ns = s.ns := rfl
@[simp] theorem State.setDom_free (s : State) (d : Fin 59) (x : Domain) : (s.setDom d x).free = s.free := rfl
@[simp] theorem State.setDom_pins (s : State) (d : Fin 59) (x : Domain) : (s.setDom d x).pins = s.pins := rfl
@[simp] theorem State.setDom_boot (s : State) (d : Fin 59) (x : Domain) : (s.setDom d x).boot = s.boot := rfl
@[simp] theorem State.setDom_sec (s : State) (d : Fin 59) (x : Domain) : (s.setDom d x).sec = s.sec := rfl
@[simp] theorem State.setDom_pcie (s : State) (d : Fin 59) (x : Domain) : (s.setDom d x).pcie = s.pcie := rfl
@[simp] theorem State.setDom_rings (s : State) (d : Fin 59) (x : Domain) : (s.setDom d x).rings = s.rings := rfl
@[simp] theorem State.setDom_evt (s : State) (d : Fin 59) (x : Domain) : (s.setDom d x).evt = s.evt := rfl
@[simp] theorem State.setDom_host (s : State) (d : Fin 59) (x : Domain) : (s.setDom d x).host = s.host := rfl
@[simp] theorem State.setDom_cores (s : State) (d : Fin 59) (x : Domain) : (s.setDom d x).cores = s.cores := rfl
@[simp] theorem State.setDom_clusters (s : State) (d : Fin 59) (x : Domain) : (s.setDom d x).clusters = s.clusters := rfl
@[simp] theorem State.setDom_launches (s : State) (d : Fin 59) (x : Domain) : (s.setDom d x).launches = s.launches := rfl
@[simp] theorem State.setDom_wires (s : State) (d : Fin 59) (x : Domain) : (s.setDom d x).wires = s.wires := rfl
@[simp] theorem State.setDom_gddr (s : State) (d : Fin 59) (x : Domain) : (s.setDom d x).gddr = s.gddr := rfl
@[simp] theorem State.setDom_ports (s : State) (d : Fin 59) (x : Domain) : (s.setDom d x).ports = s.ports := rfl
@[simp] theorem State.setDom_mach (s : State) (d : Fin 59) (x : Domain) : (s.setDom d x).mach = s.mach := rfl
@[simp] theorem State.setDom_coll (s : State) (d : Fin 59) (x : Domain) : (s.setDom d x).coll = s.coll := rfl
@[simp] theorem State.setDom_time (s : State) (d : Fin 59) (x : Domain) : (s.setDom d x).time = s.time := rfl
@[simp] theorem State.setDom_seams (s : State) (d : Fin 59) (x : Domain) : (s.setDom d x).seams = s.seams := rfl
@[simp] theorem State.setDom_ledger (s : State) (d : Fin 59) (x : Domain) : (s.setDom d x).ledger = s.ledger := rfl
@[simp] theorem State.setDom_watchTotal (s : State) (d : Fin 59) (x : Domain) : (s.setDom d x).watchTotal = s.watchTotal := rfl
@[simp] theorem State.setDom_out (s : State) (d : Fin 59) (x : Domain) : (s.setDom d x).out = s.out := rfl

/-! ### Components -/
@[simp] theorem State.setCore_same (s : State) (i : Fin 384) (x : Core) : (s.setCore i x).core i = x := by
  simp [State.setCore, State.core]

theorem State.setCore_other (s : State) (i j : Fin 384) (x : Core) (h : i ≠ j) : (s.setCore i x).core j = s.core j := by
  have h' : i.val ≠ j.val := fun e => h (Fin.ext e)
  simp [State.setCore, State.core, h']

@[simp] theorem State.modCore_same (s : State) (i : Fin 384) (f : Core → Core) : (s.modCore i f).core i = f (s.core i) := by
  simp [State.modCore]

theorem State.modCore_other (s : State) (i j : Fin 384) (f : Core → Core) (h : i ≠ j) : (s.modCore i f).core j = s.core j :=
  State.setCore_other s i j _ h

@[simp] theorem State.setCluster_same (s : State) (i : Fin 48) (x : Cluster) : (s.setCluster i x).cluster i = x := by
  simp [State.setCluster, State.cluster]

theorem State.setCluster_other (s : State) (i j : Fin 48) (x : Cluster) (h : i ≠ j) : (s.setCluster i x).cluster j = s.cluster j := by
  have h' : i.val ≠ j.val := fun e => h (Fin.ext e)
  simp [State.setCluster, State.cluster, h']

@[simp] theorem State.modCluster_same (s : State) (i : Fin 48) (f : Cluster → Cluster) : (s.modCluster i f).cluster i = f (s.cluster i) := by
  simp [State.modCluster]

theorem State.modCluster_other (s : State) (i j : Fin 48) (f : Cluster → Cluster) (h : i ≠ j) : (s.modCluster i f).cluster j = s.cluster j :=
  State.setCluster_other s i j _ h

@[simp] theorem State.setRing_same (s : State) (i : Fin 256) (x : Ring) : (s.setRing i x).ring i = x := by
  simp [State.setRing, State.ring]

theorem State.setRing_other (s : State) (i j : Fin 256) (x : Ring) (h : i ≠ j) : (s.setRing i x).ring j = s.ring j := by
  have h' : i.val ≠ j.val := fun e => h (Fin.ext e)
  simp [State.setRing, State.ring, h']

@[simp] theorem State.modRing_same (s : State) (i : Fin 256) (f : Ring → Ring) : (s.modRing i f).ring i = f (s.ring i) := by
  simp [State.modRing]

theorem State.modRing_other (s : State) (i j : Fin 256) (f : Ring → Ring) (h : i ≠ j) : (s.modRing i f).ring j = s.ring j :=
  State.setRing_other s i j _ h

@[simp] theorem State.setPort_same (s : State) (i : Fin 16) (x : Port) : (s.setPort i x).port i = x := by
  simp [State.setPort, State.port]

theorem State.setPort_other (s : State) (i j : Fin 16) (x : Port) (h : i ≠ j) : (s.setPort i x).port j = s.port j := by
  have h' : i.val ≠ j.val := fun e => h (Fin.ext e)
  simp [State.setPort, State.port, h']

@[simp] theorem State.modPort_same (s : State) (i : Fin 16) (f : Port → Port) : (s.modPort i f).port i = f (s.port i) := by
  simp [State.modPort]

theorem State.modPort_other (s : State) (i j : Fin 16) (f : Port → Port) (h : i ≠ j) : (s.modPort i f).port j = s.port j :=
  State.setPort_other s i j _ h

@[simp] theorem State.setPwr_core (s : State) (x : Power) (i : Fin 384) : (s.setPwr x).core i = s.core i := rfl
@[simp] theorem State.setPwr_cluster (s : State) (x : Power) (i : Fin 48) : (s.setPwr x).cluster i = s.cluster i := rfl
@[simp] theorem State.setPwr_ring (s : State) (x : Power) (i : Fin 256) : (s.setPwr x).ring i = s.ring i := rfl
@[simp] theorem State.setPwr_port (s : State) (x : Power) (i : Fin 16) : (s.setPwr x).port i = s.port i := rfl
@[simp] theorem State.setPins_core (s : State) (x : Pins) (i : Fin 384) : (s.setPins x).core i = s.core i := rfl
@[simp] theorem State.setPins_cluster (s : State) (x : Pins) (i : Fin 48) : (s.setPins x).cluster i = s.cluster i := rfl
@[simp] theorem State.setPins_ring (s : State) (x : Pins) (i : Fin 256) : (s.setPins x).ring i = s.ring i := rfl
@[simp] theorem State.setPins_port (s : State) (x : Pins) (i : Fin 16) : (s.setPins x).port i = s.port i := rfl
@[simp] theorem State.setBoot_core (s : State) (x : Boot) (i : Fin 384) : (s.setBoot x).core i = s.core i := rfl
@[simp] theorem State.setBoot_cluster (s : State) (x : Boot) (i : Fin 48) : (s.setBoot x).cluster i = s.cluster i := rfl
@[simp] theorem State.setBoot_ring (s : State) (x : Boot) (i : Fin 256) : (s.setBoot x).ring i = s.ring i := rfl
@[simp] theorem State.setBoot_port (s : State) (x : Boot) (i : Fin 16) : (s.setBoot x).port i = s.port i := rfl
@[simp] theorem State.setSec_core (s : State) (x : Security) (i : Fin 384) : (s.setSec x).core i = s.core i := rfl
@[simp] theorem State.setSec_cluster (s : State) (x : Security) (i : Fin 48) : (s.setSec x).cluster i = s.cluster i := rfl
@[simp] theorem State.setSec_ring (s : State) (x : Security) (i : Fin 256) : (s.setSec x).ring i = s.ring i := rfl
@[simp] theorem State.setSec_port (s : State) (x : Security) (i : Fin 16) : (s.setSec x).port i = s.port i := rfl
@[simp] theorem State.setPcie_core (s : State) (x : Pcie) (i : Fin 384) : (s.setPcie x).core i = s.core i := rfl
@[simp] theorem State.setPcie_cluster (s : State) (x : Pcie) (i : Fin 48) : (s.setPcie x).cluster i = s.cluster i := rfl
@[simp] theorem State.setPcie_ring (s : State) (x : Pcie) (i : Fin 256) : (s.setPcie x).ring i = s.ring i := rfl
@[simp] theorem State.setPcie_port (s : State) (x : Pcie) (i : Fin 16) : (s.setPcie x).port i = s.port i := rfl
@[simp] theorem State.setEvt_core (s : State) (x : EventRing) (i : Fin 384) : (s.setEvt x).core i = s.core i := rfl
@[simp] theorem State.setEvt_cluster (s : State) (x : EventRing) (i : Fin 48) : (s.setEvt x).cluster i = s.cluster i := rfl
@[simp] theorem State.setEvt_ring (s : State) (x : EventRing) (i : Fin 256) : (s.setEvt x).ring i = s.ring i := rfl
@[simp] theorem State.setEvt_port (s : State) (x : EventRing) (i : Fin 16) : (s.setEvt x).port i = s.port i := rfl
@[simp] theorem State.setHost_core (s : State) (x : Memory) (i : Fin 384) : (s.setHost x).core i = s.core i := rfl
@[simp] theorem State.setHost_cluster (s : State) (x : Memory) (i : Fin 48) : (s.setHost x).cluster i = s.cluster i := rfl
@[simp] theorem State.setHost_ring (s : State) (x : Memory) (i : Fin 256) : (s.setHost x).ring i = s.ring i := rfl
@[simp] theorem State.setHost_port (s : State) (x : Memory) (i : Fin 16) : (s.setHost x).port i = s.port i := rfl
@[simp] theorem State.setLaunches_core (s : State) (x : List Launch) (i : Fin 384) : (s.setLaunches x).core i = s.core i := rfl
@[simp] theorem State.setLaunches_cluster (s : State) (x : List Launch) (i : Fin 48) : (s.setLaunches x).cluster i = s.cluster i := rfl
@[simp] theorem State.setLaunches_ring (s : State) (x : List Launch) (i : Fin 256) : (s.setLaunches x).ring i = s.ring i := rfl
@[simp] theorem State.setLaunches_port (s : State) (x : List Launch) (i : Fin 16) : (s.setLaunches x).port i = s.port i := rfl
@[simp] theorem State.setWires_core (s : State) (x : List Transit) (i : Fin 384) : (s.setWires x).core i = s.core i := rfl
@[simp] theorem State.setWires_cluster (s : State) (x : List Transit) (i : Fin 48) : (s.setWires x).cluster i = s.cluster i := rfl
@[simp] theorem State.setWires_ring (s : State) (x : List Transit) (i : Fin 256) : (s.setWires x).ring i = s.ring i := rfl
@[simp] theorem State.setWires_port (s : State) (x : List Transit) (i : Fin 16) : (s.setWires x).port i = s.port i := rfl
@[simp] theorem State.setGddr_core (s : State) (x : Gddr) (i : Fin 384) : (s.setGddr x).core i = s.core i := rfl
@[simp] theorem State.setGddr_cluster (s : State) (x : Gddr) (i : Fin 48) : (s.setGddr x).cluster i = s.cluster i := rfl
@[simp] theorem State.setGddr_ring (s : State) (x : Gddr) (i : Fin 256) : (s.setGddr x).ring i = s.ring i := rfl
@[simp] theorem State.setGddr_port (s : State) (x : Gddr) (i : Fin 16) : (s.setGddr x).port i = s.port i := rfl
@[simp] theorem State.setMach_core (s : State) (x : Mach) (i : Fin 384) : (s.setMach x).core i = s.core i := rfl
@[simp] theorem State.setMach_cluster (s : State) (x : Mach) (i : Fin 48) : (s.setMach x).cluster i = s.cluster i := rfl
@[simp] theorem State.setMach_ring (s : State) (x : Mach) (i : Fin 256) : (s.setMach x).ring i = s.ring i := rfl
@[simp] theorem State.setMach_port (s : State) (x : Mach) (i : Fin 16) : (s.setMach x).port i = s.port i := rfl
@[simp] theorem State.setColl_core (s : State) (x : Coll) (i : Fin 384) : (s.setColl x).core i = s.core i := rfl
@[simp] theorem State.setColl_cluster (s : State) (x : Coll) (i : Fin 48) : (s.setColl x).cluster i = s.cluster i := rfl
@[simp] theorem State.setColl_ring (s : State) (x : Coll) (i : Fin 256) : (s.setColl x).ring i = s.ring i := rfl
@[simp] theorem State.setColl_port (s : State) (x : Coll) (i : Fin 16) : (s.setColl x).port i = s.port i := rfl
@[simp] theorem State.setTime_core (s : State) (x : TimeBase) (i : Fin 384) : (s.setTime x).core i = s.core i := rfl
@[simp] theorem State.setTime_cluster (s : State) (x : TimeBase) (i : Fin 48) : (s.setTime x).cluster i = s.cluster i := rfl
@[simp] theorem State.setTime_ring (s : State) (x : TimeBase) (i : Fin 256) : (s.setTime x).ring i = s.ring i := rfl
@[simp] theorem State.setTime_port (s : State) (x : TimeBase) (i : Fin 16) : (s.setTime x).port i = s.port i := rfl
@[simp] theorem State.setLedger_core (s : State) (x : Ledger) (i : Fin 384) : (s.setLedger x).core i = s.core i := rfl
@[simp] theorem State.setLedger_cluster (s : State) (x : Ledger) (i : Fin 48) : (s.setLedger x).cluster i = s.cluster i := rfl
@[simp] theorem State.setLedger_ring (s : State) (x : Ledger) (i : Fin 256) : (s.setLedger x).ring i = s.ring i := rfl
@[simp] theorem State.setLedger_port (s : State) (x : Ledger) (i : Fin 16) : (s.setLedger x).port i = s.port i := rfl
@[simp] theorem State.setOut_core (s : State) (x : Output) (i : Fin 384) : (s.setOut x).core i = s.core i := rfl
@[simp] theorem State.setOut_cluster (s : State) (x : Output) (i : Fin 48) : (s.setOut x).cluster i = s.cluster i := rfl
@[simp] theorem State.setOut_ring (s : State) (x : Output) (i : Fin 256) : (s.setOut x).ring i = s.ring i := rfl
@[simp] theorem State.setOut_port (s : State) (x : Output) (i : Fin 16) : (s.setOut x).port i = s.port i := rfl
@[simp] theorem State.setFree_core (s : State) (x : Nat) (i : Fin 384) : (s.setFree x).core i = s.core i := rfl
@[simp] theorem State.setFree_cluster (s : State) (x : Nat) (i : Fin 48) : (s.setFree x).cluster i = s.cluster i := rfl
@[simp] theorem State.setFree_ring (s : State) (x : Nat) (i : Fin 256) : (s.setFree x).ring i = s.ring i := rfl
@[simp] theorem State.setFree_port (s : State) (x : Nat) (i : Fin 16) : (s.setFree x).port i = s.port i := rfl
@[simp] theorem State.popCmd_core (s : State) (x : List Instr) (i : Fin 384) : (s.popCmd x).core i = s.core i := rfl
@[simp] theorem State.popCmd_cluster (s : State) (x : List Instr) (i : Fin 48) : (s.popCmd x).cluster i = s.cluster i := rfl
@[simp] theorem State.popCmd_ring (s : State) (x : List Instr) (i : Fin 256) : (s.popCmd x).ring i = s.ring i := rfl
@[simp] theorem State.popCmd_port (s : State) (x : List Instr) (i : Fin 16) : (s.popCmd x).port i = s.port i := rfl
@[simp] theorem State.setRing_core (s : State) (r : Fin 256) (x : Ring) (i : Fin 384) : (s.setRing r x).core i = s.core i := rfl
@[simp] theorem State.setRing_cluster (s : State) (r : Fin 256) (x : Ring) (i : Fin 48) : (s.setRing r x).cluster i = s.cluster i := rfl
@[simp] theorem State.setRing_port (s : State) (r : Fin 256) (x : Ring) (i : Fin 16) : (s.setRing r x).port i = s.port i := rfl
@[simp] theorem State.setCore_cluster (s : State) (c : Fin 384) (x : Core) (i : Fin 48) : (s.setCore c x).cluster i = s.cluster i := rfl
@[simp] theorem State.setCore_ring (s : State) (c : Fin 384) (x : Core) (i : Fin 256) : (s.setCore c x).ring i = s.ring i := rfl
@[simp] theorem State.setCore_port (s : State) (c : Fin 384) (x : Core) (i : Fin 16) : (s.setCore c x).port i = s.port i := rfl
@[simp] theorem State.setCluster_core (s : State) (c : Fin 48) (x : Cluster) (i : Fin 384) : (s.setCluster c x).core i = s.core i := rfl
@[simp] theorem State.setCluster_ring (s : State) (c : Fin 48) (x : Cluster) (i : Fin 256) : (s.setCluster c x).ring i = s.ring i := rfl
@[simp] theorem State.setCluster_port (s : State) (c : Fin 48) (x : Cluster) (i : Fin 16) : (s.setCluster c x).port i = s.port i := rfl
@[simp] theorem State.setPort_core (s : State) (p : Fin 16) (x : Port) (i : Fin 384) : (s.setPort p x).core i = s.core i := rfl
@[simp] theorem State.setPort_cluster (s : State) (p : Fin 16) (x : Port) (i : Fin 48) : (s.setPort p x).cluster i = s.cluster i := rfl
@[simp] theorem State.setPort_ring (s : State) (p : Fin 16) (x : Port) (i : Fin 256) : (s.setPort p x).ring i = s.ring i := rfl
@[simp] theorem State.modRing_core (s : State) (r : Fin 256) (f : Ring → Ring) (i : Fin 384) : (s.modRing r f).core i = s.core i := rfl
@[simp] theorem State.modRing_cluster (s : State) (r : Fin 256) (f : Ring → Ring) (i : Fin 48) : (s.modRing r f).cluster i = s.cluster i := rfl
@[simp] theorem State.modRing_port (s : State) (r : Fin 256) (f : Ring → Ring) (i : Fin 16) : (s.modRing r f).port i = s.port i := rfl
@[simp] theorem State.modCore_cluster (s : State) (c : Fin 384) (f : Core → Core) (i : Fin 48) : (s.modCore c f).cluster i = s.cluster i := rfl
@[simp] theorem State.modCore_ring (s : State) (c : Fin 384) (f : Core → Core) (i : Fin 256) : (s.modCore c f).ring i = s.ring i := rfl
@[simp] theorem State.modCore_port (s : State) (c : Fin 384) (f : Core → Core) (i : Fin 16) : (s.modCore c f).port i = s.port i := rfl
@[simp] theorem State.modCluster_core (s : State) (c : Fin 48) (f : Cluster → Cluster) (i : Fin 384) : (s.modCluster c f).core i = s.core i := rfl
@[simp] theorem State.modCluster_ring (s : State) (c : Fin 48) (f : Cluster → Cluster) (i : Fin 256) : (s.modCluster c f).ring i = s.ring i := rfl
@[simp] theorem State.modCluster_port (s : State) (c : Fin 48) (f : Cluster → Cluster) (i : Fin 16) : (s.modCluster c f).port i = s.port i := rfl
@[simp] theorem State.modPort_core (s : State) (p : Fin 16) (f : Port → Port) (i : Fin 384) : (s.modPort p f).core i = s.core i := rfl
@[simp] theorem State.modPort_cluster (s : State) (p : Fin 16) (f : Port → Port) (i : Fin 48) : (s.modPort p f).cluster i = s.cluster i := rfl
@[simp] theorem State.modPort_ring (s : State) (p : Fin 16) (f : Port → Port) (i : Fin 256) : (s.modPort p f).ring i = s.ring i := rfl
@[simp] theorem State.modSk_core (s : State) (c : Fin 48) (f : Stallkeeper → Stallkeeper) (i : Fin 384) : (s.modSk c f).core i = s.core i := rfl
@[simp] theorem State.modSk_ring (s : State) (c : Fin 48) (f : Stallkeeper → Stallkeeper) (i : Fin 256) : (s.modSk c f).ring i = s.ring i := rfl
@[simp] theorem State.modSk_port (s : State) (c : Fin 48) (f : Stallkeeper → Stallkeeper) (i : Fin 16) : (s.modSk c f).port i = s.port i := rfl
@[simp] theorem State.setSk_core (s : State) (c : Fin 48) (x : Stallkeeper) (i : Fin 384) : (s.setSk c x).core i = s.core i := rfl
@[simp] theorem State.setSk_ring (s : State) (c : Fin 48) (x : Stallkeeper) (i : Fin 256) : (s.setSk c x).ring i = s.ring i := rfl
@[simp] theorem State.setSk_port (s : State) (c : Fin 48) (x : Stallkeeper) (i : Fin 16) : (s.setSk c x).port i = s.port i := rfl
@[simp] theorem State.setStation_cluster (s : State) (c : Fin 384) (k : Fin 8) (x : Station) (i : Fin 48) : (s.setStation c k x).cluster i = s.cluster i := rfl
@[simp] theorem State.setStation_ring (s : State) (c : Fin 384) (k : Fin 8) (x : Station) (i : Fin 256) : (s.setStation c k x).ring i = s.ring i := rfl
@[simp] theorem State.setStation_port (s : State) (c : Fin 384) (k : Fin 8) (x : Station) (i : Fin 16) : (s.setStation c k x).port i = s.port i := rfl
@[simp] theorem State.modStation_cluster (s : State) (c : Fin 384) (k : Fin 8) (f : Station → Station) (i : Fin 48) : (s.modStation c k f).cluster i = s.cluster i := rfl
@[simp] theorem State.modStation_ring (s : State) (c : Fin 384) (k : Fin 8) (f : Station → Station) (i : Fin 256) : (s.modStation c k f).ring i = s.ring i := rfl
@[simp] theorem State.modStation_port (s : State) (c : Fin 384) (k : Fin 8) (f : Station → Station) (i : Fin 16) : (s.modStation c k f).port i = s.port i := rfl
@[simp] theorem State.setChan_core (s : State) (ch : Fin 50) (x : Channel) (i : Fin 384) : (s.setChan ch x).core i = s.core i := rfl
@[simp] theorem State.setChan_cluster (s : State) (ch : Fin 50) (x : Channel) (i : Fin 48) : (s.setChan ch x).cluster i = s.cluster i := rfl
@[simp] theorem State.setChan_ring (s : State) (ch : Fin 50) (x : Channel) (i : Fin 256) : (s.setChan ch x).ring i = s.ring i := rfl
@[simp] theorem State.setChan_port (s : State) (ch : Fin 50) (x : Channel) (i : Fin 16) : (s.setChan ch x).port i = s.port i := rfl
@[simp] theorem State.setCpwr_core (s : State) (c : Fin 48) (x : ClusterPower) (i : Fin 384) : (s.setCpwr c x).core i = s.core i := rfl
@[simp] theorem State.setCpwr_cluster (s : State) (c : Fin 48) (x : ClusterPower) (i : Fin 48) : (s.setCpwr c x).cluster i = s.cluster i := rfl
@[simp] theorem State.setCpwr_ring (s : State) (c : Fin 48) (x : ClusterPower) (i : Fin 256) : (s.setCpwr c x).ring i = s.ring i := rfl
@[simp] theorem State.setCpwr_port (s : State) (c : Fin 48) (x : ClusterPower) (i : Fin 16) : (s.setCpwr c x).port i = s.port i := rfl
@[simp] theorem State.setDom_core (s : State) (d : Fin 59) (x : Domain) (i : Fin 384) : (s.setDom d x).core i = s.core i := rfl
@[simp] theorem State.setDom_cluster (s : State) (d : Fin 59) (x : Domain) (i : Fin 48) : (s.setDom d x).cluster i = s.cluster i := rfl
@[simp] theorem State.setDom_ring (s : State) (d : Fin 59) (x : Domain) (i : Fin 256) : (s.setDom d x).ring i = s.ring i := rfl
@[simp] theorem State.setDom_port (s : State) (d : Fin 59) (x : Domain) (i : Fin 16) : (s.setDom d x).port i = s.port i := rfl

@[simp] theorem State.fresh_value (s : State) : s.fresh.1 = Config.freeWord s.free := rfl
@[simp] theorem State.fresh_state (s : State) : s.fresh.2 = s.setFree (s.free + 1) := rfl
@[simp] theorem State.modSk_sk (s : State) (c : Fin 48) (f : Stallkeeper → Stallkeeper) : (s.modSk c f).sk c = f (s.sk c) := by
  simp [State.modSk, State.sk]
@[simp] theorem State.modStation_station (s : State) (c : Fin 384) (k : Fin 8) (f : Station → Station) :
    (s.modStation c k f).station c k = f (s.station c k) := by
  simp [State.modStation, State.setStation, State.station]
@[simp] theorem State.setDom_dom (s : State) (d : Fin 59) (x : Domain) : (s.setDom d x).dom d = x := by simp [State.setDom, State.dom]
@[simp] theorem State.setCpwr_cpwr (s : State) (c : Fin 48) (x : ClusterPower) : (s.setCpwr c x).cpwr c = x := by simp [State.setCpwr, State.cpwr]
@[simp] theorem State.setChan_chan (s : State) (c : Fin 50) (x : Channel) : (s.setChan c x).chan c = x := by simp [State.setChan, State.chan]

/-! ### Idling -/
@[simp] theorem State.idle_ns (s : State) : s.idle.ns = s.ns + 1 := rfl
@[simp] theorem State.idle_pending (s : State) : s.idle.pending = s.pending := rfl

end Sys2Proof.Machine
end

