-- ==== Sys2Proof/Laws/Ops.lean ====
section
/-! SUPPORT. What each shared operation can change: one lemma per operation says that its result is the state before with the named
fields replaced, so that every other field reads as before; and that the operations that write memories keep their canonical form. -/
namespace Sys2Proof.Machine
open Sys2Proof

/-! ### Doing something for each member of a list -/

/-- What every member's action keeps, all of them keep. -/
theorem forAll_keeps {α : Type} (P : State → Prop) (l : List α) (f : α → State → State) (s : State)
    (h : ∀ a ∈ l, ∀ t, P t → P (f a t)) (hs : P s) : P (forAll l f s) := by
  induction l generalizing s with
  | nil => exact hs
  | cons a l ih => exact ih (f a s) (fun b hb => h b (List.mem_cons_of_mem a hb)) (h a List.mem_cons_self s hs)

/-- What no member's action changes, all of them leave. -/
theorem forAll_leaves {α β : Type} (g : State → β) (l : List α) (f : α → State → State) (s : State)
    (h : ∀ a t, g (f a t) = g t) : g (forAll l f s) = g s :=
  forAll_keeps (fun t => g t = g s) l f s (fun a _ t ht => (h a t).trans ht) rfl

/-! ### The ledger, interrupts and events -/

/-- Adding to the ledger changes the ledger alone. -/
theorem ledgerAdd_eq (kind : Half) (sev : Nat) (source : Half) (data : List Byte) (s : State) :
    ledgerAdd kind sev source data s = s.setLedger (ledgerAdd kind sev source data s).ledger := by
  simp only [ledgerAdd]
  split <;> rfl

/-- Sending an MSI-X message changes its vector's pending bit or the messages sent. -/
theorem sendMsi_eq (v : Nat) (s : State) :
    sendMsi v s = { s with pcie := (sendMsi v s).pcie, out := (sendMsi v s).out } := by
  simp only [sendMsi]
  split <;> rfl

/-- A state differs from another in what posting an event changes alone: the ledger, the event ring, host memory, MSI-X. -/
def EventOnly (s t : State) : Prop :=
  t = { s with ledger := t.ledger, evt := t.evt, host := t.host, pcie := t.pcie, out := t.out }

theorem EventOnly.trans {s t u : State} (h1 : EventOnly s t) (h2 : EventOnly t u) : EventOnly s u := by
  cases s
  cases t
  cases u
  simp_all [EventOnly]

theorem EventOnly.refl (s : State) : EventOnly s s := rfl
theorem EventOnly.setEvt (s : State) (x : EventRing) : EventOnly s (s.setEvt x) := rfl
theorem EventOnly.setHost (s : State) (x : Memory) : EventOnly s (s.setHost x) := rfl
theorem EventOnly.setPcie (s : State) (x : Pcie) : EventOnly s (s.setPcie x) := rfl
theorem EventOnly.setOut (s : State) (x : Output) : EventOnly s (s.setOut x) := rfl
theorem EventOnly.setLedger (s : State) (x : Ledger) : EventOnly s (s.setLedger x) := rfl

theorem sendMsi_eventOnly (v : Nat) (s : State) : EventOnly s (sendMsi v s) := by
  simp only [sendMsi]
  split
  · exact .setPcie ..
  · exact .setOut ..

theorem evtWrite_eventOnly (kind : Half) (sev : Nat) (source : Word) (data : List Byte) (s : State) :
    EventOnly s (evtWrite kind sev source data s) := by
  simp only [evtWrite]
  split
  · exact ((EventOnly.setHost ..).trans (.setEvt ..)).trans (sendMsi_eventOnly ..)
  · exact (EventOnly.setHost ..).trans (.setEvt ..)

/-- Looking whether the event ring is full changes the ring alone. -/
theorem evtCheckFull_eq (s : State) : evtCheckFull s = s.setEvt (evtCheckFull s).evt := by
  simp only [evtCheckFull]
  split
  · rfl
  · split <;> rfl

theorem evtCheckFull_eventOnly (s : State) : EventOnly s (evtCheckFull s) := by
  simp only [evtCheckFull]
  split
  · exact .refl s
  · split <;> exact .setEvt ..

theorem ledgerAdd_eventOnly (kind : Half) (sev : Nat) (source : Half) (data : List Byte) (s : State) :
    EventOnly s (ledgerAdd kind sev source data s) := by
  simp only [ledgerAdd]
  split <;> exact .setLedger ..

/-- Posting an event changes the ledger, the event ring, host memory, and the message of its vector. -/
theorem postEvent_eventOnly (kind : Half) (sev : Nat) (source : Word) (data : List Byte) (s : State) :
    EventOnly s (postEvent kind sev source data s) := by
  have key : ∀ s1, EventOnly s s1 → EventOnly s (if !s1.evt.enable || sev < s1.evt.minSev.toNat then s1
      else if s1.evt.full then s1.setEvt { s1.evt with lost := satAdd s1.evt.lost 1, spell := s1.evt.spell + 1 }
      else evtCheckFull (evtWrite kind sev source data s1)) := by
    intro s1 h
    split
    · exact h
    · split
      · exact h.trans (.setEvt ..)
      · exact h.trans ((evtWrite_eventOnly ..).trans (evtCheckFull_eventOnly _))
  simp only [postEvent]
  split
  · exact key _ (ledgerAdd_eventOnly ..)
  · exact key s (.refl s)

/-- Marking the module degraded changes that bit and posts its event. -/
theorem setDegraded_eventOnly (s : State) : EventOnly (s.setBoot { s.boot with degraded := true }) (setDegraded s) := by
  simp only [setDegraded]
  exact postEvent_eventOnly ..

/-- Cutting a debug access short changes the debug port's pins and the value it shifts out. -/
theorem cutAccess_eq (s : State) : cutAccess s = { s with pins := (cutAccess s).pins, out := (cutAccess s).out } := by
  simp only [cutAccess]
  split <;> rfl

/-- Ending debug changes debug's state, the debug port's access and the ledger. -/
theorem endDebug_eq (cause : Byte) (s : State) :
    endDebug cause s = { s with
      sec := (endDebug cause s).sec, ledger := (endDebug cause s).ledger, pins := (endDebug cause s).pins, out := (endDebug cause s).out } := by
  simp only [endDebug]
  split
  · rw [cutAccess_eq, ledgerAdd_eq]
    rfl
  · rfl

/-- Ending a session changes the sessions, debug's state, the debug port's access and the ledger. -/
theorem endSession_eq (tag : Half) (s : State) :
    endSession tag s = { s with
      sec := (endSession tag s).sec, ledger := (endSession tag s).ledger, pins := (endSession tag s).pins,
      out := (endSession tag s).out } := by
  simp only [endSession]
  split
  · rw [endDebug_eq]
    rfl
  · rfl

/-! ### Descriptors -/

theorem modCtx_eq (r : Fin 256) (idx : Nat) (f : DescCtx → DescCtx) (s : State) :
    modCtx r idx f s = { s with rings := (modCtx r idx f s).rings } := rfl

theorem noteAble_eq (r : Fin 256) (s : State) : noteAble r s = { s with rings := (noteAble r s).rings } := rfl

theorem issueDesc_eq (r : Fin 256) (idx : Nat) (status : Byte) (detail : Half) (result : Dword) (s : State) :
    issueDesc r idx status detail result s = { s with rings := (issueDesc r idx status detail result s).rings } := rfl

theorem effectsDone_eq (r : Fin 256) (idx : Nat) (s : State) : effectsDone r idx s = { s with rings := (effectsDone r idx s).rings } := rfl

/-- Ending a descriptor changes rings alone. -/
theorem finishDesc_eq (r : Fin 256) (idx : Nat) (status : Byte) (detail : Half) (result : Dword) (s : State) :
    finishDesc r idx status detail result s = { s with rings := (finishDesc r idx status detail result s).rings } := by
  simp only [finishDesc]
  split <;> rfl

/-- Ending a descriptor changes its own ring alone. -/
theorem finishDesc_ring_other (r q : Fin 256) (idx : Nat) (status : Byte) (detail : Half) (result : Dword) (s : State) (h : q ≠ r) :
    (finishDesc r idx status detail result s).ring q = s.ring q := by
  have hv : r.val ≠ q.val := fun e => h (Fin.ext e.symm)
  simp only [finishDesc]
  split <;> simp [noteAble, modCtx, State.modRing, State.setRing, State.ring, hv]

/-! ### Messages and transactions -/

theorem inject_eq (f : Frame) (s : State) : inject f s = s.setMach (inject f s).mach := rfl

theorem openTxn_eq (dest : Half) (isRead : Bool) (owner : TxnOwner) (dst : Dword) (len : Nat) (s : State) :
    openTxn dest isRead owner dst len s = s.setMach (openTxn dest isRead owner dst len s).mach := rfl

theorem startRead_eq (owner : TxnOwner) (dest : Half) (low : BitVec 44) (dst : Dword) (len : Nat) (s : State) :
    startRead owner dest low dst len s = s.setMach (startRead owner dest low dst len s).mach := rfl

/-- Sending several frames changes the machine alone. -/
theorem injectAll_eq (l : List Frame) (s : State) :
    l.foldl (fun t f => inject f t) s = s.setMach (l.foldl (fun t f => inject f t) s).mach := by
  induction l generalizing s with
  | nil => rfl
  | cons f l ih =>
    simp only [List.foldl_cons]
    rw [ih, inject_eq]
    rfl

theorem startWrite_eq (owner : TxnOwner) (dest : Half) (low : BitVec 44) (bs : List MByte) (s : State) :
    startWrite owner dest low bs s = s.setMach (startWrite owner dest low bs s).mach := by
  simp only [startWrite]
  rw [injectAll_eq, openTxn_eq]
  rfl

/-! ### Writes to a place -/

/-- A write to a place changes the core it names, GDDR7 or host memory. -/
theorem writePlace_eq (p : Place) (bs : List MByte) (s : State) :
    writePlace p bs s =
      { s with cores := (writePlace p bs s).cores, gddr := (writePlace p bs s).gddr, host := (writePlace p bs s).host } := by
  simp only [writePlace]
  split
  · rfl
  · split
    · rfl
    · exact forAll_keeps (fun t => t = { s with cores := t.cores, gddr := t.gddr, host := t.host }) _ _ _
        (fun i _ t ht => by
          split
          · exact ht
          · rw [ht]
            rfl) rfl
  · rfl
  · rfl

/-- Queueing the accesses of a GDDR7 request changes the channels alone. -/
theorem gdAccept_eq (owner : TxnOwner) (cls : Nat) (narrow write : Bool) (a n : Nat) (s : State) :
    gdAccept owner cls narrow write a n s =
      s.setGddr { s.gddr with chans := (gdAccept owner cls narrow write a n s).gddr.chans } := by
  simp only [gdAccept]
  split
  · rfl
  · exact forAll_keeps (fun t => t = s.setGddr { s.gddr with chans := t.gddr.chans }) _ _ _
      (fun i _ t ht => by
        dsimp only
        split
        · exact ht
        · rw [ht]
          rfl) rfl

/-- `t` differs from `s` by requests at most: the channels of GDDR7 and the cores, whose ports hold them. -/
def AskOnly (s t : State) : Prop := t = { s with cores := t.cores, gddr := { s.gddr with chans := t.gddr.chans } }

theorem AskOnly.refl (s : State) : AskOnly s s := rfl

theorem AskOnly.trans {s t u : State} (h : AskOnly s t) (k : AskOnly t u) : AskOnly s u := by
  unfold AskOnly at *
  rw [k, h]

/-- What is presented to GDDR7. -/
theorem gdAccept_askOnly (owner : TxnOwner) (cls : Nat) (narrow write : Bool) (a n : Nat) (s : State) :
    AskOnly s (gdAccept owner cls narrow write a n s) := by
  unfold AskOnly
  rw [gdAccept_eq]
  rfl

/-- What is presented to a local store. -/
theorem lsAccept_askOnly (owner : TxnOwner) (write : Bool) (c : Fin 384) (a n : Nat) (s : State) :
    AskOnly s (lsAccept owner write c a n s) := by
  simp only [lsAccept]
  split <;> rfl

/-- What an access presents. -/
theorem acceptAt_askOnly (owner : TxnOwner) (cls : Nat) (write : Bool) (p : Place) (n : Nat) (s : State) :
    AskOnly s (acceptAt owner cls write p n s) := by
  simp only [acceptAt]
  split
  · exact gdAccept_askOnly ..
  · exact lsAccept_askOnly ..
  · exact .refl s

/-- What a move presents before it takes effect. -/
theorem askMove_askOnly (owner : TxnOwner) (cls : Nat) (src dst : Place) (n : Nat) (s : State) :
    AskOnly s (askMove owner cls src dst n s) := by
  simp only [askMove]
  split
  · exact (acceptAt_askOnly ..).trans (lsAccept_askOnly ..)
  · exact acceptAt_askOnly ..

/-- What reads and writes of several places present. -/
theorem askAll_askOnly (owner : TxnOwner) (cls : Nat) (reads writes : List (Place × Nat)) (s : State) :
    AskOnly s (askAll owner cls reads writes s) := by
  have fold : ∀ (f : Place × Nat → State → State) (_ : ∀ x t, AskOnly t (f x t)) (l : List (Place × Nat)) (t : State),
      AskOnly t (l.foldl (fun u x => f x u) t) := by
    intro f hf l
    induction l with
    | nil => exact fun t => .refl t
    | cons x l ih => exact fun t => (hf x t).trans (ih _)
  simp only [askAll]
  exact (fold (fun x t => acceptAt owner cls false x.1 x.2 t) (fun _ _ => acceptAt_askOnly ..) reads s).trans
    (fold (fun x t => askMove owner cls .bad x.1 x.2 t) (fun _ _ => askMove_askOnly ..) writes _)

/-- What a move presents as it takes effect. -/
theorem landAt_askOnly (owner : TxnOwner) (cls : Nat) (dst : Place) (n : Nat) (s : State) : AskOnly s (landAt owner cls dst n s) := by
  simp only [landAt]
  split
  · exact gdAccept_askOnly ..
  · exact .refl s

/-- Work that waits for its requests either leaves the state as it is or goes on. -/
theorem onceServed_cases (o : TxnOwner) (go : State → State) (s : State) :
    (asking s o = true ∧ onceServed o go s = s) ∨ (asking s o = false ∧ onceServed o go s = go s) := by
  simp only [onceServed]
  split <;> simp_all

/-! ### Canonical memories -/

/-- Canonical form depends on the memories alone. -/
theorem State.memOk_of_eq {s t : State} (hs : s.memOk) (hh : t.host = s.host) (hg : t.gddr.mem = s.gddr.mem) (hr : t.gddr.raw = s.gddr.raw)
    (ha : t.sec.flashA = s.sec.flashA) (hb : t.sec.flashB = s.sec.flashB) (hc : t.cores = s.cores) (hk : t.clusters = s.clusters) :
    t.memOk := by
  unfold State.memOk State.core State.sk State.cluster at *
  rw [hh, hg, hr, ha, hb, hc, hk]
  exact hs

theorem sendMsi_host (v : Nat) (s : State) : (sendMsi v s).host = s.host := by
  simp only [sendMsi]
  split <;> rfl

theorem evtCheckFull_host (s : State) : (evtCheckFull s).host = s.host := by
  rw [evtCheckFull_eq]
  rfl

theorem ledgerAdd_host (kind : Half) (sev : Nat) (source : Half) (data : List Byte) (s : State) :
    (ledgerAdd kind sev source data s).host = s.host := by
  rw [ledgerAdd_eq]
  rfl

theorem evtWrite_wf (kind : Half) (sev : Nat) (source : Word) (data : List Byte) (s : State) (h : s.host.wf = true) :
    (evtWrite kind sev source data s).host.wf = true := by
  simp only [evtWrite]
  split
  · rw [sendMsi_host, State.setEvt_host, State.setHost_host]
    exact Memory.putBytes_wf _ _ _ h
  · rw [State.setEvt_host, State.setHost_host]
    exact Memory.putBytes_wf _ _ _ h

theorem postEvent_wf (kind : Half) (sev : Nat) (source : Word) (data : List Byte) (s : State) (h : s.host.wf = true) :
    (postEvent kind sev source data s).host.wf = true := by
  have key : ∀ s1 : State, s1.host.wf = true → (if !s1.evt.enable || sev < s1.evt.minSev.toNat then s1
      else if s1.evt.full then s1.setEvt { s1.evt with lost := satAdd s1.evt.lost 1, spell := s1.evt.spell + 1 }
      else evtCheckFull (evtWrite kind sev source data s1)).host.wf = true := by
    intro s1 h1
    split
    · exact h1
    · split
      · exact h1
      · rw [evtCheckFull_host]
        exact evtWrite_wf _ _ _ _ _ h1
  simp only [postEvent]
  split
  · exact key _ (by rw [ledgerAdd_host]; exact h)
  · exact key s h

/-- What changes no more than an event does keeps every memory canonical, where host memory stays so. -/
theorem EventOnly.memOk {s t : State} (h : EventOnly s t) (hs : s.memOk) (hh : t.host.wf = true) : t.memOk := by
  rw [h]
  exact ⟨hh, hs.2⟩

/-- Posting an event keeps every memory canonical. -/
theorem postEvent_memOk (kind : Half) (sev : Nat) (source : Word) (data : List Byte) (s : State) (h : s.memOk) :
    (postEvent kind sev source data s).memOk :=
  (postEvent_eventOnly ..).memOk h (postEvent_wf _ _ _ _ _ h.1)

/-- A write to a place keeps every memory canonical. -/
theorem writePlace_memOk (p : Place) (bs : List MByte) (s : State) (h : s.memOk) : (writePlace p bs s).memOk := by
  obtain ⟨hh, hg, hr, ha, hb, hc, hk⟩ := h
  simp only [writePlace]
  split
  · rename_i c a
    refine ⟨hh, hg, hr, ha, hb, fun d => ?_, hk⟩
    by_cases e : c = d
    · subst e
      rw [State.modCore_same]
      exact ⟨(hc c).1, (hc c).2.1, (hc c).2.2.1, Memory.putBytes_wf _ _ _ (hc c).2.2.2⟩
    · rw [State.modCore_other _ _ _ _ e]
      exact hc d
  · split
    · exact ⟨hh, Memory.putBytes_wf _ _ _ hg, hr, ha, hb, hc, hk⟩
    · exact forAll_keeps State.memOk _ _ _ (fun i _ t ht => by
        split
        · exact ht
        · exact ⟨ht.1, Memory.put_wf _ _ _ ht.2.1, ht.2.2⟩) ⟨hh, hg, hr, ha, hb, hc, hk⟩
  · exact ⟨Memory.putBytes_wf _ _ _ hh, hg, hr, ha, hb, hc, hk⟩
  · exact ⟨hh, hg, hr, ha, hb, hc, hk⟩

end Sys2Proof.Machine
end

