-- ==== Sys2Proof/WellFormed.lean ====
section
/-! DEFINITION. Which commands are well formed: the shape of the data they bring (R242, R293, R310, R425). -/
namespace Sys2Proof

/-- A frame is 256 bytes, 224 of them payload (R310). -/
def Frame.ok (f : Frame) : Bool := f.payload.length == 224

/-- A provisioning object's fields have the sizes of R293. -/
def ProvObject.ok (o : ProvObject) : Bool :=
  o.reserved.length == 7 && o.ephemeral.length == 97 && o.wrapped.length == 40 && o.auth.length == 48

/-- A tick's measurements name every cluster and port (R433). -/
def CapMeas.ok (m : CapMeas) : Bool := m.clusters.length == 48 && m.portLoad.length == 16

/-- The well-formed commands. -/
def Instr.ok : Instr → Bool
  | .idleFrame _ f fixed => f.ok && fixed.all fun i => (fixed.filter fun j => j / 272 = i / 272).length ≤ 8
  | .writeMsg _ f => f.ok | .readMsg _ f => f.ok | .writeDone _ f => f.ok
  | .readData _ f => f.ok | .rejectMsg _ f => f.ok | .restartNotice _ f => f.ok | .sweepReq _ f => f.ok
  | .sweepResult _ f => f.ok | .stepOpen _ f => f.ok | .rsData _ f => f.ok | .agData _ f => f.ok | .bcData _ f => f.ok
  | .pipeReady _ f => f.ok | .pipeData _ f => f.ok | .arriveMsg _ f => f.ok | .normPart _ f => f.ok
  | .reproofFrame _ f => f.ok | .helloFrame _ f => f.ok | .pingFrame _ f => f.ok | .echoFrame _ f => f.ok
  | .certFrame _ f => f.ok | .joinFrame _ f => f.ok | .retrainFrame _ f => f.ok | .retrainEcho _ f => f.ok
  | .timeSync _ f => f.ok
  | .claimKeys o => o.ok | .setSlot o => o.ok | .clearSlot o => o.ok | .setPolicy o => o.ok | .releaseKeys o => o.ok
  | .capLoopTick m => m.ok
  | .domainStatusTick ms => ms.length == 59
  | .thermalPoll ts => ts.length == 59
  | .timeBeacon es => es.length == 48
  | .descriptorFetchReturn _ l => l.length ≤ 16
  | .registerWrite _ n _ => n ≤ 8
  | .spdmChallenge _ n => n.length == 32
  | .tgRunDone _ l => l.length == 32
  | _ => true

end Sys2Proof
end

