-- ==== Sys2Proof/Tests/Slice0.lean ====
section
/-! SUPPORT. The model's own tests: ill-formed commands refused, words written out from the spec's encodings, small steps, and for
every statement of Certificates/Slice0/Obligations.lean states that meet its hypotheses. -/
-- One theorem at a time: in parallel their evaluations take a thread's stack each.
set_option Elab.async false
namespace Sys2Proof.Tests
open Sys2Proof Sys2Proof.Machine

/-! ### Well-formed commands: each check of Instr.ok refuses a term (R242, R293, R310, R425) -/

/-- A frame for link and message tests: only the named fields differ from zero. -/
def frame (typ : BitVec 4) (vc : BitVec 3) (op : Byte) (payload : List Byte) : Frame where
  typ := typ
  vc := vc
  ordered := false
  version := 1
  seq := 0
  seqRsv := 0
  ack := 0
  nak := false
  ackValid := false
  ackRsv := 0
  pool := 0
  freed := 0
  creditValid := false
  creditRsv := 0
  dest := 0
  src := 0
  tag := 0
  tagRsv := false
  op := op
  len := 0
  space := 0
  addr := 0
  count := 0
  cls := 0
  hops := 0
  poison := false
  routeRsv := 0
  destEpoch := 0
  payload := payload

/-- A provisioning object of the right sizes. -/
def prov (op slot : Byte) (counter : Word) : ProvObject where
  op := op
  slot := slot
  rights := 0
  policy := 0
  counter := counter
  authSlot := 0
  reserved := List.replicate 7 0
  ephemeral := List.replicate 97 0
  wrapped := List.replicate 40 0
  auth := List.replicate 48 0

/-- A tick's measurements. -/
def meas (energy : Nat) : CapMeas := ⟨energy, 0, List.replicate 48 ⟨0, 0, false⟩, List.replicate 16 0⟩

set_option maxRecDepth 4000 in
theorem test_ok_accepts : (Instr.idleFrame 0 (frame 0 0 0 (List.replicate 224 0)) []).ok = true ∧ (Instr.claimKeys (prov 1 0 1)).ok = true
    ∧ (Instr.capLoopTick (meas 7)).ok = true := by decide

set_option maxRecDepth 4000 in
theorem test_ok_refuses_short_payload : (Instr.writeMsg 0 (frame 1 0 1 (List.replicate 223 0))).ok = false := by decide

theorem test_ok_refuses_provisioning_sizes :
    (Instr.setSlot { prov 2 1 1 with reserved := [] }).ok = false ∧ (Instr.setSlot { prov 2 1 1 with ephemeral := [] }).ok = false
    ∧ (Instr.setSlot { prov 2 1 1 with wrapped := [] }).ok = false ∧ (Instr.setSlot { prov 2 1 1 with auth := [] }).ok = false := by decide

theorem test_ok_refuses_measurement_counts :
    (Instr.capLoopTick { meas 0 with clusters := [] }).ok = false ∧ (Instr.capLoopTick { meas 0 with portLoad := [0] }).ok = false
    ∧ (Instr.domainStatusTick []).ok = false ∧ (Instr.thermalPoll [40]).ok = false ∧ (Instr.timeBeacon [0]).ok = false
    ∧ (Instr.idleFrame 0 (frame 0 0 0 []) []).ok = false := by decide

theorem test_ok_refuses_sizes :
    (Instr.descriptorFetchReturn 0 (List.replicate 17 0)).ok = false ∧ (Instr.registerWrite 0 9 0).ok = false
    ∧ (Instr.spdmChallenge 0 []).ok = false := by decide

/-! ### Words written out from the spec's encodings (R112 to R125, R139, R140) -/

-- CTRL NOP: CLASS 0, OP 0
theorem test_word_nop : decodeCore 0 = some ⟨.nop, none, none, none, none, 0⟩ := by decide
-- CTRL BR: CLASS 0, OP 3; s4 against s5, condition 5, target 0x123
theorem test_word_br : decodeCore 0x030000000045A0000000000000000123 = some ⟨.br 4 5 5 0x123, none, none, none, none, 0⟩ := by decide
-- an unlisted CTRL OP
theorem test_word_unlisted : decodeCore 0x08000000000000000000000000000000 = none ∧ decodeCore 0x80000000000000000000000000000000 = none := by
  decide
-- CTRL LOOP: s6 down, target 0xABC
theorem test_word_loop : decodeCore 0x04000000006000000000000000000ABC = some ⟨.loop 6 0xABC, none, none, none, none, 0⟩ := by decide
-- CTRL END, with OUT_B queue 31 carrying s9
theorem test_word_end : decodeCore 0x0500003F900000000000000000000000 = some ⟨.endStn, none, none, none, some 31, 9⟩ := by decide
-- CTRL TRAP, code 0xBEEF
theorem test_word_trap : decodeCore 0x0600000000BEEF000000000000000000 = some ⟨.trap 0xBEEF, none, none, none, none, 0⟩ := by decide
-- CTRL FLAGS into s2, clearing
theorem test_word_flags : decodeCore 0x07000000002800000000000000000000 = some ⟨.flags 2 true, none, none, none, none, 0⟩ := by decide
-- SYNC NOTIFY, code 0x1234
theorem test_word_notify : decodeCore 0x13000000001234000000000000000000 = some ⟨.notify 0x1234, none, none, none, none, 0⟩ := by decide
-- MOVE COPY: entry 0x21 to 0x43, offsets s5 and s6, 0x0102 rows
theorem test_word_copy : decodeCore 0x20000000002143560102000000000000 = some ⟨.copy 0x21 0x43 5 6 0x102, none, none, none, none, 0⟩ := by decide
-- MOVE VLOAD: entry 0x10, row s3, element s4, register 5, 128 lanes
theorem test_word_vload : decodeCore 0x2100000000100030B400000000000000 = some ⟨.vload ⟨0x10, 3, 4, 5, true⟩, none, none, none, none, 0⟩ := by decide
-- MOVE SLOAD: s7 = word at s8 + 0x0ABCDE4
theorem test_word_sload : decodeCore 0x2300000000780ABCDE40000000000000 = some ⟨.sload 7 8 0xABCDE4, none, none, none, none, 0⟩ := by decide
-- ARRAY PASS: A 1, B 2, bias 3, out 4, mask 5, offsets s6 s7 s8 s9, K 0x0A0B, bias 1, hold, drain, station 6
theorem test_word_pass : decodeCore 0x30000000000102030456780A0B5E9000 = some ⟨.pass ⟨1, 2, 3, 4, 5, 6, 7, 8, 9, 0xA0B, 1, false, true, true, 6⟩, none, none, none, none, 0⟩ := by decide
-- MVU MV: X 1, W 2, Y 3, offsets s4 s5 s6, width 2, K 0x4000, N 0x1000, continue, drain, station 3, keep
theorem test_word_mv : decodeCore 0x4000000000010203456A0004002B8000 = some ⟨.mv ⟨1, 2, 3, 4, 5, 6, 2, 0x4000, 0x1000, true, false, true, 3, true⟩, none, none, none, none, 0⟩ := by decide
-- VEC select: VD 1, VA 2, VB 3, VC 4, SB s5
theorem test_word_vec : decodeCore 0x570000000029C1600000000000000000 = some ⟨.vec 7 ⟨1, 2, 3, 4, false, false, 5, true, 0⟩, none, none, none, none, 0⟩ := by decide
-- XNET HADAMARD: entry 7 to 8, offsets s1 s2, 3 blocks of 2^9, inverse
theorem test_word_hadamard : decodeCore 0x61000000000708120003980000000000 = some ⟨.hadamard ⟨7, 8, 1, 2, 3, 9, true⟩, none, none, none, none, 0⟩ := by decide
-- XFER RECV: entry 9 at s1, core 383, address 0x0001040, offset s2, 128 bytes
theorem test_word_recv : decodeCore 0x7100000000091BF80008201000040000 = some ⟨.recv ⟨9, 1, 383, 0x1040, 2, 128⟩, none, none, none, none, 0⟩ := by decide
-- ALU g1 = g2 mulhu g3
theorem test_word_alu : decodeSk 0x00221B00 = some (.alu 1 2 3 12) := by decide
-- LUI g9 = 0x8001 * 2^16
theorem test_word_lui : decodeSk 0x11208001 = some (.lui 9 0 0x8001) := by decide
-- SW g5 to g6 - 4
theorem test_word_sw : decodeSk 0x24A6FFFC = some (.sw 5 6 0xFFFC) := by decide
-- BGEU g7, g8, 3 on
theorem test_word_bgeu : decodeSk 0x54E80003 = some (.branch 5 7 8 3) := by decide
-- JAL one back
theorem test_word_jal : decodeSk 0x63FFFFFF = some (.jal 0x3FFFFFF) := by decide
-- CSRW 0x10 = g4
theorem test_word_csrw : decodeSk 0x84040010 = some (.csrw 0 4 0x10) := by decide
-- PCMD at g3 to queue 2
theorem test_word_pcmd : decodeSk 0xC4030002 = some (.pcmd 0 3 2) := by decide
-- CCTL INJECT: station g1, queue g2, value g3
theorem test_word_inject : decodeSk 0xC0611100 = some (.cctl 3 1 2 4) := by decide
-- END with status 0x40
theorem test_word_skend : decodeSk 0xFC000040 = some (.endSk 0 0 0x40) := by decide
-- a reserved operand bit set (log 38), a LENGTH of 0 (R125), an ALU FN out of the table, a reserved bit of the R format (R140)
theorem test_word_refused : decodeCore 0x40000000000000000000000800400001 = none ∧ decodeCore 0x70000000000900000000000000000000 = none
    ∧ decodeSk 0x00221B40 = none ∧ decodeSk 0x00221801 = none := by decide

/-! ### States that meet the hypotheses: steps, start-up, resets, pins, ports of management and debug -/

/-- A start-up that finds a usable reference and nothing wrong. -/
def goodEnv : StartupEnv := ⟨0, true, 200, 0, 0, [], [], 16, 0⟩
/-- A start-up without a reference. -/
def noRef : StartupEnv := ⟨0, false, 0, 0, 0, [], [], 16, 0⟩

/-- A module in operation: 48 V, start-up complete, reference present, market time running. -/
def on : State :=
  { State.reset with
    pwr := { State.reset.pwr with v48 := true }
    boot := { State.reset.boot with step := 9, latchedOnce := true }
    pins := { State.reset.pins with modReady := true }
    pcie := { State.reset.pcie with up := true }
    time := { State.reset.time with present := true, running := true, locked := true } }

theorem witness_StepRunsFrontCommand :
    ({ on with pending := [.smbIdent, .smbTemp] } : State).pending = .smbIdent :: [.smbTemp] := by decide

theorem witness_IdleStepPassesOneNanosecond :
    (on.pending = [] ∧ on.time.running = true ∧ on.pwr.mstate ≠ 2 ∧ on.time.slew = 0)
    ∧ (State.reset.pending = [] ∧ State.reset.time.running = false)
    ∧ ([1, -1].all fun x : Int =>
      let s := ({ on with ns := 4096 } : State).setTime { on.time with slew := x };
      s.time.mt.toNat % 4096 ≠ 4095 && s.time.mt.toNat % 100000 ≠ 99999 && s.time.slewAt + 4096 ≤ s.ns && s.time.slew ≠ 0) = true
    ∧ (let s := on.setTime { on.time with slew := 1 };
      s.ns < s.time.slewAt + 4096)
    ∧ (on.setPwr { on.pwr with mstate := 2 }).pwr.mstate = 2 := by decide

theorem witness_EveryStepKeepsMemoriesCanonical :
    ({ on with host := [(7, 1)], pending := [.smbTemp] } : State).host.wf = true
    ∧ (step { on with host := [(7, 1)], pending := [.smbTemp] } matches .next _) := by decide

theorem witness_CoreInstructionWordsRoundTrip :
    (CoreOp.alu 3 1 2 10 false 0).ok = true ∧ (CoreOp.br 1 2 6 0xFFF).ok = true
    ∧ decodeCore 0x01900940303121000000000000000000 = some ⟨.alu 3 1 2 1 false 0, some 4, none, some 5, none, 3⟩ := by decide

theorem witness_StallkeeperWordsRoundTrip :
    (SkOp.alu 1 2 3 12).ok = true ∧ decodeSk 0x04A3FFFF = some (.addi 5 3 0xFFFF) := by decide

-- one word for each way to be unlisted: CLASS 8, CTRL 8, SYNC 4, MOVE 5, ARRAY 1, MVU 1, VEC 15, XNET 2, XFER 2, bit 88
theorem witness_IllegalAndListedWords :
    [0x80000000000000000000000000000000, 0x08000000000000000000000000000000, 0x14000000000000000000000000000000,
      0x25000000000000000000000000000000, 0x31000000000000000000000000000000, 0x41000000000000000000000000000000,
      0x5F000000000000000000000000000000, 0x62000000000000000000000000000000, 0x72000000000000000000000000000000,
      0x00000000010000000000000000000000].all (fun w : InstrWord => decodeCore w = none) = true := by decide

/-- A module held at step 2 with the straps latched. -/
def held : State := { on with boot := { on.boot with step := 2, holdReset := true }, pins := { on.pins with modResetN := false, modReady := false } }

/-- A module that waits for a reference since 5 ns, in recovery. -/
def waiting : State :=
  { on with
    boot := { on.boot with step := 3, refWait := some 5, recovery := true }
    time := { on.time with present := false } }

theorem witness_StartUpRunsItsSteps :
    (State.reset.pwr.v48 = false ∧ State.reset.boot.cause ≠ 5 ∧ goodEnv.refUsable = true)
    ∧ (held.pwr.v48 = true ∧ held.boot.holdReset = true ∧ held.boot.cause ≠ 5 ∧ noRef.refUsable = false)
    ∧ (let s := { on with boot := { on.boot with step := 8 } };
      s.pwr.v48 = true ∧ s.boot.step = 8)
    ∧ (let s := { waiting with ns := 10000005 };
      s.boot.refWait = some 5 ∧ 5 + 10000000 ≤ s.ns ∧ s.time.present = false)
    ∧ (on.pwr.v48 = true ∧ on.boot.holdReset = false ∧ on.boot.step ≠ 8 ∧ on.boot.refWait = none)
    ∧ (waiting.boot.refWait = some 5 ∧ waiting.time.present = false ∧ waiting.ns < 5 + 10000000) := by decide

theorem witness_ModuleResetsKeepAndLose :
    (on.pwr.v48 = true ∧ on.pins.modResetN = true)
    ∧ ((0x1A5C3 : Word).getLsbD 16 = true ∧ bits (0x1A5C3 : Word) 0 16 = (0xA5C3 : Half) ∧ bits (0x1A5C2 : Word) 0 16 ≠ (0xA5C3 : Half))
    ∧ (on.pins.perstN = true ∧ on.boot.step = 9 ∧ on.pwr.mstate ≠ 4) ∧ held.boot.step ≠ 9 ∧ held.pins.modResetN = false
    ∧ State.reset.pwr.v48 = false ∧ (held.boot.step.toNat < 3 ∧ on.ns < on.boot.clerkServed + 2000000000)
    ∧ (let s := { on with ns := 2000000000 };
      s.pwr.v48 = true ∧ 3 ≤ s.boot.step.toNat ∧ s.boot.clerkServed + 2000000000 ≤ s.ns) := by decide

theorem witness_LossOfPowerKeepsTheSecureStore : on.pwr.v48 = true ∧ State.reset.pwr.v48 = false := by decide

/-- A ledger with one entry, newer than the SMBus read pointer. -/
def oneEntry : LedgerEntry := ⟨0x0101, 1, 0, 1, 0, 0, 0, []⟩

theorem witness_ManagementPort :
    smbAnswers on true = true ∧ smbAnswers on false = true
    ∧ (let s := { on with ledger := { on.ledger with buffer := [(oneEntry, 0)], seqNo := 1 } };
      ledgerFrom s.ledger (s.ledger.smbPtr + 1) = some oneEntry)
    ∧ ledgerFrom on.ledger (on.ledger.smbPtr + 1) = none
    ∧ (let s := { on with pins := { on.pins with thermTripN := false } };
      s.pwr.v48 = true ∧ s.pins.alertOff.1 = 0 ∧ s.pins.thermTripN = false ∧ smbAlertN s = false
        ∧ errorBeyond s (laterSeq s.ledger.smbPtr s.ledger.seqNo) = false)
    ∧ smbAlertN on = true ∧ smbAnswers State.reset true = false ∧ (smbAnswers held true = true ∧ smbAnswers held false = false) := by decide

/-- A module under debug. -/
def dbg : State := { on with sec := { on.sec with dbgActive := true } }

theorem witness_DebugPort :
    on.pwr.v48 = true ∧ held.pins.modResetN = false ∧ on.pins.modResetN = true
    ∧ dbg.sec.dbgActive = true ∧ on.sec.dbgActive = false ∧ (0x20 : Half).toNat % 4 = 0
    ∧ (4 % 4 = 0 ∧ 4 < lsEnd ∧ coreServes dbg 383 = true) ∧ (dbg.cluster 47).inService = true
    ∧ (skWrite (debugBegin dbg) 47 0x10000 9).isSome = true ∧ (skRead dbg 47 0x10000).isSome = true
    ∧ ((0x22 : Half).toNat % 4 ≠ 0 ∧ lsEnd ≤ lsEnd + 4) ∧ (skRead dbg 47 2 = none ∧ (skWrite (debugBegin dbg) 47 2 9).isNone = true)
    ∧ (let s := dbg.setPins { dbg.pins with dbgBusy := true };
      s.sec.dbgActive = true ∧ s.pins.dbgBusy = true ∧ (0 : Word).getLsbD 16 = false)
    ∧ State.reset.pwr.v48 = false ∧ on.boot.holdReset = false := by decide

/-! ### Stations -/

/-- Core 5 with station 3 in RUN at a word, two tokens in queue 4 for it, two credits of queue 5 for it, and operand entry 9:
four rows of 16 VW32 elements at address 0. -/
def stnAt (w : InstrWord) : State :=
  on.modCore 5 fun co =>
    { co with
      istore := co.istore.putLE 0 16 w.toNat
      optab := (co.optab.putLE 288 4 0x40000000).putLE 296 8 0x0000004000100004
      stns := co.stns.set 3 { co.stns[3] with state := .run }
      queues := (co.queues.set 4 ⟨6, 3, 0, 0, 4, [7, 9], 2⟩).set 5 ⟨3, 6, 0, 0, 4, [], 2⟩ }

/-- The same at an instruction. -/
def stn (i : CoreInstr) : State := stnAt (encodeCore i)

/-- An operation with no tokens. -/
def bare (o : CoreOp) : CoreInstr := ⟨o, none, none, none, none, 0⟩

/-- An addition that takes both tokens of queue 4 and pushes to queue 5. -/
def addPop : CoreInstr := ⟨.alu 3 14 15 0 false 0, some 4, some 4, some 5, none, 14⟩

theorem witness_StationsFire : firesNow (stn addPop) 5 3 addPop = true
    ∧ (let i : CoreInstr := ⟨.nop, some 4, none, none, none, 0⟩;
      let s := (stn i).modCore 5 fun co => { co with queues := co.queues.set 4 ⟨0x20, 3, 9, 1, 4, [7], 0⟩ };
      firesNow s 5 3 i = true ∧ ((s.core 5).queues[4]).prod = 0x20) := by decide

theorem witness_ControlInstructions :
    ([bare (.alu 3 1 2 1 true 5), bare (.li 0 7), bare (.br 1 2 6 0xFFF), bare (.loop 2 9), bare (.loop 0 9), bare (.flags 2 true),
      bare .nop, bare .endStn].all fun i => firesNow (stn i) 5 3 i) = true := by decide

theorem witness_PostsTransfersAndScalarMoves :
    ([bare (.raise 63), bare (.notify 5), bare .join, bare .quiesce, bare (.send ⟨9, 0, 383, 0, 0, 64⟩),
      bare (.recv ⟨9, 0, 5, 64, 0, 256⟩)].all fun i => firesNow (stn i) 5 3 i) = true
    ∧ ((stn addPop).core 5).ls.wf = true := by decide

-- an illegal word; a pop of a queue bound elsewhere; a misaligned SLOAD; a legal word that stands behind none of them
theorem witness_PreFireExceptionsHalt :
    (let s := stnAt 0x80000000000000000000000000000000;
      (s.station 5 3).state = .run ∧ (s.station 5 3).ending = false ∧ decodeCore ((s.core 5).instrAt (s.station 5 3).pc) = none)
    ∧ (let i : CoreInstr := ⟨.nop, some 6, none, none, none, 0⟩;
      let s := stn i;
      decodeCore ((s.core 5).instrAt (s.station 5 3).pc) = some i ∧ entryIllegal (s.core 5) i.op = false
        ∧ popFault (s.core 5) 3 i = some 6)
    ∧ (let i := bare (.sload 1 0 2);
      let s := stn i;
      decodeCore ((s.core 5).instrAt (s.station 5 3).pc) = some i ∧ entryIllegal (s.core 5) i.op = false ∧ popFault (s.core 5) 3 i = none
        ∧ tokensReady (s.core 5) i = true ∧ regHazard (s.station 5 3).inflight (touched i) = false
        ∧ operandFault (s.core 5) 3 (poppedRegs (s.core 5) i (s.station 5 3).regs) i = some (3, 2))
    ∧ (let i := bare (.vload ⟨9, 0, 0, 1, true⟩);
      entryIllegal ((stn i).core 5) i.op = true) := by decide

/-- An instruction in flight of station 3. -/
def flight (i : CoreInstr) : Inflight where
  uid := 0
  pc := 0
  word := encodeCore i
  regs := List.replicate 16 0
  outVal := 5
  started := false
  streaming := false
  left := 0
  raised := 0
  marked := false
  remote := none
  mute := false
  moved := true
  granted := false
  seen := []
  pieces := []

/-- Core 5 with an instruction in flight of its running station 3. -/
def flying (f : Inflight) : State :=
  (stn (bare .nop)).modCore 5 fun co => { co with stns := co.stns.set 3 { co.stns[3] with inflight := [f], nextUid := 1, haltMask := 1 } }

/-- A pass over array 0 that preloads a bias and drains. -/
def passOp : PassOp := ⟨9, 9, 9, 9, 1, 0, 0, 0, 0, 16, 1, false, false, false, 0⟩

theorem witness_StationsCompleteTheirInstructions :
    (((flying (flight (bare (.vec 0 ⟨1, 2, 3, 0, false, false, 0, false, 0⟩)))).station 5 3).inflight[0]?).map (fun f => f.started) = some false
    ∧ opOf (flight (bare (.vec 0 ⟨1, 2, 3, 0, false, false, 0, false, 0⟩))).word = some (.vec 0 ⟨1, 2, 3, 0, false, false, 0, false, 0⟩)
    ∧ opOf (flight (bare (.pass passOp))).word = some (.pass passOp) ∧ passOp.biasMode ≠ 0 := by decide

theorem witness_StationsCompleteTheirInstructions_drain :
    ([(62, []), (63, []), (63, [⟨[], 0⟩])].all fun x : Nat × List DqRow =>
      let p := { passOp with drain := true };
      let d : DrainRun := ⟨3, 0, encodeCore (bare (.pass p)), 0, 0, true, x.1, []⟩;
      let s := (stn (bare .nop)).modCore 5 fun co => { co with drainQ := x.2, arrays := co.arrays.set 0 { co.arrays[0] with drain := some d } };
      ((s.core 5).arrays[0].drain = some d) && opOf d.word = some (.pass p) && !lowerWaiting (s.core 5) 0 (d.stn, d.uid)) = true
    ∧ (let f := flight (bare (.pass passOp));
      let s := (flying f).modCore 5 fun co => { co with arrays := co.arrays.set 0 { co.arrays[0] with issued := [(3, 0)] } };
      (s.core 5).arrays[0].issued.head? = some (3, 0) ∧ ((s.station 5 3).inflight.find? fun f => f.uid = 0) = some f
        ∧ (s.core 5).arrays[0].bias = none ∧ (s.core 5).arrays[0].drain = none ∧ (s.core 5).arrays[0].finished = none
        ∧ hasReqs (s.core 5) 3 0 = false) := by decide

theorem witness_StationsCompleteTheirInstructions_ports :
    ([.stn 3 0, .ext .none].all fun o =>
      let r : PortReq := ⟨o, 1, 0, false, 32, false, false⟩;
      let s := (flying (flight (bare (.sload 1 0 4)))).modCore 5 fun co => { co with lports := co.lports.set 0 ⟨[r], 0, 0⟩ };
      pickReq (s.core 5).lports[0].reqs = some 0 && (s.core 5).lports[0].reqs[0]? = some r && 32 ≤ r.waited) = true
    ∧ (let f := { flight (bare .nop) with started := true };
      let s := flying f;
      (s.station 5 3).inflight[0]? = some f ∧ reached (s.core 5) 3 f = true ∧ pushHeld (s.station 5 3) f = false
        ∧ opOf f.word = some .nop)
    ∧ ([false, true].all fun b =>
      let m : MvOp := ⟨9, 9, 9, 0, 0, 0, 0, 16, 64, false, false, true, 3, false⟩;
      let f := { flight (bare (.mv m)) with started := true, moved := b };
      let s := (flying f).modCore 5 fun co => { co with mvu := { co.mvu with finished := some (3, 0) } };
      (s.station 5 3).inflight[0]? = some f && opOf f.word = some (.mv m) && !pushHeld (s.station 5 3) f
        && (reached (s.core 5) 3 f) && (mvQueue 5 3 f m s).isSome
        && (mvQueue 5 3 f m (s.modCore 5 fun co => { co with drainQ := List.replicate 64 ⟨[], 0⟩ })).isNone) = true
    ∧ (let s := { stn (bare .nop) with wires := [⟨5, 4, 11, false⟩, ⟨5, 5, 0, true⟩] };
      wireIx s 5 4 false = some 0 ∧ s.wires[0]? = some ⟨5, 4, 11, false⟩ ∧ wireIx s 5 5 true = some 1)
    ∧ (let s := ({ stn (bare .nop) with time := { on.time with mt := 1000 } } : State).modStation 5 3 fun st => { st with wdog := 1 };
      (s.station 5 3).state = .run ∧ (s.station 5 3).wdog ≠ 0
        ∧ ((s.station 5 3).wdog.toNat * 1000 : Int) ≤ (s.clusterTime (clusterOf 5) - (s.station 5 3).wdogFrom).toInt) := by decide +kernel

theorem witness_StationsCompleteTheirInstructions_ends :
    (let f := flight ⟨.nop, none, none, some 5, none, 0⟩;
      let s := flying f;
      (s.station 5 3).state = .run ∧ f.mute = false ∧ f.remote = none ∧ pushPeerOut s 5 f = none ∧ outQueues f.word = [5]
        ∧ (s.core 5).queues[5].cons ≠ 0x20 ∧ postFault (s.station 5 3) f none = none ∧ (s.station 5 3).ending = false)
    ∧ (let f := flight (bare .endStn);
      let s := (flying f).modStation 5 3 fun st => { st with ending := true };
      outQueues f.word = [] ∧ (s.station 5 3).ending = true ∧ (s.station 5 3).inflight = [f] ∧ postFault (s.station 5 3) f none = none
        ∧ pushPeerOut s 5 f = none)
    ∧ (let f := { flight (bare .nop) with raised := 1 };
      let s := flying f;
      outQueues f.word = [] ∧ f.raised &&& (s.station 5 3).haltMask ≠ 0 ∧ pushPeerOut s 5 f = none)
    ∧ (let f := flight (bare (.trap 0xFFFF));
      let s := flying f;
      opOf f.word = some (.trap 0xFFFF) ∧ outQueues f.word = [] ∧ f.raised &&& (s.station 5 3).haltMask = 0 ∧ f.marked = false
        ∧ pushPeerOut s 5 f = none) := by decide

/-! ### Stallkeepers, porter, crier -/

/-- The stallkeeper of cluster 2 in RUN at an operation, with g3 = v, g4 = w and g5 = x. -/
def sk (o : SkOp) (v w x : Word) : State :=
  on.setSk 2
    { on.sk 2 with
      st := .run
      imem := Memory.putLE [] 0 4 (encodeSk o).toNat
      g := (((on.sk 2).g.set 3 v).set 4 w).set 5 x }

theorem witness_StallkeeperRegistersAndBranches :
    ([.alu 1 3 4 12, .addi 1 3 0xFFFF, .andi 1 3 7, .ori 1 3 7, .lui 1 0 7, .branch 0 3 4 7, .branch 1 3 4 7, .branch 2 3 4 7, .branch 3 3 4 7,
      .branch 4 3 4 7, .branch 5 3 4 0x8000, .jal 0x3FFFFFF, .jr 0 3 4].all fun o => skRuns (sk o 1 2 3) 2 o) = true := by decide

theorem witness_StallkeeperMemoryAndCounters :
    (let s := sk (.lw 1 3 0xFFFC) 0x50000 0 0;
      skRuns s 2 (.lw 1 3 0xFFFC) = true ∧ (skRead s 2 ((s.sk 2).reg 3 + (0xFFFC : Half).signExtend 32).toNat).isSome = true)
    ∧ (let s := sk (.lw 1 3 0) 0x50000 0 0;
      skRuns s 2 (.lw 1 3 0) = true ∧ skRead s 2 ((s.sk 2).reg 3 + (0 : Half).signExtend 32).toNat = none)
    ∧ (let s := sk (.sw 4 3 0) 0x10000 9 0;
      skRuns s 2 (.sw 4 3 0) = true ∧ (skWrite s 2 ((s.sk 2).reg 3 + (0 : Half).signExtend 32).toNat ((s.sk 2).reg 4)).isSome = true
        ∧ (s.sk 2).dmem.wf = true)
    ∧ (let s := sk (.sw 4 3 0) 0x10002 9 0;
      skRuns s 2 (.sw 4 3 0) = true ∧ skWrite s 2 ((s.sk 2).reg 3 + (0 : Half).signExtend 32).toNat ((s.sk 2).reg 4) = none) := by decide

theorem witness_StallkeeperMemoryAndCounters_stores :
    (let s := sk (.sw 4 3 0) 0x200003FC 0x10001 0;
      skRuns s 2 (.sw 4 3 0) = true ∧ ((s.sk 2).reg 3 + (0 : Half).signExtend 32).toNat = 0x2000000C + 16 * (63 : Fin 64).val
        ∧ bits ((s.sk 2).reg 4) 0 16 = (1 : Half))
    ∧ (let s := sk (.sw 4 3 0) 0x107141A8 1 0;
      skRuns s 2 (.sw 4 3 0) = true
        ∧ ((s.sk 2).reg 3 + (0 : Half).signExtend 32).toNat = 0x10000000 + 0x100000 * (7 : Fin 8).val + 0x141A8
        ∧ ((s.sk 2).reg 4).getLsbD 0 = true)
    ∧ (let s := sk (.sw 4 3 0) 0x100141F8 0x21 0;
      skRuns s 2 (.sw 4 3 0) = true
        ∧ ((s.sk 2).reg 3 + (0 : Half).signExtend 32).toNat = 0x10000000 + 0x100000 * (0 : Fin 8).val + 0x141F8
        ∧ (s.sk 2).reg 4 &&& 0x3F ≠ 0) := by decide

/-- The clip factor of NORM_ID 7 with a status. -/
def norm (st : Nat) : NormEntry := ⟨7, st, 0x3F800000, 0, 0⟩

theorem witness_StallkeeperTimersAndFactors :
    ([.csrr 1 0 0x01, .csrr 1 0 0x10, .csrw 0 3 0x10, .wait 0 3 0, .csrw 0 3 0x11, .csrw 0 3 0x12, .csrw 0 3 0x13, .csrr 1 0 0x14,
      .csrw 0 3 0x16, .csrw 0 3 0x20, .csrr 1 0 0x21].all fun o => skRuns (sk o 1 2 3) 2 o) = true
    ∧ (let k : Stallkeeper := { on.sk 2 with timerArmed := true, timer := 0 };
      k.timerArmed = true ∧ ((bits (on.clusterTime 2) 0 32 : Word) - k.timer).toNat < 2 ^ 31)
    ∧ (let k : Stallkeeper := { on.sk 2 with timerArmed := true, timer := 1 };
      2 ^ 31 ≤ ((bits (on.clusterTime 2) 0 32 : Word) - k.timer).toNat)
    ∧ (let k : Stallkeeper := { on.sk 2 with st := .wait, waitMask := 0x20, events := [5] };
      k.st = .wait ∧ eventPending k k.waitMask = true)
    ∧ [0, 1, 2].all (fun st => ([norm st].find? fun n => n.id = 7) = some (norm st)) = true
    ∧ (let s := { on.setSk 2 { on.sk 2 with normSel := 7, normSince := some 0 } with ns := 100000000 };
      (s.coll.norms.find? fun n => n.id = (s.sk 2).normSel) = none ∧ (s.sk 2).normSince = some 0 ∧ 0 + 100000000 ≤ s.ns) := by decide

/-- Station 1 of core 17, in cluster 2, in a state. -/
def stnOf (o : SkOp) (st : StnState) (tok : List Word) (cr : Nat) : State :=
  (sk o 0x0000000A 3 0x55).modCore 17 fun co =>
    { co with
      stns := co.stns.set 1 { co.stns[1] with state := st, entry := 0x40 }
      queues := co.queues.set 3 ⟨0xFF, 0xFF, 0, 0, 4, tok, cr⟩ }

theorem witness_StationCommandsMoveStations :
    ([0, 1, 2, 3, 4].all fun fn => skRuns (stnOf (.cctl 5 3 4 fn) .idle [] 1) 2 (.cctl 5 3 4 fn)) = true
    ∧ (let s := stnOf (.cctl 5 3 4 4) .idle [] 1;
      coreOf 2 (bits ((s.sk 2).reg 3) 0 3 : BitVec 3).toNat = 18 ∧ (bits ((s.sk 2).reg 3) 3 3 : BitVec 3) = 1
        ∧ (s.station 18 1).state = .idle)
    ∧ ((stnOf (.cctl 5 3 4 4) .run [] 1).station 17 1).state = .run
    ∧ (let st := (stnOf (.cctl 5 3 4 4) .halted [] 1).station 17 1;
      st.state = .halted ∧ st.ending = false)
    ∧ (let q := ((stnOf (.cctl 5 3 4 4) .run [] 1).core 17).queues[3];
      q.prod ≠ 0x20 ∧ q.cons ≠ 0x20 ∧ 0 < q.credits)
    ∧ ((stnOf (.cctl 5 3 4 4) .run [] 0).core 17).queues[3].credits = 0 := by decide

theorem witness_StationCommandsMoveStations_remote :
    ([0, 1].all fun cr =>
      let s := (stnOf (.cctl 5 3 4 4) .run [] 1).modCore 18 fun co => { co with queues := co.queues.set 3 ⟨0x20, 3, 9, 7, 4, [], 0⟩ };
      let s := s.modCore 9 fun co => { co with queues := co.queues.set 7 ⟨3, 0x20, 18, 3, 4, [], cr⟩ };
      skRuns s 2 (.cctl 5 3 4 4) && ((s.core 18).queues[3]).prod = 0x20 && ((s.core 9).queues[7]).credits = cr) = true := by decide

theorem witness_StallkeeperPostsAndEnds :
    (let s := sk (.pcmd 0 3 2) 0x10000 0 0;
      skRuns s 2 (.pcmd 0 3 2) = true ∧ 0x10000 ≤ ((s.sk 2).reg 3).toNat ∧ ((s.sk 2).reg 3).toNat + 64 ≤ 0x50000
        ∧ (s.cluster 2).pq[2].length < 64)
    ∧ (let s := (sk (.pcmd 0 3 2) 0x4FFC0 0 0).modCluster 2 fun c => { c with pq := c.pq.set 2 (List.replicate 64 ⟨0, none⟩) };
      skRuns s 2 (.pcmd 0 3 2) = true ∧ ((s.sk 2).reg 3).toNat + 64 ≤ 0x50000 ∧ (s.cluster 2).pq[2].length = 64)
    ∧ (let s := sk (.ccmd 0 3 0) 0x4FFE8 0 0;
      skRuns s 2 (.ccmd 0 3 0) = true ∧ ((s.sk 2).reg 3).toNat + 24 ≤ 0x50000)
    ∧ skRuns (sk (.endSk 0 0 0x40) 0 0 0) 2 (.endSk 0 0 0x40) = true
    ∧ (let s := on.setSk 2 { on.sk 2 with st := .run, imem := Memory.putLE [] 0 4 0xFC0 };
      (s.sk 2).st = .run ∧ (skFetch (s.sk 2)).bind decodeSk = none)
    ∧ (let s := on.setSk 2 { on.sk 2 with st := .run, pc := 0x10000 };
      (skFetch (s.sk 2)).bind decodeSk = none) := by decide

theorem witness_StallkeeperPostsAndEnds_else :
    (on.sk 2).st ≠ .run ∧ skRuns (sk (.endSk 0 0 0) 0 0 0) 2 (.endSk 0 0 0) = true
    ∧ skCmd 2 (.jal 0) ≠ skCmd 2 (.endSk 0 0 0)
    ∧ (let s := sk (.pcmd 0 3 3) 0x10000 0 0;
      skRuns s 2 (.pcmd 0 3 3) = true ∧ (bits (3 : Half) 0 2 : BitVec 2) = 3)
    ∧ (let s := sk (.ccmd 0 3 0) 0x4FFE9 0 0;
      skRuns s 2 (.ccmd 0 3 0) = true ∧ 0x50000 < ((s.sk 2).reg 3).toNat + 24)
    ∧ (let s := sk (.pcmd 0 3 2) 0xFFFF 0 0;
      skRuns s 2 (.pcmd 0 3 2) = true ∧ ((s.sk 2).reg 3).toNat < 0x10000) := by decide

/-- A porter command of an opcode: source, destination, length. -/
def pc (op : Nat) (flags : Nat) (src dst : Dword) (len : Nat) : PorterCmd :=
  ⟨BitVec.ofNat 512 (op + 256 * flags + 2 ^ 64 * src.toNat + 2 ^ 128 * dst.toNat + 2 ^ 192 * len), none⟩

/-- Cluster 2 with one started porter command, its own transfer made or not. -/
def porting (p : PorterCmd) (moved : Bool) (code : Option Half) : State :=
  on.modCluster 2 fun c => { c with prun := [⟨0, p, 0, 0, moved, code, [], false, false, 0, [], false⟩], pCount := 1 }

/-- A local-store address of a core. -/
def lsAddr (c a : Nat) : Dword := BitVec.ofNat 64 (2 ^ 48 * c + a)

theorem witness_PorterCommands :
    (let s := on.modCluster 2 fun c => { c with pq := c.pq.set 1 [pc 6 0 0 0 0], pNext := 3 };
      tagFree s 2 = true ∧ heldOff s 2 = false ∧ pickQueue s 2 = some 1 ∧ (s.cluster 2).pq[1] = pc 6 0 0 0 0 :: []
        ∧ 5 < pOp (pc 6 0 0 0 0).word)
    ∧ (pOp (pc 0 0 0 0 0).word = 0 ∧ pOp (pc 5 0 0 0 0).word = 5 ∧ pToken (pc 5 0 0 0 0).word = false)
    ∧ (let p := pc 1 0 (lsAddr 383 0x40) (lsAddr 0 0x80) 64;
      let s := porting p false none;
      (runAt s 2 0 1).map (fun r => r.cmd) = some p ∧ p.xfer = none ∧ placeOf s (pSrc p.word) = .ls 383 0x40
        ∧ placeOf s (pDst p.word) = .ls 0 0x80 ∧ placeFault s (.ls 383 0x40) (pLen p.word) = none
        ∧ placeFault s (.ls 0 0x80) (pLen p.word) = none)
    ∧ (let p := pc 1 0 0xF000000000000000 0 64;
      let s := porting p false none;
      placeFault s (placeOf s (pSrc p.word)) (pLen p.word) = some (0x30, 0))
    ∧ (let p : PorterCmd := ⟨0, some ⟨true, 16, 0, 0, 0, 17, 0, 64⟩⟩;
      (runAt (porting p false none) 2 0 1).map (fun r => r.cmd.xfer) = some p.xfer)
    ∧ (runAt (porting (pc 2 0 0 0 64) false none) 2 0 2).isSome = true
    ∧ (runAt (porting (pc 5 0 0 0 0) false none) 2 0 5).isSome = true := by decide +kernel

/-- Cluster 2 with a started GATHER of one row: its list in core 1, the row in GDDR7 at 32. -/
def gathering : State :=
  ({ porting (pc 3 0 (lsAddr 1 0) (lsAddr 2 0) 1) false none with gddr := { on.gddr with activeCh := 48 } } : State).modCore 1
    fun co => { co with ls := Memory.putLE [] 0 8 0x1000000000000020 }

theorem witness_PorterCommands_gather :
    (let p := pc 3 0 (lsAddr 1 0) (lsAddr 2 0) 1;
      (runAt gathering 2 0 3).isSome = true ∧ placeOf gathering (pSrc p.word) = .ls 1 0
        ∧ placeFault gathering (.ls 1 0) (8 * pLen p.word) = none
        ∧ placeFault gathering (placeOf gathering (pDst p.word)) (32 * pLen p.word) = none
        ∧ gatherList ((readPlace gathering (.ls 1 0) (8 * pLen p.word)).map fun b => b.1) = [0x1000000000000020]
        ∧ rowFault gathering 0x1000000000000020 = none)
    ∧ (let p := pc 4 0 0x1122334455667788 (lsAddr 2 0x8FFFFFF) 1;
      let s := porting p false none;
      (runAt s 2 0 4).isSome = true ∧ placeOf s (pDst p.word) = .ls 2 0x8FFFFFF ∧ placeFault s (.ls 2 0x8FFFFFF) (pLen p.word) = none)
    ∧ (let p := pc 4 0 0 (lsAddr 2 0x9000000) 1;
      placeFault (porting p false none) (placeOf (porting p false none) (pDst p.word)) (pLen p.word) = some (0x30, 0)) := by
  decide +kernel

theorem witness_PorterCommands_complete :
    (let p := pc 5 6 0 0 0;
      let s := (porting p true none).modCore 0 fun co => { co with queues := co.queues.set 0 ⟨0x21, 3, 0, 0, 4, [], 3⟩ };
      (s.cluster 2).prun[0]? = some ⟨0, p, 0, 0, true, none, [], false, false, 0, [], false⟩ ∧ p.xfer = none
        ∧ pToken p.word = true ∧ pEvent p.word = true ∧ ((s.core 0).queues[pTokQueue p.word]).cons ≠ 0x20)
    ∧ ((porting (pc 5 0 0 0 0) true (some 0x30)).cluster 2).prun[0]? = some ⟨0, pc 5 0 0 0 0, 0, 0, true, some 0x30, [], false, false, 0, [], false⟩ := by
  decide +kernel

/-- Cluster 2 with crier channel 63 firing: threshold 2, three arrivals, one target. -/
def crying (target : Half) : State :=
  on.modCluster 2 fun c => { c with crier := c.crier.set 63 ⟨2, true, #v[target, 0, 0, 0], 3, 9, true⟩ }

theorem witness_CrierFiresAndBroadcasts :
    (((crying 0x4001).cluster 2).crier[63].firing = true ∧ reserveTargets ((crying 0x4001).cluster 2).crier[63].targets.toList (crying 0x4001) = none)
    ∧ (((crying 0).cluster 2).crier[63].firing = true ∧ ∀ j : Fin 4, bits (((crying 0).cluster 2).crier[63].targets[j]) 14 2 = (0 : BitVec 2))
    ∧ bcastOk ⟨16, 0xFF, 5, 0x40, 64, 1⟩ = true ∧ bcastOk ⟨384, 0xFF, 5, 0x40, 64, 1⟩ = false ∧ bcastOk ⟨0, 0xFF, 5, lsEnd - 32, 64, 1⟩ = false
    ∧ (((on.modCluster 2 fun c => { c with bcasts := [⟨16, 0xFF, 5, 0x40, 64, 1⟩] }).cluster 2).bcasts[0]?) = some ⟨16, 0xFF, 5, 0x40, 64, 1⟩ := by
  decide

theorem witness_CrierFiresAndBroadcasts_fires :
    (on.cluster 2).crier[63].firing = false ∧ pickQueue on 2 = none
    ∧ (let s := (crying 0x4001).modCore 1 fun co => { co with queues := co.queues.map fun _ => ⟨0x12, 3, 0, 0, 4, [], 1⟩ };
      (s.cluster 2).crier[63].firing = true ∧ (reserveTargets (s.cluster 2).crier[63].targets.toList s).isSome = true)
    ∧ (bits (0x4001 : Half) 14 2 : BitVec 2) = 1 ∧ ((bits (0x8FFF : Half) 14 2 : BitVec 2) = 2 ∧ (bits (0x8001 : Half) 6 6 : BitVec 6).toNat < 48) := by
  decide +kernel

/-! ### Local store and GDDR7 -/

/-- Core 16, in cluster 2 that runs, with a row of tier slice 1 waiting for repair. -/
def repairing (spent : Bool) (used : List (Nat × Nat)) : State :=
  (on.setCpwr 2 { on.cpwr 2 with mode := .run }).modCore 16 fun co =>
    { co with slices := co.slices.set 1 ⟨0, used, spent, none, [(7, 9)], []⟩ }

theorem witness_LocalStoreRepairs :
    ((repairing false []).cpwr (clusterOf 16)).mode = .run
    ∧ ((repairing false []).core 16).slices[1].repairs = (7, 9) :: [] ∧ 0 < spareRows 16 1 ((repairing false []).core 16) 7
    ∧ (∃ used : List (Nat × Nat), spareRows 16 1 ((repairing false used).core 16) 7 = 0
        ∧ ((repairing false used).core 16).slices[1].matSpent = false ∧ ((repairing true used).core 16).slices[1].matSpent = true)
    ∧ (let s := on.modCore 16 fun co => { co with retire := true };
      (s.core 16).retire = true ∧ (s.core 16).retired = false ∧ (s.cluster (clusterOf 16)).launch = none) := by
  have h0 : spareRows 16 1 ((repairing false []).core 16) 7 = 4 + Config.extraSpareRows 16 1 7 % 5 := rfl
  have h1 : spareRows 16 1 ((repairing false (List.replicate 8 (7, 1))).core 16) 7 = 4 + Config.extraSpareRows 16 1 7 % 5 - 8 := rfl
  refine ⟨by decide, by decide, by omega, ⟨List.replicate 8 (7, 1), by omega, by decide⟩, by decide⟩

theorem witness_LocalStoreRepairs_else :
    ((on.cpwr 2).mode ≠ .run ∧ (on.cpwr 2).mode ≠ .idle) ∧ ((on.core 16).slices[1].repairs = []) ∧ (on.core 16).retire = false
    ∧ on.pwr.mstate ≠ 2 ∧ (let e : Ecc := ⟨2, false, [0, 7]⟩; 7 ∈ e.bad) := by decide

/-- A module with channel 49 as given, in service. -/
def chanOf (f : Channel → Channel) : State := on.setChan 49 (f { on.chan 49 with state := 1, mapped := true })

theorem witness_Gddr7Channels :
    ([TxnOwner.none, TxnOwner.gen].all fun o =>
      let x : GReq := ⟨1, 5, false, 0, false, o, 0, 8, [], 3, 0⟩;
      let s := { chanOf (fun c => { c with burst := [x], narrow := [{ x with seq := 1 }] }) with ns := 4096 };
      chanServes s 49 && (pickGd (s.chan 49)).isSome && (s.chan 49).waiting.isEmpty && (s.chan 49).burst[0]? = some x
        && ((s.chan 49).narrow[0]?).isSome && 1 ≤ x.cls && x.at_ + 4096 ≤ s.ns) = true
    ∧ pickGd ((chanOf id).chan 49) = none
    ∧ ([(1, 2), (1, 3), (1, 4), (4, 1)].all fun y : BitVec 3 × Nat =>
      let x : GReq := ⟨1, 5, false, 0, false, .none, 0, 8, [], y.2, 0⟩;
      let s := chanOf fun c => { c with burst := [x], state := y.1 };
      (s.chan 49).state ≠ 0 && pickGd (s.chan 49) = some (false, x) && edcLimit (s.chan 49) = 4) = true
    ∧ ((chanOf id).gddr.scrubEn = true ∧ ((chanOf id).chan 49).mapped = true ∧ ((chanOf id).chan 49).state = 1
      ∧ (chanOf id).gddr.selfRefresh = false ∧ (chanOf id).pwr.mstate ≠ 2 ∧ ((chanOf id).chan 49).burst.length < 512)
    ∧ (let s := on.setGddr { on.gddr with rateTarget := some 2 };
      s.gddr.rateTarget = some 2 ∧ s.gddr.selfRefresh = false ∧ on.gddr.rateTarget = none)
    ∧ ((0x008 : Word).getLsbD 3 = true ∧ (0 : Word).getLsbD 3 = false ∧ on.boot.recovery = false) := by decide +kernel

/-- A spare channel with its traffic generator set, under debug. -/
def tgen (st : BitVec 2) (cst : BitVec 3) (addr : Dword) : State :=
  dbg.setChan 49 { dbg.chan 49 with state := cst, sr := decide (cst = 2), tg := { (dbg.chan 49).tg with state := st, mode := 2, addr := addr } }

theorem witness_Gddr7Channels_traffic :
    on.sec.dbgActive = false ∧ dbg.sec.dbgActive = true ∧ dbg.boot.recovery = false
    ∧ ((0x82 : Word).getLsbD 7 = true ∧ (0x82 : Word).getLsbD 8 = false ∧ (0x82 : Word).getLsbD 9 = false)
    ∧ ((tgen 0 2 0x100000000).chan 49).tg.state ≠ 1 ∧ tgRefused (tgen 0 2 0x100000000) ((tgen 0 2 0x100000000).chan 49) = false
    ∧ tgRefused (tgen 0 2 0) ((tgen 0 2 0).chan 49) = true
    ∧ ((0x100 : Word).getLsbD 8 = true ∧ (0x100 : Word).getLsbD 7 = false ∧ ((tgen 1 5 0).chan 49).tg.state = 1)
    ∧ ((0x200 : Word).getLsbD 9 = true ∧ (0x200 : Word).getLsbD 8 = false)
    ∧ (let c := (tgen 1 5 0).chan 49;
      c.tg.state = 1 ∧ c.tg.mode = 2 ∧ c.tg.loop = false ∧ c.tg.stopAsked = false ∧ c.state = 5 ∧ (tgen 1 5 0).gddr.rateTarget = none
        ∧ tgCountOf c.tg ≤ c.tg.visited.length ∧ (c.burst ++ c.waiting.map Prod.snd).any (fun r => r.owner = .gen) = false)
    ∧ (let c := (tgen 1 5 0x100000000).chan 49;
      c.tg.visited.length < tgCountOf c.tg ∧ tgReads c.tg = true ∧ c.tg.stopAsked = false) := by decide +kernel

/-! ### Rings and descriptors -/

/-- A descriptor: opcode, flags, SEQ, words 2 and 3, and the operands at 0x10, 0x18 and 0x20. -/
def desc (op flags seq : Nat) (w2 w3 : Word) (a b c : Dword) : DescWord :=
  BitVec.ofNat 512 (op + 2 ^ 8 * flags + 2 ^ 16 * seq + 2 ^ 64 * w2.toNat + 2 ^ 96 * w3.toNat + 2 ^ 128 * a.toNat + 2 ^ 192 * b.toNat
    + 2 ^ 256 * c.toNat)

/-- A started descriptor. -/
def started (idx : Nat) (w : DescWord) : DescCtx :=
  ⟨idx, w, true, false, 0, 0, 0, false, false, 0x1234, false, 0, 0, true, idx, 0, false, 0, [], false, [], [], []⟩

/-- A module whose ring 2 is in a state, of 16 slots, with the given started descriptors. -/
def ringOf (st : RingState) (l : List DescCtx) (f : Ring → Ring) : State :=
  on.setRing 2 (f { on.ring 2 with state := st, enable := true, log2 := 4, started := l, startIdx := l.length, fetchIdx := l.length, tail := BitVec.ofNat 32 l.length })

theorem witness_RingsAndHostInterface :
    ((0x11 : Word).getLsbD 0 = true ∧ (0x11 : Word).getLsbD 1 = false ∧ (on.ring 2).state = .disabled ∧ on.boot.recovery = false
      ∧ 4 ≤ (bits (0x11 : Word) 2 5 : BitVec 5).toNat ∧ (bits (0x0D : Word) 2 5 : BitVec 5).toNat < 4 ∧ 16 < (bits (0x45 : Word) 2 5 : BitVec 5).toNat
      ∧ (bits (0x41 : Word) 2 5 : BitVec 5).toNat ≤ 16)
    ∧ ((ringOf .bound [] id).ring 2).live = true
    ∧ (let g := (ringOf .unbound [] fun g => { g with enable := false }).ring 2;
      g.live = true ∧ g.enable = false ∧ g.fetched = [] ∧ g.started = [] ∧ g.tail = BitVec.ofNat 32 g.fetchIdx)
    ∧ (let g := (ringOf .resetting [] fun g => { g with reEnable := true }).ring 2;
      g.state = .resetting ∧ g.started = [] ∧ g.reEnable = true)
    ∧ ((ringOf .resetting [] id).ring 2).reEnable = false ∧ (on.ring 3).live = false
    ∧ (let s := { ringOf .bound [] (fun g => { g with irqHeld := true, mod_ := 63, vector := 3, lastIrq := some 1 }) with ns := 63001 };
      (s.ring 2).irqHeld = true ∧ (s.ring 2).lastIrq.getD 0 + 1000 * (s.ring 2).mod_.toNat ≤ s.ns
        ∧ (3 : Fin 512).val = (s.ring 2).vector.toNat ∧ s.pcie.entries[3].mask = true)
    ∧ (let s := on.setPcie { on.pcie with entries := on.pcie.entries.set 3 ⟨4, 9, false, true⟩ };
      s.pcie.entries[3].pend = true ∧ s.pcie.funcMask = false ∧ s.pcie.entries[3].mask = false)
    ∧ (on.evt.enable = false ∧ (0x0D : Word).getLsbD 0 = true ∧ 6 ≤ (bits (0x0D : Word) 1 5 : BitVec 5).toNat
      ∧ (bits (0x21 : Word) 1 5 : BitVec 5).toNat ≤ 16 ∧ (bits (0x0B : Word) 1 5 : BitVec 5).toNat < 6)
    ∧ (let s := { on.setEvt { on.evt with enable := true, full := true, w := 64 } with ns := 20000 };
      s.evt.enable = true ∧ s.evt.full = true ∧ s.evt.lastRead + 20000 ≤ s.ns
        ∧ 2 ^ s.evt.log2.toNat ≤ s.evt.w - (s.evt.c + ((0 : Word) - BitVec.ofNat 32 s.evt.c).toNat)
        ∧ s.evt.w - (s.evt.c + ((2 : Word) - BitVec.ofNat 32 s.evt.c).toNat) + 1 < 2 ^ s.evt.log2.toNat) := by decide +kernel

theorem witness_RingsAndHostInterface_else :
    (let s := on.setBoot { on.boot with recovery := true };
      s.boot.recovery = true ∧ (s.ring 2).state = .disabled ∧ (2 : Fin 256) ≠ 0 ∧ (0x10 : Word).getLsbD 0 = false ∧ (0x10 : Word).getLsbD 1 = false
        ∧ (0x02 : Word).getLsbD 1 = true)
    ∧ ((ringOf .bound [] id).ring 2).enable = true ∧ ((ringOf .resetting [] id).ring 2).started = [] ∧ (on.ring 2).irqHeld = false
    ∧ (let s := on.setPcie { on.pcie with entries := on.pcie.entries.set 3 ⟨4, 9, false, true⟩, funcMask := true };
      s.pcie.entries[3].pend = true ∧ s.pcie.funcMask = true)
    ∧ on.pcie.entries[3].pend = false ∧ on.evt.full = false ∧ (0 : Word).getLsbD 0 = false := by decide +kernel

theorem witness_DoorbellsAndDescriptorStarts :
    (let s := { ringOf .bound [] id with ns := 200 };
      (s.ring 2).live = true ∧ s.pwr.mstate = 0 ∧ (s.ring 2).outstanding = 0
        ∧ (s.ring 2).lastRead + (lineRings s 2).foldl (fun a x => min a (s.ring x).interval) (s.ring 2).interval ≤ s.ns)
    ∧ (let g := (ringOf .unbound [] fun g => { g with outstanding := 1 }).ring 2;
      g.live = true ∧ g.outstanding ≠ 0 ∧ g.epochTaken = false ∧ ((bits (0x900000010 : Dword) 0 32 : Word) - g.head).toNat ≤ g.size)
    ∧ (let g := (ringOf .bound [] fun g => { g with outstanding := 1, epochTaken := true, epoch := 8 }).ring 2;
      g.epochTaken = true ∧ (bits (0x900000010 : Dword) 32 16 : Half) ≠ g.epoch ∧ (bits (0x800000011 : Dword) 32 16 : Half) = g.epoch
        ∧ g.size < ((bits (0x800000011 : Dword) 0 32 : Word) - g.head).toNat)
    ∧ (let g := (ringOf .bound [] fun g => { g with tail := 16 }).ring 2;
      g.live = true ∧ min (min 16 16) (min (g.tail - BitVec.ofNat 32 g.fetchIdx).toNat (g.size - g.fetchIdx % g.size)) = 16)
    ∧ (let s := { ringOf .bound [] (fun g => { g with ableSince := some 1 }) with ns := 50001 };
      (s.ring 2).ableSince = some 1 ∧ 1 + 50000 ≤ s.ns) := by decide +kernel

theorem witness_DoorbellsAndDescriptorStarts_start :
    (let w := desc 0x01 0 0 0 0 0 0 0;
      let s := ringOf .bound [] fun g => { g with fetched := [w] };
      (s.ring 2).fetched = w :: [] ∧ engineOpen s = true ∧ (s.ring 2).live = true ∧ s.boot.recovery = false
        ∧ (s.ring 2).state ≠ .halted ∧ pickRing s = some 2 ∧ contextsUsed s < 1024 ∧ (startFault s 2 w).isSome = true)
    ∧ (let w := BitVec.ofNat 512 (0x01 + 2 ^ 32 * 7);
      let s0 := ringOf .bound [] fun g => { g with fetched := [w], tag := some 7 };
      let s := s0.setSec { s0.sec with sessions := [⟨0, 7, 31⟩] };
      startFault s 2 w = none)
    ∧ (let w := desc 0x01 0 0 0 0 0 0 0;
      let s := ringOf .halted [] fun g => { g with fetched := [w] };
      (s.ring 2).state = .halted ∧ dCont w = false ∧ clearing (s.ring 2) = false)
    ∧ dCont (desc 0x02 2 0 0 0 0 0 0) = true := by decide +kernel

theorem witness_DoorbellsAndDescriptorStarts_else :
    (on.ring 2).live = false ∧ (on.ring 2).outstanding = 0 ∧ (on.ring 2).fetched = [] ∧ (on.ring 2).ableSince = none
    ∧ (let w := desc 0x01 0 0 0 0 0 0 0;
      let s := ringOf .halted [{ started 0 (desc 0x02 2 0 0 0 0 0 0) with run := true }] fun g => { g with fetched := [w] };
      engineOpen s = true ∧ dCont w = false ∧ clearing (s.ring 2) = true)
    ∧ (let w := desc 0x01 0 0 0 0 0 0 0;
      let s0 := ringOf .bound [] fun g => { g with fetched := [w] };
      let s := s0.setRing 3 { s0.ring 2 with urgent := true };
      (s.ring 2).state ≠ .halted ∧ pickRing s ≠ some 2)
    ∧ (let s := { ringOf .bound (List.replicate 1024 (started 0 0)) (fun g => { g with ableSince := some 1 }) with ns := 50001 };
      1024 ≤ contextsUsed s) := by decide +kernel

theorem witness_DescriptorsEndWithRecords :
    ((ringOf .bound [] id).ring 2).state ≠ .resetting ∧ ((ringOf .resetting [] id).ring 2).state = .resetting
    ∧ (let c := { started 0 (desc 0x01 0 0 0 0 0 0 0) with run := false, done := true, status := 0x30 };
      let s := ringOf .bound [c] id;
      (s.ring 2).started = c :: [] ∧ c.done = true ∧ (s.ring 2).live = true ∧ c.corr = 0 ∧ s.evt.enable = false ∧ s.host.wf = true) := by
  decide +kernel

theorem witness_DescriptorsEndWithRecords_else :
    (on.ring 2).started = [] ∧ (started 0 0).done = false
    ∧ (let c := { started 0 0 with corr := 0x10000 };
      c.status = 0x00 ∧ c.corr ≠ 0) := by decide

/-- Ring 2 with one started descriptor. -/
def one (w : DescWord) : State := ringOf .bound [started 0 w] id

theorem witness_NopFenceTimeMarkCopyAndFill :
    descAt (one (desc 0x01 0 0 0 0 0 0 0)) 2 0 0x01 = some (started 0 (desc 0x01 0 0 0 0 0 0 0))
    ∧ (descAt (one (desc 0x71 0 0 0 0 0 0 0)) 2 0 0x71).isSome = true
    ∧ (let w := desc 0x02 2 0 1 0 0 0 0;
      let s := ringOf .halted [started 0 w] id;
      descAt s 2 0 0x02 = some (started 0 w) ∧ bits (dW2 w) 0 2 ≠ (3 : BitVec 2) ∧ fenceWaits s 2 (started 0 w) = false
        ∧ dCont w = true ∧ (s.ring 2).state = .halted)
    ∧ (let w := desc 0x02 0 1 0 0 0 0 0;
      let s := ringOf .bound [started 0 (desc 0x01 0 0 0 0 0 0 0), started 1 w] id;
      descAt s 2 1 0x02 = some (started 1 w) ∧ fenceWaits s 2 (started 1 w) = true ∧ dCont w = false)
    ∧ bits (dW2 (desc 0x02 0 0 3 0 0 0 0)) 0 2 = (3 : BitVec 2) := by decide +kernel

/-- The same with its memory trained, every PHY good. -/
def trained (s : State) : State := s.setGddr (trainMemory [] s).gddr

theorem witness_NopFenceTimeMarkCopyAndFill_moves :
    (let w := desc 0x10 0 0 0 0 0x3000000000000100 0x1000000000000040 64;
      let s := { one w with gddr := { on.gddr with activeCh := 48 } };
      let s1 := askDesc 2 (started 0 w) 0 (askMove (.desc 2 0) 2 (.host 0x100) (.gddr 0x40) 64) s;
      (descAt s 2 0 0x10).isSome = true ∧ (dW2 w).getLsbD 0 = false ∧ copyByteFault s w = none ∧ (dQ w 0x20).toNat = 64
        ∧ placeOf s (dQ w 0x10) = .host 0x100 ∧ placeOf s (dQ w 0x18) = .gddr 0x40 ∧ asking s1 (.desc 2 0) = false
        ∧ s.gddr.failedCh = 0 ∧ s.gddr.mem.wf = true)
    ∧ ([0, 1].all fun n =>
      let w := desc 0x10 0 0 0 0 0x1000000000000040 0x3000000000000100 64;
      let c := { started 0 w with asked := n };
      let s := trained (ringOf .bound [c] id);
      let s1 := askDesc 2 c 0 (askMove (.desc 2 0) 2 (.gddr 0x40) (.host 0x100) 64) s;
      copyByteFault s w = none && placeOf s (dQ w 0x10) = .gddr 0x40 && placeOf s (dQ w 0x18) = .host 0x100 && s.host.wf
        && asking s1 (.desc 2 0) = decide (n = 0)) = true
    ∧ (let w := desc 0x10 0 0 0 0 0x1000000000000000 0x3000000000000100 64;
      bits (dW2 w) 1 4 = (0 : BitVec 4) ∧ opFault (one w) (dQ w 0x10) 64 0x10 = some (0x30, 0x10) ∧ opFault (one w) (dQ w 0x18) 64 0x18 = none)
    ∧ (let w := desc 0x12 0 0 0 0 0x3000000000000100 0x1122334455667788 64;
      (descAt (one w) 2 0 0x12).isSome = true ∧ fillFault (one w) w = none ∧ placeOf (one w) (dQ w 0x10) = .host 0x100)
    ∧ (let w := desc 0x12 0 0 0 0 0x3000000000000100 0 65;
      opFault (one w) (dQ w 0x10) 65 0x10 = none ∧ (dQ w 0x20).toNat % 8 ≠ 0)
    ∧ (dW2 (desc 0x10 0 0 1 0 0 0 0)).getLsbD 0 = true
    ∧ ([0x01, 0x02, 0x71, 0x10, 0x12].all fun op => (descAt on 2 0 op).isNone) = true := by decide +kernel

/-! ### Programs and launches -/

/-- An image of one section, four bytes of instruction memory, with handle 0x77 and entry 8 (R144, R145), at host address 0x1000. -/
def imageMem : Memory := Memory.putLE [] 0x1000 100
  0x12345670000000000000000000000000000000000000004000000600000000000000001000000000000000000000000000000000000000000000000000000000000000000000000000000081D64D60B0000007700000000000000640001000150324B56

/-- Ring 2 with a started PROGRAM_LOAD of a length onto cluster 2. -/
def loading (len : Word) : State := { one (desc 0x20 0 0 len 0 0x3000000000001000 4 0) with host := imageMem }

/-- Cluster 2 loaded with the image of handle 0x77. -/
def loaded (s : State) : State := s.modCluster 2 fun c => { c with loaded := true, handle := 0x77, entry := 8 }

/-- A launch of cluster 2, numbered 5. -/
def aLaunch : Launch where
  id := 5
  ring := 2
  idx := 0
  handle := 0x77
  mask := 4
  seed := 0
  arg := 9
  timeout := 1
  start := 0
  ended := []
  recipe := none
  phase := 0
  abortAt := none
  retaining := true
  replayed := false
  exposed := false
  failed := none

/-- Cluster 2 running that launch, in an operation. -/
def launched (l : Launch) (f : Cluster → Cluster) : State :=
  ({ one (desc 0x21 0 0 0x77 9 4 0 0) with launches := [l], ns := 1000000 } : State).modCluster 2 fun c => f { c with loaded := true, handle := 0x77, entry := 8, launch := some 5 }

set_option maxRecDepth 100000 in
theorem witness_ProgramsAndLaunches :
    (let s := loading 100;
      let w := desc 0x20 0 0 100 0 0x3000000000001000 4 0;
      let m : BitVec 48 := bits (dQ w 0x18) 0 48;
      let s1 := askDesc 2 (started 0 w) 0 (acceptAt (.desc 2 0) 2 false (placeOf s (dQ w 0x10)) 100) s;
      descAt s 2 0 0x20 = some (started 0 w) ∧ (dW2 w).toNat = 100 ∧ maskBusy s m = false ∧ programFault s w = none
        ∧ asking s1 (.desc 2 0) = false ∧ placeOf s (dQ w 0x10) = .host 0x1000) := by decide +kernel

theorem witness_ProgramsAndLaunches_refused :
    imageOk (plain (readPlace (loading 99) (.host 0x1000) 99)) 99 = false
    ∧ (worst [maskOut (loading 99) 4, recordFault (loading 99) 0x3000000000001000 99 0x10] = none)
    ∧ (let s := (loading 100).setHost (imageMem.putLE 0x100C 4 1);
      s.sec.feature.toNat < fieldAt (plain (readPlace s (.host 0x1000) 100)) 0x0C 4)
    ∧ maskOut ((loading 100).modCluster 2 fun c => { c with inService := false }) 4 = some (0x51, 2)
    ∧ maskBusy ((loading 100).modCluster 2 fun c => { c with launch := some 1 }) 4 = true := by decide +kernel

theorem witness_ProgramsAndLaunches_launch :
    (let w := desc 0x21 0 0 0x77 9 4 0 0;
      let s := loaded (one w);
      let m : BitVec 48 := bits (dQ w 0x10) 0 48;
      descAt s 2 0 0x21 = some (started 0 w) ∧ m = 4 ∧ maskBusy s m = false ∧ launchWaits s 0 m = false ∧ launchWaits s 1 m = true
        ∧ worst [maskOut s m, retiredIn s m fun cl => (s.cluster cl).imgCores,
          failIf ((maskList m).any fun cl => !(s.cluster cl).loaded || (s.cluster cl).handle ≠ dW2 w) 0x30 8,
          failIf (!pairsOk s m) 0x30 0x8000] = none
        ∧ failIf ((maskList m).any fun cl => !((one w).cluster cl).loaded) 0x30 8 = some (0x30, 8))
    ∧ (let s := launched aLaunch id;
      s.launches[0]? = some aLaunch ∧ aLaunch.timeout ≠ 0 ∧ aLaunch.abortAt = none
        ∧ aLaunch.start + 1000000 * aLaunch.timeout.toNat ≤ s.ns ∧ (s.cluster 2).launch = some aLaunch.id ∧ (s.cluster 2).ending = none) := by
  decide +kernel

theorem witness_ProgramsAndLaunches_ends :
    (let x := { aLaunch with abortAt := some 0 };
      let s := launched x id;
      s.launches[0]? = some x ∧ x.abortAt = some 0 ∧ 0 + 1000000 ≤ s.ns ∧ (s.cluster 2).launch = some x.id ∧ (s.cluster 2).ending = none)
    ∧ (let s := launched aLaunch fun c => { c with ending := some 0 };
      (s.cluster 2).ending = some 0 ∧ launchOf s 2 = some aLaunch ∧ aLaunch.phase ≠ 2 ∧ drained s 2 = true)
    ∧ (let x := { aLaunch with ended := [(2, 0x40)] };
      maskList x.mask = [2] ∧ ∃ e ∈ x.ended, e.1 = 2)
    ∧ (let x := { aLaunch with phase := 2 };
      let s := launched x id;
      s.launches[0]? = some x ∧ x.phase = 2 ∧ (∀ cl ∈ maskList x.mask, drained s cl = true) ∧ mayReplay s x = true)
    ∧ (let x := { aLaunch with phase := 2, replayed := true };
      mayReplay (launched x id) x = false) := by decide +kernel

theorem witness_ProgramsAndLaunches_else :
    on.launches[0]? = none ∧ (descAt on 2 0 0x20).isNone = true ∧ (descAt on 2 0 0x21).isNone = true
    ∧ (launched { aLaunch with timeout := 0 } id).launches[0]? = some { aLaunch with timeout := 0 } ∧ aLaunch.abortAt = none
    ∧ (on.cluster 2).ending = none ∧ aLaunch.phase ≠ 2
    ∧ (let x := { aLaunch with phase := 1, ended := [(2, 0)], recipe := some 0, abortAt := some 0, failed := some (0x10, 1) };
      x.abortAt ≠ none ∧ x.recipe ≠ none ∧ ∀ e ∈ x.ended, e.2 ≤ (launchResult x).1) := by decide +kernel

/-! ### Tensors, collectives, norms, updates -/

/-- Host memory with tensor descriptors of 1,024 elements at 0x2000 (VW32 at GDDR7 0x1000), 0x2400 (VW32 at 0x2000), 0x2800 (VF8 at
0x4000 with scales at 0x5000) and 0x3C00 (512 of VW32), one of a reserved format at 0x3800, a group record at 0x2C00 and a list that
names the first tensor at 0x3000 (R180, R181, R348). -/
def records : Memory :=
  Memory.putLE (Memory.putLE (Memory.putLE (Memory.putLE (Memory.putLE (Memory.putLE (Memory.putLE ([]) 0x2000 66
    0x40000000000000000000000000000000000000000000000000000000000000000000000000000001000000000000000000000000000000000FF0000000000000401) 0x2400 66
    0x40000000000000000000000000000000000000000000000000000000000000000000000000000002000000000000000000000000000000000FF0000000000000401) 0x2800 66
    0x40000000000000000000000000000000000000000000000000000000000000050000000000000004000000000000000000000000000000000FF0000000000000201) 0x2C00 11
    0x100000000020050474B56) 0x3000 8
    0x3000000000002000) 0x3800 66
    0x40000000000000000000000000000000000000000000000000000000000000000000000000000000400000000000000000000000000000000FF0000000000000901) 0x3C00 66
    0x20000000000000000000000000000000000000000000000000000000000000000000000000000006000000000000000000000000000000000FF0000000000000401

/-- Ring 2 with one started descriptor on a bound module with those records and 48 channels. -/
def tens (w : DescWord) : State :=
  { one w with
    host := records
    gddr := { on.gddr with activeCh := 48, mem := Memory.putLE [] 0x1000 4 0x40490FDB }
    mach := { on.mach with bound := true } }

theorem witness_GatherTensorStateAndDiag :
    (let w := desc 0x11 0 0 1 0 0x3000000000003400 0x3000000000005000 0;
      let c := { started 0 w with asked := 2 };
      let s := { tens w with host := Memory.putLE records 0x3400 8 0x1000000000001000 }.setRing 2 { (one w).ring 2 with started := [c] };
      descAt s 2 0 0x11 = some c ∧ gatherFault s w = none ∧ c.asked = 2 ∧ asking s (.desc 2 0) = false
        ∧ placeOf s (dQ w 0x10) = .host 0x3400 ∧ placeOf s (dQ w 0x18) = .host 0x5000
        ∧ rowFault s (BitVec.ofNat 64 (s.host.getLE 0x3400 8)) = none
        ∧ placeOf s (BitVec.ofNat 64 (s.host.getLE 0x3400 8)) = .gddr 0x1000 ∧ s.host.wf = true)
    ∧ (gatherFault (tens 0) (desc 0x11 0 0 0 0 0x3000000000003400 0x3000000000005000 0)).isSome = true
    ∧ ([0x3000000000001000, 0x1000000000001001].all fun d : Dword => (rowFault (tens 0) d).isSome) = true
    ∧ (let w := desc 0x51 0 0 0 0 0x3000000000005000 0 0;
      (descAt (tens w) 2 0 0x51).isSome = true ∧ stateFault (tens w) w = none ∧ placeOf (tens w) (dQ w 0x10) = .host 0x5000
        ∧ (started 0 w).snap = [])
    ∧ (let w := desc 0x51 0 0 4 0 0x3000000000005000 0 0;
      stateFault (tens w) w = some (0x30, 8))
    ∧ (let w := desc 0x70 0 0 1 5 0x3000000000005000 0x0000010000000100 0;
      (descAt (tens w) 2 0 0x70).isSome = true ∧ diagFault (tens w) w = none ∧ bits (dW2 w) 0 8 = (1 : Byte)
        ∧ placeOf (tens w) (dQ w 0x10) = .host 0x5000 ∧ asking (tens w) (.desc 2 0) = false)
    ∧ (let w := desc 0x70 0 0 0 383 0x3000000000005000 0x0000010000000100 0;
      diagFault (tens w) w = none ∧ bits (dW2 w) 0 8 = (0 : Byte))
    ∧ (let w := desc 0x70 0 0 0 384 0x3000000000005000 0x0000010000000100 0;
      diagFault (tens w) w = some (0x30, 0x0C) ∧ bits (dW2 w) 0 8 = (0 : Byte)) := by decide +kernel

theorem witness_GatherTensorStateAndDiag_tensors :
    ([0x3000000000002400, 0x3000000000003C00].all fun d =>
      let w := desc 0x10 0 0 1 0 0x3000000000002000 d 0;
      let s := tens w;
      let c := started 0 w;
      let a := c.td s (dQ w 0x10);
      let b := c.td s (dQ w 0x18);
      (descAt s 2 0 0x10).isSome && (dW2 w).getLsbD 0
        && (worst [failIf ((bits (dW2 w) 2 2 : BitVec 2).toNat = 3) 0x30 8, tensorFaultOf s a (dQ w 0x10) 0x10 false false,
            tensorFaultOf s b (dQ w 0x18) 0x18 true false, failIf (dQ w 0x20 ≠ 0) 0x30 0x20]).isNone
        && decide (a.exts s.mach.logical = b.exts s.mach.logical) = decide (d = 0x3000000000002400)
        && !(b.exts s.mach.logical).contains 0 && !asking s (.desc 2 0)) = true
    ∧ tensorFault (tens 0) 0x3000000000003800 0x10 false false = some (0x30, 0x8000)
    ∧ placeOf (tens 0) 0x3000000000005000 = .host 0x5000 ∧ placeOf (tens 0) 0x2000510000001000 = .remote 5 0x10000001000
    ∧ (started 0 0).staged = false ∧ descWaits (tens 0) 2 0 = false := by decide +kernel

theorem witness_ShardsAreDigestedExportedAndImported :
    (let w := desc 0x42 0 0 1 0 0x3000000000002000 0x3000000000005000 0;
      (descAt (tens w) 2 0 0x42).isSome = true ∧ digestFault (tens w) (started 0 w) = none ∧ placeOf (tens w) (dQ w 0x18) = .host 0x5000
        ∧ asking (tens w) (.desc 2 0) = false)
    ∧ ([(4191, false), (4192, true)].all fun x : Nat × Bool =>
      let w := desc 0x43 0 0 0 0 0x3000000000002000 0x3000000000005000 (BitVec.ofNat 64 x.1);
      (descAt (tens w) 2 0 0x43).isSome && decide ((exportFault (tens w) (started 0 w)) = none) = x.2
        && tensorFaultOf (tens w) ((started 0 w).td (tens w) (dQ w 0x10)) (dQ w 0x10) 0x10 false false = none) = true
    ∧ tensorFault (tens 0) 0x3000000000003800 0x10 false false = some (0x30, 0x8000)
    ∧ (let w := desc 0x44 0 0 0 0 0x3000000000005000 0x3000000000002400 96;
      let s := tens w;
      (descAt s 2 0 0x44).isSome = true ∧ placeOf s (dQ w 0x10) = .host 0x5000
        ∧ importFault s (started 0 w) = none ∧ recordOk (readPlace s (.host 0x5000) 96) (tdOf s (dQ w 0x18)) 0 = false)
    ∧ ([0x42, 0x43, 0x44].all fun op => (descAt on 2 0 op).isNone) = true := by decide +kernel

-- a record of 32 elements of zeros passes the checks of R394
theorem witness_ShardsAreDigestedExportedAndImported_record :
    (let t0 := tdOf (tens 0) 0x3000000000002000;
      let t := { t0 with dims := t0.dims.map fun d => { d with extent := 32 } };
      let bs : List MByte := List.replicate 128 (0, false);
      recordOk (((recordHead t 0 128 0 (shardDigest bs)).map fun b => (b, false)) ++ bs) t 0 = true) := by decide +kernel

/-- A COLLECTIVE of a kind in wire format VF16, group 7, with its operands, group record and PEER. -/
def coll (kind : Nat) (src dst : Dword) (peer : Nat) : DescWord :=
  desc 0x30 0 0 (BitVec.ofNat 32 (kind + 32)) 7 src dst 0x3000000000002C00 ||| BitVec.ofNat 512 (2 ^ 320 * peer)

theorem witness_CollectivesStartAndTimeOut :
    ([(0, coll 0 0x3000000000002000 0x3000000000002400 0), (1, coll 1 0x3000000000002000 0x3000000000003C00 0),
      (2, coll 2 0x3000000000003C00 0x3000000000002400 0), (3, coll 3 0x3000000000002000 0x3000000000002400 0),
      (4, coll 4 0x3000000000002000 0 1), (5, coll 5 0 0x3000000000002400 1)].all fun x : Nat × DescWord =>
        (descAt (tens x.2) 2 0 0x30).isSome && (bits (dW2 x.2) 0 4 : BitVec 4).toNat = x.1
          && collFault (tens x.2) (started 0 x.2) x.1 = none && !earlierStep (tens x.2) (started 0 x.2)
          && !asking (tens x.2) (.desc 2 0)) = true
    ∧ groupAt on 7 = none := by
  decide +kernel

theorem witness_CollectivesStartAndTimeOut_faults :
    (let w := coll 0 0x3000000000003800 0x3000000000002400 0;
      collFault (tens w) (started 0 w) 0 = some (0x30, 0x8000) ∧ earlierStep (tens w) (started 0 w) = false)
    ∧ (let w := desc 0x31 0 0 0 7 0x3000000000002C00 0 0;
      (descAt (tens w) 2 0 0x31).isSome = true ∧ groupFault (tens w) (dQ w 0x10) 0x10 false 0 = none
        ∧ (((tens w).ring 2).started.all fun d => 0 ≤ d.idx || d.effects) = true)
    ∧ groupFault (tens 0) 0x3000000000002000 0x10 false 0 = some (0x31, 1)
    ∧ (let w := desc 0x31 0 0 0 7 0x3000000000002C00 0 0;
      earlierStep (tens w) { started 1 w with order := 1 } = true
        ∧ (((tens w).ring 2).started.all fun d => 1 ≤ d.idx || d.effects) = false)
    ∧ (descAt on 2 0 0x30).isNone = true ∧ (descAt on 2 0 0x31).isNone = true := by decide +kernel

/-- A step of group 7 in its opening, silent since 0. -/
def aStep : CollStep where
  ring := 2
  idx := 0
  gid := 7
  n := 1
  kind := 6
  wire := 0
  finalWide := false
  form := 0
  members := [0, 1]
  rank := 0
  dims := [0]
  root := 0
  peer := 0
  seed := 0
  timeout := 1
  last := false
  recCrc := 0
  total := 0
  src := none
  dst := none
  phase := 1
  openAt := 0
  closeAt := 0
  okBit := true
  vals := []
  units := []
  heard := 0
  poisoned := 0
  carried := false
  tag := 0

/-- A norm reduction of NORM_ID 7 with member 1, silent since 0. -/
def aRun : NormRun where
  ring := 2
  idx := 0
  id := 7
  n := 1
  maxNorm := 0x3F800000
  form := 0
  members := [0, 1]
  rank := 0
  dims := [0]
  timeout := 1
  acc := 0
  round := 0
  heard := 0
  poisoned := 0
  tag := 0

theorem witness_CollectivesStartAndTimeOut_silent :
    (let s := { on.setColl { on.coll with groups := [⟨7, 1, [aStep]⟩], runs := [aRun] } with ns := 1000000 };
      s.coll.groups[0]? = some ⟨7, 1, aStep :: []⟩ ∧ aStep.phase ≠ 0 ∧ aStep.heard + 1000000 * aStep.timeout ≤ s.ns
        ∧ on.ns < aStep.heard + 1000000 * aStep.timeout ∧ s.coll.runs[0]? = some aRun ∧ aRun.heard + 1000000 * aRun.timeout ≤ s.ns
        ∧ (groupAt s 7).isSome = true)
    ∧ (let s := on.setColl { on.coll with groups := [⟨7, 1, []⟩] };
      s.coll.groups[0]? = some ⟨7, 1, []⟩ ∧ s.coll.runs[0]? = none) := by
  decide

/-- A NORM_REDUCE of NORM_ID 7 over the first tensor. -/
def normWord : DescWord := desc 0x41 0 0 1 7 0x3000000000003000 0x3000000000002C00 0

theorem witness_NormsAndUpdatesStart :
    (descAt (tens normWord) 2 0 0x41).isSome = true ∧ normFault (tens normWord) (started 0 normWord) = none
    ∧ (normTensors (tens normWord) (started 0 normWord)).map Prod.fst = [0x3000000000002000]
    ∧ pendingScatter (tens normWord) 2 0 0x3000000000002000 = none ∧ (started 0 normWord).staged = false
    ∧ asking (tens normWord) (.desc 2 0) = false
    ∧ (∀ x ∈ (tens normWord).coll.runs, x.id ≠ 7) ∧ (markNorm 7 (tens normWord)).isSome = true
    ∧ markNorm 7 (on.setColl { on.coll with norms := List.replicate 64 ⟨5, 0, 0, 0, 0⟩ }) = none
    ∧ normFault (tens normWord) (started 0 (desc 0x41 0 0 0 7 0x3000000000003000 0x3000000000002C00 0)) = some (0x30, 8)
    ∧ (let w := coll 1 0x3000000000002400 0x3000000000002000 0;
      let s := ringOf .bound [started 0 w, started 1 normWord] id;
      (pendingScatter s 2 1 0x3000000000002000).isSome = true ∧ gradReady s 2 1 0x3000000000002000 0 1024 = false)
    ∧ (descAt on 2 0 0x41).isNone = true ∧ (descAt on 2 0 0x40).isNone = true ∧ (on.ring 2).started[0]? = none := by decide +kernel

/-- An UPDATE_STEP of a rule over the three tensors, whose HYPER record is zeros; it waits for NORM_ID 7 where bit 9 is set. -/
def upd (rule : Word) (master : Dword) : DescWord :=
  desc 0x40 0 0 rule 7 master 0 0x3000000000002400 ||| BitVec.ofNat 512 (2 ^ 320 * 0x3000000000002800 + 2 ^ 384 * 0x3000000000004000)

theorem witness_NormsAndUpdatesStart_updates :
    (let w := upd 0x200 0x3000000000002000;
      let s := tens w;
      let s1 := s.setColl { s.coll with norms := [norm 1] };
      descAt s 2 0 0x40 = some (started 0 w) ∧ updateFault s (started 0 w) = none ∧ 0 ∉ (tdOf s (dQ w 0x10)).exts s.mach.logical
        ∧ (dW2 w).getLsbD 9 = true ∧ (∀ e ∈ s.coll.norms, e.id = dW3 w → e.status = 0)
        ∧ s1.coll.norms.find? (fun e => e.id = dW3 w && e.status ≠ 0) = some (norm 1) ∧ (norm 1).status = 1
        ∧ (vwNum (norm 1).factor).isPoison = false)
    ∧ (dW2 (upd 0 0x3000000000002000)).getLsbD 9 = false
    ∧ updateFault (tens (upd 0 0x3000000000003800)) (started 0 (upd 0 0x3000000000003800)) = some (0x30, 0x8000) := by decide +kernel

/-- An update under way, that waits for NORM_ID 7 or not. -/
def anUpd (wait : Bool) (rule : Nat) : UpdateCtx where
  ring := 2
  idx := 0
  rule := rule
  decayOn := false
  clip := none
  waitNorm := wait
  normId := 7
  since := 0
  step := 1
  hyper := ⟨0, 0, 0, 0, 0, 0, 0, 0, 0, 0, 0, 0⟩
  master := tdOf (tens 0) 0x3000000000002000
  stateT := none
  grad := tdOf (tens 0) 0x3000000000002400
  compute := tdOf (tens 0) 0x3000000000002800
  gradTd := 0x3000000000002400
  runsLeft := [0]
  asked := []
  stats := none
  satCnt := 0
  ufzCnt := 0
  edgeCnt := 0
  blockCnt := 0
  badSectors := []
  skipped := false
  trig := none

theorem witness_NormsAndUpdatesStart_runs :
    ([(true, 0), (false, 0), (false, 3)].all fun x : Bool × Nat =>
      let s := { (tens (upd 0 0)).setColl { on.coll with upds := [anUpd x.1 x.2] } with ns := 100000000 };
      updOf s 2 0 = some (anUpd x.1 x.2) && (anUpd x.1 x.2).since + 100000000 ≤ s.ns && (anUpd x.1 x.2).runsLeft.contains 0
        && runInTurn (anUpd x.1 x.2) ((anUpd x.1 x.2).master.exts s.mach.logical) 0 && !asking s (.desc 2 0)
        && (anUpd x.1 x.2).stats = none && (pendingScatter s 2 0 (anUpd x.1 x.2).gradTd).isNone && s.coll.norms.isEmpty
        && ((s.ring 2).started[0]?).isSome) = true := by decide +kernel

/-- The same three kinds of tensor, sharded so that module 1 holds nothing of them (R186). -/
def emptyShards (w : DescWord) : State :=
  let f (a : Nat) (v : Nat) (m : Memory) : Memory := m.putLE (a + 0x40) 8 v;
  { tens w with
    host := f 0x2000 0x0001000100000010 (f 0x2400 0x0001000100000010 (f 0x2800 0x0001000100000010 records))
    mach := { on.mach with bound := true, logical := 1 } }

theorem witness_NormsAndUpdatesStart_empty :
    (let w := upd 0 0x3000000000002000;
      updateFault (emptyShards w) (started 0 w) = none ∧ 0 ∈ (tdOf (emptyShards w) (dQ w 0x10)).exts 1)
    ∧ (let w := desc 0x10 0 0 1 0 0x3000000000002000 0x3000000000002400 0;
      let s := emptyShards w;
      worst [tensorFault s (dQ w 0x10) 0x10 false false, tensorFault s (dQ w 0x18) 0x18 true false] = none
        ∧ (tdOf s (dQ w 0x10)).exts 1 = (tdOf s (dQ w 0x18)).exts 1 ∧ ((tdOf s (dQ w 0x18)).exts 1).contains 0 = true) := by decide +kernel

/-! ### Sessions, debug, firmware, provisioning, SPDM -/

/-- A module whose key slot 7 is valid and whose nonce window 0, with tag 0x0010, is live. -/
def keyed (w : DescWord) : State :=
  (one w).setSec
    { on.sec with
      owned := true
      slots := on.sec.slots.set 7 ⟨true, List.replicate 32 0x5A, 0x1F⟩
      nonces := on.sec.nonces.set 0 ⟨0, 0x0010, true, 0⟩ }

/-- SESSION_OPEN with slot 7, a nonce tag and a proof in bytes 0x10 to 0x3F. -/
def opening (slot : Word) (tag : Word) (proof : Nat) : DescWord := BitVec.ofNat 512 (0x08 + 2 ^ 64 * slot.toNat + 2 ^ 96 * tag.toNat + 2 ^ 128 * proof)

/-- The HMAC-SHA-384 of "VK2SESS1", 32 zero bytes, 0x0010, ring 2, epoch 0, slot 7 and 0 under that key, by an independent
implementation (R298). -/
def goodProof : Nat :=
  0x5D33727AA183A9600542433555196EA7154DF62441F5B934C2B69695DEF957D1196F1C27A68848E52C41294E0F1E1744

theorem witness_SessionsOpenAndClose_proof :
    hmac384 (List.replicate 32 0x5A) (proofMessage 0 0x0010 2 0 7) = leBytes (bits (opening 7 0x0010 goodProof) 128 384 : BitVec 384).toNat 48 := by
  decide +kernel

theorem witness_SessionsOpenAndClose :
    (let c := started 0 (opening 7 0x0010 goodProof);
      let s := keyed c.word;
      descAt s 2 0 0x08 = some c ∧ earlierRuns s [0x08] c = false ∧ lockedOut s = false ∧ (ix 8 (bits (dW2 c.word) 0 3 : BitVec 3).toNat : Fin 8) = 7
        ∧ bits (dW3 c.word) 0 16 = (0x0010 : Half) ∧ s.sec.slots[7].valid = true
        ∧ s.sec.nonces.toList.find? (fun x => nonceLive s x && x.tag = 0x0010) = some ⟨0, 0x0010, true, 0⟩
        ∧ s.sec.slots[7].key = List.replicate 32 0x5A ∧ (s.ring 2).epoch = 0)
    ∧ (let s := keyed (opening 0 0x0010 0);
      s.sec.slots[0].valid = false)
    ∧ (let s := keyed (opening 7 0x0011 0);
      s.sec.nonces.toList.find? (fun x => nonceLive s x && x.tag = 0x0011) = none)
    ∧ lockedOut (on.setSec { on.sec with lockUntil := some 1 }) = true := by decide +kernel

theorem witness_SessionsOpenAndClose_wrong :
    hmac384 (List.replicate 32 0x5A) (proofMessage 0 0x0010 2 0 7) ≠ leBytes (bits (opening 7 0x0010 0) 128 384 : BitVec 384).toNat 48 := by
  decide +kernel

/-- Ring 2, and ring 3 where said, bound to session 9, idle for 10 s. -/
def sessioned (two : Bool) (w : DescWord) : State :=
  let s := ringOf .bound (if w = 0 then [] else [started 0 w]) fun g => { g with tag := some 9 };
  let s1 := s.setRing 3 { s.ring 3 with tag := if two then some 9 else none };
  { s1 with sec := { on.sec with sessions := [⟨7, 9, 31⟩] }, ns := 10000000000 }

theorem witness_SessionsOpenAndClose_ends :
    (on.sec.nonces[15].live = false ∧ (let s := { keyed 0 with ns := 10000000000 };
      s.sec.nonces[0].live = true ∧ s.sec.nonces[0].at_ + 10000000000 ≤ s.ns))
    ∧ (descAt (sessioned true (desc 0x09 0 0 0 0 0 0 0)) 2 0 0x09).isSome = true
    ∧ ((sessioned true 0).ring 2).tag = some 9 ∧ ((sessioned true 0).ring 3).tag = some 9
    ∧ (∀ r : Fin 256, r ≠ 2 → ((sessioned false 0).ring r).tag ≠ some 9)
    ∧ (let s := sessioned false 0;
      (s.ring 2).tag.isSome = true ∧ (s.ring 2).fetched = [] ∧ (s.ring 2).started = [] ∧ (s.ring 2).activeAt + 10000000000 ≤ s.ns
        ∧ s.pwr.mstate = 0)
    ∧ (let s := on.setSec { on.sec with lockUntil := some 0 };
      s.sec.lockUntil = some 0 ∧ 0 ≤ s.ns)
    ∧ (on.sec.lockUntil = none ∧ (on.ring 2).tag = none ∧ (descAt on 2 0 0x08).isNone = true ∧ (descAt on 2 0 0x09).isNone = true)
    ∧ (let w := opening 7 0 0;
      let s := ringOf .bound [started 0 w, { started 1 w with order := 1 }] id;
      (descAt s 2 1 0x08).isSome = true ∧ earlierRuns s [0x08] { started 1 w with order := 1 } = true)
    ∧ (started 0 0).snap ≠ [1] := by decide +kernel

/-- A flash image whose manifest has the right shape. -/
def manifest : Memory := Memory.putLE [] 0 16 0x00001000000000000000000046574B56

theorem witness_DebugAndFirmware :
    (let s := sessioned false 0;
      s.sec.sessions.find? (fun y => y.tag = (bits (0x10009 : Word) 0 16 : Half) && y.rights.getLsbD 3) = some ⟨7, 9, 31⟩
        ∧ (0x10009 : Word).getLsbD 16 = true ∧ s.sec.debugLock = false
        ∧ s.sec.sessions.find? (fun y => y.tag = (bits (0x10008 : Word) 0 16 : Half) && y.rights.getLsbD 3) = none)
    ∧ (let w := desc 0x60 0 0 0x1000 0x1000 0x3000000000001000 0 0;
      let c := { started 0 w with asked := 1 };
      let s := ringOf .bound [c] id;
      descAt s 2 0 0x60 = some c ∧ earlierRuns s fwOps c = false ∧ placeOf s (dQ w 0x10) = .host 0x1000
        ∧ s.sec.fwState ≠ 4 ∧ (dW2 w).toNat % 4096 = 0 ∧ (dW2 w).toNat + (dW3 w).toNat ≤ 2 ^ 26 ∧ (dW3 w).toNat % 4096 = 0
        ∧ (dW3 w).toNat ≤ 2 ^ 24 ∧ opFault s (dQ w 0x10) 0x1000 0x10 = none ∧ asking s (.desc 2 0) = false
        ∧ earlierRuns s fwOps { started 1 w with order := 1 } = true)
    ∧ ([2, 3, 4].all fun st : BitVec 3 => (on.setSec { on.sec with fwState := st }).sec.fwState = st) = true
    ∧ (0 : Word).getLsbD 16 = false ∧ (descAt on 2 0 0x60).isNone = true
    ∧ (let s := one (desc 0x61 0 0 0 0 0 0 0);
      (descAt s 2 0 0x61).isSome = true ∧ s.sec.fwState.toNat < 3 ∧ fwShapeOk (flashOf s.sec (fwSlot s)) = false)
    ∧ (let s0 := one (desc 0x61 0 0 0 0 0 0 0);
      let s := s0.setSec { s0.sec with flashB := manifest };
      fwShapeOk (flashOf s.sec (fwSlot s)) = true)
    ∧ (descAt (one (desc 0x62 0 0 0 0 0 0 0)) 2 0 0x62).isSome = true ∧ (descAt (one (desc 0x63 0 0 0 0 0 0 0)) 2 0 0x63).isSome = true := by
  decide +kernel

/-- An object whose HMAC is right under the key of slot 7. -/
def signed (o : ProvObject) : ProvObject :=
  let p := { o with authSlot := 7 };
  { p with auth := hmac384 (List.replicate 32 0x5A) (provBytes p) }

theorem signed_status (s : State) (o : ProvObject) (op : Byte) (h7 : s.sec.slots[7] = ⟨true, List.replicate 32 0x5A, 0x1F⟩)
    (h3 : s.sec.owned = true) (h4 : s.sec.counter < o.counter) (h : o.op = op) (hs : o.slot.toNat ≤ 7) (he : allZero o.ephemeral = true) :
    provStatus s (signed o) op true = 0 := by
  have hx : (ix 8 (signed o).authSlot.toNat : Fin 8) = 7 := rfl
  have hk : authKey s (signed o) = ⟨true, List.replicate 32 0x5A, 0x1F⟩ := by simp only [authKey, hx]; exact h7
  have hp : provBytes (signed o) = provBytes { o with authSlot := 7 } := by simp only [provBytes, signed]
  have ha : hmac384 (authKey s (signed o)).key (provBytes (signed o)) = (signed o).auth := by rw [hk, hp, signed]
  have hc : ¬ o.counter ≤ s.sec.counter := by simpa using h4
  have hr : (0x1F : BitVec 5).getLsbD 4 = true := by decide
  rw [provStatus, ha, hk]
  simp only [signed, h, he, h3, hr]
  simp [hs, hc]

theorem witness_ProvisioningObjects :
    (let s := keyed 0;
      doeServes s = true ∧ s.sec.slots[7] = ⟨true, List.replicate 32 0x5A, 0x1F⟩ ∧ s.sec.owned = true ∧ s.sec.counter < (prov 2 1 1).counter)
    ∧ (prov 3 1 1).slot.toNat ≤ 7 ∧ allZero (prov 3 1 1).ephemeral = true ∧ allZero (prov 3 1 1).wrapped = true
    ∧ (on.sec.owned = false ∧ doeServes on = true ∧ (prov 1 0 0).op = 1 ∧ (prov 1 0 0).counter ≤ on.sec.counter
      ∧ on.sec.counter < (prov 1 0 1).counter ∧ allZero (prov 1 0 1).auth = true)
    ∧ provStatus on (prov 2 1 1) 2 true = 3 ∧ provStatus on (prov 3 8 1) 3 true = 4 ∧ doeServes State.reset = false
    ∧ (let s := (keyed 0).setSec { (keyed 0).sec with slots := (keyed 0).sec.slots.set 6 ⟨true, [], 0x10⟩ };
      s.sec.slots[6].valid = true ∧ s.sec.slots[6].rights.getLsbD 4 = true ∧ (6 : Fin 8) ≠ ix 8 (prov 3 7 1).slot.toNat)
    ∧ (∀ k : Fin 8, k ≠ 7 → (keyed 0).sec.slots[k].valid = true → (keyed 0).sec.slots[k].rights.getLsbD 4 = false) := by decide +kernel

theorem witness_ProvisioningObjects_taken :
    provStatus (keyed 0) (signed (prov 2 1 1)) 2 true = 0 ∧ provStatus (keyed 0) (signed (prov 3 1 1)) 3 true = 0
    ∧ provStatus (keyed 0) (signed (prov 4 1 1)) 4 true = 0 ∧ provStatus (keyed 0) (signed (prov 5 1 1)) 5 true = 0 := by
  have h7 : (keyed 0).sec.slots[7] = ⟨true, List.replicate 32 0x5A, 0x1F⟩ := by decide +kernel
  have h3 : (keyed 0).sec.owned = true := by decide +kernel
  refine ⟨?_, ?_, ?_, ?_⟩ <;> refine signed_status _ _ _ h7 h3 ?_ rfl ?_ ?_ <;> decide +kernel

/-! ### SPDM, heartbeats, seams, the ledger, host register accesses -/

/-- A module in operation after some of SPDM's requests. -/
def spdm (version caps algs : Bool) : State := on.setSec { on.sec with spdmVersion := version, spdmCaps := caps, spdmAlgs := algs }

theorem witness_SpdmAnswers :
    doeServes (spdm false false false) = true ∧ (spdm true false false).sec.spdmVersion = true ∧ (spdm true true false).sec.spdmCaps = true
    ∧ ((0x80 : Word).getLsbD 7 = true ∧ (0x02 : Word).getLsbD 1 = true ∧ (0x01 : Word).getLsbD 1 = false)
    ∧ (spdm true true true).sec.spdmAlgs = true ∧ (spdmSlots (spdm true true true).sec).contains 2 = true
    ∧ (spdmSlots (spdm true true true).sec).contains 3 = false ∧ (3 < (4 : Byte).toNat ∧ (4 : Byte) ≠ 0xFF)
    ∧ doeServes State.reset = false := by decide

theorem witness_HeartbeatsSeamsAndLedger :
    (let s := { on with ns := 1000000 };
      6 ≤ s.boot.step.toNat ∧ s.pwr.mstate = 0 ∧ s.boot.recovery = false ∧ (s.cluster 47).inService = true
        ∧ (0x7FFFFFFFFFFF : BitVec 48).getLsbD 47 = false ∧ (s.cluster 47).lastAnswer.toNat + 1000000 ≤ s.ns
        ∧ (∀ cl : Fin 48, cl ≠ 47 → (0x7FFFFFFFFFFF : BitVec 48).getLsbD cl.val = true) ∧ (recentFailures s 47).length < 3)
    ∧ (∀ cl : Fin 48, (BitVec.allOnes 48).getLsbD cl.val = true)
    ∧ (let s := { on.modCluster 47 (fun c => { c with failures := [1, 2] }) with ns := 1000000 };
      3 ≤ (recentFailures s 47).length)
    ∧ (on.seams[11][31].disabled = false ∧ on.seams[11][31].failed = [])
    ∧ (let s := { on with seams := on.seams.set 11 (on.seams[11].set 31 ⟨[16], false, 0⟩) };
      s.seams[11][31].failed ≠ [] ∧ (15 : Fin 17) ∉ s.seams[11][31].failed ∧ (16 : Fin 17) ∈ s.seams[11][31].failed)
    ∧ State.reset.boot.step.toNat < 6
    ∧ (let s := { on with ledger := { on.ledger with buffer := [(oneEntry, 0)], seqNo := 1 } };
      ledgerFrom s.ledger 0 = some oneEntry ∧ ledgerFrom s.ledger 2 = none) := by decide

theorem witness_HostRegisterAccesses :
    ([true, false].all fun b =>
      let s := on.setPwr { on.pwr with mstate := 2, pcieEn := b };
      s.pwr.mstate = 2 && s.pwr.pcieEn = b) = true
    ∧ (let s := on.setPwr { on.pwr with mstate := 1, pcieEn := true };
      s.pwr.mstate = 1 ∧ s.pwr.pcieEn = true)
    ∧ (on.pwr.mstate ≠ 2 ∧ on.pwr.mstate ≠ 1)
    ∧ ((0x2 : Half).toNat % 4 ≠ 0)
    ∧ (regAt 0x2000).isSome = true ∧ ((regAt 0x2000).map fun x => (x.2, x.1.width)) = some (0x2000, 8) ∧ latches 0x2000 = true
    ∧ ((regAt 0x2004).map fun x => (x.2, x.1.width)) = some (0x2000, 8)
    ∧ ((regAt 0x5000).map fun x => (x.2, x.1.width)) = some (0x5000, 4) ∧ latches 0x5000 = false
    ∧ ((regAt 0x5004).map fun x => (x.2, x.1.width)) = some (0x5004, 4) ∧ 0x5000 % 8 = 0
    ∧ (∃ o, ((regAt o).map fun x => (x.2, x.1.width)) = some (o, 2) ∧ ((regAt (o + 2)).map fun x => (x.2, x.1.width)) = some (o + 2, 2) ∧ o % 4 = 0)
    ∧ (∀ y ∈ on.pcie.latched, y.1 ≠ 0x5000)
    ∧ ((on.setPcie { on.pcie with latched := [(0x2004, 7)] }).pcie.latched.find? (fun y => y.1 = 0x2004) = some (0x2004, 7) ∧ latches 0x2004 = false)
    ∧ regAt 0xF000 = none ∧ regAt 0xF004 = none ∧ latches 0xF000 = false ∧ (0xF000 : Nat) % 8 = 0 := by
  refine ⟨by decide, by decide, by decide, by decide, by decide, by decide, by decide, by decide, by decide, by decide, by decide, by decide,
    ⟨0x201C, by decide⟩, by decide, by decide, by decide, by decide, by decide, by decide⟩

/-! ### Links -/

/-- Port 15 up, with its partner known. -/
def upPort (f : Port → Port) : State := on.setPort 15 (f { on.port 15 with state := 3, known := true, verAgreed := 1, phase := 6 })

theorem witness_LinksAndPortConfiguration :
    (let s := upPort id;
      (s.port 15).receives = true ∧ (frame 0 0 0 []).typ = 0 ∧ frameFault (s.port 15) (frame 0 0 0 []) = none
        ∧ (frame 2 0 0 []).typ = 2 ∧ frameFault (s.port 15) (frame 2 0 0 []) = none)
    ∧ (let s := { upPort (fun p => { p with buf := [⟨frame 1 0 1 [], 0⟩], fruitless := 7 }) with ns := 2000 };
      (s.port 15).haggling = false ∧ (s.port 15).state = 3 ∧ (s.port 15).buf = ⟨frame 1 0 1 [], 0⟩ :: [] ∧ 0 + 2000 ≤ s.ns
        ∧ 8 ≤ (s.port 15).fruitless + 1)
    ∧ ((upPort id).port 15).fruitless + 1 < 8
    ∧ (let s := upPort fun p => { p with state := 6, quarEnd := some 0 };
      (s.port 15).quarEnd = some 0 ∧ 0 ≤ s.ns ∧ (s.port 15).state = 6)
    ∧ (let s := { upPort (fun p => { p with state := 5, retrySince := some 0 }) with ns := 100000000 };
      (s.port 15).retrySince = some 0 ∧ (s.port 15).state = 5 ∧ 0 + 100000000 ≤ s.ns ∧ (s.port 15).retryAt + 1000000 ≤ s.ns) := by decide

theorem witness_LinksAndPortConfiguration_seq :
    seqAct 5 5 = .accept ∧ seqAct 5 6 = .lost ∧ seqAct 5 516 = .lost ∧ seqAct 5 517 = .outside ∧ seqAct 5 3588 = .outside
    ∧ seqAct 5 3589 = .duplicate ∧ seqAct 5 4 = .duplicate := by decide

set_option maxRecDepth 20000 in
theorem witness_LinksAndPortConfiguration_frames :
    (frameFault ((upPort id).port 15) { frame 0 0 0 [] with seq := 1 }).isSome = true
    ∧ (frameFault ((upPort id).port 15) { frame 2 0 0 [] with seq := 1 }).isSome = true
    ∧ ((upPort id).port 15).sending = true ∧ (on.port 15).receives = false
    ∧ (crcPasses [] = false ∧ crcPasses (frameImage (frame 1 0 1 [])) = true)
    ∧ (on.port 15).buf = [] ∧ (on.port 15).quarEnd = none ∧ (on.port 15).retrySince = none ∧ (on.port 15).sweepState ≠ 1
    ∧ (let p := (upPort fun p => { p with state := 1, phase := 1, hgBuf := [⟨frame 3 0 0 [], 0⟩] }).port 15;
      p.haggling = true ∧ p.hgBuf = ⟨frame 3 0 0 [], 0⟩ :: []) := by decide +kernel

theorem witness_LinksAndPortConfiguration_cfg :
    ((0x1F01 : Word).getLsbD 0 = true ∧ (0x1F01 : Word).getLsbD 2 = false ∧ (0x1F01 : Word).getLsbD 3 = false ∧ (0x1F01 : Word).getLsbD 4 = false)
    ∧ ((0 : Word).getLsbD 0 = false) ∧ ((0x09 : Word).getLsbD 3 = true ∧ ((upPort id).port 15).state ≠ 0)
    ∧ ((0x05 : Word).getLsbD 2 = true ∧ ((upPort id).port 15).state = 3) ∧ ((0x11 : Word).getLsbD 4 = true ∧ (0x11 : Word).getLsbD 2 = false)
    ∧ (dbg.sec.dbgActive = true ∧ (dbg.port 15).sweepState ≠ 1 ∧ (bits (0x18 : Word) 0 4 : BitVec 4).toNat < 9
      ∧ 9 ≤ (bits (0x19 : Word) 0 4 : BitVec 4).toNat ∧ (0x19 : Word).getLsbD 4 = true)
    ∧ (let s := dbg.setPort 15 { dbg.port 15 with sweepState := 1 };
      (s.port 15).sweepState = 1) := by decide

/-- A haggle frame of a phase (R329). -/
def hag (phase : Byte) : Frame := frame 3 0 0 (List.replicate 12 0 ++ phase :: List.replicate 211 0)

/-- A retrain frame of a phase, from a partner with serial number 0 and epoch 0. -/
def retr (phase : Byte) : Frame := frame 4 0 0 (List.replicate 12 0 ++ phase :: List.replicate 211 0)

theorem witness_PortsHaggleAndRetrain :
    ((on.port 15).enable = true ∧ 8 ≤ on.boot.step.toNat ∧ on.boot.recovery = false ∧ on.pwr.mstate = 0 ∧ (on.port 15).state = 0
      ∧ widthOf 3 ≠ 0 ∧ widthOf 7 = 0)
    ∧ ([1, 2, 3, 4, 5].all fun ph =>
      let s := upPort fun p => { p with state := 1, phase := 1, verAgreed := 0 };
      (s.port 15).receives && (hag ph).typ = 3 && (s.port 15).haggling && (hag ph).seq = (s.port 15).hgRx
        && (frameFault (s.port 15) (hag ph)).isNone && hPhase (hag ph) = ph.toNat) = true
    ∧ (let s := { upPort (fun p => { p with state := 1, phase := 4 }) with ns := 70000000 };
      (s.port 15).state = 1 ∧ (s.port 15).phase = 4 ∧ (s.port 15).signalAt + 70000000 ≤ s.ns)
    ∧ ([6, 7].all fun ph =>
      let p := (upPort fun p => { p with state := 4 }).port 15;
      p.receives && 3 ≤ p.state.toNat && p.state.toNat ≤ 5 && (frameFault p (retr ph)).isNone && samePartner p (retr ph)
        && hPhase (retr ph) = ph.toNat) = true
    ∧ ((upPort id).port 15).txFailed.getLsbD 8 = false ∧ widthOf (3 ||| BitVec.ofNat 9 (2 ^ 8)) = 0 := by decide +kernel

theorem witness_PortsHaggleAndRetrain_else :
    ((upPort id).port 15).state ≠ 0 ∧ ((upPort id).port 15).state ≠ 1 ∧ ((upPort id).port 15).haggling = false
    ∧ (let p := (upPort fun p => { p with state := 1, phase := 2, partnerSerial := 9 }).port 15;
      (p.state = 1 ∧ 2 ≤ p.phase) ∧ p.known = true ∧ samePartner p (hag 1) = false ∧ frameFault { p with verAgreed := 0 } (hag 1) = none
        ∧ p.receives = true)
    ∧ (frameFault { (upPort id).port 15 with verAgreed := 0 } (hag 1) = none)
    ∧ (hag 5).seq = ((upPort id).port 15).hgRx
    ∧ (let p := (upPort fun p => { p with state := 4, partnerSerial := 9 }).port 15;
      samePartner p (retr 6) = false ∧ frameFault p (retr 6) = none)
    ∧ (frameFault ((upPort id).port 15) { retr 6 with seq := 1 }).isSome = true
    ∧ ((upPort fun p => { p with txFailed := 1 }).port 15).txFailed.getLsbD 0 = true := by decide +kernel

/-- A message frame of a channel and operation, to the module itself. -/
def msg (vc : BitVec 3) (op : Byte) : Frame := { frame 1 vc op (List.replicate 224 0) with count := 1, len := 224 }

theorem witness_MessagesTakeEffectHere :
    ([(0, 0x01), (0, 0x02), (1, 0x11), (1, 0x12), (1, 0x13), (3, 0x30), (3, 0x31), (3, 0x32), (2, 0x20), (2, 0x21), (2, 0x22), (2, 0x23),
      (2, 0x24), (2, 0x25), (2, 0x26), (2, 0x27), (3, 0x38)].all fun x : BitVec 3 × Byte =>
        let f := msg x.1 x.2;
        let s := upPort fun p => { p with pools := Vector.replicate 16 ⟨[], 0, 4, 0, 0, 0⟩ };
        let s1 := linkFields 15 f (s.setPort 15 (s.port 15).accepted);
        let y := (s1.port 15).pools[poolOf f];
        (s.port 15).receives && (frameFault (s.port 15) f).isNone && f.seq = (s.port 15).rxNext && f.dest = s1.mach.logical
          && y.held.length + waitingIn s1 15 (poolOf f) < y.granted) = true := by decide +kernel

theorem witness_MessagesTakeEffectHere_elsewhere :
    { msg 0 1 with dest := 5 }.dest ≠ (upPort id).mach.logical
    ∧ (let f := msg 0 1;
      let s1 := linkFields 15 f ((upPort id).setPort 15 ((upPort id).port 15).accepted);
      (s1.port 15).pools[poolOf f].granted ≤ (s1.port 15).pools[poolOf f].held.length)
    ∧ (frameFault ((upPort id).port 15) { msg 0 1 with count := 0 }).isSome = true ∧ (on.port 15).state ≠ 3
    ∧ staleEpoch on { msg 2 0x20 with destEpoch := 5 } = true ∧ staleEpoch on (msg 2 0x20) = false := by decide +kernel

/-! ### Messages, the router, binding and routes -/

/-- A WRITE of the first bytes of local store 5, of one frame or two. -/
def wr (count : Half) : Frame := { msg 0 0x01 with addr := BitVec.ofNat 44 (5 * 2 ^ 28 + 64), len := 2, count := count, payload := [7, 9] ++ List.replicate 222 0, tag := 3, src := 8 }

/-- A transaction of tag 3 with module 8. -/
def txn : Txn := ⟨3, 8, false, .none, 0, 0, 2, 0, true, []⟩

theorem witness_RequestsAndResponses :
    (reqFault on (wr 1) 2 = none ∧ framePlace (wr 1) = .ls 5 64 ∧ (wr 1).len.toNat ≤ (wr 1).payload.length ∧ (inboundOf on (wr 1)).dead = false
      ∧ (on.core 5).ls.wf = true ∧ (inboundOf on (wr 1)).left = 1 ∧ (inboundOf on (wr 2)).left = 2)
    ∧ reqFault on { wr 1 with addr := 1024 } 2 = none ∧ reqFault on { wr 1 with addr := BitVec.ofNat 44 (lsEnd - 1) } 2 = some 3
    ∧ ((5 : Half) ≠ 0 ∧ (5 : Half) ≠ bits on.boot.epoch 0 16)
    ∧ (let s := { on.setMach { on.mach with txns := [txn] } with ns := 200000000 };
      txnFor s { msg 1 0x11 with tag := 3, src := 8 } = some txn ∧ txn.isRead = false ∧ txn.dest = { msg 1 0x11 with tag := 3, src := 8 }.src
        ∧ pay { msg 1 0x13 with payload := 1 :: List.replicate 223 0 } 0 1 = 1 ∧ s.mach.txns[0]? = some txn ∧ txn.at_ + 200000000 ≤ s.ns) := by
  decide +kernel

theorem witness_RequestsAndResponses_reads :
    (let f : Frame := { wr 1 with op := 0x02, payload := 4 :: List.replicate 223 0 };
      pay f 0 4 ≤ txnBytes ∧ reqFault on f (pay f 0 4) = none ∧ on.mach.serving = []
        ∧ asking (on.setMach { on.mach with serving := [f] }) (.peer f.src f.tag) = false)
    ∧ (let f : Frame := { wr 1 with payload := List.replicate 224 0xFF };
      txnBytes < pay f 0 4)
    ∧ (let f : Frame := { wr 1 with space := 1, addr := 64 };
      framePlace f = .gddr 64 ∧ reqFault (on.setGddr { on.gddr with activeCh := 48 }) f 2 = none)
    ∧ (let f : Frame := { msg 1 0x12 with tag := 3, src := 8, len := 2 };
      let x : Txn := { txn with isRead := true, dstAddr := lsAddr 5 64, len := 224 };
      let s := on.setMach { on.mach with txns := [x] };
      txnFor s f = some x ∧ x.got + f.len.toNat < x.len ∧ placeOf s (x.dstAddr + BitVec.ofNat 64 f.addr.toNat) = .ls 5 64
        ∧ x.dstAddr + BitVec.ofNat 64 f.addr.toNat < stageAddr ∧ f.len.toNat ≤ f.payload.length)
    ∧ txnFor on (msg 1 0x11) = none ∧ on.mach.txns[0]? = none := by decide +kernel

/-- Module 0 of two, joined over port 15, with frames waiting at its own queue of pool 0 for the given module. -/
def routing (dest : Half) (hops : BitVec 6) (state : BitVec 3) (cls : BitVec 2) : State :=
  let s := upPort fun p => { p with state := state, partnerAddr := 0x8000, pools := Vector.replicate 16 ⟨[], 0, 4, 4, 0, 0⟩ };
  s.setMach { s.mach with
    bound := true, route := some ⟨16, 1, 0, 0, []⟩,
    inject := s.mach.inject.set 0 [⟨{ msg 0 0x01 with dest := dest, hops := hops, cls := cls }, none, false⟩] }

theorem witness_TheRouterForwards :
    ([(routing 0 0 3 0), (routing 0x8000 0 3 0), (routing 0x8000 39 3 0), (routing 0x8000 0 4 0), (routing 0x8000 0 0 2)].all fun s0 =>
      !(poolQueue (noteHeads s0) 16 0).isEmpty) = true
    ∧ (let x (s0 : State) : Frame := ((poolQueue (noteHeads s0) 16 0).headD ⟨msg 0 0, none, false⟩).frame;
      let h (s0 : State) : Hop := hopOf (noteHeads s0) (x s0);
      (x (routing 0 0 3 0)).dest = (routing 0 0 3 0).mach.logical ∧ h (routing 0x8000 0 4 0) = .wait ∧ h (routing 0x8000 0 0 2) = .drop 15
        ∧ h (routing 0x8000 0 3 0) = .out 15 0)
    ∧ ((poolQueue (noteHeads (routing 0x8000 0 3 0)) 16 0).all fun x => served (noteHeads (routing 0x8000 0 3 0)) 15 0 x) = true
    ∧ ((poolQueue (noteHeads { routing 0x8000 0 3 0 with ns := 1000 }) 16 0).all fun x => x.since = some 1000) = true := by decide +kernel

theorem witness_TheRouterForwards_else :
    poolQueue (noteHeads on) 16 0 = [] ∧ (wr 1).src ≠ on.mach.logical ∧ { wr 1 with src := 0 }.src = on.mach.logical
    ∧ (let s := noteHeads ((routing 0x8000 0 3 0).setPort 15 { (routing 0x8000 0 3 0).port 15 with pools := Vector.replicate 16 ⟨[], 0, 0, 0, 0, 0⟩ });
      (poolQueue s 16 0).all fun x => decide (x.since = none)) = true := by decide +kernel

/-- A route descriptor of one dimension at host address 0x1000. -/
def routeMem (crc : Word) : Memory :=
  ((Memory.putLE [] 0x1000 4 0x52444B56).putLE 0x1004 2 (0x01 + 256 * ownVersion.toNat)).putLE 0x100C 4 crc.toNat

/-- Its CRC. -/
def routeCrc : Word := crc32c ((routeMem 0).getBytes 0x1000 16)

theorem witness_BindingRoutesAndSweeps :
    ((0x200000000 : Dword).getLsbD 33 = true ∧ (0x200000000 : Dword).getLsbD 34 = false ∧ on.mach.bound = false ∧ bindFault on = none
      ∧ bindFault (on.setMach { on.mach with slot := 1 }) = some 2)
    ∧ ((0x400000000 : Dword).getLsbD 34 = true ∧ (0x400000000 : Dword).getLsbD 33 = false ∧ (routing 0 0 3 0).mach.bound = true
      ∧ (routing 0 0 3 0).mach.unbinding = none ∧ (routing 0 0 3 0).mach.txns = [])
    ∧ (let s := { on with host := routeMem routeCrc };
      let w : Dword := 0x3000000000001001;
      w.getLsbD 0 = true ∧ s.mach.loading = none ∧ (readRoute s 0x3000000000001000).isSome = true ∧ (readRoute on 0x3000000000001000) = none
        ∧ BitVec.ofNat 64 (64 * (bits w 6 58 : BitVec 58).toNat) = 0x3000000000001000)
    ∧ (let s := routing 0 0 3 0;
      s.mach.logical.toNat < 2 ^ 1 ∧ s.mach.bound = true ∧ 2 ^ 1 ≤ (2 : Half).toNat) := by decide +kernel

theorem witness_BindingRoutesAndSweeps_else :
    on.mach.unbinding = none ∧ on.mach.loading = none
    ∧ (let s := { (routing 0 0 3 0).setMach { (routing 0 0 3 0).mach with unbinding := some 0 } with ns := 5 };
      s.mach.unbinding = some 0 ∧ s.mach.txns = [] ∧ s.coll.runs = [] ∧ s.coll.groups = [] ∧ s.ns < 0 + 1000000
        ∧ (s.setMach { s.mach with txns := [txn] }).mach.txns ≠ [])
    ∧ (let s := on.setMach { on.mach with loading := some (⟨1, 0, 0, 0, []⟩, 0), bound := true, logical := 2 };
      s.mach.loading = some (⟨1, 0, 0, 0, []⟩, 0) ∧ s.mach.bound = true ∧ 2 ^ 1 ≤ s.mach.logical.toNat)
    ∧ (on.setMach { on.mach with loading := some (⟨1, 0, 0, 0, []⟩, 0) }).mach.loading ≠ none ∧ on.mach.sweep = none
    ∧ (descAt on 2 0 0x70).isNone = true := by decide +kernel

/-- A margin sweep's descriptor of one hop over port 15, its result at host address 0x4000. -/
def sweeping (action len : Word) (f : State → State) : State := f { one (desc 0x70 0 0 action len 0x3000000000004000 0 0) with host := Memory.putLE [] 0x4040 1 15 }

theorem witness_BindingRoutesAndSweeps_sweeps :
    ([2, 3].all fun a => (descAt (sweeping a 1 id) 2 0 0x70).isSome && (sweeping a 1 id).mach.sweep.isNone
      && (opFault (sweeping a 1 id) 0x3000000000004000 (0x80 + 48) 0x10).isNone) = true
    ∧ placeOf (sweeping 2 1 id) 0x3000000000004000 = .host 0x4000 ∧ (descAt (sweeping 2 65 id) 2 0 0x70).isSome = true
    ∧ (let x : Sweep := ⟨2, 0, [15], 0, 0, 0, 0, [], none⟩;
      let s := sweeping 2 1 fun s => { s.setMach { s.mach with sweep := some x } with ns := 10000000 };
      ((s.ring 2).started[0]?).isSome = true ∧ s.mach.sweep = some x ∧ x.at_ + 10000000 ≤ s.ns) := by decide +kernel

/-! ### Market time -/

theorem witness_MarketTime :
    (on.time.present = true ∧ on.time.running = true ∧ on.pwr.mstate ≠ 2 ∧ (20000 : Half).toInt.natAbs ≤ 20000
      ∧ 20000 < (20001 : Half).toInt.natAbs ∧ 20000 < (-20001 : Half).toInt.natAbs)
    ∧ (let s := on.setTime { on.time with present := false };
      s.time.present = false ∧ s.time.running = true ∧ s.pwr.mstate ≠ 2)
    ∧ (let s := on.setTime { on.time with running := false, present := false };
      s.time.present = false ∧ s.time.running = false ∧ s.boot.refWait = none ∧ (s.setBoot { s.boot with refWait := some 5 }).boot.refWait ≠ none)
    ∧ ((0x4 : Word).getLsbD 2 = true ∧ (0x4 : Word).getLsbD 1 = false ∧ (0x6 : Word).getLsbD 2 = true ∧ (0x6 : Word).getLsbD 0 = false
      ∧ (0x6 : Word).getLsbD 1 = true ∧ (0x5 : Word).getLsbD 0 = true ∧ (0 : Word).getLsbD 2 = false)
    ∧ (let s := { on.setTime { on.time with follow := true } with ns := 1000000 };
      s.time.root = false ∧ s.time.follow = true ∧ s.time.running = true ∧ s.time.lostTold = false ∧ s.time.upAt + 1000000 ≤ s.ns)
    ∧ on.ns < on.time.upAt + 1000000 ∧ (on.time.mt - on.time.lastSend).toNat < 65536
    ∧ (let s := on.setTime { on.time with root := true, mt := 65536 };
      s.time.root = true ∧ s.time.running = true ∧ 65536 ≤ (s.time.mt - s.time.lastSend).toNat)
    ∧ on.time.mt.toNat % 4096 = 0 ∧ (on.setTime { on.time with mt := 1 }).time.mt.toNat % 4096 ≠ 0 := by decide

/-! ### Power -/

/-- Cluster 47 as given. -/
def pwrOf (f : ClusterPower → ClusterPower) : State := on.setCpwr 47 (f (on.cpwr 47))

theorem witness_TheCapLoopMeasures :
    (on.pwr.v48 = true ∧ on.pwr.mstate = 0 ∧ 9 ≤ on.boot.step.toNat ∧ on.boot.recovery = false)
    ∧ (on.setPwr { on.pwr with mstate := 2 }).pwr.mstate ≠ 0 ∧ (∀ cl : Fin 48, (on.cpwr cl).op ≠ 15) ∧ State.reset.pwr.v48 = false
    ∧ ((pwrOf fun c => { c with op := 15 }).cpwr 47).op = 15 ∧ (on.setPwr { on.pwr with conv := true }).pwr.conv = true
    ∧ (on.pwr.conv = false ∧ (10 * (0 + (on.pwr.samples.take 99).foldl (· + ·) 0) < 1000000 * 600)) := by decide

/-- Stack 3 dozing. -/
def dozing : State := forAll ((List.finRange 48).filter fun cl => 36 ≤ cl.val) (fun cl s => s.setCpwr cl { s.cpwr cl with mode := .doze }) on

theorem witness_DroopsLimitsAndReports :
    ([47, 48, 51, 52, 57, 58].all fun d : Fin 59 => domLive (pwrOf fun c => { c with mode := .run }) d) = true
    ∧ setpoint on 47 < 400 + setpoint on 47 ∧ 50 + 400 ≤ setpoint on 47
    ∧ (let s := { on.setDom 47 { on.dom 47 with engaged := true, limitUntil := some 100000 } with ns := 100000 };
      (s.dom 47).limitUntil = some 100000 ∧ (s.dom 47).engaged = true ∧ 100000 ≤ s.ns)
    ∧ (∀ cl ∈ stackClusters (3 : Fin 4).val, (dozing.cpwr cl).mode = .doze)
    ∧ (domLive State.reset 47 = false ∧ (on.dom 47).limitUntil = none ∧ ∃ cl ∈ stackClusters (3 : Fin 4).val, (on.cpwr cl).mode ≠ .doze)
    ∧ on.pwr.mstate = 0 ∧ on.pwr.v48 = true ∧ ([⟨1, 2, 3, 4⟩] : List DomMeas)[(0 : Fin 59).val]? = some ⟨1, 2, 3, 4⟩
    ∧ ([⟨1, 2, 3, 4⟩] : List DomMeas)[(1 : Fin 59).val]? = none := by decide

theorem witness_ThermalProtection :
    (on.pwr.v48 = true ∧ on.pwr.mstate = 0 ∧ 6 ≤ on.boot.step.toNat)
    ∧ (840 ≤ (List.replicate 58 200 ++ [840] : List Int).getD (58 : Fin 59).val (on.dom 58).sensor)
    ∧ (on.setPwr { on.pwr with limit105 := true }).pwr.limit105 = true ∧ (∀ d : Fin 59, (List.replicate 59 799 : List Int).getD d.val (on.dom d).sensor < 800)
    ∧ (on.setPwr { on.pwr with mstate := 2 }).pwr.mstate = 2 ∧ 115 ≤ (115 : Byte).toInt ∧ (114 : Byte).toInt < 115
    ∧ (held.pwr.v48 = true ∧ held.pwr.mstate = 0 ∧ held.boot.step.toNat < 6) ∧ (on.setPwr { on.pwr with mstate := 4 }).pwr.mstate = 4 := by decide +kernel

/-- A POWER_SET descriptor on ring 2. -/
def psDesc (state : Word) (cap : Word) (mask : Dword) : State := one (desc 0x50 0 0 cap state mask 0 0)

theorem witness_PowerSetEntersStates :
    ([psDesc 0 600 0, psDesc 1 2600 0, psDesc 2 0 0x800000000000, psDesc 3 0 0x800000000000].all fun s =>
      (descAt s 2 0 0x50).isSome && s.pwr.deferral.isNone && s.pwr.mstate = 0) = true
    ∧ ([(psDesc 0 600 0, desc 0x50 0 0 600 0 0 0 0), (psDesc 1 2600 0, desc 0x50 0 0 2600 1 0 0 0),
        (psDesc 2 0 0x800000000000, desc 0x50 0 0 0 2 0x800000000000 0 0), (psDesc 3 0 0x800000000000, desc 0x50 0 0 0 3 0x800000000000 0 0),
        ((psDesc 4 0 0).setPwr { on.pwr with pinEn := true }, desc 0x50 0 0 0 4 0 0 0)].all fun x => (powerFault x.1 x.2).isNone) = true
    ∧ powerFault on (desc 0x50 0 0 599 0 0 0 0) = some (0x30, 0x08) ∧ powerFault on (desc 0x50 0 0 0 3 0 0 0) = some (0x30, 0x10)
    ∧ (powerFault (on.setPwr { on.pwr with pinEn := false, pcieEn := false, smbEn := false }) (desc 0x50 0 0 0 4 0 0 0)).isSome = true
    ∧ (descAt on 2 0 0x50).isNone = true ∧ (on.setPwr { on.pwr with deferral := some ⟨2, 0, 3, 1, 0⟩ }).pwr.deferral ≠ none
    ∧ (bits (dW3 (desc 0x50 0 0 600 0 0 0 0)) 0 3 : BitVec 3) ≠ 1 := by decide +kernel

/-- A deferred entry of ring 2's only descriptor. -/
def deferred (state : Nat) (f : State → State) : State :=
  let s := psDesc 3 0 0x800000000000;
  f (s.setPwr { s.pwr with deferral := some ⟨2, 0, state, 0x800000000000, 0⟩, idleAuto := true })

theorem witness_StatesEnteredAndLeft :
    holdup (deferred 3 id) ⟨2, 0, 3, 0x800000000000, 0⟩ = none ∧ holdup (deferred 4 id) ⟨2, 0, 4, 0x800000000000, 0⟩ = none
    ∧ (let s := deferred 3 fun s => { s.modCluster 47 (fun c => { c with launch := some 1 }) with ns := 1000000 };
      s.pwr.deferral = some ⟨2, 0, 3, 0x800000000000, 0⟩ ∧ holdup s ⟨2, 0, 3, 0x800000000000, 0⟩ = some 47 ∧ 0 + 1000000 ≤ s.ns)
    ∧ (let s := { deferred 3 (fun s => s.setCpwr 47 { s.cpwr 47 with mode := .run }) with ns := 100000 };
      s.pwr.idleAuto = true ∧ (s.cpwr 47).mode = .run ∧ (s.cluster 47).launch = none ∧ (s.cpwr 47).idleSince + 100000 ≤ s.ns)
    ∧ (dozing.cpwr 47).mode = .doze
    ∧ (let s := on.setPwr { on.pwr with mstate := 1 };
      (∀ r, (s.ring r).started = []) ∧ s.pwr.mstate = 1 ∧ s.pwr.wakes = 0)
    ∧ on.pwr.deferral = none ∧ (on.cpwr 47).mode ≠ .doze ∧ (on.cluster 47).launch = none ∧ (on.setPwr { on.pwr with idleAuto := false }).pwr.idleAuto = false
    ∧ (let s := on.setPwr { on.pwr with mstate := 1, wakes := 2 };
      s.pwr.mstate = 1 ∧ s.pwr.wakes ≠ 0 ∧ s.pwr.mstate ≠ 2)
    ∧ (let s := on.setPwr { on.pwr with mstate := 2, pcieEn := true, pinEn := true, smbEn := true };
      s.pwr.mstate = 2 ∧ s.pwr.pcieEn = true ∧ s.pwr.pinEn = true ∧ s.pwr.smbEn = true ∧ s.time.present = true) := by decide +kernel

/-! ### Vectors and number formats -/

/-- A vector addition of 128 narrow lanes that takes its A row from the drain queue, and one of 64 lanes. -/
def vadd (lanes aDq : Bool) : CoreInstr := bare (.vec 0 ⟨1, 2, 3, 4, aDq, false, 0, lanes, 0⟩)

theorem witness_VectorResults : firesNow (stn (vadd false false)) 5 3 (vadd false false) = true
    ∧ firesNow (stn (vadd true false)) 5 3 (vadd true false) = true := by decide

theorem witness_VectorResults_lanes : FNum.isPoison (codeNum 4 0x7FFFFFFF) = true ∧ FNum.isPoison (codeNum 4 0x3F800000) = false := by decide

theorem witness_ProductsOfPoisonAndZero : FNum.isPoison (elemNum 4 0 0 true) = true ∧ FNum.isZero (elemNum 4 0 0 false) = true
    ∧ FNum.isPoison (elemNum 4 0x3F800000 0 false) = false := by decide

theorem witness_PoisonElementsAreStored :
    ([vwNum 0x3FC00000, .poison] : List FNum)[1]? = some .poison ∧ FNum.isPoison .poison = true
    ∧ (storeElems 2 false false 0x80 [vwNum 0x3FC00000, .poison] 1).1 = [0x38, 0x80] ∧ (storeElems 0 false false 0x80 [.poison] 1).1 = [0] := by
  decide +kernel

end Sys2Proof.Tests
end

section
/-! PROOFS. What an event or a ledger entry leaves alone, and actions over the clusters one after another. -/
namespace Sys2Proof.Machine
open Sys2Proof

/-! ### Events and ledger entries -/

theorem EventOnly.boot {s t : State} (h : EventOnly s t) : t.boot = s.boot := by rw [h]
theorem EventOnly.time {s t : State} (h : EventOnly s t) : t.time = s.time := by rw [h]
theorem EventOnly.pins {s t : State} (h : EventOnly s t) : t.pins = s.pins := by rw [h]
theorem EventOnly.sec {s t : State} (h : EventOnly s t) : t.sec = s.sec := by rw [h]
theorem EventOnly.clusters {s t : State} (h : EventOnly s t) : t.clusters = s.clusters := by rw [h]

@[simp] theorem postEvent_boot (kind : Half) (sev : Nat) (source : Word) (data : List Byte) (s : State) :
    (postEvent kind sev source data s).boot = s.boot := (postEvent_eventOnly ..).boot
@[simp] theorem postEvent_time (kind : Half) (sev : Nat) (source : Word) (data : List Byte) (s : State) :
    (postEvent kind sev source data s).time = s.time := (postEvent_eventOnly ..).time
@[simp] theorem postEvent_pins (kind : Half) (sev : Nat) (source : Word) (data : List Byte) (s : State) :
    (postEvent kind sev source data s).pins = s.pins := (postEvent_eventOnly ..).pins
@[simp] theorem postEvent_sec (kind : Half) (sev : Nat) (source : Word) (data : List Byte) (s : State) :
    (postEvent kind sev source data s).sec = s.sec := (postEvent_eventOnly ..).sec
@[simp] theorem postEvent_cluster (kind : Half) (sev : Nat) (source : Word) (data : List Byte) (s : State) (cl : Fin 48) :
    (postEvent kind sev source data s).cluster cl = s.cluster cl := by
  unfold State.cluster
  rw [(postEvent_eventOnly ..).clusters]

@[simp] theorem ledgerAdd_boot (kind : Half) (sev : Nat) (source : Half) (data : List Byte) (s : State) :
    (ledgerAdd kind sev source data s).boot = s.boot := (ledgerAdd_eventOnly ..).boot
@[simp] theorem ledgerAdd_time (kind : Half) (sev : Nat) (source : Half) (data : List Byte) (s : State) :
    (ledgerAdd kind sev source data s).time = s.time := (ledgerAdd_eventOnly ..).time
@[simp] theorem ledgerAdd_pins (kind : Half) (sev : Nat) (source : Half) (data : List Byte) (s : State) :
    (ledgerAdd kind sev source data s).pins = s.pins := (ledgerAdd_eventOnly ..).pins
@[simp] theorem ledgerAdd_sec (kind : Half) (sev : Nat) (source : Half) (data : List Byte) (s : State) :
    (ledgerAdd kind sev source data s).sec = s.sec := (ledgerAdd_eventOnly ..).sec

/-! ### Doing something for each member of a list -/

/-- What one member's action brings about, and no other member's undoes, holds after all of them. -/
theorem forAll_establishes {α : Type} [DecidableEq α] (P : State → Prop) (l : List α) (f : α → State → State) (a : α) (s : State)
    (ha : a ∈ l) (brings : ∀ t, P (f a t)) (keeps : ∀ b t, b ≠ a → P t → P (f b t)) : P (forAll l f s) := by
  have stays : ∀ b t, P t → P (f b t) := fun b t ht => if hb : b = a then hb ▸ brings t else keeps b t hb ht
  induction l generalizing s with
  | nil => exact absurd ha List.not_mem_nil
  | cons b l ih =>
    by_cases hb : b = a
    · subst hb
      exact forAll_keeps P l f (f b s) (fun c _ t => stays c t) (brings s)
    · exact ih (f b s) ((List.mem_cons.1 ha).resolve_left (Ne.symm hb))

/-- What one cluster's action does to the cluster itself, no other cluster's action undoes. -/
theorem forAll_clusters (Q : Cluster → Prop) (f : Fin 48 → State → State) (cl : Fin 48) (s : State)
    (brings : ∀ t, Q ((f cl t).cluster cl)) (other : ∀ b t, b ≠ cl → (f b t).cluster cl = t.cluster cl) :
    Q ((forAll (List.finRange 48) f s).cluster cl) :=
  forAll_establishes (fun t => Q (t.cluster cl)) _ f cl s (List.mem_finRange cl) brings
    fun b t hb ht => by rw [other b t hb]; exact ht

end Sys2Proof.Machine
end

section
/-! PROOFS. The management port (R28 to R31): what its reads answer, when it is silent, CAP_CEILING and the alert response. -/
namespace Sys2Proof.Machine
open Sys2Proof

/-! ### Silence before its step (R28) -/

theorem early_reads_silent (s : State) (h : smbAnswers s true = false) :
    exec .smbIdent s = .next s ∧ exec .smbStatus s = .next s := by
  constructor
  · show execSmbIdent s = _
    simp [execSmbIdent, h]
  · show execSmbStatus s = _
    simp [execSmbStatus, h]

theorem late_reads_silent (s : State) (h : smbAnswers s false = false) :
    exec .smbTemp s = .next s ∧ exec .smbTill s = .next s ∧ exec .capCeilingRead s = .next s ∧ exec .ledgerNext s = .next s := by
  refine ⟨?_, ?_, ?_, ?_⟩
  · show execSmbTemp s = _
    simp [execSmbTemp, h]
  · show execSmbTill s = _
    simp [execSmbTill, h]
  · show execCapCeilingRead s = _
    simp [execCapCeilingRead, h]
  · show execLedgerNext s = _
    simp [execLedgerNext, h]

theorem capCeilingWrite_silent (w : Half) (ok : Bool) (s : State) (h : smbAnswers s false = false) :
    exec (.capCeilingWrite w ok) s = .next s := by
  show execCapCeilingWrite w ok s = _
  simp [execCapCeilingWrite, h]

/-! ### Reads (R29) -/

theorem smbIdent_answers (s : State) (h : smbAnswers s true = true) :
    exec .smbIdent s = .next (smbBlock 0x01 (word4 (bits (Reg.modId.value s) 0 32) ++ word4 (bits (Reg.modRev.value s) 0 32)
      ++ word4 (bits (Reg.serialLo.value s) 0 32) ++ word4 (bits (Reg.serialHi.value s) 0 32)) s) := by
  show execSmbIdent s = _
  simp [execSmbIdent, h]

theorem smbStatus_answers (s : State) (h : smbAnswers s true = true) :
    exec .smbStatus s = .next (smbBlock 0x02 (word4 (modStatus s) ++ word4 (pwrStatus s) ++ word4 (strapStatus s.boot)) s) := by
  show execSmbStatus s = _
  simp only [execSmbStatus, h, if_true]

theorem smbTemp_answers (s : State) (h : smbAnswers s false = true) :
    exec .smbTemp s = .next (smbReply 0x03 (leBytes (smbTempWord s).toNat 2) s) := by
  show execSmbTemp s = _
  simp only [execSmbTemp, h, if_true]

theorem smbTill_answers (s : State) (h : smbAnswers s false = true) :
    exec .smbTill s = .next (smbBlock 0x04 (leBytes s.pwr.till.toNat 8) s) := by
  show execSmbTill s = _
  simp only [execSmbTill, h, if_true]

theorem capCeilingRead_answers (s : State) (h : smbAnswers s false = true) :
    exec .capCeilingRead s = .next (smbReply 0x10 (leBytes s.pwr.ceiling.toNat 2) s) := by
  show execCapCeilingRead s = _
  simp only [execCapCeilingRead, h, if_true]

theorem ledgerNext_entry (s : State) (e : LedgerEntry) (h : smbAnswers s false = true)
    (he : ledgerFrom s.ledger (s.ledger.smbPtr + 1) = some e) :
    exec .ledgerNext s = .next (smbBlock 0x05 (ledgerBytes e) (s.setLedger { s.ledger with smbPtr := e.seqNo })) := by
  show execLedgerNext s = _
  simp only [execLedgerNext, h, he, Bool.not_true, Bool.false_eq_true, if_false]

theorem ledgerNext_end (s : State) (h : smbAnswers s false = true) (he : ledgerFrom s.ledger (s.ledger.smbPtr + 1) = none) :
    exec .ledgerNext s = .next (smbBlock 0x05 [] s) := by
  show execLedgerNext s = _
  simp only [execLedgerNext, h, he, Bool.not_true, Bool.false_eq_true, if_false]

/-! ### CAP_CEILING's write (R29, R30) -/

/-- The low bits of a word are the word cut to them. -/
theorem bits_zero {n : Nat} (x : BitVec n) (w : Nat) : bits x 0 w = x.setWidth w := by
  ext i hi
  simp [bits]

theorem capCeilingWrite_goodCode (w : Half) (s : State) (h : smbAnswers s false = true) :
    exec (.capCeilingWrite w true) s =
      .next (if w = 0 ∨ (600 ≤ w.toNat ∧ w.toNat ≤ 2600) then s.setPwr { s.pwr with ceiling := w.setWidth 12 } else s) := by
  show execCapCeilingWrite w true s = _
  simp only [execCapCeilingWrite, h, bits_zero, Bool.not_true, Bool.false_eq_true, if_false, Bool.or_eq_true, Bool.and_eq_true,
    decide_eq_true_eq]
  split <;> rfl

theorem capCeilingWrite_wrongCode (w : Half) (s : State) (h : smbAnswers s false = true) :
    exec (.capCeilingWrite w false) s = .next (s.setPins { s.pins with pecErrors := s.pins.pecErrors + 1 }) := by
  show execCapCeilingWrite w false s = _
  simp [execCapCeilingWrite, h]

/-! ### SMB_ALERT_N (R31) -/

/-- A pin cause stands while THERM_TRIP_N or FAULT_N is low. -/
theorem alertPins_ne_zero (s : State) (h : s.pins.thermTripN = false ∨ faultN s = false) : alertPins s ≠ 0 := by
  unfold alertPins
  rcases h with h | h <;> rw [h] <;> generalize throttleN s = t
  · cases faultN s <;> cases t <;> decide
  · cases s.pins.thermTripN <;> cases t <;> decide

theorem smbAlertN_eq_false_iff (s : State) : smbAlertN s = false ↔ s.pwr.v48 = true ∧
    (alertPins s &&& ~~~ s.pins.alertOff.1 ≠ 0 ∨ errorBeyond s (laterSeq s.ledger.smbPtr s.pins.alertOff.2) = true) := by
  simp only [smbAlertN, Bool.not_eq_false', Bool.and_eq_true, Bool.or_eq_true, decide_eq_true_eq]

/-- With no cause released, a low THERM_TRIP_N or FAULT_N holds the alert low. -/
theorem smbAlertN_low (s : State) (hv : s.pwr.v48 = true) (ho : s.pins.alertOff.1 = 0)
    (h : s.pins.thermTripN = false ∨ faultN s = false) : smbAlertN s = false := by
  refine (smbAlertN_eq_false_iff s).2 ⟨hv, .inl ?_⟩
  rw [ho, BitVec.ofNat_eq_ofNat, BitVec.not_zero, BitVec.and_allOnes]
  exact alertPins_ne_zero s h

/-- The state after the Alert Response Address was answered: every cause that stands is covered. -/
def alertReleased (s : State) : State :=
  { s with pins := { s.pins with alertOff := (alertPins s, s.ledger.seqNo) }, out := { s.out with smb := [0x5A] } }

theorem smbusAlertResponse_low (s : State) (h : smbAlertN s = false) : exec .smbusAlertResponse s = .next (alertReleased s) := by
  show execSmbusAlertResponse s = _
  simp only [execSmbusAlertResponse, h, Bool.false_eq_true, if_false]
  rfl

theorem smbusAlertResponse_high (s : State) (h : smbAlertN s = true) : exec .smbusAlertResponse s = .next s := by
  show execSmbusAlertResponse s = _
  simp only [execSmbusAlertResponse, h, if_true]

/-- A release covers every pin cause that stands, so that the alert rises unless an error lies beyond the newest entry. -/
theorem smbAlertN_alertReleased (s : State) (h : errorBeyond s (laterSeq s.ledger.smbPtr s.ledger.seqNo) = false) :
    smbAlertN (alertReleased s) = true := by
  have hp : alertPins (alertReleased s) &&& ~~~ (alertReleased s).pins.alertOff.1 = 0 := BitVec.and_not_self _
  rw [← Bool.not_eq_false]
  intro hl
  rcases ((smbAlertN_eq_false_iff _).1 hl).2 with hc | hc
  · exact hc hp
  · exact Bool.false_ne_true (h.symm.trans hc)

/-- Settles O13: each command of the port has one lemma per answer, and the release covers what stands. -/
theorem managementPort : Obligations.ManagementPort := by
  refine ⟨fun s => ⟨fun h => ⟨smbIdent_answers s h, smbStatus_answers s h⟩, fun h => ?_, early_reads_silent s, fun h => ?_⟩,
    fun w s h => ⟨capCeilingWrite_goodCode w s h, capCeilingWrite_wrongCode w s h⟩, smbAlertN_low,
    fun s hl he => ⟨alertReleased s, smbusAlertResponse_low s hl, rfl, smbAlertN_alertReleased s he, rfl⟩, smbusAlertResponse_high⟩
  · exact ⟨smbTemp_answers s h, smbTill_answers s h, capCeilingRead_answers s h, fun e => ledgerNext_entry s e h, ledgerNext_end s h⟩
  · obtain ⟨htemp, htill, hcap, hnext⟩ := late_reads_silent s h
    exact ⟨htemp, htill, hcap, hnext, fun w ok => capCeilingWrite_silent w ok s h⟩

end Sys2Proof.Machine
end

section
/-! PROOFS. Market time: the reference (R26, R410, R411), loaded times (R416, R417), TIME_SYNC and its loss (R406 to R408), beacons and
elastic buffers (R399, R403, R404). -/
namespace Sys2Proof.Machine
open Sys2Proof

/-! ### The reference -/

theorem refIsUsable_eq_true_iff (edges : Bool) (err : Half) : refIsUsable edges err = true ↔
    edges = true ∧ err.toInt.natAbs ≤ 20000 := by
  simp [refIsUsable]

theorem refIsUsable_eq_false_iff (edges : Bool) (err : Half) : refIsUsable edges err = false ↔
    edges = false ∨ 20000 < err.toInt.natAbs := by
  rw [← Bool.not_eq_true, refIsUsable_eq_true_iff, not_and_or, Bool.not_eq_true, not_le]

theorem refLost_nothing (edges : Bool) (err : Half) (s : State) (h : s.time.present = false ∨ refIsUsable edges err = true) :
    exec (.refLost edges err) s = .next s := by
  show execRefLost edges err s = _
  rcases h with h | h <;> simp [execRefLost, h]

theorem refLost_noted (edges : Bool) (err : Half) (s : State) (hp : s.time.present = true) (hu : refIsUsable edges err = false)
    (h : s.time.running = false ∨ s.pwr.mstate = 2) :
    exec (.refLost edges err) s = .next (s.setTime { s.time with present := false, freqErr := err }) := by
  show execRefLost edges err s = _
  rcases h with h | h <;> simp [execRefLost, hp, hu, h]

/-- The time base as the hub oscillator takes over (R410). -/
def heldOver (err : Half) (s : State) : TimeBase :=
  { s.time with
    present := false, locked := false, holdover := true, lost := true, lossCnt := satAdd s.time.lossCnt 1, freqErr := err,
    holdSince := if s.time.holdover then s.time.holdSince else s.ns }

theorem refLost_holdover (edges : Bool) (err : Half) (s : State) (hp : s.time.present = true) (hr : s.time.running = true)
    (hm : s.pwr.mstate ≠ 2) (hu : refIsUsable edges err = false) :
    ∃ t, exec (.refLost edges err) s = .next t ∧ t.time = heldOver err s := by
  refine ⟨_, ?_, postEvent_time 0x0601 1 0 (leBytes (heldOver err s).lossCnt.toNat 2) (s.setTime (heldOver err s))⟩
  have hlost : (!s.time.present || refIsUsable edges err) = false := by rw [hp, hu]; rfl
  have hawake : (!s.time.running || decide (s.pwr.mstate = 2)) = false := by rw [hr, decide_eq_false hm]; rfl
  show execRefLost edges err s = _
  simp only [execRefLost, hlost, hawake, Bool.false_eq_true, if_false]
  rfl

theorem refRestored_nothing (err : Half) (s : State)
    (h : s.time.present = true ∨ 20000 < err.toInt.natAbs ∨ (s.time.running = false ∧ s.boot.refWait = none)) :
    exec (.refRestored err) s = .next s := by
  show execRefRestored err s = _
  rcases h with h | h | ⟨hr, hw⟩
  · simp [execRefRestored, h]
  · simp [execRefRestored, (refIsUsable_eq_false_iff true err).2 (.inr h)]
  · simp [execRefRestored, hr, hw]

theorem refRestored_noted (err : Half) (s : State) (hp : s.time.present = false) (he : err.toInt.natAbs ≤ 20000)
    (h : (s.time.running = false ∧ s.boot.refWait ≠ none) ∨ (s.time.running = true ∧ s.pwr.mstate = 2)) :
    exec (.refRestored err) s = .next (s.setTime { s.time with present := true, freqErr := err }) := by
  have hu : refIsUsable true err = true := (refIsUsable_eq_true_iff true err).2 ⟨rfl, he⟩
  show execRefRestored err s = _
  rcases h with ⟨hr, hw⟩ | ⟨hr, hm⟩
  · simp [execRefRestored, hp, hu, hr, Option.isSome_iff_ne_none.2 hw]
  · simp [execRefRestored, hp, hu, hr, hm]

theorem refRestored_relocks (err : Half) (s : State) (hp : s.time.present = false) (hr : s.time.running = true) (hm : s.pwr.mstate ≠ 2)
    (he : err.toInt.natAbs ≤ 20000) :
    ∃ t, exec (.refRestored err) s = .next t
      ∧ t.time = { s.time with present := true, freqErr := err, locked := true, holdover := false } := by
  have hu : refIsUsable true err = true := (refIsUsable_eq_true_iff true err).2 ⟨rfl, he⟩
  refine ⟨_, ?_, postEvent_time 0x0602 1 0 (leBytes (min ((s.ns - s.time.holdSince) / 1000) (2 ^ 32 - 1)) 4) (s.setTime _)⟩
  have hhere : (s.time.present || !refIsUsable true err || !(s.time.running || s.boot.refWait.isSome)) = false := by rw [hp, hu, hr]; rfl
  have hawake : (!s.time.running || decide (s.pwr.mstate = 2)) = false := by rw [hr, decide_eq_false hm]; rfl
  show execRefRestored err s = _
  simp only [execRefRestored, hhere, hawake, Bool.false_eq_true, if_false]

/-! ### Steps of market time (R401, R404, R416) -/

theorem spoilStart_cluster_other (b cl : Fin 48) (s : State) (h : b ≠ cl) : (spoilStart b s).cluster cl = s.cluster cl :=
  State.modCluster_other _ _ _ _ h

/-- A start taken before a step says so. -/
def Cluster.startSpoiled (c : Cluster) : Prop := ∀ x, c.sk.start = some x → x.stepped = true

theorem spoilStart_spoils (cl : Fin 48) (s : State) :
    ((spoilStart cl s).cluster cl).tkErr = (s.cluster cl).tkErr ∧ ((spoilStart cl s).cluster cl).startSpoiled := by
  simp only [spoilStart, State.modCluster_same, Cluster.startSpoiled, Option.map_eq_some_iff, true_and]
  rintro _ ⟨y, -, rfl⟩
  rfl

theorem stepTime_time (goal : Dword) (load : Bool) (s : State) :
    (stepTime goal load s).time = { s.time with mt := goal, era := s.time.era + 1, stepped := true, slew := 0 } := by
  simp only [stepTime, postEvent_time]
  rw [forAll_leaves State.time]
  · rfl
  · exact fun _ _ => rfl

/-- A step of market time steps every timekeeper with it. -/
theorem stepTime_cluster (goal : Dword) (load : Bool) (s : State) (cl : Fin 48) :
    ((stepTime goal load s).cluster cl).tkErr = 0 ∧ ((stepTime goal load s).cluster cl).startSpoiled := by
  simp only [stepTime, postEvent_cluster]
  refine forAll_clusters (fun c => c.tkErr = 0 ∧ c.startSpoiled) _ cl _ (fun t => ?_) (fun b t hb => ?_)
  · obtain ⟨herr, hstart⟩ := spoilStart_spoils cl (t.modCluster cl fun c => { c with tkErr := 0 })
    exact ⟨herr.trans (by rw [State.modCluster_same]), hstart⟩
  · rw [spoilStart_cluster_other _ _ _ hb, State.modCluster_other _ _ _ _ hb]

theorem timeLoad_nothing (w : Word) (s : State) (h : w.getLsbD 2 = false) : exec (.timeLoad w) s = .next s := by
  show execTimeLoad w s = _
  simp only [execTimeLoad, h, Bool.false_eq_true, if_false]

/-- The staged time is loaded on a root or a module that does not follow. -/
theorem timeLoad_steps (w : Word) (s : State) (h : w.getLsbD 2 = true) (hr : w.getLsbD 0 = true ∨ w.getLsbD 1 = false) :
    exec (.timeLoad w) s = .next (stepTime (BitVec.ofNat 64 (s.time.stagedLo.toNat + 2 ^ 32 * s.time.stagedHi.toNat)) true
      (s.setTime { s.time with root := w.getLsbD 0, follow := w.getLsbD 1 })) := by
  have hc : (w.getLsbD 0 || !w.getLsbD 1) = true := by simpa using hr
  show execTimeLoad w s = _
  simp only [execTimeLoad, timeCtrlWrite, h, hc, if_true, Bool.not_true, Bool.false_eq_true, if_false, State.setTime_time]

theorem timeLoad_error (w : Word) (s : State) (h : w.getLsbD 2 = true) (hr : w.getLsbD 0 = false) (hf : w.getLsbD 1 = true) :
    exec (.timeLoad w) s = .next (s.setTime { s.time with root := false, follow := true, loadErr := true }) := by
  show execTimeLoad w s = _
  simp only [execTimeLoad, timeCtrlWrite, h, hr, hf, if_true, Bool.not_true, Bool.or_self, Bool.false_eq_true, if_false]
  rfl

/-! ### TIME_SYNC (R406) and its loss (R408) -/

theorem syncLost_nothing (s : State) (h : s.time.root = true ∨ s.time.follow = false ∨ s.time.running = false
    ∨ s.time.lostTold = true ∨ s.ns < s.time.upAt + 1000000) : exec .syncLost s = .next s := by
  show execSyncLost s = _
  rcases h with h | h | h | h | h <;> simp [execSyncLost, h]

/-- The time base without an upstream (R408). -/
def TimeBase.unsynced (t : TimeBase) : TimeBase :=
  { t with
    stratum := 15, syncBit := false, firstDone := false, lastSample := none, aside := [], upstream := none, lostTold := true, slew := 0 }

theorem syncLost_unsyncs (s : State) (hr : s.time.root = false) (hf : s.time.follow = true) (hg : s.time.running = true)
    (ht : s.time.lostTold = false) (hn : s.time.upAt + 1000000 ≤ s.ns) :
    ∃ t, exec .syncLost s = .next t ∧ t.time = s.time.unsynced := by
  refine ⟨_, ?_, postEvent_time 0x0604 1 0 [s.time.upstream.elim 0xFF fun p => BitVec.ofNat 8 p.val] (s.setTime s.time.unsynced)⟩
  have hdue : (s.time.root || !s.time.follow || !s.time.running || s.time.lostTold || decide (s.ns < s.time.upAt + 1000000)) = false := by
    rw [hr, hf, hg, ht, decide_eq_false (not_lt.2 hn)]
    rfl
  show execSyncLost s = _
  simp only [execSyncLost, hdue, Bool.false_eq_true, if_false]
  cases s.time.upstream <;> rfl

/-- Frames waiting in the local injection queues. -/
def framesQueued (s : State) : Nat := (s.mach.inject.toList.map List.length).sum

/-- Replacing an entry of a list by one that counts one more adds one to the sum. -/
theorem sum_set_succ (l : List Nat) (i : Nat) (h : i < l.length) : (l.set i (l[i] + 1)).sum = l.sum + 1 := by
  induction l generalizing i with
  | nil => exact absurd h (Nat.not_lt_zero _)
  | cons a l ih =>
    cases i with
    | zero => simp [Nat.add_right_comm]
    | succ i => simp [ih i (Nat.lt_of_succ_lt_succ h), Nat.add_assoc]

theorem framesQueued_inject (f : Frame) (s : State) : framesQueued (inject f s) = framesQueued s + 1 := by
  simp only [framesQueued, inject, State.setMach_mach, Fin.getElem_fin, Vector.toList_set, List.map_set,
    List.length_append, List.length_singleton]
  simpa using sum_set_succ (s.mach.inject.toList.map List.length) (ix 16 (4 * (f.vc.toNat % 4) + f.cls.toNat)).val (by simp)

theorem framesQueued_forAll {α : Type} (l : List α) (g : α → State → Frame) (s : State) :
    framesQueued (forAll l (fun a u => inject (g a u) u) s) = framesQueued s + l.length := by
  induction l generalizing s with
  | nil => rfl
  | cons a l ih => exact (ih (inject (g a s) s)).trans (by rw [framesQueued_inject, List.length_cons]; omega)

theorem timeSyncSend_nothing (s : State) (h : (s.time.follow = false ∧ s.time.root = false) ∨ s.time.running = false
    ∨ (s.time.mt - s.time.lastSend).toNat < 65536) : exec .timeSyncSend s = .next s := by
  show execTimeSyncSend s = _
  rcases h with ⟨hf, hr⟩ | h | h
  · simp [execTimeSyncSend, hf, hr]
  · simp [execTimeSyncSend, h]
  · simp only [execTimeSyncSend, h, decide_true, Bool.or_true, if_true]

/-- The ports that are UP. -/
def upPorts (s : State) : List (Fin 16) := (List.finRange 16).filter fun p => (s.port p).state = 3

/-- A TIME_SYNC for every port that is UP. -/
theorem timeSyncSend_sends (s : State) (h : s.time.follow = true ∨ s.time.root = true) (hr : s.time.running = true)
    (hn : 65536 ≤ (s.time.mt - s.time.lastSend).toNat) :
    exec .timeSyncSend s = .next (forAll (upPorts s) (fun p u => inject (syncFrame u (u.port p).partnerAddr) u)
      (s.setTime { s.time with lastSend := s.time.mt })) := by
  have hc : (s.time.follow || s.time.root) = true := by simpa using h
  have hdue : (!(s.time.follow || s.time.root) || !s.time.running || decide ((s.time.mt - s.time.lastSend).toNat < 65536)) = false := by
    rw [hc, hr, decide_eq_false (not_lt.2 hn)]
    rfl
  show execTimeSyncSend s = _
  simp only [execTimeSyncSend, hdue, Bool.false_eq_true, if_false]
  rfl

/-! ### Beacons (R403, R404) -/

theorem timeBeacon_nothing (errs : List Int) (s : State) (h : s.time.running = false ∨ s.time.mt.toNat % 4096 ≠ 0) :
    exec (.timeBeacon errs) s = .next s := by
  show execTimeBeacon errs s = _
  rcases h with h | h <;> simp [execTimeBeacon, h]

theorem timeBeacon_corrects (errs : List Int) (s : State) (hr : s.time.running = true) (hm : s.time.mt.toNat % 4096 = 0) :
    exec (.timeBeacon errs) s =
      .next (forAll (List.finRange 48) (fun cl t => beaconAt cl (errs.getD cl.val (s.cluster cl).tkErr) t) s) := by
  show execTimeBeacon errs s = _
  simp [execTimeBeacon, hr, hm]

@[simp] theorem beaconAt_time (cl : Fin 48) (e : Int) (s : State) : (beaconAt cl e s).time = s.time := by
  simp only [beaconAt]
  split
  · rw [postEvent_time]
    rfl
  · rfl

theorem beaconAt_tkErr (cl : Fin 48) (e : Int) (s : State) :
    ((beaconAt cl e s).cluster cl).tkErr = if 64 < e.natAbs then 0 else e - e.sign := by
  simp only [beaconAt]
  split
  · rw [postEvent_cluster, (spoilStart_spoils cl _).1, State.modCluster_same]
  · rw [State.modCluster_same]

theorem beaconAt_cluster_other (b cl : Fin 48) (e : Int) (s : State) (h : b ≠ cl) : (beaconAt b e s).cluster cl = s.cluster cl := by
  simp only [beaconAt]
  split
  · rw [postEvent_cluster, spoilStart_cluster_other _ _ _ h, State.modCluster_other _ _ _ _ h]
  · rw [State.modCluster_other _ _ _ _ h]

/-! ### Elastic buffers (R399) -/

theorem fifoPointerCheck_nothing (port : Bool) (i : Fin 50) (n : Nat) (s : State)
    (h : s.time.running = false ∨ (port = true ∧ 16 ≤ i.val)) : exec (.fifoPointerCheck port i n) s = .next s := by
  show execFifoPointerCheck port i n s = _
  rcases h with h | ⟨hp, hi⟩
  · simp [execFifoPointerCheck, h]
  · simp [execFifoPointerCheck, hp, hi]

/-- The time base with an elastic buffer's separation: a port's or a PHY's. -/
def TimeBase.separated (t : TimeBase) (port : Bool) (i : Fin 50) (n : Nat) : TimeBase :=
  if port then { t with fifoPort := t.fifoPort.set (ix 16 i.val) n } else { t with fifoPhy := t.fifoPhy.set i n }

theorem fifoPointerCheck_keeps (port : Bool) (i : Fin 50) (n : Nat) (s : State) (hr : s.time.running = true)
    (hi : port = true → i.val < 16) (hn : 2 ≤ n ∧ n ≤ 6) :
    exec (.fifoPointerCheck port i n) s = .next (s.setTime (s.time.separated port i n)) := by
  have hdue : (port && decide (16 ≤ i.val) || !s.time.running) = false := by simpa [hr] using hi
  have hok : (decide (2 ≤ n) && decide (n ≤ 6)) = true := by simpa using hn
  show execFifoPointerCheck port i n s = _
  simp only [execFifoPointerCheck, hdue, hok, Bool.false_eq_true, if_false, if_true]
  rfl

theorem fifoPointerCheck_centres (port : Bool) (i : Fin 50) (n : Nat) (s : State) (hr : s.time.running = true)
    (hi : port = true → i.val < 16) (hn : n < 2 ∨ 6 < n) :
    ∃ t, exec (.fifoPointerCheck port i n) s = .next t ∧ t.time = s.time.separated port i 4 := by
  refine ⟨_, ?_, postEvent_time 0x0605 1 0 [BitVec.ofNat 8 (b2n port), BitVec.ofNat 8 i.val] (s.setTime (s.time.separated port i 4))⟩
  have hdue : (port && decide (16 ≤ i.val) || !s.time.running) = false := by simpa [hr] using hi
  have hslip : (decide (2 ≤ n) && decide (n ≤ 6)) = false := by
    rw [Bool.and_eq_false_iff, decide_eq_false_iff_not, decide_eq_false_iff_not]
    omega
  show execFifoPointerCheck port i n s = _
  simp only [execFifoPointerCheck, hdue, hslip, Bool.false_eq_true, if_false]
  rfl

/-! ### The statement -/

/-- Settles O50: one lemma per command and case; a step and a beacon are followed cluster by cluster. -/
theorem marketTime : Obligations.MarketTime := by
  refine ⟨fun s => ⟨?_, ?_, ?_, ?_, ?_, ?_, ?_, ?_, syncLost_nothing s, timeSyncSend_nothing s, ?_, ?_, ?_⟩, ?_,
    fun s hr => ⟨?_, ?_, ?_, ?_, ?_, ?_⟩⟩
  · exact fun edges err h => refLost_nothing edges err s (h.imp_right (refIsUsable_eq_true_iff edges err).2)
  · intro edges err hp hr hm hu
    obtain ⟨t, ht, htime⟩ := refLost_holdover edges err s hp hr hm ((refIsUsable_eq_false_iff edges err).2 hu)
    refine ⟨t, ht, ?_⟩
    rw [htime]
    exact ⟨rfl, rfl, rfl, rfl, rfl, rfl, rfl, rfl⟩
  · exact fun edges err hp h hu => refLost_noted edges err s hp ((refIsUsable_eq_false_iff edges err).2 hu) h
  · exact fun err _ he => refRestored_nothing err s (.inr (.inl he))
  · exact fun err => refRestored_relocks err s
  · exact fun err h => refRestored_nothing err s (h.imp_right .inr)
  · exact fun err => refRestored_noted err s
  · exact fun w => timeLoad_nothing w s
  · refine fun w hw => ⟨fun h => ?_, timeLoad_error w s hw⟩
    refine ⟨_, timeLoad_steps w s hw h, ?_, ?_, ?_, ?_, ?_, stepTime_cluster _ _ _⟩ <;> rw [stepTime_time] <;> rfl
  · intro hr hf hg ht hn
    obtain ⟨t, he, htime⟩ := syncLost_unsyncs s hr hf hg ht hn
    refine ⟨t, he, ?_⟩
    rw [htime]
    exact ⟨rfl, rfl, rfl, rfl, rfl, rfl⟩
  · intro hf hr hn
    refine ⟨_, timeSyncSend_sends s hf hr hn, ?_, fun hdown => ?_, framesQueued_forAll ..⟩
    · exact forAll_leaves State.time _ _ _ fun _ _ => rfl
    · have hnone : upPorts s = [] := List.filter_eq_nil_iff.2 fun p _ => by simpa using hdown p
      rw [hnone]
      rfl
  · exact fun s errs port i n hr => ⟨timeBeacon_nothing errs s (.inl hr), fifoPointerCheck_nothing port i n s (.inl hr)⟩
  · intro errs hm
    refine ⟨_, timeBeacon_corrects errs s hr hm, forAll_leaves State.time _ _ _ fun _ _ => beaconAt_time .., fun cl => ?_⟩
    exact forAll_clusters (fun c => c.tkErr = _) _ cl s (fun t => beaconAt_tkErr cl _ t) fun b t hb => beaconAt_cluster_other b cl _ t hb
  · exact fun errs hm => timeBeacon_nothing errs s (.inr hm)
  · exact fun i n h2 h6 => ⟨fifoPointerCheck_keeps false i n s hr nofun ⟨h2, h6⟩,
      fun hi => fifoPointerCheck_keeps true i n s hr (fun _ => hi) ⟨h2, h6⟩⟩
  · exact fun i n => fifoPointerCheck_centres false i n s hr nofun
  · exact fun i n hi => fifoPointerCheck_centres true i n s hr fun _ => hi
  · exact fun i n hi => fifoPointerCheck_nothing true i n s (.inr ⟨rfl, hi⟩)

end Sys2Proof.Machine
end

section
/-! PROOFS. What start-up leaves alone: the boot ROM's step (R283 to R287), the steps from 5 to 9 (R279), and what lasts through all
of them. -/
namespace Sys2Proof.Machine
open Sys2Proof

/-! ### The steps from 5 to 8 touch neither the pins nor time, and the boot state only in STEP and DEGRADED -/

/-- What steps 5 to 8 leave alone. -/
def settled (s : State) : Boot × TimeBase × Pins × Security := ({ s.boot with step := 0, degraded := false }, s.time, s.pins, s.sec)

theorem settled_eq {s t : State} (h : settled t = settled s) :
    t.boot = { s.boot with step := t.boot.step, degraded := t.boot.degraded } ∧ t.time = s.time
      ∧ t.pins = s.pins ∧ t.sec = s.sec := by
  simp only [settled, Prod.mk.injEq] at h
  obtain ⟨hboot, hrest⟩ := h
  exact ⟨congrArg (fun b => { b with step := t.boot.step, degraded := t.boot.degraded }) hboot, hrest⟩

@[simp] theorem settled_postEvent (kind : Half) (sev : Nat) (source : Word) (data : List Byte) (s : State) :
    settled (postEvent kind sev source data s) = settled s := by simp [settled]

@[simp] theorem settled_setDegraded (s : State) : settled (setDegraded s) = settled s := by
  simp only [setDegraded, settled_postEvent]
  rfl

@[simp] theorem settled_setStep (s : State) (n : BitVec 4) : settled (s.setBoot { s.boot with step := n }) = settled s := rfl
@[simp] theorem settled_modCluster (s : State) (cl : Fin 48) (f : Cluster → Cluster) : settled (s.modCluster cl f) = settled s := rfl
@[simp] theorem settled_setLaunch (s : State) (l : Launch) : settled (setLaunch l s) = settled s := rfl
@[simp] theorem settled_setGddr (s : State) (x : Gddr) : settled (s.setGddr x) = settled s := rfl

@[simp] theorem settled_haltCommanded (c : Fin 384) (k : Fin 8) (s : State) : settled (haltCommanded c k s) = settled s := by
  simp only [haltCommanded, haltStation]
  split <;> rfl

@[simp] theorem settled_endCluster (cl : Fin 48) (status : Byte) (s : State) : settled (endCluster cl status s) = settled s := by
  simp only [endCluster, settled_modCluster]
  exact forAll_leaves settled _ _ _ fun _ _ => settled_haltCommanded ..

@[simp] theorem settled_failLaunch (cl : Fin 48) (s : State) : settled (failLaunch cl s) = settled s := by
  simp only [failLaunch]
  split
  · rfl
  · rw [settled_setLaunch]
    refine forAll_leaves settled _ _ _ fun x t => ?_
    split
    · simp
    · rfl

@[simp] theorem settled_stackOut (st : Nat) (s : State) : settled (stackOut st s) = settled s := by
  simp only [stackOut, settled_postEvent, settled_setDegraded]
  refine forAll_leaves settled _ _ _ fun cl t => ?_
  split
  · rfl
  · simp

@[simp] theorem settled_clusterOut (cl : Fin 48) (cause : Byte) (s : State) : settled (clusterOut cl cause s) = settled s := by
  simp only [clusterOut]
  split
  · rfl
  · simp

theorem settled_formSeams (bad : BitVec 4) (lanes : List (Fin 12 × Fin 32 × Fin 17)) (s : State) :
    settled (formSeams bad lanes s) = settled s := by
  have hfold : ∀ (l : List Nat) (out : Nat → Bool) (t : State),
      settled (l.foldl (fun t st => if out st then stackOut st t else t) t) = settled t := fun l out t =>
    forAll_leaves settled l (fun st t => if out st then stackOut st t else t) t fun st t => by split <;> simp
  simp only [formSeams, settled_setStep]
  split
  · rw [settled_setDegraded, hfold]
    rfl
  · rw [hfold]
    rfl

theorem settled_startClustersUp (bad : BitVec 48) (s : State) : settled (startClustersUp bad s) = settled s := by
  simp only [startClustersUp, settled_setStep]
  rw [forAll_leaves settled _ _ _ fun _ _ => settled_clusterOut ..]
  exact forAll_leaves settled _ _ _ fun _ _ => rfl

theorem settled_trainMemory (fails : List PhyFail) (s : State) : settled (trainMemory fails s) = settled s := by
  simp only [trainMemory, settled_setStep]
  split <;> simp

/-! ### Steps 5 to 9 -/

/-- Steps 5 to 9, in recovery as well, come to step 8 with nothing but STEP and DEGRADED changed, and then to the link. -/
theorem finishStart_eq_linkUp (e : StartupEnv) (s : State) :
    ∃ u, finishStart e s = linkUp u ∧ u.boot.step = 8 ∧ settled u = settled s := by
  simp only [finishStart]
  split
  · exact ⟨_, rfl, rfl, rfl⟩
  · exact ⟨_, rfl, rfl, by rw [settled_setStep, settled_trainMemory, settled_startClustersUp, settled_formSeams]; rfl⟩

theorem linkUp_low (s : State) (h : s.pins.perstN = false) : linkUp s = s := by simp [linkUp, h]

theorem linkUp_high (s : State) (h : s.pins.perstN = true) :
    linkUp s = { s with
      pins := { s.pins with modReady := true }, pcie := { s.pcie with up := true }, boot := { s.boot with step := 9 } } := by
  rw [linkUp, if_neg (by simp [h])]
  rfl

theorem finishStart_time (e : StartupEnv) (s : State) : (finishStart e s).time = s.time := by
  obtain ⟨u, hu, -, hs⟩ := finishStart_eq_linkUp e s
  obtain ⟨-, htime, -⟩ := settled_eq hs
  rw [hu, ← htime]
  simp only [linkUp]
  split <;> rfl

theorem finishStart_boot (e : StartupEnv) (s : State) :
    (finishStart e s).boot = { s.boot with step := if s.pins.perstN then 9 else 8, degraded := (finishStart e s).boot.degraded } := by
  obtain ⟨u, hu, h8, hs⟩ := finishStart_eq_linkUp e s
  obtain ⟨hboot, -, hpins, -⟩ := settled_eq hs
  rw [h8] at hboot
  rw [hu, ← hpins]
  cases hp : u.pins.perstN
  · rw [linkUp_low u hp]
    exact hboot
  · rw [linkUp_high u hp, hboot]
    rfl

/-- With PERST_N high start-up ends with the link up and MOD_READY high. -/
theorem finishStart_ready (e : StartupEnv) (s : State) (h : s.pins.perstN = true) :
    (finishStart e s).pins.modReady = true ∧ (finishStart e s).pcie.up = true := by
  obtain ⟨u, hu, -, hs⟩ := finishStart_eq_linkUp e s
  obtain ⟨-, -, hpins, -⟩ := settled_eq hs
  rw [hu, linkUp_high u (by rw [hpins]; exact h)]
  exact ⟨rfl, rfl⟩

/-! ### Step 3 -/

@[simp] theorem writeRec_sessions (b : BootRec) (x : Security) : (writeRec b x).sessions = x.sessions := by
  simp only [writeRec]
  split <;> rfl

theorem chooseImage_sessions (x : Security) : (chooseImage x).2.sessions = x.sessions := by
  unfold chooseImage
  extract_lets r first tried y
  have hy : y.2.sessions = x.sessions := by
    simp only [y]
    split
    · split
      · split <;> exact writeRec_sessions ..
      · exact writeRec_sessions ..
    · rfl
  split
  · exact hy
  · split
    · exact hy
    · split
      · exact (writeRec_sessions ..).trans hy
      · exact hy

@[simp] theorem blowMissing_sessions (old : Security) (slot trial : Bool) (x : Security) :
    (blowMissing old slot trial x).sessions = x.sessions := by
  simp only [blowMissing]
  split <;> rfl

theorem fallbackEntry_eventOnly (old : Security) (slot : Bool) (s : State) : EventOnly s (fallbackEntry old slot s) := by
  simp only [fallbackEntry]
  split
  · split
    · exact .refl s
    · exact ledgerAdd_eventOnly ..
  · exact .refl s

@[simp] theorem bootClerk_pins (s : State) : (bootClerk s).pins = s.pins := by
  simp only [bootClerk]
  split
  · rw [ledgerAdd_pins, (fallbackEntry_eventOnly ..).pins]
    rfl
  · rw [postEvent_pins]
    rfl

@[simp] theorem bootClerk_sessions (s : State) : (bootClerk s).sec.sessions = s.sec.sessions := by
  simp only [bootClerk]
  split
  · rw [ledgerAdd_sec, (fallbackEntry_eventOnly ..).sec]
    simp [bootedAs, chooseImage_sessions]
  · rw [postEvent_sec]
    exact chooseImage_sessions s.sec

/-- Step 3 completes: the clerk boots, or recovery begins with a fatal fault. -/
theorem bootClerk_boot (s : State) :
    ∃ r f, (bootClerk s).boot = { s.boot with step := 3, clerkServed := s.ns, recovery := r, fatal := f } := by
  simp only [bootClerk]
  split
  · refine ⟨s.boot.recovery, s.boot.fatal, ?_⟩
    rw [ledgerAdd_boot, (fallbackEntry_eventOnly ..).boot]
    rfl
  · refine ⟨true, true, ?_⟩
    rw [postEvent_boot]
    rfl

end Sys2Proof.Machine
end

section
/-! PROOFS. Start-up from power-on and from its holds (R17, R27, R279, R282). -/
namespace Sys2Proof.Machine
open Sys2Proof

/-! ### What lasts through start-up -/

/-- What no step of start-up from step 3 on changes: RESET_CAUSE's cause, the straps, the live sessions, and the levels of MOD_RESET_N,
PERST_N and EXTEST. -/
def lasting (s : State) : Byte × BitVec 18 × List Session × Bool × Bool × Bool :=
  (s.boot.cause, s.boot.straps, s.sec.sessions, s.pins.modResetN, s.pins.perstN, s.pins.extest)

theorem lasting_eq {s t : State} (h : lasting t = lasting s) :
    t.boot.cause = s.boot.cause ∧ t.boot.straps = s.boot.straps ∧ t.sec.sessions = s.sec.sessions
      ∧ t.pins.modResetN = s.pins.modResetN ∧ t.pins.perstN = s.pins.perstN ∧ t.pins.extest = s.pins.extest := by
  simpa only [lasting, Prod.mk.injEq] using h

theorem lasting_of_settled {s t : State} (h : settled t = settled s) : lasting t = lasting s := by
  obtain ⟨hboot, -, hpins, hsec⟩ := settled_eq h
  simp only [lasting, hpins, hsec]
  rw [hboot]

theorem lasting_linkUp (s : State) : lasting (linkUp s) = lasting s := by
  simp only [linkUp]
  split <;> rfl

theorem lasting_finishStart (e : StartupEnv) (s : State) : lasting (finishStart e s) = lasting s := by
  obtain ⟨u, hu, -, hs⟩ := finishStart_eq_linkUp e s
  rw [hu, lasting_linkUp, lasting_of_settled hs]

theorem lasting_startTime (usable : Bool) (err : Half) (s : State) : lasting (startTime usable err s) = lasting s := rfl

theorem lasting_bootClerk (s : State) : lasting (bootClerk s) = lasting s := by
  obtain ⟨r, f, hboot⟩ := bootClerk_boot s
  simp only [lasting, bootClerk_pins, bootClerk_sessions, hboot]

/-! ### From step 3 on -/

/-- The state after step 3. -/
def clerkUp (s : State) : State := bootClerk (rearm (s.setPins { s.pins with thermTripN := true }))

theorem startOn_withReference (e : StartupEnv) (s : State) (h : e.refUsable = true) :
    startOn e s = finishStart e (startTime true e.refErr (clerkUp s)) := by
  simp only [startOn, h, if_true]
  rfl

theorem startOn_waits (e : StartupEnv) (s : State) (h : e.refUsable = false) :
    startOn e s = (clerkUp s).setBoot { (clerkUp s).boot with refWait := some s.ns } := by
  simp only [startOn, h, Bool.false_eq_true, if_false]
  rfl

theorem lasting_clerkUp (s : State) : lasting (clerkUp s) = lasting s := lasting_bootClerk _

theorem clerkUp_boot (s : State) :
    ∃ r f, (clerkUp s).boot = { s.boot with step := 3, clerkServed := s.ns, recovery := r, fatal := f } := bootClerk_boot _

theorem lasting_startOn (e : StartupEnv) (s : State) : lasting (startOn e s) = lasting s := by
  cases h : e.refUsable
  · rw [startOn_waits e s h]
    exact lasting_clerkUp s
  · rw [startOn_withReference e s h, lasting_finishStart, lasting_startTime, lasting_clerkUp]

/-! ### From step 2 on -/

theorem mayLeaveStep2_low (s : State) (h : s.pins.modResetN = false) : mayLeaveStep2 s = false := by simp [mayLeaveStep2, h]

theorem mayLeaveStep2_high (s : State) (h : s.pins.modResetN = true) (hc : s.boot.cause ≠ 5) : mayLeaveStep2 s = true := by
  simp only [mayLeaveStep2, h, decide_eq_true hc, Bool.true_or, Bool.and_self]

/-- Whether the module holds at the end of step 2. -/
def setHold (held : Bool) (s : State) : State := s.setBoot { s.boot with holdReset := held }

theorem fromStep2_holds (e : StartupEnv) (s : State) (h : mayLeaveStep2 s = false) :
    fromStep2 e s = setHold true s := by
  simp only [fromStep2, h, Bool.false_eq_true, if_false]
  rfl

theorem fromStep2_leaves (e : StartupEnv) (s : State) (h : mayLeaveStep2 s = true) :
    fromStep2 e s = startOn e (setHold false s) := by
  simp only [fromStep2, h, if_true]
  rfl

theorem lasting_fromStep2 (e : StartupEnv) (s : State) : lasting (fromStep2 e s) = lasting s := by
  cases h : mayLeaveStep2 s
  · rw [fromStep2_holds e s h]
    rfl
  · rw [fromStep2_leaves e s h]
    exact lasting_startOn ..

/-- While PERST_N is low step 9 does not complete. -/
theorem startOn_step_ne_nine (e : StartupEnv) (s : State) (hp : s.pins.perstN = false) : (startOn e s).boot.step ≠ 9 := by
  cases hr : e.refUsable
  · obtain ⟨r, f, hboot⟩ := clerkUp_boot s
    rw [startOn_waits e s hr, State.setBoot_boot, hboot]
    exact show (3 : BitVec 4) ≠ 9 by decide
  · obtain ⟨-, -, -, -, hperst, -⟩ := lasting_eq (lasting_clerkUp s)
    have hlow : (startTime true e.refErr (clerkUp s)).pins.perstN = false := hperst.trans hp
    rw [startOn_withReference e s hr, finishStart_boot, hlow]
    exact show (8 : BitVec 4) ≠ 9 by decide

theorem fromStep2_step_ne_nine (e : StartupEnv) (s : State) (hp : s.pins.perstN = false) (h2 : s.boot.step = 2) :
    (fromStep2 e s).boot.step ≠ 9 := by
  cases h : mayLeaveStep2 s
  · rw [fromStep2_holds e s h]
    exact h2.trans_ne (by decide)
  · rw [fromStep2_leaves e s h]
    exact startOn_step_ne_nine e _ hp

/-! ### Power-on and the holds' ends (R17, R27, R279) -/

/-- A module that has just got its 48 V, with the levels of its reset pins. -/
def powered (modResetN perstN : Bool) (s : State) : State :=
  { s with pwr := { s.pwr with v48 := true }, pins := { s.pins with modResetN := modResetN, perstN := perstN } }

theorem powerOn_startsUp (e : StartupEnv) (modResetN perstN : Bool) (s : State) (hv : s.pwr.v48 = false) (hc : s.boot.cause ≠ 5) :
    exec (.powerOn48vGood e modResetN perstN) s = .next (fromStep2 e (aonUp 1 e (powered modResetN perstN s))) := by
  show execPowerOn48vGood e modResetN perstN s = _
  simp only [execPowerOn48vGood, hv, hc, Bool.false_eq_true, if_false]
  rfl

theorem powerOn_nothing (e : StartupEnv) (modResetN perstN : Bool) (s : State) (hv : s.pwr.v48 = true) :
    exec (.powerOn48vGood e modResetN perstN) s = .next s := by
  show execPowerOn48vGood e modResetN perstN s = _
  simp only [execPowerOn48vGood, hv, if_true]

/-- Power-on with MOD_RESET_N low holds at the end of step 2. -/
theorem powerOn_holds (e : StartupEnv) (perstN : Bool) (s : State) (hv : s.pwr.v48 = false) (hc : s.boot.cause ≠ 5) :
    exec (.powerOn48vGood e false perstN) s =
      .next (setHold true (aonUp 1 e (powered false perstN s))) := by
  rw [powerOn_startsUp e false perstN s hv hc, fromStep2_holds _ _ (mayLeaveStep2_low _ rfl)]

/-- Power-on with MOD_RESET_N high goes on to step 3. -/
theorem powerOn_goesOn (e : StartupEnv) (perstN : Bool) (s : State) (hv : s.pwr.v48 = false) (hc : s.boot.cause ≠ 5) :
    exec (.powerOn48vGood e true perstN) s =
      .next (startOn e (setHold false (aonUp 1 e (powered true perstN s)))) := by
  rw [powerOn_startsUp e true perstN s hv hc, fromStep2_leaves _ _ (mayLeaveStep2_high _ rfl (show (1 : Byte) ≠ 5 by decide))]

theorem modResetNRelease_alone (e : StartupEnv) (s : State) (h : s.pwr.v48 = false ∨ s.boot.holdReset = false) :
    exec (.modResetNRelease e) s = .next { s with pins := { s.pins with modResetN := true, extest := false } } := by
  have hno : (s.pwr.v48 && s.boot.holdReset) = false := Bool.and_eq_false_iff.2 h
  show execModResetNRelease e s = _
  simp only [execModResetNRelease, hno, Bool.false_eq_true, if_false]
  rfl

/-- The state as MOD_RESET_N rises at a module that holds at step 2. -/
def resetReleased (s : State) : State :=
  { s with pins := { s.pins with modResetN := true, extest := false }, boot := { s.boot with holdReset := false } }

theorem modResetNRelease_goesOn (e : StartupEnv) (s : State) (hv : s.pwr.v48 = true) (hh : s.boot.holdReset = true)
    (hc : s.boot.cause ≠ 5) : exec (.modResetNRelease e) s = .next (startOn e (resetReleased s)) := by
  show execModResetNRelease e s = _
  simp only [execModResetNRelease, hv, hh, Bool.and_self, if_true]
  exact congrArg _ (fromStep2_leaves e (s.setPins { s.pins with modResetN := true, extest := false }) (mayLeaveStep2_high _ rfl hc))

theorem perstNRelease_alone (s : State) (h : s.pwr.v48 = false ∨ s.boot.step ≠ 8) :
    exec .perstNRelease s = .next { s with pins := { s.pins with perstN := true } } := by
  have hno : (s.pwr.v48 && decide (s.boot.step = 8)) = false := by
    rcases h with h | h
    · rw [h, Bool.false_and]
    · rw [decide_eq_false h, Bool.and_false]
  show execPerstNRelease s = _
  simp only [execPerstNRelease, hno, Bool.false_eq_true, if_false]
  rfl

theorem perstNRelease_links (s : State) (hv : s.pwr.v48 = true) (h8 : s.boot.step = 8) :
    exec .perstNRelease s = .next { s with
      pins := { s.pins with perstN := true, modReady := true }, pcie := { s.pcie with up := true },
      boot := { s.boot with step := 9 } } := by
  show execPerstNRelease s = _
  rw [execPerstNRelease, if_pos (by rw [hv, h8]; rfl), linkUp_high _ rfl]
  rfl

theorem refWaitTimeout_nothing (e : StartupEnv) (s : State) (h : s.boot.refWait = none) : exec (.refWaitTimeout e) s = .next s := by
  show execRefWaitTimeout e s = _
  simp only [execRefWaitTimeout, h]

theorem refWaitTimeout_early (e : StartupEnv) (s : State) (w : Nat) (h : s.boot.refWait = some w) (hp : s.time.present = false)
    (hn : s.ns < w + 10000000) : exec (.refWaitTimeout e) s = .next s := by
  show execRefWaitTimeout e s = _
  simp only [execRefWaitTimeout, h, hp, not_le.2 hn, decide_false, Bool.or_self, Bool.false_eq_true, if_false]

theorem refWaitTimeout_ends (e : StartupEnv) (s : State) (w : Nat) (h : s.boot.refWait = some w)
    (hn : s.time.present = true ∨ w + 10000000 ≤ s.ns) :
    exec (.refWaitTimeout e) s = .next (finishStart e (startTime s.time.present s.time.freqErr s)) := by
  have hend : (s.time.present || decide (w + 10000000 ≤ s.ns)) = true := by simpa using hn
  show execRefWaitTimeout e s = _
  simp only [execRefWaitTimeout, h, hend, if_true]

/-- Settles O10: start-up is followed through step 2, step 3 and the steps from 4 on, each by its own lemma. -/
theorem startUpRunsItsSteps : Obligations.StartUpRunsItsSteps := by
  refine ⟨fun e p s hv hc => ?_, fun e s hv hc hr => ?_, fun e s hv hh hc hr => ?_, perstNRelease_links, fun e s w hw hn => ?_,
    fun e s => ⟨fun m p => powerOn_nothing e m p s, modResetNRelease_alone e s, perstNRelease_alone s, refWaitTimeout_nothing e s,
      refWaitTimeout_early e s⟩⟩
  · exact ⟨_, powerOn_holds e p s hv hc, rfl, rfl, rfl, rfl, rfl, rfl, rfl, rfl, rfl, rfl, rfl, rfl, rfl, rfl⟩
  · generalize hu : setHold false (aonUp 1 e (powered true true s)) = u
    obtain ⟨hcause, hstraps, -⟩ := lasting_eq (lasting_startOn e u)
    obtain ⟨-, -, -, -, hperst, -⟩ := lasting_eq (lasting_clerkUp u)
    have hhigh : (startTime true e.refErr (clerkUp u)).pins.perstN = true := hperst.trans (by rw [← hu]; rfl)
    obtain ⟨hready, hlink⟩ := finishStart_ready e _ hhigh
    refine ⟨startOn e u, hu ▸ powerOn_goesOn e true s hv hc, ?_⟩
    rw [hcause, hstraps, startOn_withReference e u hr, finishStart_time, finishStart_boot, hhigh]
    exact ⟨rfl, hready, hlink, rfl, rfl, rfl, by rw [← hu]; rfl, by rw [← hu]; rfl⟩
  · obtain ⟨-, -, -, hreset, -, hextest⟩ := lasting_eq (lasting_startOn e (resetReleased s))
    obtain ⟨r, f, hboot⟩ := clerkUp_boot (resetReleased s)
    refine ⟨_, modResetNRelease_goesOn e s hv hh hc, hreset, hextest, ?_⟩
    rw [startOn_waits e _ hr, State.setBoot_boot, hboot]
    exact ⟨rfl, rfl, rfl⟩
  · refine ⟨_, refWaitTimeout_ends e s w hw hn, ?_⟩
    rw [finishStart_boot, finishStart_time]
    exact ⟨rfl, rfl, rfl, rfl, rfl, rfl⟩

end Sys2Proof.Machine
end

section
/-! PROOFS. Module resets (R18, R281, R282, R288, R328, R447) and the loss of 48 V (R16, R30, R428, R440, R477): what they keep and
lose, and what resets nothing. -/
namespace Sys2Proof.Machine
open Sys2Proof

/-! ### The end of debug keeps what a reset keeps -/

@[simp] theorem endDebug_boot (cause : Byte) (s : State) : (endDebug cause s).boot = s.boot := by rw [endDebug_eq]
@[simp] theorem endDebug_pwr (cause : Byte) (s : State) : (endDebug cause s).pwr = s.pwr := by rw [endDebug_eq]

theorem ledgerAdd_sections (kind : Half) (sev : Nat) (source : Half) (data : List Byte) (s : State) :
    (ledgerAdd kind sev source data s).ledger.sections = s.ledger.sections := by
  simp only [ledgerAdd]
  split <;> rfl

/-- Cutting an access short moves no input pin. -/
theorem cutAccess_pins (s : State) :
    (cutAccess s).pins = { s.pins with dbgBusy := (cutAccess s).pins.dbgBusy, dbgCut := (cutAccess s).pins.dbgCut } := by
  simp only [cutAccess]
  split <;> rfl

theorem endDebug_sections (cause : Byte) (s : State) : (endDebug cause s).ledger.sections = s.ledger.sections := by
  simp only [endDebug]
  split
  · rw [cutAccess_eq]
    exact ledgerAdd_sections ..
  · rfl

theorem endDebug_pins (cause : Byte) (s : State) : (endDebug cause s).pins =
    { s.pins with dbgBusy := (endDebug cause s).pins.dbgBusy, dbgCut := (endDebug cause s).pins.dbgCut } := by
  simp only [endDebug]
  split
  · rw [cutAccess_pins, ledgerAdd_pins]
    rfl
  · rfl

theorem keptSecurity_endDebug (cause : Byte) (s : State) : keptSecurity (endDebug cause s).sec = keptSecurity s.sec := by
  simp only [endDebug]
  split
  · rw [cutAccess_eq]
    simp only [ledgerAdd_sec]
    rfl
  · rfl

/-! ### What a reset leaves -/

/-- The block after a module reset's loss, debug ended. -/
def resetLoss (s : State) : State := wiped (endDebug 2 s)

theorem resetLoss_boot (s : State) : (resetLoss s).boot = s.boot := endDebug_boot 2 s
theorem resetLoss_pwr (s : State) : (resetLoss s).pwr = keptPower s.pwr := congrArg keptPower (endDebug_pwr 2 s)
theorem resetLoss_sec (s : State) : (resetLoss s).sec = keptSecurity s.sec := keptSecurity_endDebug 2 s
theorem resetLoss_sections (s : State) : (resetLoss s).ledger.sections = s.ledger.sections := endDebug_sections 2 s

theorem resetLoss_levels (s : State) : (resetLoss s).pins.modResetN = s.pins.modResetN ∧ (resetLoss s).pins.perstN = s.pins.perstN := by
  have h := endDebug_pins 2 s
  simp only [resetLoss, wiped]
  rw [h]
  exact ⟨rfl, rfl⟩

theorem resetLoss_ring (s : State) (r : Fin 256) : ((resetLoss s).ring r).state = .disabled ∧ ((resetLoss s).ring r).tag = none := by
  simp [State.ring, resetLoss, wiped, State.reset, Ring.reset]

theorem resetLoss_core_ls (s : State) (c : Fin 384) : ((resetLoss s).core c).ls = [] := by
  simp [State.core, resetLoss, wiped, keptSlices, Core.reset]

theorem resetLoss_wearMs (s : State) (cl : Fin 48) : ((resetLoss s).cpwr cl).wearMs = (s.cpwr cl).wearMs := by
  simp [State.cpwr, resetLoss_pwr, keptPower, keptWear]

/-! ### A module reset -/

/-- A module reset at the end of step 2. -/
def resetAtStep2 (cause : Byte) (e : StartupEnv) (s : State) : State := rearm (aonUp cause e (resetLoss s))

theorem resetAtStep2_boot (cause : Byte) (e : StartupEnv) (s : State) : (resetAtStep2 cause e s).boot = (aonUp cause e s).boot := by
  show (aonUp cause e (resetLoss s)).boot = _
  simp only [aonUp, State.setBoot_boot, resetLoss_boot]

theorem resetAtStep2_pwr (cause : Byte) (e : StartupEnv) (s : State) : (resetAtStep2 cause e s).pwr = keptPower s.pwr := resetLoss_pwr s
theorem resetAtStep2_sec (cause : Byte) (e : StartupEnv) (s : State) : (resetAtStep2 cause e s).sec = keptSecurity s.sec := resetLoss_sec s

/-- A module reset whose cause leaves no event is its loss, step 2, and the start-up that goes on from there. -/
theorem moduleReset_eq (cause : Byte) (e : StartupEnv) (s : State) (hc : cause ≠ 7) :
    moduleReset cause e s = fromStep2 e (resetAtStep2 cause e s) := by
  simp only [moduleReset, hc, if_false]
  rfl

/-- A module reset names its cause and ends every session. -/
theorem moduleReset_lasting (cause : Byte) (e : StartupEnv) (s : State) (hc : cause ≠ 7) :
    (moduleReset cause e s).boot.cause = cause ∧ (moduleReset cause e s).sec.sessions = []
      ∧ (moduleReset cause e s).pins.perstN = s.pins.perstN := by
  rw [moduleReset_eq cause e s hc]
  obtain ⟨hcause, -, hsess, -, hperst, -⟩ := lasting_eq (lasting_fromStep2 e (resetAtStep2 cause e s))
  exact ⟨hcause, hsess, hperst.trans (resetLoss_levels s).2⟩

/-- A module reset with MOD_RESET_N low holds at the end of step 2. -/
theorem moduleReset_holds (cause : Byte) (e : StartupEnv) (s : State) (hc : cause ≠ 7) (hr : s.pins.modResetN = false) :
    moduleReset cause e s = setHold true (resetAtStep2 cause e s) := by
  rw [moduleReset_eq cause e s hc]
  exact fromStep2_holds e _ (mayLeaveStep2_low _ ((resetLoss_levels s).1.trans hr))

/-! ### The sources of a module reset (R18, R281, R282, R288) -/

/-- The state as MOD_RESET_N falls. -/
def resetLow (s : State) : State := s.setPins { s.pins with modResetN := false }

/-- The cause of a module reset by the pin: the thermal shutdown that it ends, or the pin (R447). -/
def pinCause (s : State) : Byte := if s.pwr.mstate = 4 then 5 else 2

theorem pinCause_ne_seven (s : State) : pinCause s ≠ 7 := by
  unfold pinCause
  split <;> decide

theorem modResetNAssert_resets (e : StartupEnv) (s : State) (hv : s.pwr.v48 = true) (hr : s.pins.modResetN = true) :
    exec (.modResetNAssert e) s = .next (setHold true (resetAtStep2 (pinCause s) e (resetLow s))) := by
  rw [← moduleReset_holds _ e (resetLow s) (pinCause_ne_seven s) rfl]
  show execModResetNAssert e s = _
  simp only [execModResetNAssert, hv, hr, Bool.not_true, Bool.false_eq_true, if_false, if_true]
  rfl

theorem modResetNAssert_again (e : StartupEnv) (s : State) (hr : s.pins.modResetN = false) :
    exec (.modResetNAssert e) s = .next s := by
  show execModResetNAssert e s = _
  simp only [execModResetNAssert, hr, Bool.not_false, if_true]

/-- Without 48 V the pin falls, if it had not yet, and nothing more. -/
theorem modResetNAssert_unpowered (e : StartupEnv) (s : State) (hv : s.pwr.v48 = false) :
    exec (.modResetNAssert e) s = .next (resetLow s) := by
  cases hr : s.pins.modResetN
  · rw [modResetNAssert_again e s hr, resetLow, ← hr]
    rfl
  · show execModResetNAssert e s = _
    rw [execModResetNAssert, if_neg (by simp [hr]), if_neg (by simp [hv])]
    rfl

theorem modCtrlReset_resets (w : Word) (e : StartupEnv) (s : State) (hb : w.getLsbD 16 = true) (hk : bits w 0 16 = (0xA5C3 : Half))
    (hv : s.pwr.v48 = true) : exec (.modCtrlReset w e) s = .next (moduleReset 4 e s) := by
  show execModCtrlReset w e s = _
  rw [execModCtrlReset, if_pos (by rw [hb, decide_eq_true hk, hv]; rfl)]

theorem modCtrlReset_nothing (w : Word) (e : StartupEnv) (s : State)
    (h : w.getLsbD 16 = false ∨ bits w 0 16 ≠ (0xA5C3 : Half) ∨ s.pwr.v48 = false) : exec (.modCtrlReset w e) s = .next s := by
  have hno : (w.getLsbD 16 && decide (bits w 0 16 = (0xA5C3 : Half)) && s.pwr.v48) = false := by
    simpa only [Bool.and_eq_false_iff, decide_eq_false_iff_not, or_assoc] using h
  show execModCtrlReset w e s = _
  simp only [execModCtrlReset, hno, Bool.false_eq_true, if_false]

/-- The state as PERST_N falls. -/
def perstLow (s : State) : State := s.setPins { s.pins with perstN := false }

theorem perstNAssert_resets (e : StartupEnv) (s : State) (hp : s.pins.perstN = true) (hv : s.pwr.v48 = true) (h9 : s.boot.step = 9)
    (hm : s.pwr.mstate ≠ 4) : exec (.perstNAssert e) s = .next (moduleReset 3 e (perstLow s)) := by
  show execPerstNAssert e s = _
  rw [execPerstNAssert, if_pos (by rw [hp, hv, decide_eq_true h9, decide_eq_true hm]; rfl)]
  rfl

theorem perstNAssert_alone (e : StartupEnv) (s : State)
    (h : s.boot.step ≠ 9 ∨ s.pins.perstN = false ∨ s.pwr.v48 = false ∨ s.pwr.mstate = 4) :
    exec (.perstNAssert e) s = .next (perstLow s) := by
  have hno : (s.pins.perstN && s.pwr.v48 && decide (s.boot.step = 9) && decide (s.pwr.mstate ≠ 4)) = false := by
    simp only [Bool.and_eq_false_iff, decide_eq_false_iff_not, ne_eq, not_not]
    tauto
  show execPerstNAssert e s = _
  rw [execPerstNAssert, if_neg (ne_true_of_eq_false hno)]
  rfl

theorem clerkWatchdog_resets (e : StartupEnv) (s : State) (hv : s.pwr.v48 = true) (h3 : 3 ≤ s.boot.step.toNat)
    (hn : s.boot.clerkServed + 2000000000 ≤ s.ns) : exec (.clerkWatchdog e) s = .next (moduleReset 6 e s) := by
  show execClerkWatchdog e s = _
  rw [execClerkWatchdog, if_pos (by rw [hv, decide_eq_true h3, decide_eq_true hn]; rfl)]

theorem clerkWatchdog_nothing (e : StartupEnv) (s : State)
    (h : s.pwr.v48 = false ∨ s.boot.step.toNat < 3 ∨ s.ns < s.boot.clerkServed + 2000000000) :
    exec (.clerkWatchdog e) s = .next s := by
  have hno : (s.pwr.v48 && decide (3 ≤ s.boot.step.toNat) && decide (s.boot.clerkServed + 2000000000 ≤ s.ns)) = false := by
    simpa only [Bool.and_eq_false_iff, decide_eq_false_iff_not, not_le, or_assoc] using h
  show execClerkWatchdog e s = _
  simp only [execClerkWatchdog, hno, Bool.false_eq_true, if_false]

/-- Settles O11: every source leads to the one reset, whose loss and step 2 have their own lemmas. -/
theorem moduleResetsKeepAndLose : Obligations.ModuleResetsKeepAndLose := by
  refine ⟨fun e s hv hr => ⟨_, modResetNAssert_resets e s hv hr, ?_⟩,
    ⟨fun w e s hb hk hv => ?_, fun e s hp hv h9 hm => ?_, fun e s hv h3 hn => ?_⟩, modCtrlReset_nothing,
    fun e s => ⟨perstNAssert_alone e s, modResetNAssert_again e s, modResetNAssert_unpowered e s, clerkWatchdog_nothing e s⟩⟩
  · obtain ⟨hlow, -⟩ := resetLoss_levels (resetLow s)
    rw [setHold, State.setBoot_boot, State.setBoot_pwr, State.setBoot_sec, resetAtStep2_boot, resetAtStep2_pwr, resetAtStep2_sec]
    exact ⟨hlow, rfl, rfl, rfl, rfl, rfl, rfl, hv, rfl, rfl, rfl, rfl, rfl, rfl, rfl, rfl, rfl, rfl, rfl, rfl, rfl, rfl, rfl,
      resetLoss_sections (resetLow s), rfl, resetLoss_ring (resetLow s), resetLoss_core_ls (resetLow s), rfl, rfl, rfl⟩
  · obtain ⟨hcause, hsess, -⟩ := moduleReset_lasting 4 e s (by decide)
    exact ⟨_, modCtrlReset_resets w e s hb hk hv, hcause, hsess⟩
  · obtain ⟨hcause, hsess, hperst⟩ := moduleReset_lasting 3 e (perstLow s) (by decide)
    refine ⟨_, perstNAssert_resets e s hp hv h9 hm, hcause, hperst, ?_, hsess⟩
    rw [moduleReset_eq 3 e _ (by decide)]
    exact fromStep2_step_ne_nine e _ (resetLoss_levels (perstLow s)).2 rfl
  · obtain ⟨hcause, hsess, -⟩ := moduleReset_lasting 6 e s (by decide)
    exact ⟨_, clerkWatchdog_resets e s hv h3 hn, hcause, hsess⟩

/-! ### The loss of 48 V -/

theorem lossOf48v_nothing (s : State) (hv : s.pwr.v48 = false) : exec .lossOf48v s = .next s := by
  show execLossOf48v s = _
  simp only [execLossOf48v, hv, Bool.false_eq_true, if_false]

theorem lossOf48v_loses (s : State) (hv : s.pwr.v48 = true) : exec .lossOf48v s = .next (lose48 s) := by
  show execLossOf48v s = _
  simp only [execLossOf48v, hv, if_true]

theorem lose48_sec (s : State) :
    (lose48 s).sec = { keptSecurity s.sec with rejected := false, fails := 0, level := 0, lockUntil := none } := by
  rw [← resetLoss_sec s]
  rfl

/-- Settles O12: the loss is that of a module reset and more; what stays is what a reset keeps in flash and the secure store. -/
theorem lossOfPowerKeepsTheSecureStore : Obligations.LossOfPowerKeepsTheSecureStore := by
  refine ⟨lossOf48v_nothing, fun s hv => ⟨_, lossOf48v_loses s hv, ?_⟩⟩
  rw [lose48_sec]
  exact ⟨rfl, rfl, rfl, rfl, rfl, rfl, rfl, rfl, resetLoss_core_ls s, rfl, rfl, rfl, rfl, rfl, rfl, rfl, rfl,
    resetLoss_sections s, resetLoss_wearMs s⟩

end Sys2Proof.Machine
end

section
/-! PROOFS. Number formats: products of poison and zero (R50), what a store of a run writes and raises (R62, R64), and that VF4's
code 1000 loads as +0 and is never the result of a rounding (R36). -/
namespace Sys2Proof.Machine
open Sys2Proof

/-! ### Products -/

@[simp] theorem FNum.poison_mul (x : FNum) : FNum.mul .poison x = .poison := rfl

@[simp] theorem FNum.mul_poison (x : FNum) : FNum.mul x .poison = .poison := by cases x <;> rfl

@[simp] theorem FNum.fin_mul_fin (a b e f : Int) : FNum.mul (.fin a e) (.fin b f) = .fin (a * b) (e + f) := rfl

@[simp] theorem FNum.isPoison_fin (n e : Int) : (FNum.fin n e).isPoison = false := rfl

@[simp] theorem FNum.isPoison_poison : FNum.poison.isPoison = true := rfl

theorem FNum.isPoison_iff (x : FNum) : x.isPoison = true ↔ x = .poison := by cases x <;> simp

@[simp] theorem FNum.isZero_fin (n e : Int) : (FNum.fin n e).isZero = true ↔ n = 0 := beq_iff_eq

/-- Settles O57: poison absorbs on either side, and the product of two finite values is the product of their integers. -/
theorem productsOfPoisonAndZero : Obligations.ProductsOfPoisonAndZero := by
  refine fun x y => ⟨fun h => ?_, fun hx hy hz => ?_⟩
  · simp only [FNum.isPoison_iff] at h ⊢
    obtain rfl | rfl := h <;> simp
  · cases x with
    | poison => cases hx
    | fin a e =>
      cases y with
      | poison => cases hy
      | fin b f => simpa using hz

/-! ### The store of one element -/

@[simp] theorem storeElem_poison (f : Nat) (full sr : Bool) (scale : Byte) (g : Dword) :
    storeElem f full sr scale .poison g = (poisonCode f, { Ev.none with psn := 1 }, g) := rfl

/-- A finite element goes to the zero block as code 0, or is rounded once as a quotient with a positive divisor (R55, R63). -/
theorem storeElem_fin (f : Nat) (full sr : Bool) (scale : Byte) (n e : Int) (g : Dword) :
    storeElem f full sr scale (.fin n e) g = (0, { Ev.none with ufz := b2n (n ≠ 0) }, g)
    ∨ ∃ (d : Nat) (e' : Int), 0 < d ∧ storeElem f full sr scale (.fin n e) g = storeQ f full sr n d e' g := by
  simp only [storeElem]
  split
  · split
    · exact .inl rfl
    · exact .inr ⟨_, _, by omega, rfl⟩
  · exact .inr ⟨1, e, Nat.one_pos, rfl⟩

/-- A rounding store raises SAT or UFZ, never PSN (R60, R61). -/
theorem storeQ_psn (f : Nat) (full sr : Bool) (n : Int) (d : Nat) (e : Int) (g : Dword) :
    (storeQ f full sr n d e g).2.1.psn = 0 := by
  simp only [storeQ]
  split <;> rfl

theorem storeElem_psn (f : Nat) (full sr : Bool) (scale : Byte) (x : FNum) (g : Dword) :
    (storeElem f full sr scale x g).2.1.psn = b2n x.isPoison := by
  cases x with
  | poison => rfl
  | fin n e =>
    obtain h | ⟨d, e', -, h⟩ := storeElem_fin f full sr scale n e g <;> rw [h]
    · rfl
    · exact storeQ_psn f full sr n d e' g

/-! ### The store of a run -/

/-- Each element of a run is stored as it would be alone, with the generator as the elements before it left it. -/
theorem storeElems_getElem? (f : Nat) (full sr : Bool) (scale : Byte) (xs : List FNum) (g : Dword) (i : Nat) (x : FNum)
    (hx : xs[i]? = some x) :
    ∃ g', (storeElems f full sr scale xs g).1[i]? = some (storeElem f full sr scale x g').1 := by
  induction xs generalizing i g with
  | nil => simp at hx
  | cons y ys ih =>
    cases i with
    | zero =>
      obtain rfl : y = x := by simpa using hx
      exact ⟨g, rfl⟩
    | succ i => exact ih _ i hx

theorem storeElems_psn (f : Nat) (full sr : Bool) (scale : Byte) (xs : List FNum) (g : Dword) :
    (storeElems f full sr scale xs g).2.1.psn = psnCount xs := by
  induction xs generalizing g with
  | nil => rfl
  | cons x xs ih =>
    have hsum : (storeElems f full sr scale (x :: xs) g).2.1.psn = b2n x.isPoison + psnCount xs := by
      rw [← storeElem_psn f full sr scale x g, ← ih]
      rfl
    rw [hsum]
    cases hp : x.isPoison <;> simp [psnCount, hp, b2n, Nat.add_comm]

/-- The codes of R62 for poison decode as poison in the formats that have one (R41 to R43). -/
theorem codeNum_poisonCode (f : Nat) (h2 : 2 ≤ f) (h4 : f ≤ 4) : codeNum f (poisonCode f) = .poison := by
  interval_cases f <;> decide

/-- A fold is the same without the elements that it passes over. -/
theorem foldl_filter_of_skip {α β : Type} (p : α → Bool) (h : β → α → β) (hskip : ∀ b x, p x = false → h b x = b)
    (xs : List α) (b : β) : (xs.filter p).foldl h b = xs.foldl h b := by
  rw [List.foldl_filter]
  congr 1
  funext b x
  cases hp : p x <;> simp [hskip, hp]

/-- The block's greatest magnitude passes over a poison element, so leaving it out changes nothing (R62, R64). -/
theorem amaxScale_filter_poison (f : Nat) (xs : List FNum) :
    amaxScale f xs = amaxScale f (xs.filter fun x => !x.isPoison) := by
  unfold amaxScale
  rw [foldl_filter_of_skip]
  intro m x hx
  cases x with
  | poison => rfl
  | fin n e => cases hx

/-- Settles O60: a run is stored element by element, and the fold that chooses the scale passes over poison. -/
theorem poisonElementsAreStored : Obligations.PoisonElementsAreStored := by
  refine fun f full sr scale xs g hf => ⟨fun i x hi hx => ?_, storeElems_psn f full sr scale xs g, amaxScale_filter_poison f xs⟩
  obtain rfl := (FNum.isPoison_iff x).1 hx
  obtain ⟨g', hc⟩ := storeElems_getElem? f full sr scale xs g i _ hi
  refine ⟨poisonCode f, hc, ?_⟩
  split
  next h => exact if_pos h
  next h => rw [codeNum_poisonCode f (by omega) hf, FNum.isPoison_poison]

/-! ### VF4's code 1000 -/

theorem steps_snd_pos (st : Int) (n d : Nat) (e : Int) (hd : 0 < d) : 0 < (steps st n d e).2 := by
  unfold steps
  split
  · exact hd
  · rw [Nat.shiftLeft_eq]
    positivity

/-- Below VF4's largest magnitude of 12 steps the code rounded down is below the largest code 7, at 12 steps it is 7 (R35). -/
theorem floorCode_vf4 : (∀ q < 12, floorCode 1 q < 7) ∧ floorCode 1 12 = 7 := by decide

/-- A magnitude in VF4's range lies below the largest one or is the largest one exactly. -/
theorem floorCode_vf4_cases (a b : Nat) (hb : 0 < b) (ha : a ≤ 12 * b) :
    floorCode 1 (a / b) < 7 ∨ floorCode 1 (a / b) = 7 ∧ magVal 1 7 * b = a := by
  obtain ⟨hlt, htop⟩ := floorCode_vf4
  obtain h | rfl := Nat.lt_or_eq_of_le ha
  · exact .inl (hlt _ (Nat.div_lt_of_lt_mul (by rwa [Nat.mul_comm])))
  · rw [Nat.mul_div_cancel _ hb]
    exact .inr ⟨htop, rfl⟩

theorem rneCode_vf4_le (a b : Nat) (hb : 0 < b) (ha : a ≤ 12 * b) : rneCode 1 a b ≤ 7 := by
  unfold rneCode
  obtain h | ⟨hlo, hexact⟩ := floorCode_vf4_cases a b hb ha
  · dsimp only
    split_ifs <;> omega
  · simp [hlo, hexact]

theorem srCode_vf4_le (a b : Nat) (g : Dword) (hb : 0 < b) (ha : a ≤ 12 * b) : (srCode 1 a b g).1 ≤ 7 := by
  unfold srCode
  obtain h | ⟨hlo, hexact⟩ := floorCode_vf4_cases a b hb ha
  · dsimp only
    split_ifs <;> dsimp only <;> omega
  · simp [hlo, hexact]

/-- With a magnitude of at most three bits the sign bit comes only with a magnitude other than zero (R44). -/
theorem signCode_vf4_ne_eight (neg : Bool) (m : Nat) (hm : m ≤ 7) : signCode 0 neg m ≠ 8 := by
  have hcode : signCode 0 neg m = if neg && m ≠ 0 then 8 + m else m := rfl
  rw [hcode]
  split
  next h =>
    have hne : m ≠ 0 := by simp_all
    omega
  next => omega

theorem storeQ_vf4_ne_eight (full sr : Bool) (n : Int) (d : Nat) (e : Int) (g : Dword) (hd : 0 < d) :
    (storeQ 0 full sr n d e g).1 ≠ 8 := by
  have hb := steps_snd_pos (-2) n.natAbs d e hd
  have hmax : maxMag 0 (decide (n < 0)) full = 7 := by simp [maxMag, fmtOf]
  have htop : magVal (fmtOf 0).p 7 = 12 := rfl
  simp only [storeQ, hmax, htop]
  split
  · exact signCode_vf4_ne_eight _ _ (by decide)
  next h =>
    refine signCode_vf4_ne_eight _ _ ?_
    split
    · exact srCode_vf4_le _ _ g hb (not_lt.1 h)
    · exact rneCode_vf4_le _ _ hb (not_lt.1 h)

theorem storeElem_vf4_ne_eight (full sr : Bool) (scale : Byte) (x : FNum) (g : Dword) :
    (storeElem 0 full sr scale x g).1 ≠ 8 := by
  cases x with
  | poison => exact Nat.zero_ne_add_one 7
  | fin n e =>
    obtain h | ⟨d, e', hd, h⟩ := storeElem_fin 0 full sr scale n e g <;> rw [h]
    · exact Nat.zero_ne_add_one 7
    · exact storeQ_vf4_ne_eight full sr n d e' g hd

/-- Whatever the block's scale, the code 1000 loads as a zero: its magnitude is 0, so its sign is lost (R36, R38). -/
theorem elemNum_vf4_eight (scale : Byte) :
    (elemNum 0 8 scale false).isZero = true ∧ (elemNum 0 8 scale false).isPoison = false := by
  have hload : elemNum 0 8 scale false = if scale = 0 then FNum.zero else FNum.mul (.fin 0 (-2)) (scaleNum scale) := rfl
  rw [hload]
  split
  · exact ⟨rfl, rfl⟩
  · simp [scaleNum]

/-- Settles O56: a magnitude that rounds in VF4 stays at code 7 or below, and the sign is set only beside a magnitude. -/
theorem noStoreWritesVf4Code8 : Obligations.NoStoreWritesVf4Code8 :=
  ⟨elemNum_vf4_eight, storeElem_vf4_ne_eight⟩

end Sys2Proof.Machine
end

section
/-! PROOFS. What presenting requests, passing the exchange network on and halting a station leave of a core (R91, R99, R131). -/
namespace Sys2Proof.Machine
open Sys2Proof

/-! ### Requests and turns at the exchange network -/

/-- Presenting requests changes the ports alone. -/
theorem addReqs_eq (rs : List PortReq) (co : Core) : addReqs rs co = { co with lports := (addReqs rs co).lports } := by
  induction rs generalizing co with
  | nil => rfl
  | cons r rs ih => exact ih _

/-- A stream that takes the network changes its own pieces, the ports and the network's owner. -/
theorem takeNet_eq (key : Fin 8 × Nat) (f : Inflight) (co : Core) : takeNet key f co =
    { co with stns := (takeNet key f co).stns, lports := (takeNet key f co).lports, xnetOwner := (takeNet key f co).xnetOwner } := by
  unfold takeNet
  split
  · rfl
  · rw [addReqs_eq]
    rfl

/-- Passing the network on changes stations, ports and the network's turns. -/
theorem netTurn_eq (co : Core) : netTurn co =
    { co with
      stns := (netTurn co).stns, lports := (netTurn co).lports, xnetOwner := (netTurn co).xnetOwner,
      xnetWait := (netTurn co).xnetWait } := by
  unfold netTurn
  split
  · split
    · rfl
    · split
      · rfl
      · rw [takeNet_eq]
  · rfl

@[simp] theorem addReqs_stns (rs : List PortReq) (co : Core) : (addReqs rs co).stns = co.stns := by rw [addReqs_eq]

theorem modFlight_pieces_offNet (co : Core) (key : Fin 8 × Nat) (ps : List (List PortReq)) (j : Fin 8) :
    ((co.modFlight key fun f => { f with pieces := ps }).stns[j]).offNet = (co.stns[j]).offNet := by
  by_cases h : key.1 = j
  · subst h
    simp [Core.modFlight, Station.offNet, apply_ite]
  · have hv : key.1.val ≠ j.val := fun e => h (Fin.ext e)
    simp [Core.modFlight, hv]

theorem takeNet_offNet (key : Fin 8 × Nat) (f : Inflight) (co : Core) (j : Fin 8) :
    ((takeNet key f co).stns[j]).offNet = (co.stns[j]).offNet := by
  unfold takeNet
  split
  · rfl
  · rw [addReqs_stns, modFlight_pieces_offNet]

/-- A turn of the network takes pieces of a stream's instruction; of a station nothing else changes. -/
@[simp] theorem netTurn_offNet (co : Core) (j : Fin 8) : ((netTurn co).stns[j]).offNet = (co.stns[j]).offNet := by
  unfold netTurn
  split
  · split
    · rfl
    · split
      · rfl
      · rw [takeNet_offNet]
  · rfl

/-! ### A halt (R131) -/

/-- What a station's control block tells of its exception (R135 to R137). -/
def Station.exception (st : Station) : StnState × Byte × Bool × BitVec 12 × Word :=
  (st.state, st.excCode, st.excPost, st.excPc, st.excDetail)

theorem Station.exception_eq {st : Station} {x : StnState} {code : Byte} {post : Bool} {pc : BitVec 12} {detail : Word}
    (h : st.exception = (x, code, post, pc, detail)) :
    st.state = x ∧ st.excCode = code ∧ st.excPost = post ∧ st.excPc = pc ∧ st.excDetail = detail := by
  simpa [Station.exception] using h

theorem Station.offNet_exception (st : Station) : st.offNet.exception = st.exception := rfl

theorem netTurn_exception (co : Core) (j : Fin 8) : ((netTurn co).stns[j]).exception = (co.stns[j]).exception := by
  rw [← Station.offNet_exception, netTurn_offNet, Station.offNet_exception]

theorem skPost_station (cl : Fin 48) (kind core stn code : Nat) (s : State) (c : Fin 384) (k : Fin 8) :
    (skPost cl kind core stn code s).station c k = s.station c k := rfl

theorem skPost_events (cl : Fin 48) (kind core stn code : Nat) (s : State) : ((skPost cl kind core stn code s).sk cl).events =
    (s.sk cl).events ++ [BitVec.ofNat 32 (kind + 256 * core + 2048 * stn + 65536 * code)] := by
  simp [skPost, State.sk]

theorem haltStation_exception (c : Fin 384) (k : Fin 8) (code : Nat) (pc : BitVec 12) (detail : Word) (uid : Option Nat) (s : State)
    (h : (s.station c k).state = .run) :
    ((haltStation c k code pc detail uid s).station c k).exception = (.halted, BitVec.ofNat 8 code, uid.isSome, pc, detail) := by
  simp only [haltStation, h, ne_eq, not_true_eq_false, if_false, skPost_station]
  rw [State.station, State.modCore_same, dropReqs, netTurn_exception]
  simp [abandonStreams, Station.exception]

/-! ### Completion (R126, R131) -/

theorem checkDone_of_not_run (c : Fin 384) (k : Fin 8) (s : State) (h : (s.station c k).state ≠ .run) : checkDone c k s = s := by
  simp [checkDone, h]

theorem checkDone_of_not_ending (c : Fin 384) (k : Fin 8) (s : State) (h : (s.station c k).ending = false) : checkDone c k s = s := by
  simp [checkDone, h]

/-- An instruction has left its station and its unit. -/
def letGo (c : Fin 384) (k : Fin 8) (f : Inflight) (s : State) : State :=
  (s.modCore c (releaseUnit (k, f.uid))).modStation c k fun st => { st with inflight := st.inflight.filter fun g => g.uid ≠ f.uid }

theorem letGo_station (c : Fin 384) (k : Fin 8) (f : Inflight) (s : State) : (letGo c k f s).station c k =
    { s.station c k with inflight := (s.station c k).inflight.filter fun g => g.uid ≠ f.uid } := by
  rw [letGo, State.modStation_station, State.station, State.modCore_same]
  rfl

theorem letGo_queues (c : Fin 384) (k : Fin 8) (f : Inflight) (s : State) :
    ((letGo c k f s).core c).queues = (s.core c).queues := by
  simp [letGo, State.modStation, State.setStation, releaseUnit]

/-- A token for a queue of this core enters it; its credit is spent already. -/
theorem sendToken_here (c : Fin 384) (q : Fin 32) (v : Word) (s : State) (h : (s.core c).queues[q].cons ≠ 0x20) :
    ((sendToken c q v s).core c).queues[q] = { (s.core c).queues[q] with tokens := (s.core c).queues[q].tokens ++ [v] } := by
  rw [sendToken, if_neg h]
  simp

theorem sendToken_station (c : Fin 384) (q : Fin 32) (v : Word) (s : State) (k : Fin 8) :
    (sendToken c q v s).station c k = s.station c k := by
  simp only [sendToken]
  split <;> simp [State.station]

/-- Completion of an instruction whose pushes are owed: it leaves, and its token goes to each queue it names. -/
def pushed (c : Fin 384) (k : Fin 8) (f : Inflight) (s : State) : State :=
  forAll (outQueues f.word) (fun q => sendToken c q f.outVal) (letGo c k f s)

theorem pushed_station (c : Fin 384) (k : Fin 8) (f : Inflight) (s : State) : (pushed c k f s).station c k =
    { s.station c k with inflight := (s.station c k).inflight.filter fun g => g.uid ≠ f.uid } :=
  (forAll_leaves (fun t => t.station c k) _ _ _ fun q t => sendToken_station c q _ t k).trans (letGo_station c k f s)

section Owed
variable {c : Fin 384} {k : Fin 8} {f : Inflight} {s : State} (hm : f.mute = false) (hr : f.remote = none)
  (hp : pushPeerOut s c f = none)
include hm hr hp

theorem completeNow_sound (hf : postFault (s.station c k) f none = none) : completeNow c k f s = checkDone c k (pushed c k f s) := by
  simp only [completeNow, hm, hr, hp, hf]
  rfl

theorem completeNow_raises {x : Nat × Word} (hf : postFault (s.station c k) f none = some x) :
    completeNow c k f s = checkDone c k (haltStation c k x.1 f.pc x.2 (some f.uid) (pushed c k f s)) := by
  simp only [completeNow, hm, hr, hp, hf]
  rfl

variable (hs : (s.station c k).state = .run)
include hs

/-- OUT_VAL enters the one queue the instruction names, whose credit was spent at the firing (R107, R126). -/
theorem completeNow_token {q : Fin 32} (hq : outQueues f.word = [q]) (hc : (s.core c).queues[q].cons ≠ 0x20)
    (hf : postFault (s.station c k) f none = none) (he : (s.station c k).ending = false) :
    ((completeNow c k f s).core c).queues[q].tokens = (s.core c).queues[q].tokens ++ [f.outVal]
      ∧ ((completeNow c k f s).core c).queues[q].credits = (s.core c).queues[q].credits
      ∧ ((completeNow c k f s).station c k).inflight = (s.station c k).inflight.filter (fun g => g.uid ≠ f.uid)
      ∧ ((completeNow c k f s).station c k).state = .run := by
  have hqueue : ((pushed c k f s).core c).queues[q] =
      { (s.core c).queues[q] with tokens := (s.core c).queues[q].tokens ++ [f.outVal] } := by
    rw [← letGo_queues c k f s] at hc ⊢
    simp only [pushed, hq]
    exact sendToken_here c q f.outVal _ hc
  have hst := pushed_station c k f s
  rw [completeNow_sound hm hr hp hf, checkDone_of_not_ending c k _ (by rw [hst, he]), hqueue, hst]
  exact ⟨rfl, rfl, rfl, hs⟩

/-- The END of a station, completing last, makes it DONE and posts the event (R116, R141). -/
theorem completeNow_done (hq : outQueues f.word = []) (he : (s.station c k).ending = true) (hi : (s.station c k).inflight = [f])
    (hf : postFault (s.station c k) f none = none) :
    ((completeNow c k f s).station c k).state = .done
      ∧ ((completeNow c k f s).sk (clusterOf c)).events =
        (s.sk (clusterOf c)).events ++ [BitVec.ofNat 32 (1 + 256 * (c.val % 8) + 2048 * k.val)] := by
  have hst := pushed_station c k f s
  have hsk : (pushed c k f s).sk (clusterOf c) = s.sk (clusterOf c) := by
    simp only [pushed, hq, forAll, List.foldl_nil]
    rfl
  rw [completeNow_sound hm hr hp hf, checkDone, if_pos (by simp [hst, hs, he, hi])]
  constructor
  · rw [skPost_station]
    simp [State.setStation, State.station]
  · rw [skPost_events, ← hsk]
    rfl

/-- An exception at completion halts the station behind the instruction that raised it (R131). -/
theorem completeNow_halts {x : Nat × Word} (hf : postFault (s.station c k) f none = some x) :
    let st := (completeNow c k f s).station c k
    st.state = .halted ∧ st.excCode = BitVec.ofNat 8 x.1 ∧ st.excPost = true ∧ st.excPc = f.pc ∧ st.excDetail = x.2 := by
  have hrun : ((pushed c k f s).station c k).state = .run := by rw [pushed_station, hs]
  have hexc := Station.exception_eq (haltStation_exception c k x.1 f.pc x.2 (some f.uid) _ hrun)
  have hnot := hexc.1.trans_ne (show StnState.halted ≠ .run from nofun)
  rw [completeNow_raises hm hr hp hf, checkDone_of_not_run c k _ hnot]
  exact hexc

end Owed

end Sys2Proof.Machine
end

section
/-! PROOFS. Events between the firings of a core's stations (R78, R79, R93, R107, R109, R116, R126, R127). -/
namespace Sys2Proof.Machine
open Sys2Proof

/-! ### A unit starts an issued instruction (R127) -/

theorem unitStart_starts (c : Fin 384) (k : Fin 8) (n : Nat) (f : Inflight) (m : StreamMeas) (s : State)
    (hf : (s.station c k).inflight[n]? = some f) (h : f.started = false) :
    exec (.unitStart c k n m) s = .next (startUnit c k f m s) := by
  show execUnitStart c k n m s = _
  simp [execUnitStart, hf, h]

theorem unitStart_started (c : Fin 384) (k : Fin 8) (n : Nat) (f : Inflight) (m : StreamMeas) (s : State)
    (hf : (s.station c k).inflight[n]? = some f) (h : f.started = true) : exec (.unitStart c k n m) s = .next s := by
  show execUnitStart c k n m s = _
  simp [execUnitStart, hf, h]

theorem startFlags_started (c : Fin 384) (k : Fin 8) (f : Inflight) (stream marked : Bool) (s : State) :
    ∀ g ∈ ((startFlags c k f stream marked s).station c k).inflight, g.uid = f.uid → g.started = true := by
  intro g hg hu
  simp only [startFlags, State.modStation_station, List.mem_map] at hg
  obtain ⟨x, -, rfl⟩ := hg
  split at hu
  next hx => simp [hx]
  next hx => exact absurd hu hx

/-- The vector engine's start takes the instruction out of its issue queue and marks it started. -/
theorem startUnit_vec (c : Fin 384) (k : Fin 8) (f : Inflight) (m : StreamMeas) (s : State) (op : BitVec 4) (v : VecOp)
    (ho : opOf f.word = some (.vec op v)) :
    ((startUnit c k f m s).core c).vecIssued = (s.core c).vecIssued - 1
      ∧ ∀ g ∈ ((startUnit c k f m s).station c k).inflight, g.uid = f.uid → g.started = true := by
  have hstart : startUnit c k f m s = startFlags c k f false false (s.modCore c (freeSlots k f)) := by simp only [startUnit, ho]
  rw [hstart]
  refine ⟨?_, startFlags_started c k f false false _⟩
  simp [startFlags, State.modStation, State.setStation, freeSlots, ho]

/-! ### An array drains a column, or waits for its route (R78, R102, R121) -/

section Drain
variable {s : State} {c : Fin 384} {a : Fin 4} {d : DrainRun} {p : PassOp} (wait : Nat)
  (hd : (s.core c).arrays[a].drain = some d) (hp : opOf d.word = some (.pass p))
include hd hp

theorem passDrain_column (hc : d.cols ≠ 63) :
    exec (.passDrain c a wait) s = .next (s.setCore c { s.core c with arrays := (s.core c).arrays.set a { (s.core c).arrays[a] with
      drain := some { d with cols := d.cols + 1, buf := d.buf ++ [bankCol (s.core c).arrays[a].shadow d.cols] } } }) := by
  show Host.Outcome.next (drainStep c a wait s) = _
  simp only [drainStep, hd, hp, hc, if_false]
  rfl

theorem passDrain_last (hc : d.cols = 63) : exec (.passDrain c a wait) s =
    .next (drainEnd c a d p (d.buf ++ [bankCol (s.core c).arrays[a].shadow 63]) wait s) := by
  show Host.Outcome.next (drainStep c a wait s) = _
  simp only [drainStep, hd, hp, hc, if_true]

theorem passDrain_waits (hc : d.cols = 63)
    (h : lowerWaiting (s.core c) a (d.stn, d.uid) = true ∨ (p.drain = true ∧ (s.core c).drainQ ≠ [])) :
    exec (.passDrain c a wait) s = .next (s.setCore c { s.core c with arrays := (s.core c).arrays.set a { (s.core c).arrays[a] with
      outWaitCnt := satAdd (s.core c).arrays[a].outWaitCnt wait } }) := by
  rw [passDrain_last wait hd hp hc, drainEnd]
  obtain hl | ⟨hq, hne⟩ := h
  · rw [if_pos hl]
    rfl
  · have hlen : 64 < (s.core c).drainQ.length + 64 := by simpa using List.length_pos_of_ne_nil hne
    rw [if_pos hq, if_pos hlen, ite_self]
    rfl

theorem passDrain_queues (hc : d.cols = 63) (hl : lowerWaiting (s.core c) a (d.stn, d.uid) = false) (hq : p.drain = true)
    (he : (s.core c).drainQ = []) :
    ∃ t, exec (.passDrain c a wait) s = .next t ∧ (t.core c).arrays[a] = { (s.core c).arrays[a] with drain := none }
      ∧ (t.core c).drainQ.length = 64 ∧ (∀ r ∈ (t.core c).drainQ, r.stn.val = p.dqStn.toNat) ∧ (t.core c).ls = (s.core c).ls := by
  refine ⟨_, passDrain_last wait hd hp hc, ?_⟩
  rw [drainEnd, if_neg (by simp [hl]), if_pos hq, if_neg (by simp [he])]
  have hix : (ix 8 p.dqStn.toNat).val = p.dqStn.toNat := by simp [ix, Nat.mod_eq_of_lt p.dqStn.isLt]
  simp [modInflight, State.modStation, State.setStation, he, hix]

end Drain

/-! ### A bias column is preloaded (R79, R120) -/

theorem biasFree_idle (u : ArrayUnit) (key : Fin 8 × Nat) (j : Nat) (hd : u.drain = none) (hf : u.finished = none) :
    biasFree u key j = true := by
  simp [biasFree, hd, hf]

theorem biasPreload_first (c : Fin 384) (a : Fin 4) (key : Fin 8 × Nat) (f : Inflight) (p : PassOp) (s : State)
    (hk : (s.core c).arrays[a].issued.head? = some key)
    (hf : ((s.station c key.1).inflight.find? fun f => f.uid = key.2) = some f) (ho : opOf f.word = some (.pass p)) (hm : p.biasMode ≠ 0)
    (hb : (s.core c).arrays[a].bias = none) (hd : (s.core c).arrays[a].drain = none) (hfin : (s.core c).arrays[a].finished = none)
    (hr : hasReqs (s.core c) key.1 key.2 = false) :
    let col := biasCol ((s.core c).seenBy f.seen) ((s.core c).entry p.bias) p (offReg f.regVec p.biasOff)
      ((maskedArrays p.mask).filter fun x => x < a).length 0
    exec (.biasPreload c a) s = .next (raiseEv c key.1 key.2 { Ev.none with psn := psnCount col }
      (s.setCore c { s.core c with arrays := (s.core c).arrays.set a { (s.core c).arrays[a] with
        shadow := setBankCol (s.core c).arrays[a].shadow 0 (col.map fun x => BitVec.ofNat 32 (laneCode 4 x)),
        bias := some ⟨key.1, key.2, 1⟩ } })) := by
  have hfree : biasFree (s.core c).arrays[a] key 0 = true := biasFree_idle _ key 0 hd hfin
  show Host.Outcome.next (biasStep c a s) = _
  simp only [biasStep, hk, hf, ho, hb, hfree, hr]
  rw [if_neg (by simpa using hm)]

/-! ### Ports (R93) -/

theorem portGrant_picks (c : Fin 384) (t : Fin 4) (e : Ecc) (busy n : Nat) (r : PortReq) (s : State)
    (hn : pickReq (s.core c).lports[t].reqs = some n) (hr : (s.core c).lports[t].reqs[n]? = some r) :
    let rest := ((s.core c).lports[t].reqs.eraseIdx n).map fun x => { x with waited := x.waited + 1 }
    let p : LsPort := ⟨rest, satAdd (s.core c).lports[t].grantCnt 1, satAdd (s.core c).lports[t].urgentCnt (b2n r.urgent)⟩
    let co : Core := { s.core c with lports := (s.core c).lports.set t p }
    let s1 := s.setCore c (if r.write then co else lsFind t r.line e co)
    (∀ k uid, r.owner = .stn k uid → exec (.localStorePortGrant c t e busy) s = .next (servePeers (grantTo c k uid r busy s1)))
      ∧ ∀ o, r.owner = .ext o → exec (.localStorePortGrant c t e busy) s = .next (servePeers (grantExt c o r e s1)) := by
  have hgrant : exec (.localStorePortGrant c t e busy) s = .next (servePeers (grantPort c t e busy s)) := rfl
  refine ⟨fun k uid ho => ?_, fun o ho => ?_⟩
  · simp only [hgrant, grantPort, hn, hr, ho]
    rfl
  · simp only [hgrant, grantPort, hn, hr, ho]
    rfl

theorem portRequestUrgent_marks (c : Fin 384) (t : Fin 4) (n : Nat) (r : PortReq) (s : State)
    (hr : (s.core c).lports[t].reqs[n]? = some r) (hw : 32 ≤ r.waited) :
    let p : LsPort := { (s.core c).lports[t] with reqs := (s.core c).lports[t].reqs.set n { r with urgent := true } }
    exec (.portRequestUrgent c t n) s = .next (s.setCore c { s.core c with lports := (s.core c).lports.set t p }) := by
  show execPortRequestUrgent c t n s = _
  have hset : (s.core c).lports[t].reqs.modify n (fun x => if 32 ≤ x.waited then { x with urgent := true } else x)
      = (s.core c).lports[t].reqs.set n { r with urgent := true } := by
    rw [List.modify_eq_set_getElem?, hr]
    simp [hw]
  simp only [execPortRequestUrgent, State.modCore, hset]

/-! ### An instruction reaches its completion (R111, R126) -/

section Complete
variable {s : State} {c : Fin 384} {k : Fin 8} {n : Nat} {f : Inflight} (hf : (s.station c k).inflight[n]? = some f)
include hf

theorem instructionComplete_early (h : reached (s.core c) k f = false ∨ pushHeld (s.station c k) f = true) :
    exec (.instructionComplete c k n) s = .next s := by
  show execInstructionComplete c k n s = _
  simp only [execInstructionComplete, hf]
  rw [if_pos (by simpa using h)]

variable (hr : reached (s.core c) k f = true) (hh : pushHeld (s.station c k) f = false)
include hr hh

/-- The hypothesis on MV chooses the branch of the completion that is not a matrix-vector operation's. -/
theorem instructionComplete_completes (hm : ∀ m, opOf f.word ≠ some (.mv m)) :
    exec (.instructionComplete c k n) s = .next (completeNow c k f s) := by
  show execInstructionComplete c k n s = _
  simp only [execInstructionComplete, hf, hr, hh, Bool.not_true, Bool.or_self, Bool.false_eq_true, if_false]

theorem instructionComplete_mv {m : MvOp} (ho : opOf f.word = some (.mv m)) :
    exec (.instructionComplete c k n) s = if m.drain && !m.hold && !f.moved then
      .next (((mvQueue c k f m s).map (completeNow c k f)).getD s) else .next (completeNow c k f s) := by
  show execInstructionComplete c k n s = _
  simp only [execInstructionComplete, hf, hr, hh, ho, Bool.not_true, Bool.or_self, Bool.false_eq_true, if_false]
  cases mvQueue c k f m s <;> rfl

theorem instructionComplete_mv_stored {m : MvOp} (ho : opOf f.word = some (.mv m))
    (h : m.drain = false ∨ m.hold = true ∨ f.moved = true) : exec (.instructionComplete c k n) s = .next (completeNow c k f s) := by
  have hno : (m.drain && !m.hold && !f.moved) = false := by obtain h | h | h := h <;> simp [h]
  rw [instructionComplete_mv hf hr hh ho, hno]
  rfl

theorem instructionComplete_mv_queues {m : MvOp} (ho : opOf f.word = some (.mv m)) (hd : m.drain = true) (hl : m.hold = false)
    (hv : f.moved = false) : (∀ t, mvQueue c k f m s = some t → exec (.instructionComplete c k n) s = .next (completeNow c k f t))
      ∧ (mvQueue c k f m s = none → exec (.instructionComplete c k n) s = .next s) := by
  rw [instructionComplete_mv hf hr hh ho, if_pos (by simp [hd, hl, hv])]
  exact ⟨fun t ht => by rw [ht]; rfl, fun ht => by rw [ht]; rfl⟩

end Complete

/-! ### Tokens and credits from another core (R109, R110), and the watchdog (R134) -/

theorem remoteTokenArrival_enters (c : Fin 384) (q : Fin 32) (n : Nat) (v : Transit) (s : State) (hn : wireIx s c q false = some n)
    (hv : s.wires[n]? = some v) :
    exec (.remoteTokenArrival c q) s = .next ((s.setWires (s.wires.eraseIdx n)).setCore c { s.core c with
      queues := (s.core c).queues.set q { (s.core c).queues[q] with tokens := (s.core c).queues[q].tokens ++ [v.val] } }) := by
  show execRemoteTokenArrival c q s = _
  simp only [execRemoteTokenArrival, hn, hv]
  rfl

theorem remoteCreditReturn_returns (c : Fin 384) (q : Fin 32) (n : Nat) (s : State) (hn : wireIx s c q true = some n) :
    exec (.remoteCreditReturn c q) s = .next ((s.setWires (s.wires.eraseIdx n)).setCore c { s.core c with
      queues := (s.core c).queues.set q { (s.core c).queues[q] with credits := (s.core c).queues[q].credits + 1 } }) := by
  show execRemoteCreditReturn c q s = _
  simp only [execRemoteCreditReturn, hn]
  rfl

theorem stationWatchdog_halts (c : Fin 384) (k : Fin 8) (s : State) (hs : (s.station c k).state = .run) (hw : (s.station c k).wdog ≠ 0)
    (ht : ((s.station c k).wdog.toNat * 1000 : Int) ≤ (s.clusterTime (clusterOf c) - (s.station c k).wdogFrom).toInt) :
    exec (.stationWatchdog c k) s = .next (preFire c k 9 0 s) := by
  show execStationWatchdog c k s = _
  rw [execStationWatchdog, if_pos]
  simp only [hs, hw, ht, ne_eq, not_false_eq_true, decide_true, Bool.and_self]

/-! ### Exceptions at completion (R130, R137) -/

theorem postFault_halt_flag (st : Station) (f : Inflight) (out : Option Nat) (h : f.raised &&& st.haltMask ≠ 0) :
    postFault st f out = some (6, f.raised.setWidth 32) := by
  rw [postFault, if_pos h]

theorem postFault_trap (st : Station) (f : Inflight) (code : Half) (ho : opOf f.word = some (.trap code))
    (h0 : f.raised &&& st.haltMask = 0) (hm : f.marked = false ∨ st.haltUncorr = false) (hr : f.remote = none) :
    postFault st f none = some (10, code.setWidth 32) := by
  have hu : (f.marked && st.haltUncorr) = false := Bool.and_eq_false_iff.2 hm
  simp [postFault, h0, hu, hr, ho]

/-- Settles O19: each event has a lemma per answer; a completion is its pushes, then the exception or DONE. -/
theorem stationsCompleteTheirInstructions : Obligations.StationsCompleteTheirInstructions := by
  refine ⟨fun s c => ⟨?_, ?_, ?_, ?_, ?_, ?_, ?_, ?_, ?_, ?_, ?_⟩, fun s c k f hs hm hr hp => ⟨?_, ?_, ?_, ?_⟩⟩
  · exact fun k n f m hf => ⟨unitStart_starts c k n f m s hf, unitStart_started c k n f m s hf,
      fun op v h ho => ⟨_, unitStart_starts c k n f m s hf h, startUnit_vec c k f m s op v ho⟩⟩
  · exact fun a d p wait hd ho => ⟨passDrain_column wait hd ho, passDrain_waits wait hd ho, passDrain_queues wait hd ho⟩
  · exact fun a key f p hk hf ho hm hb hd hfin hr => biasPreload_first c a key f p s hk hf ho hm hb hd hfin hr
  · exact fun t e busy n r => portGrant_picks c t e busy n r s
  · exact fun t n r => portRequestUrgent_marks c t n r s
  · exact fun k n f hf hr hh => instructionComplete_completes hf hr hh
  · exact fun k n f m hf hr hh ho => ⟨instructionComplete_mv_stored hf hr hh ho, instructionComplete_mv_queues hf hr hh ho⟩
  · exact fun k n f hf => instructionComplete_early hf
  · exact fun q n v => remoteTokenArrival_enters c q n v s
  · exact fun q n => remoteCreditReturn_returns c q n s
  · exact fun k => stationWatchdog_halts c k s
  · rintro q v hq hc rfl hf he
    exact completeNow_token hm hr hp hs hq hc hf he
  · exact fun hq he hi hf => completeNow_done hm hr hp hs hq he hi hf
  · exact fun _ h => completeNow_halts hm hr hp hs (postFault_halt_flag _ f none h)
  · intro code ho _ h0 hu
    obtain ⟨hstate, hcode, hpost, -, hdetail⟩ := completeNow_halts hm hr hp hs (postFault_trap _ f code ho h0 hu hr)
    exact ⟨hstate, hcode, hpost, hdetail⟩

end Sys2Proof.Machine
end

section
/-! PROOFS. Vector operations (R88, R89, R123): a firing leaves the vector registers, the drain queue and the local store alone, its
as do its events, so that the registers left are those of the results. -/
namespace Sys2Proof.Machine
open Sys2Proof

/-! ### Firing (R127) -/

theorem decodeCore_op {w : InstrWord} {i : CoreInstr} (h : decodeCore w = some i) : opOf w = some i.op := by
  unfold decodeCore at h
  split at h
  · exact absurd h nofun
  · split at h
    · exact absurd h nofun
    next o ho =>
      split at h
      · exact absurd h nofun
      · cases h
        exact ho

theorem opOf_vec_ok {w : InstrWord} {op : BitVec 4} {v : VecOp} (h : opOf w = some (.vec op v)) : vecOk op v = true := by
  unfold opOf at h
  split at h
  all_goals simp only [Option.ite_none_right_eq_some, Option.ite_none_left_eq_some, Option.some.injEq, reduceCtorEq, and_false] at h
  obtain ⟨hok, hvec⟩ := h
  cases hvec
  exact (Bool.and_eq_true_iff.1 hok).2

theorem vecOk_ne_fifteen {op : BitVec 4} {v : VecOp} (h : vecOk op v = true) : op ≠ 15 := by
  rintro rfl
  exact absurd h (by simp [vecOk])

theorem firesNow_decodes {s : State} {c : Fin 384} {k : Fin 8} {i : CoreInstr} (h : firesNow s c k i = true) :
    decodeCore ((s.core c).instrAt (s.station c k).pc) = some i := by
  simp only [firesNow, Bool.and_eq_true, decide_eq_true_eq] at h
  obtain ⟨⟨⟨⟨⟨⟨⟨-, hdec⟩, -⟩, -⟩, -⟩, -⟩, -⟩, -⟩ := h
  exact hdec

/-- What firesNow asks for is what the firing looks at: the instruction fires and has its effect. -/
theorem fireWith_fires (c : Fin 384) (k : Fin 8) (kind : CoreOp → Bool) (eff : CoreInstr → Nat → State → State) (i : CoreInstr) (s : State)
    (h : firesNow s c k i = true) (hk : kind i.op = true) : fireWith c k kind eff s =
      eff i (s.station c k).nextUid (fireAt c k i ((s.core c).instrAt (s.station c k).pc) s) := by
  simp only [firesNow, Bool.and_eq_true, decide_eq_true_eq, Bool.not_eq_true', Option.isNone_iff_eq_none] at h
  obtain ⟨⟨⟨⟨⟨⟨⟨⟨hrun, hend⟩, hdec⟩, hill⟩, hpop⟩, htok⟩, hreg⟩, hopd⟩, hready⟩ := h
  simp only [fireWith, hrun, hend, hdec, hk, hill, hpop, htok, hreg, hopd, hready]
  rfl

/-! ### What vector operations work on, and what leaves it alone -/

/-- Of a core: the vector registers, the drain queue and the local store. -/
def Core.vectorView (co : Core) : Vector (Vector Word 64) 64 × List DqRow × Memory := (co.vregs, co.drainQ, co.ls)

/-- What a vector operation takes its row and registers from, with the memories it leaves alone. -/
def vectorView (c : Fin 384) (s : State) : (Vector (Vector Word 64) 64 × List DqRow × Memory) × Gddr := ((s.core c).vectorView, s.gddr)

theorem vectorView_setCore (c d : Fin 384) (s : State) (x : Core) (h : x.vectorView = (s.core d).vectorView) :
    vectorView c (s.setCore d x) = vectorView c s := by
  by_cases hd : d = c
  · subst hd
    simp [vectorView, h]
  · simp [vectorView, State.setCore_other _ _ _ _ hd]

theorem vectorView_modCore (c d : Fin 384) (s : State) (f : Core → Core) (h : ∀ co, (f co).vectorView = co.vectorView) :
    vectorView c (s.modCore d f) = vectorView c s := vectorView_setCore c d s _ (h _)

theorem vectorView_modStation (c d : Fin 384) (k : Fin 8) (f : Station → Station) (s : State) :
    vectorView c (s.modStation d k f) = vectorView c s := vectorView_modCore c d s _ fun _ => rfl

theorem EventOnly.vectorView {s t : State} (c : Fin 384) (h : EventOnly s t) : vectorView c t = vectorView c s := by
  rw [h]
  rfl

theorem netTurn_vectorView (co : Core) : (netTurn co).vectorView = co.vectorView := by
  rw [netTurn_eq]
  rfl

@[simp] theorem vectorView_modCluster (c : Fin 384) (cl : Fin 48) (f : Cluster → Cluster) (s : State) :
    vectorView c (s.modCluster cl f) = vectorView c s := rfl
@[simp] theorem vectorView_setLaunch (c : Fin 384) (l : Launch) (s : State) : vectorView c (setLaunch l s) = vectorView c s := rfl
@[simp] theorem vectorView_skPost (c : Fin 384) (cl : Fin 48) (kind core stn code : Nat) (s : State) :
    vectorView c (skPost cl kind core stn code s) = vectorView c s := rfl

@[simp] theorem vectorView_haltCommanded (c d : Fin 384) (k : Fin 8) (s : State) :
    vectorView c (haltCommanded d k s) = vectorView c s := by
  simp only [haltCommanded, haltStation]
  split
  · rfl
  · rw [vectorView_skPost]
    refine vectorView_modCore c d s _ fun co => ?_
    rw [dropReqs, netTurn_vectorView]
    rfl

theorem vectorView_haltAll (c : Fin 384) (l : List (Fin 384 × Fin 8)) (s : State) :
    vectorView c (forAll l (fun x => haltCommanded x.1 x.2) s) = vectorView c s :=
  forAll_leaves (vectorView c) _ _ _ fun _ _ => vectorView_haltCommanded ..

theorem vectorView_endCluster (c : Fin 384) (cl : Fin 48) (status : Byte) (s : State) :
    vectorView c (endCluster cl status s) = vectorView c s := by
  rw [endCluster, vectorView_modCluster, vectorView_haltAll]

theorem vectorView_stopLaunch (c : Fin 384) (l : Launch) (s : State) : vectorView c (stopLaunch l s) = vectorView c s := by
  simp only [stopLaunch, vectorView_setLaunch]
  refine forAll_leaves (vectorView c) _ _ _ fun cl t => ?_
  split
  · rw [vectorView_modCluster, vectorView_endCluster]
  · rfl

theorem vectorView_pauseLaunch (c : Fin 384) (l : Launch) (s : State) : vectorView c (pauseLaunch l s) = vectorView c s := by
  simp only [pauseLaunch, vectorView_setLaunch]
  exact forAll_leaves (vectorView c) _ _ _ fun cl t => by rw [vectorView_modCluster, vectorView_haltAll]

theorem vectorView_refuseReplay (c : Fin 384) (m : BitVec 48) (s : State) : vectorView c (refuseReplay m s) = vectorView c s :=
  forAll_leaves (vectorView c) _ _ s fun cl t => forAll_leaves (vectorView c) _ _ t fun j u =>
    vectorView_modCore c (coreOf cl j) u _ fun _ => rfl

theorem vectorView_watchAct (c d : Fin 384) (s : State) : vectorView c (watchAct d s) = vectorView c s := by
  simp only [watchAct]
  split
  · rfl
  · split_ifs
    · rfl
    · exact vectorView_stopLaunch ..
    · exact vectorView_pauseLaunch ..
    · rw [vectorView_stopLaunch, vectorView_refuseReplay]
    · rfl

theorem vectorView_watchTrigger (c d : Fin 384) (t : Fin 3) (s : State) : vectorView c (watchTrigger d t s) = vectorView c s := by
  simp only [watchTrigger]
  rw [vectorView_watchAct]
  have hset : ∀ w, vectorView c (s.setCore d { s.core d with watch := w }) = vectorView c s := fun w =>
    vectorView_setCore c d s _ rfl
  split
  · exact hset _
  · exact ((postEvent_eventOnly ..).vectorView c).trans (hset _)

/-- The events an instruction raises reach counters, flags and the watch, which may halt stations and post events. -/
theorem vectorView_raiseEv (c d : Fin 384) (k : Fin 8) (uid : Nat) (ev : Ev) (s : State) :
    vectorView c (raiseEv d k uid ev s) = vectorView c s := by
  simp only [raiseEv, watchCheck]
  rw [forAll_leaves (vectorView c) _ _ _ fun _ _ => vectorView_watchTrigger .., vectorView_modStation]
  exact vectorView_modCore c d s _ fun _ => rfl

/-! ### What a firing itself leaves -/

theorem addReqs_vectorView (rs : List PortReq) (co : Core) : (addReqs rs co).vectorView = co.vectorView := by
  rw [addReqs_eq]
  rfl

theorem takeSlots_vectorView (key : Fin 8 × Nat) (o : CoreOp) (co : Core) : (takeSlots key o co).vectorView = co.vectorView := by
  cases o <;> rfl

theorem setHolds_vectorView (k : Fin 8) (o : CoreOp) (co : Core) : (setHolds k o co).vectorView = co.vectorView := by
  cases o <;> rfl

theorem takeSlots_stns (key : Fin 8 × Nat) (o : CoreOp) (co : Core) : (takeSlots key o co).stns = co.stns := by
  cases o <;> rfl

theorem setHolds_stns (k : Fin 8) (o : CoreOp) (co : Core) : (setHolds k o co).stns = co.stns := by
  cases o <;> rfl

theorem vectorView_popToken (c d : Fin 384) (q : Fin 32) (s : State) : vectorView c (popToken d q s) = vectorView c s := by
  have hmod : ∀ t, vectorView c (s.modCore d fun co => { co with queues := co.queues.set q t }) = vectorView c s := fun t =>
    vectorView_modCore c d s _ fun _ => rfl
  simp only [popToken]
  split <;> exact hmod _

theorem vectorView_spendCredit (c d : Fin 384) (q : Fin 32) (s : State) : vectorView c (spendCredit d q s) = vectorView c s :=
  vectorView_modCore c d s _ fun _ => rfl

theorem joinNet_vectorView (key : Fin 8 × Nat) (co : Core) : (joinNet key co).vectorView = co.vectorView :=
  (netTurn_vectorView _).trans rfl

theorem Station.offNet_regs (st : Station) : st.offNet.regs = st.regs := rfl

theorem joinNet_regs (key : Fin 8 × Nat) (co : Core) (j : Fin 8) : ((joinNet key co).stns[j]).regs = (co.stns[j]).regs := by
  rw [joinNet, ← Station.offNet_regs, netTurn_offNet, Station.offNet_regs]

theorem vectorView_fireAt (c : Fin 384) (k : Fin 8) (i : CoreInstr) (w : InstrWord) (s : State) :
    vectorView c (fireAt c k i w s) = vectorView c s := by
  simp only [fireAt]
  rw [vectorView_modCore, forAll_leaves (vectorView c) _ _ _ fun _ _ => vectorView_spendCredit ..,
    forAll_leaves (vectorView c) _ _ _ fun _ _ => vectorView_popToken ..]
  intro co
  split
  · rw [setHolds_vectorView, takeSlots_vectorView, addReqs_vectorView]
    rfl
  · rw [joinNet_vectorView, setHolds_vectorView, takeSlots_vectorView, addReqs_vectorView]
    rfl

/-- A station that fires has its registers with the tokens popped (R112). -/
theorem fireAt_regs (c : Fin 384) (k : Fin 8) (i : CoreInstr) (w : InstrWord) (s : State) :
    ((fireAt c k i w s).station c k).regs = poppedRegs (s.core c) i (s.station c k).regs := by
  have hnet : ∀ (none : Bool) key (co : Core), ((if none then co else joinNet key co).stns[k]).regs = (co.stns[k]).regs := by
    intro none key co
    cases none
    · exact joinNet_regs key co k
    · rfl
  rw [fireAt, State.station, State.modCore_same, hnet]
  simp [setHolds_stns, takeSlots_stns]

/-! ### The effect at the firing (R123) -/

/-- The registers of a result depend on the vector registers and the drain queue alone. -/
theorem vecResult_congr (co d : Core) (k : Fin 8) (op : Nat) (v : VecOp) (rs : Vector Word 16) (hv : co.vregs = d.vregs)
    (hq : co.drainQ = d.drainQ) : vecResult co k op v rs = vecResult d k op v rs := by
  simp only [vecResult, vecA, vecB, hv, hq]

/-- What a vector operation leaves of a core it finds, at the scalar registers rs. -/
def vecLeaves (co : Core) (k : Fin 8) (op : Nat) (v : VecOp) (rs : Vector Word 16) :
    Vector (Vector Word 64) 64 × List DqRow × Memory :=
  ((vecResult co k op v rs).1, if v.aDq then co.drainQ.tail else co.drainQ, co.ls)

theorem vecLeaves_congr (co d : Core) (k : Fin 8) (op : Nat) (v : VecOp) (rs : Vector Word 16) (h : co.vectorView = d.vectorView) :
    vecLeaves co k op v rs = vecLeaves d k op v rs := by
  simp only [Core.vectorView, Prod.mk.injEq] at h
  obtain ⟨hv, hq, hl⟩ := h
  rw [vecLeaves, vecResult_congr co d k op v rs hv hq, hq, hl]
  rfl

theorem vectorView_vecEff (c : Fin 384) (k : Fin 8) (i : CoreInstr) (u : Nat) (op : BitVec 4) (v : VecOp) (s : State)
    (h : i.op = .vec op v) :
    vectorView c (vecEff c k i u s) = (vecLeaves (s.core c) k op.toNat v (s.station c k).regs, s.gddr) := by
  simp only [vecEff, h]
  rw [vectorView_raiseEv, modInflight, vectorView_modStation]
  simp [vectorView, Core.vectorView, vecLeaves]

theorem exec_vecCmd (c : Fin 384) (k : Fin 8) (op : BitVec 4) (s : State) (h : op ≠ 15) :
    exec (vecCmd c k op) s = .next (fireVec op c k s) := by
  obtain ⟨n, hn⟩ := op
  have h15 : n ≠ 15 := fun e => h (by subst e; rfl)
  have hlt : n < 15 := by omega
  interval_cases n
  all_goals rfl

/-- A vector operation that fires leaves the registers of its result, at the operands its station has with the tokens popped. -/
theorem vecCmd_fires (s : State) (c : Fin 384) (k : Fin 8) (i : CoreInstr) (op : BitVec 4) (v : VecOp)
    (hf : firesNow s c k i = true) (hi : i.op = .vec op v) :
    ∃ t, exec (vecCmd c k op) s = .next t ∧ vectorView c t =
      (vecLeaves (s.core c) k op.toNat v (poppedRegs (s.core c) i (s.station c k).regs), s.gddr) := by
  have hop : opOf ((s.core c).instrAt (s.station c k).pc) = some (.vec op v) := hi ▸ decodeCore_op (firesNow_decodes hf)
  refine ⟨_, exec_vecCmd c k op s (vecOk_ne_fifteen (opOf_vec_ok hop)), ?_⟩
  rw [fireVec, fireWith_fires c k _ _ i s hf (by simp [hi]), vectorView_vecEff c k i _ op v _ hi, fireAt_regs]
  have hview := vectorView_fireAt c k i ((s.core c).instrAt (s.station c k).pc) s
  simp only [vectorView, Prod.mk.injEq] at hview
  obtain ⟨hcore, hgddr⟩ := hview
  rw [vecLeaves_congr _ _ k _ v _ hcore, hgddr]

/-! ### Lane operations 0 to 5 (R88, R89) -/

theorem laneMap_fst (g : Nat → Nat × Ev) (n : Nat) : (laneMap g n).1 = (List.range n).map fun i => (g i).1 := by
  simp [laneMap]

theorem vecLanes_laneOp (op sub : Nat) (lanes : Bool) (a b c : List Nat) (h : op < 6) :
    (vecLanes op sub (laneFmt lanes) a b c).1 = (List.range (if lanes then 128 else 64)).map fun i =>
      (laneOp op (if lanes then 3 else 4) (a.getD i 0) (b.getD i 0) (c.getD i 0)).1 := by
  rw [vecLanes, laneMap_fst]
  interval_cases op <;> cases lanes <;> rfl

theorem vecResult_laneOp (co : Core) (k : Fin 8) (op : Nat) (v : VecOp) (rs : Vector Word 16) (h : op < 6) :
    (vecResult co k op v rs).1 = co.vregs.set (vregIx k v.vd) (regOfLanes v.lanes
      ((List.range (if v.lanes then 128 else 64)).map fun i =>
        (laneOp op (if v.lanes then 3 else 4) ((vecA co k v).getD i 0) ((vecB co k v rs).getD i 0)
          ((lanesOf v.lanes co.vregs[vregIx k v.vc]).getD i 0)).1)) := by
  simp only [vecResult]
  rw [if_neg (by omega), if_neg (by omega), if_neg (by omega), vecLanes_laneOp op _ v.lanes _ _ _ h]

theorem laneOp_poison (op f a b c : Nat) (h : 4 ≤ op) (hp : (codeNum f a).isPoison = true ∨ (codeNum f b).isPoison = true) :
    laneOp op f a b c = laneRound f .poison := by
  simp only [laneOp]
  rw [if_neg (by omega), if_neg (by omega), if_neg (by omega), if_neg (by omega), if_pos (by simpa using hp)]

/-- Settles O59: the effect at the firing is seen through the firing and its events, and the lane operations are read off. -/
theorem vectorResults : Obligations.VectorResults := by
  refine ⟨fun s c k i op v hf hi => ?_, vecResult_laneOp, fun f a b c => ⟨rfl, rfl, rfl, rfl, fun hp => ?_, fun ha hb => ?_⟩⟩
  · obtain ⟨t, he, hview⟩ := vecCmd_fires s c k i op v hf hi
    simp only [vectorView, Core.vectorView, vecLeaves, Prod.mk.injEq] at hview
    obtain ⟨⟨hregs, hqueue, hls⟩, hgddr⟩ := hview
    exact ⟨t, he, hregs, hqueue, hls, hgddr⟩
  · exact ⟨laneOp_poison 4 f a b c (by decide) hp, laneOp_poison 5 f a b c (by decide) hp⟩
  · constructor <;> simp [laneOp, ha, hb]

end Sys2Proof.Machine
end

section
/-! PROOFS. Core instruction words (R112, R115): each field of a word put together is read back, and a word that decodes is put
together from what it decodes to. -/
namespace Sys2Proof.Machine
open Sys2Proof

/-! ### Fields of words put together -/

theorem bits_append_low {n m : Nat} (x : BitVec n) (y : BitVec m) (lo w : Nat) (h : lo + w ≤ m) : bits (x ++ y) lo w = bits y lo w :=
  BitVec.extractLsb'_append_eq_of_add_le h

theorem bits_append_high {n m : Nat} (x : BitVec n) (y : BitVec m) (lo w : Nat) (h : m ≤ lo) :
    bits (x ++ y) lo w = bits x (lo - m) w :=
  BitVec.extractLsb'_append_eq_of_le h

theorem bits_full {n : Nat} (x : BitVec n) : bits x 0 n = x := BitVec.extractLsb'_eq_self

theorem getLsbD_append_low {n m : Nat} (x : BitVec n) (y : BitVec m) (i : Nat) (h : i < m) : (x ++ y).getLsbD i = y.getLsbD i := by
  rw [BitVec.getLsbD_append, if_pos h]

theorem getLsbD_append_high {n m : Nat} (x : BitVec n) (y : BitVec m) (i : Nat) (h : m ≤ i) :
    (x ++ y).getLsbD i = x.getLsbD (i - m) := by
  rw [BitVec.getLsbD_append, if_neg (by omega)]

theorem getLsbD_b1 (b : Bool) : (b1 b).getLsbD 0 = b := by cases b <;> rfl

/-- A queue's header field names the queue. -/
theorem qref_encQ (q : QRef) : qref (encQ q) = q := by
  cases q with
  | none => rfl
  | some x =>
    have hbit : (1#1 ++ x).getLsbD 5 = true := getLsbD_append_high _ x 5 le_rfl
    have hnum : (bits (1#1 ++ x) 0 5 : BitVec 5) = x := (bits_append_low _ x 0 5 le_rfl).trans (bits_full x)
    rw [encQ, qref, if_pos hbit, hnum]

/-! ### Core instruction words (R112) -/

section Fields
variable (i : CoreInstr)

theorem encodeCore_class : (bits (encodeCore i) 124 4 : BitVec 4) = (encOp i.op).1 := by
  simp (disch := omega) only [encodeCore, bits_append_high, bits_full, Nat.reduceSub]

theorem encodeCore_op : (bits (encodeCore i) 120 4 : BitVec 4) = (encOp i.op).2.1 := by
  simp (disch := omega) only [encodeCore, bits_append_low, bits_append_high, bits_full, Nat.reduceSub]

theorem encodeCore_reserved : (bits (encodeCore i) 88 4 : BitVec 4) = 0 := by
  simp (disch := omega) only [encodeCore, bits_append_low, bits_append_high, bits_full, Nat.reduceSub]
  rfl

theorem encodeCore_operands : (bits (encodeCore i) 0 88 : BitVec 88) = (encOp i.op).2.2 := by
  simp (disch := omega) only [encodeCore, bits_append_low, bits_full]

theorem encodeCore_field (lo w : Nat) (h : lo + w ≤ 88) : bits (encodeCore i) lo w = bits (encOp i.op).2.2 lo w :=
  bits_append_low _ _ lo w h

theorem encodeCore_bit (n : Nat) (h : n < 88) : (encodeCore i).getLsbD n = (encOp i.op).2.2.getLsbD n :=
  getLsbD_append_low _ _ n h

theorem encodeCore_header : (bits (encodeCore i) 114 6 : BitVec 6) = encQ i.inA ∧ (bits (encodeCore i) 108 6 : BitVec 6) = encQ i.inB
    ∧ (bits (encodeCore i) 102 6 : BitVec 6) = encQ i.outA ∧ (bits (encodeCore i) 96 6 : BitVec 6) = encQ i.outB
    ∧ (bits (encodeCore i) 92 4 : BitVec 4) = i.outVal := by
  refine ⟨?_, ?_, ?_, ?_, ?_⟩ <;>
    simp (disch := omega) only [encodeCore, bits_append_low, bits_append_high, bits_full, Nat.reduceSub]

end Fields

theorem opOf_encodeCore (i : CoreInstr) (h : i.op.ok = true) : opOf (encodeCore i) = some i.op := by
  obtain ⟨op, inA, inB, outA, outB, outVal⟩ := i
  unfold opOf
  rw [encodeCore_class, encodeCore_op]
  cases op
  all_goals
    simp (disch := omega) only [encOp, encodeCore_op, encodeCore_field, encodeCore_bit, bits_append_low, bits_append_high,
      getLsbD_append_low, getLsbD_append_high, bits_full, getLsbD_b1, vmoveOf, passOf, mvOf, vecOf, xnetOf, xferOf, Nat.reduceSub,
      BitVec.reduceToNat]
  case alu => simpa [CoreOp.ok] using h
  case br => simpa [CoreOp.ok] using h
  case pass => simpa [CoreOp.ok] using h
  case mv => simpa [CoreOp.ok] using h
  case vec => simpa [CoreOp.ok] using h
  case hadamard => simpa [CoreOp.ok] using h
  case send => simpa [CoreOp.ok] using h
  case recv => simpa [CoreOp.ok] using h

theorem decodeCore_encodeCore (i : CoreInstr) (h : i.op.ok = true) : decodeCore (encodeCore i) = some i := by
  obtain ⟨hinA, hinB, houtA, houtB, hval⟩ := encodeCore_header i
  simp [decodeCore, encodeCore_reserved, opOf_encodeCore i h, encodeCore_operands, hinA, hinB, houtA, houtB, hval, qref_encQ]

theorem decodeCore_eq_some {w : InstrWord} {i : CoreInstr} (h : decodeCore w = some i) :
    (bits w 88 4 : BitVec 4) = 0 ∧ opOf w = some i.op ∧ (encOp i.op).2.2 = bits w 0 88 ∧ i.inA = qref (bits w 114 6)
      ∧ i.inB = qref (bits w 108 6) ∧ i.outA = qref (bits w 102 6) ∧ i.outB = qref (bits w 96 6) ∧ i.outVal = bits w 92 4 := by
  have hop := decodeCore_op h
  simp only [decodeCore, hop, Option.ite_none_left_eq_some, not_not, Option.some.injEq] at h
  obtain ⟨hres, hbits, hi⟩ := h
  cases i
  cases hi
  exact ⟨hres, hop, hbits, rfl, rfl, rfl, rfl, rfl⟩

/-- What the word says of an operation it names: that its encoding is legal, its CLASS and its OP. -/
def CoreOp.namedBy (w : InstrWord) (o : CoreOp) : Bool := o.ok && (encOp o).1 = bits w 124 4 && (encOp o).2.1 = bits w 120 4

theorem opOf_namedBy (w : InstrWord) : (opOf w).all (CoreOp.namedBy w) = true := by
  unfold opOf
  split
  all_goals simp [apply_ite (Option.all _), CoreOp.namedBy, CoreOp.ok, encOp, BitVec.toNat_eq, *]
  all_goals grind [xnetOf, xferOf]

theorem CoreOp.namedBy_of_opOf {w : InstrWord} {o : CoreOp} (h : opOf w = some o) :
    o.ok = true ∧ (encOp o).1 = bits w 124 4 ∧ (encOp o).2.1 = bits w 120 4 := by
  have hall := opOf_namedBy w
  simp only [h, Option.all_some, CoreOp.namedBy, Bool.and_eq_true, decide_eq_true_eq] at hall
  obtain ⟨⟨hok, hclass⟩, hop⟩ := hall
  exact ⟨hok, hclass, hop⟩

/-- Bits next to each other, read together. -/
theorem bits_append_bits {n : Nat} (x : BitVec n) (lo v w : Nat) : bits x (lo + w) v ++ bits x lo w = (bits x lo (v + w)) := by
  rw [bits, bits, bits, BitVec.extractLsb'_append_extractLsb'_eq_extractLsb' rfl]

theorem encodeCore_decodeCore {w : InstrWord} {i : CoreInstr} (h : decodeCore w = some i) :
    (bits (encodeCore i) 0 96 : BitVec 96) = bits w 0 96 ∧ (bits (encodeCore i) 120 8 : Byte) = bits w 120 8 := by
  obtain ⟨hres, hop, hbits, -, -, -, -, hval⟩ := decodeCore_eq_some h
  obtain ⟨-, hclass, hopcode⟩ := CoreOp.namedBy_of_opOf hop
  obtain ⟨-, -, -, -, hval'⟩ := encodeCore_header i
  constructor
  · have hw : ∀ v : InstrWord, (bits v 0 96 : BitVec 96) = bits v 92 4 ++ bits v 88 4 ++ bits v 0 88 := fun v => by
      rw [bits_append_bits v 88 4 4, bits_append_bits v 0 8 88]
    rw [hw, hw, hval', encodeCore_reserved, encodeCore_operands, hval, hres, hbits]
  · have hw : ∀ v : InstrWord, (bits v 120 8 : Byte) = bits v 124 4 ++ bits v 120 4 := fun v => (bits_append_bits v 120 4 4).symm
    rw [hw, hw, encodeCore_class, encodeCore_op, hclass, hopcode]

/-- Settles O7: the header fields and the operation are read back one by one. -/
theorem coreInstructionWordsRoundTrip : Obligations.CoreInstructionWordsRoundTrip := by
  refine ⟨decodeCore_encodeCore, fun w i h => ?_⟩
  obtain ⟨-, hop, -, hinA, hinB, houtA, houtB, -⟩ := decodeCore_eq_some h
  obtain ⟨hlow, hhigh⟩ := encodeCore_decodeCore h
  exact ⟨(CoreOp.namedBy_of_opOf hop).1, hlow, hhigh, hinA, hinB, houtA, houtB⟩
end Sys2Proof.Machine
end

section
/-! PROOFS. Stallkeeper words (R139, R140), and the words outside the tables (R115). -/
namespace Sys2Proof.Machine
open Sys2Proof

/-! ### Stallkeeper words (R139) -/

theorem branchCond_cases (c : BitVec 3) (h : c.toNat ≤ 5) : c = 0 ∨ c = 1 ∨ c = 2 ∨ c = 3 ∨ c = 4 ∨ c = 5 := by
  revert c
  decide

theorem decodeSk_encodeSk (o : SkOp) (h : o.ok = true) : decodeSk (encodeSk o) = some o := by
  unfold decodeSk
  cases o
  all_goals
    simp (disch := omega) only [encodeSk, bits_append_low, bits_append_high, bits_full, Nat.reduceSub, BitVec.reduceToNat]
  case alu => simpa [SkOp.ok] using h
  case cctl => simpa [SkOp.ok] using h
  case branch c ga gb i =>
    obtain rfl | rfl | rfl | rfl | rfl | rfl := branchCond_cases c (by simpa [SkOp.ok] using h)
    all_goals rfl

theorem bits_eq_of_toNat {n : Nat} {x : BitVec n} {lo w m : Nat} (h : (bits x lo w).toNat = m) : bits x lo w = BitVec.ofNat w m := by
  rw [← h, BitVec.ofNat_toNat, BitVec.setWidth_eq]

section Opcode
variable {w : Word} {m : Nat} (h : (bits w 26 6).toNat = m)
include h

/-- A word is its opcode, two registers and an immediate. -/
theorem skWord_immediate : BitVec.ofNat 6 m ++ bits w 21 5 ++ bits w 16 5 ++ bits w 0 16 = w := by
  rw [← bits_eq_of_toNat h, bits_append_bits w 21 6 5, bits_append_bits w 16 11 5, bits_append_bits w 0 16 16]
  exact bits_full w

/-- A word is its opcode, three registers and a function, where its last six bits are 0. -/
theorem skWord_registers (h0 : (bits w 0 6 : BitVec 6) = 0) :
    BitVec.ofNat 6 m ++ bits w 21 5 ++ bits w 16 5 ++ bits w 11 5 ++ bits w 6 5 ++ 0#6 = w := by
  have h0' : bits w 0 6 = 0#6 := h0
  rw [← bits_eq_of_toNat h, ← h0', bits_append_bits w 21 6 5, bits_append_bits w 16 11 5, bits_append_bits w 11 16 5,
    bits_append_bits w 6 21 5, bits_append_bits w 0 26 6]
  exact bits_full w

/-- A word is its opcode and an offset. -/
theorem skWord_jump : BitVec.ofNat 6 m ++ bits w 0 26 = w := by
  rw [← bits_eq_of_toNat h, bits_append_bits w 0 6 26]
  exact bits_full w

end Opcode

/-- A word names a legal operation, of which it is the word. -/
def SkOp.namedBy (w : Word) (o : SkOp) : Bool := o.ok && encodeSk o = w

/-- An operation with three registers needs its last six bits 0 and a function that is legal. -/
theorem SkOp.namedBy_registers {w : Word} {m n : Nat} (o : SkOp) (h : (bits w 26 6).toNat = m)
    (henc : encodeSk o = BitVec.ofNat 6 m ++ bits w 21 5 ++ bits w 16 5 ++ bits w 11 5 ++ bits w 6 5 ++ 0#6)
    (hok : o.ok = decide ((bits w 6 5 : BitVec 5).toNat ≤ n)) :
    (if (bits w 0 6 : BitVec 6) ≠ 0 || n < (bits w 6 5 : BitVec 5).toNat then none else some o).all (SkOp.namedBy w) = true := by
  split
  · rfl
  next hg =>
    simp only [ne_eq, Bool.or_eq_true, decide_eq_true_eq, not_or, not_not, not_lt] at hg
    obtain ⟨h0, hfn⟩ := hg
    rw [Option.all_some, SkOp.namedBy, henc, skWord_registers h h0, hok]
    simpa using hfn

theorem decodeSk_namedBy (w : Word) : (decodeSk w).all (SkOp.namedBy w) = true := by
  unfold decodeSk
  split
  case h_1 h => exact SkOp.namedBy_registers _ h rfl rfl
  case h_19 h => exact SkOp.namedBy_registers _ h rfl rfl
  case h_23 => rfl
  all_goals
    rename_i h
    simp [SkOp.namedBy, SkOp.ok, encodeSk, skWord_immediate h, skWord_jump h]

/-- Settles O8: a word is put together from its fields as its opcode says. -/
theorem stallkeeperWordsRoundTrip : Obligations.StallkeeperWordsRoundTrip := by
  refine ⟨decodeSk_encodeSk, fun w o h => ?_⟩
  have hall := decodeSk_namedBy w
  simpa [h, SkOp.namedBy] using hall

/-! ### Words outside the table (R115) -/

/-- A word that decodes has a CLASS and an OP of the table, and its bits [91:88] are 0. -/
theorem decodeCore_listed {w : InstrWord} {i : CoreInstr} (h : decodeCore w = some i) :
    ¬ (let cls : BitVec 4 := bits w 124 4
      let op : BitVec 4 := bits w 120 4
      7 < cls.toNat ∨ (cls = 0 ∧ 7 < op.toNat) ∨ (cls = 1 ∧ 3 < op.toNat) ∨ (cls = 2 ∧ 4 < op.toNat)
        ∨ ((cls = 3 ∨ cls = 4) ∧ op ≠ 0) ∨ (cls = 5 ∧ op = 15) ∨ ((cls = 6 ∨ cls = 7) ∧ 1 < op.toNat)
        ∨ bits w 88 4 ≠ (0 : BitVec 4)) := by
  obtain ⟨hres, hop, -⟩ := decodeCore_eq_some h
  obtain ⟨hok, hclass, hcode⟩ := CoreOp.namedBy_of_opOf hop
  simp only [← hclass, ← hcode, hres]
  cases ho : i.op
  case vec op v =>
    rw [ho] at hok
    simpa [encOp] using vecOk_ne_fifteen hok
  all_goals simp [encOp]

/-- Settles O9: a word that decodes is listed; the listed words are decoded. -/
theorem illegalAndListedWords : Obligations.IllegalAndListedWords := by
  refine ⟨fun w h => Option.eq_none_iff_forall_ne_some.2 fun i hi => decodeCore_listed hi h, ?_⟩
  decide

end Sys2Proof.Machine
end

section
/-! PROOFS. The command of an operation fires it, and the tokens a firing pops and reserves (R107, R109, R127). -/
namespace Sys2Proof.Machine
open Sys2Proof

/-! ### The command of an operation fires it -/

/-- The command of an operation takes the firing of that operation, with the effect the operation has as it fires. -/
theorem exec_stationCmd (c : Fin 384) (k : Fin 8) (o : CoreOp) (s : State) :
    ∃ (kind : CoreOp → Bool) (eff : CoreInstr → Nat → State → State), exec (stationCmd c k o) s = .next (fireWith c k kind eff s)
      ∧ ((∀ v, o ≠ .vec 15 v) → kind o = true ∧ ∀ i u t, i.op = o → eff i u t = fireEffect c k i u t) := by
  cases o
  case vec op v =>
    by_cases h15 : op = 15
    · subst h15
      exact ⟨_, _, rfl, fun h => absurd rfl (h v)⟩
    · refine ⟨_, vecEff c k, exec_vecCmd c k op s h15, fun _ => ⟨by simp, fun i u t hi => ?_⟩⟩
      simp [fireEffect, hi]
  all_goals
    refine ⟨_, _, rfl, fun _ => ⟨by simp, fun i u t hi => ?_⟩⟩
    simp [fireEffect, hi]

/-! ### Pops and reserved credits (R107, R109) -/

/-- A token queue after n pops: their credits return here where the producer is of this core. -/
def TokenQueue.pop (n : Nat) (q : TokenQueue) : TokenQueue :=
  { q with tokens := q.tokens.drop n, credits := q.credits + if q.prod = 0x20 then 0 else n }

/-- A token queue with n credits spent. -/
def TokenQueue.spend (n : Nat) (q : TokenQueue) : TokenQueue := { q with credits := q.credits - n }

theorem TokenQueue.pop_zero (q : TokenQueue) : q.pop 0 = q := by simp [TokenQueue.pop]

theorem TokenQueue.pop_pop (m n : Nat) (q : TokenQueue) : (q.pop m).pop n = q.pop (m + n) := by
  have hc : ∀ p : Prop, [Decidable p] → (q.credits + if p then 0 else m) + (if p then 0 else n) = q.credits + if p then 0 else m + n := by
    intro p _
    split <;> omega
  simp only [TokenQueue.pop, List.drop_drop, ← hc]
  rfl

theorem TokenQueue.spend_spend (m n : Nat) (q : TokenQueue) : (q.spend m).spend n = q.spend (m + n) := by
  simp [TokenQueue.spend, Nat.sub_sub]

/-- A state differs from another in the queues of core c, and in what is under way between cores. -/
def QueuesOnly (c : Fin 384) (s t : State) : Prop :=
  t = { s with cores := t.cores, wires := t.wires } ∧ (∀ c', c' ≠ c → t.core c' = s.core c')
    ∧ t.core c = { s.core c with queues := (t.core c).queues }

theorem QueuesOnly.refl (c : Fin 384) (s : State) : QueuesOnly c s s := ⟨rfl, fun _ _ => rfl, rfl⟩

theorem QueuesOnly.trans {c : Fin 384} {s t u : State} (h : QueuesOnly c s t) (k : QueuesOnly c t u) : QueuesOnly c s u := by
  obtain ⟨ht, htc, htq⟩ := h
  obtain ⟨hu, huc, huq⟩ := k
  refine ⟨?_, fun c' hc => (huc c' hc).trans (htc c' hc), ?_⟩
  · rw [hu, ht]
  · rw [huq, htq]

theorem QueuesOnly.modCore (c : Fin 384) (s : State) (f : Core → Vector TokenQueue 32) :
    QueuesOnly c s (s.modCore c fun co => { co with queues := f co }) :=
  ⟨rfl, fun c' hc => State.modCore_other s c c' _ hc.symm, by simp⟩

theorem QueuesOnly.setWires {c : Fin 384} {s t : State} (h : QueuesOnly c s t) (w : List Transit) : QueuesOnly c s (t.setWires w) := by
  obtain ⟨ht, htc, htq⟩ := h
  exact ⟨congrArg (State.setWires · w) ht, htc, htq⟩

theorem QueuesOnly.forAll {α : Type} (c : Fin 384) (f : α → State → State) (h : ∀ a s, QueuesOnly c s (f a s)) (l : List α) (s : State) :
    QueuesOnly c s (forAll l f s) :=
  forAll_keeps (QueuesOnly c s) l f s (fun a _ t ht => ht.trans (h a t)) (.refl c s)

theorem popToken_queuesOnly (c : Fin 384) (q : Fin 32) (s : State) : QueuesOnly c s (popToken c q s) := by
  have hq := fun t => QueuesOnly.modCore c s fun co => co.queues.set q t
  simp only [popToken]
  split
  · exact (hq _).setWires _
  · exact hq _

theorem spendCredit_queuesOnly (c : Fin 384) (q : Fin 32) (s : State) : QueuesOnly c s (spendCredit c q s) :=
  .modCore c s _

/-- The number of times a header field names a queue. -/
def QRef.names (x : QRef) (q : Fin 32) : Nat := b2n (x = some (BitVec.ofNat 5 q.val))

theorem QRef.names_some (a : BitVec 5) (q : Fin 32) : QRef.names (some a) q = if ix 32 a.toNat = q then 1 else 0 := by
  have hiff : a = BitVec.ofNat 5 q.val ↔ ix 32 a.toNat = q := by
    rw [BitVec.toNat_eq, Fin.ext_iff, BitVec.toNat_ofNat, ix, Fin.val_ofNat]
    omega
  simp only [QRef.names, Option.some.injEq, hiff, b2n, decide_eq_true_eq]

theorem queues_modify (qs : Vector TokenQueue 32) (a q : Fin 32) (f : TokenQueue → TokenQueue) :
    (qs.set a (f qs[a]))[q] = if a = q then f qs[q] else qs[q] := by
  by_cases h : a = q
  · subst h
    simp
  · have hv : a.val ≠ q.val := fun e => h (Fin.ext e)
    simp [h, hv]

/-- What the pop of one header field leaves of a queue. -/
theorem popToken_queue (c : Fin 384) (x : QRef) (q : Fin 32) (s : State) :
    ((forAll x.toList (fun a => popToken c (ix 32 a.toNat)) s).core c).queues[q] = ((s.core c).queues[q]).pop (x.names q) := by
  cases x with
  | none => exact (TokenQueue.pop_zero _).symm
  | some a =>
    have hpop : ((popToken c (ix 32 a.toNat) s).core c).queues =
        (s.core c).queues.set (ix 32 a.toNat) ((s.core c).queues[ix 32 a.toNat].pop 1) := by
      simp only [popToken, TokenQueue.pop, List.drop_one]
      split
      · simp only [State.setWires_core, State.modCore_same, Nat.add_zero]
      · simp only [State.modCore_same]
    show ((popToken c (ix 32 a.toNat) s).core c).queues[q] = _
    rw [hpop, queues_modify _ _ q (TokenQueue.pop 1), QRef.names_some]
    split
    · rfl
    · rw [TokenQueue.pop_zero]

/-- What the reservation of one header field leaves of a queue. -/
theorem spendCredit_queue (c : Fin 384) (x : QRef) (q : Fin 32) (s : State) :
    ((forAll x.toList (fun a => spendCredit c (ix 32 a.toNat)) s).core c).queues[q] = ((s.core c).queues[q]).spend (x.names q) := by
  cases x with
  | none => rfl
  | some a =>
    have hspend : ((spendCredit c (ix 32 a.toNat) s).core c).queues =
        (s.core c).queues.set (ix 32 a.toNat) ((s.core c).queues[ix 32 a.toNat].spend 1) := by
      simp only [spendCredit, State.modCore_same, TokenQueue.spend]
    show ((spendCredit c (ix 32 a.toNat) s).core c).queues[q] = _
    rw [hspend, queues_modify _ _ q (TokenQueue.spend 1), QRef.names_some]
    split <;> rfl

theorem forAll_fields {α : Type} (x y : Option α) (f : α → State → State) (s : State) :
    forAll ([x, y].filterMap id) f s = forAll y.toList f (forAll x.toList f s) := by
  cases x <;> cases y <;> rfl

/-- The state with the tokens popped that an instruction names. -/
def popsDone (c : Fin 384) (i : CoreInstr) (s : State) : State := forAll ([i.inA, i.inB].filterMap id) (fun q => popToken c (ix 32 q.toNat)) s

/-- And with the credits reserved. -/
def tokensDone (c : Fin 384) (i : CoreInstr) (s : State) : State :=
  forAll ([i.outA, i.outB].filterMap id) (fun q => spendCredit c (ix 32 q.toNat)) (popsDone c i s)

theorem tokensDone_queuesOnly (c : Fin 384) (i : CoreInstr) (s : State) : QueuesOnly c s (tokensDone c i s) :=
  (QueuesOnly.forAll c _ (fun _ _ => popToken_queuesOnly ..) _ s).trans (.forAll c _ (fun _ _ => spendCredit_queuesOnly ..) _ _)

theorem tokensDone_queue (c : Fin 384) (i : CoreInstr) (s : State) (q : Fin 32) : ((tokensDone c i s).core c).queues[q] =
    (((s.core c).queues[q]).pop (i.inA.names q + i.inB.names q)).spend (i.outA.names q + i.outB.names q) := by
  rw [tokensDone, popsDone, forAll_fields, forAll_fields, spendCredit_queue, spendCredit_queue, popToken_queue, popToken_queue,
    TokenQueue.pop_pop, TokenQueue.spend_spend]

theorem tokensDone_wires (c : Fin 384) (i : CoreInstr) (s : State) : (tokensDone c i s).wires = (popsDone c i s).wires :=
  forAll_leaves State.wires _ _ _ fun _ _ => rfl

theorem popToken_wires_remote (c : Fin 384) (q : Fin 32) (s : State) (h : (s.core c).queues[q].prod = 0x20) :
    (popToken c q s).wires = s.wires ++ [⟨(s.core c).queues[q].peerCore.toNat, (s.core c).queues[q].peerQ, 0, true⟩] := by
  simp only [popToken, if_pos h]
  rfl

end Sys2Proof.Machine
end

section
/-! PROOFS. What a firing sets in its station and what it leaves elsewhere (R112, R127). -/
namespace Sys2Proof.Machine
open Sys2Proof

/-! ### The core after a firing (R127) -/

/-- What VSTORE keeps of its vector register. -/
def storedReg (co : Core) (k : Fin 8) : CoreOp → List Word
  | .vstore m => (co.vregs[vregIx k m.v]).toList
  | _ => []

/-- Arrays that a pass has still to drain. -/
def arraysLeft : CoreOp → Nat
  | .pass p => (maskedArrays p.mask).length
  | _ => 0

/-- The instruction in flight that a firing records. -/
def firedFlight (co : Core) (k : Fin 8) (i : CoreInstr) (w : InstrWord) : Inflight :=
  let st := co.stns[k]
  let rs := poppedRegs co i st.regs
  { uid := st.nextUid, pc := st.pc, word := w, regs := rs.toList ++ storedReg co k i.op, outVal := regRead rs i.outVal, started := false,
    streaming := false, left := arraysLeft i.op, raised := 0, marked := false, remote := none, mute := false, moved := false,
    granted := false, seen := [], pieces := netPieces co (k, st.nextUid) rs i.op }

/-- The station once it has fired: `old` is its core before the tokens are popped. -/
def firedStation (old : Core) (k : Fin 8) (i : CoreInstr) (w : InstrWord) (now : Dword) (st : Station) : Station :=
  { st with
    regs := poppedRegs old i old.stns[k].regs, pc := st.pc + 1, inflight := st.inflight ++ [firedFlight old k i w],
    nextUid := st.nextUid + 1, wdogFrom := now }

/-- The core once a station has fired, before its stream joins the exchange network. -/
def issuedCore (old co : Core) (k : Fin 8) (i : CoreInstr) (w : InstrWord) (now : Dword) : Core :=
  let key := (k, old.stns[k].nextUid)
  setHolds k i.op (takeSlots key i.op (addReqs (portReqs co key (poppedRegs old i old.stns[k].regs) i.op)
    { co with stns := co.stns.set k (firedStation old k i w now co.stns[k]) }))

/-- The core once a station has fired. -/
def firedCore (old co : Core) (k : Fin 8) (i : CoreInstr) (w : InstrWord) (now : Dword) : Core :=
  if (firedFlight old k i w).pieces.isEmpty then issuedCore old co k i w now
  else joinNet (k, old.stns[k].nextUid) (issuedCore old co k i w now)

theorem fireAt_eq (c : Fin 384) (k : Fin 8) (i : CoreInstr) (w : InstrWord) (s : State) : fireAt c k i w s =
    (tokensDone c i s).modCore c fun co => firedCore (s.core c) co k i w (s.clusterTime (clusterOf c)) := rfl

/-! ### What a firing sets in its station, and what it leaves -/

theorem issuedCore_stns (old co : Core) (k : Fin 8) (i : CoreInstr) (w : InstrWord) (now : Dword) :
    (issuedCore old co k i w now).stns = co.stns.set k (firedStation old k i w now co.stns[k]) := by
  simp only [issuedCore, setHolds_stns, takeSlots_stns, addReqs_stns]

theorem firedCore_offNet (old co : Core) (k j : Fin 8) (i : CoreInstr) (w : InstrWord) (now : Dword) :
    ((firedCore old co k i w now).stns[j]).offNet = ((co.stns.set k (firedStation old k i w now co.stns[k]))[j]).offNet := by
  rw [← issuedCore_stns, firedCore]
  split
  · rfl
  · exact netTurn_offNet _ j

/-- What of a core neither a firing nor a turn of the network touches. -/
def Core.stores (co : Core) : Memory × List Nat × Vector (Vector Word 64) 64 × Memory × Memory × List DqRow × Vector TokenQueue 32 :=
  (co.ls, co.lsPoison, co.vregs, co.istore, co.optab, co.drainQ, co.queues)

theorem firedCore_stores (old co : Core) (k : Fin 8) (i : CoreInstr) (w : InstrWord) (now : Dword) :
    (firedCore old co k i w now).stores = co.stores := by
  have hhold : ∀ o d, (setHolds k o d).stores = d.stores := fun o d => by cases o <;> rfl
  have hslot : ∀ key o d, (takeSlots key o d).stores = d.stores := fun key o d => by cases o <;> rfl
  have hreqs : ∀ rs d, (addReqs rs d).stores = d.stores := fun rs d => by rw [addReqs_eq]; rfl
  have hnet : ∀ d, (netTurn d).stores = d.stores := fun d => by rw [netTurn_eq]; rfl
  have hissued : (issuedCore old co k i w now).stores = co.stores := by
    rw [issuedCore, hhold, hslot, hreqs]
    rfl
  rw [firedCore]
  split
  · exact hissued
  · rw [joinNet, hnet]
    exact hissued

section Fire
variable (c : Fin 384) (k : Fin 8) (i : CoreInstr) (w : InstrWord) (s : State)

theorem tokensDone_core : (tokensDone c i s).core c = { s.core c with queues := ((tokensDone c i s).core c).queues } :=
  (tokensDone_queuesOnly c i s).2.2

theorem tokensDone_stns : ((tokensDone c i s).core c).stns = (s.core c).stns := by rw [tokensDone_core]

theorem fireAt_stores : ((fireAt c k i w s).core c).stores = ((tokensDone c i s).core c).stores := by
  rw [fireAt_eq, State.modCore_same, firedCore_stores]

theorem fireAt_memories : ((fireAt c k i w s).core c).ls = (s.core c).ls ∧ ((fireAt c k i w s).core c).lsPoison = (s.core c).lsPoison
    ∧ ((fireAt c k i w s).core c).vregs = (s.core c).vregs ∧ ((fireAt c k i w s).core c).istore = (s.core c).istore
    ∧ ((fireAt c k i w s).core c).optab = (s.core c).optab ∧ ((fireAt c k i w s).core c).drainQ = (s.core c).drainQ := by
  have h := fireAt_stores c k i w s
  rw [tokensDone_core] at h
  simp only [Core.stores, Prod.mk.injEq] at h
  obtain ⟨hls, hpoison, hvregs, histore, hoptab, hdrain, -⟩ := h
  exact ⟨hls, hpoison, hvregs, histore, hoptab, hdrain⟩

theorem fireAt_queues : ((fireAt c k i w s).core c).queues = ((tokensDone c i s).core c).queues := by
  have h := fireAt_stores c k i w s
  simp only [Core.stores, Prod.mk.injEq] at h
  obtain ⟨-, -, -, -, -, -, hq⟩ := h
  exact hq

theorem fireAt_offNet : ((fireAt c k i w s).station c k).offNet =
    (firedStation (s.core c) k i w (s.clusterTime (clusterOf c)) (s.station c k)).offNet := by
  rw [fireAt_eq, State.station, State.modCore_same, firedCore_offNet, tokensDone_stns]
  simp [State.station]

theorem fireAt_offNet_other (j : Fin 8) (h : j ≠ k) : ((fireAt c k i w s).station c j).offNet = (s.station c j).offNet := by
  have hv : k.val ≠ j.val := fun e => h (Fin.ext e.symm)
  rw [fireAt_eq, State.station, State.modCore_same, firedCore_offNet, tokensDone_stns]
  simp [State.station, hv]

theorem fireAt_core_other (d : Fin 384) (h : d ≠ c) : (fireAt c k i w s).core d = s.core d := by
  rw [fireAt_eq, State.modCore_other _ _ _ _ h.symm]
  exact (tokensDone_queuesOnly c i s).2.1 d h

theorem fireAt_state : fireAt c k i w s = { s with cores := (fireAt c k i w s).cores, wires := (tokensDone c i s).wires } := by
  have h := (tokensDone_queuesOnly c i s).1
  rw [fireAt_eq]
  generalize tokensDone c i s = t at h ⊢
  rw [State.modCore, State.setCore, h]

/-- Without pieces for the network a firing changes no other station of its core. -/
theorem fireAt_station_other (h : (partsOf (s.core c) (poppedRegs (s.core c) i (s.station c k).regs) i.op) = []) (j : Fin 8) (hj : j ≠ k) :
    (fireAt c k i w s).station c j = s.station c j := by
  have hv : k.val ≠ j.val := fun e => hj (Fin.ext e.symm)
  have hp : (firedFlight (s.core c) k i w).pieces = [] := by
    simp only [State.station] at h
    simp only [firedFlight, netPieces, h]
    rfl
  rw [fireAt_eq, State.station, State.modCore_same, firedCore, hp, List.isEmpty_nil, if_pos rfl, issuedCore_stns, tokensDone_stns]
  simp [State.station, hv]

end Fire

/-! ### The statement -/

/-- What a firing records of itself. -/
theorem firedFlight_records (co : Core) (k : Fin 8) (i : CoreInstr) (w : InstrWord) :
    let f := firedFlight co k i w
    f.uid = co.stns[k].nextUid ∧ f.pc = co.stns[k].pc ∧ f.word = w ∧ f.regs.take 16 = (poppedRegs co i co.stns[k].regs).toList
      ∧ (∀ m, i.op = .vstore m → f.regs.drop 16 = (co.vregs[vregIx k m.v]).toList)
      ∧ f.outVal = regRead (poppedRegs co i co.stns[k].regs) i.outVal ∧ f.moved = false := by
  refine ⟨rfl, rfl, rfl, List.take_left' Vector.length_toList, fun m hm => ?_, rfl, rfl⟩
  have hstored : storedReg co k i.op = (co.vregs[vregIx k m.v]).toList := by rw [hm]; rfl
  exact (List.drop_left' Vector.length_toList).trans hstored

theorem fireAt_frame (c : Fin 384) (k : Fin 8) (i : CoreInstr) (w : InstrWord) (s : State) :
    (fireAt c k i w s).clusters = s.clusters ∧ (fireAt c k i w s).gddr = s.gddr ∧ (fireAt c k i w s).host = s.host
      ∧ (fireAt c k i w s).rings = s.rings := by
  rw [fireAt_state]
  exact ⟨rfl, rfl, rfl, rfl⟩

theorem fireAt_wires (c : Fin 384) (k : Fin 8) (i : CoreInstr) (w : InstrWord) (s : State) :
    (fireAt c k i w s).wires = (popsDone c i s).wires := by
  rw [fireAt_state, ← tokensDone_wires]

theorem poppedRegs_inA (co : Core) (i : CoreInstr) (rs : Vector Word 16) (a : BitVec 5) (h : i.inA = some a) :
    (poppedRegs co i rs)[14] = co.queues[ix 32 a.toNat].tokens.headD 0 := by
  cases hb : i.inB <;> simp [poppedRegs, h, hb]

theorem poppedRegs_inB (co : Core) (i : CoreInstr) (rs : Vector Word 16) (b : BitVec 5) (h : i.inB = some b) (hne : i.inA ≠ some b) :
    (poppedRegs co i rs)[15] = co.queues[ix 32 b.toNat].tokens.headD 0 := by
  simp only [poppedRegs, h, if_neg hne]
  simp

/-- An instruction that fires has its firing and its effect. -/
theorem exec_stationCmd_fires {s : State} {c : Fin 384} {k : Fin 8} {i : CoreInstr} (hf : firesNow s c k i = true) :
    exec (stationCmd c k i.op) s =
      .next (fireEffect c k i (s.station c k).nextUid (fireAt c k i ((s.core c).instrAt (s.station c k).pc) s)) := by
  obtain ⟨kind, eff, he, hkind⟩ := exec_stationCmd c k i.op s
  have hop := decodeCore_op (firesNow_decodes hf)
  obtain ⟨hk, heff⟩ := hkind fun v hv => vecOk_ne_fifteen (opOf_vec_ok (hv ▸ hop)) rfl
  rw [he, fireWith_fires c k kind eff i s hf hk, heff i _ _ rfl]

/-- Settles O15: the command is the firing with the operation's effect; the station, its tokens and the rest are read off. -/
theorem stationsFire : Obligations.StationsFire := by
  refine ⟨fun s c k i hf => exec_stationCmd_fires hf, fun s c k i w => ?_, fun s c k i w => ?_⟩
  · have hst := fireAt_offNet c k i w s
    obtain ⟨hls, hpoison, hvregs, histore, hoptab, hdrain⟩ := fireAt_memories c k i w s
    obtain ⟨hcl, hgddr, hhost, hrings⟩ := fireAt_frame c k i w s
    obtain ⟨huid, hpc, hword, hregs, hvreg, hout, hmoved⟩ := firedFlight_records (s.core c) k i w
    refine ⟨congrArg Station.pc hst, fireAt_regs .., congrArg Station.nextUid hst, (congrArg Station.flags hst).trans rfl, (congrArg Station.state hst).trans rfl,
      ⟨firedFlight (s.core c) k i w, ?_, huid, hpc, hword, hregs, hvreg, hout, hmoved⟩, fireAt_offNet_other c k i w s,
      fireAt_core_other c k i w s, hls, hpoison, hvregs, histore, hoptab, hdrain, hcl, hgddr, hhost, hrings⟩
    rw [hst]
    exact List.map_append
  · refine ⟨fun q => ?_, fun a ha => ?_, fun b hb hne => ?_, fun ha hb => ?_, fun a ha hb hr => ?_⟩
    · have hq : ((fireAt c k i w s).core c).queues[q] = _ := (congrArg (·[q]) (fireAt_queues c k i w s)).trans (tokensDone_queue c i s q)
      rw [hq]
      exact ⟨rfl, rfl⟩
    · rw [fireAt_regs, poppedRegs_inA _ _ _ a ha]
    · rw [fireAt_regs, poppedRegs_inB _ _ _ b hb hne]
    · rw [fireAt_wires, popsDone, ha, hb]
      rfl
    · rw [fireAt_wires, popsDone, ha, hb]
      exact popToken_wires_remote c _ s hr

end Sys2Proof.Machine
end

section
/-! PROOFS. CTRL instructions (R116): what a station's instruction leaves in it, and the functions and conditions. -/
namespace Sys2Proof.Machine
open Sys2Proof

/-! ### A station's own part of a state -/

@[simp] theorem State.setStation_station (s : State) (c : Fin 384) (k : Fin 8) (x : Station) : (s.setStation c k x).station c k = x := by
  simp [State.setStation, State.station]

theorem State.setStation_station_other (s : State) (c : Fin 384) (k j : Fin 8) (x : Station) (h : j ≠ k) :
    (s.setStation c k x).station c j = s.station c j := by
  have hv : k.val ≠ j.val := fun e => h (Fin.ext e.symm)
  simp [State.setStation, State.station, hv]

theorem State.setStation_core_other (s : State) (c d : Fin 384) (k : Fin 8) (x : Station) (h : d ≠ c) :
    (s.setStation c k x).core d = s.core d := State.modCore_other _ _ _ _ h.symm

@[simp] theorem State.setCore_setCore (s : State) (c : Fin 384) (x y : Core) : (s.setCore c x).setCore c y = s.setCore c y := by
  simp [State.setCore]

@[simp] theorem State.setStation_setStation (s : State) (c : Fin 384) (k : Fin 8) (x y : Station) :
    (s.setStation c k x).setStation c k y = s.setStation c k y := by
  simp [State.setStation, State.modCore]

/-- A station whose instruction u has done its own work. -/
def Station.markMoved (u : Nat) (st : Station) : Station :=
  { st with inflight := st.inflight.map fun f => if f.uid = u then { f with moved := true, started := true } else f }

@[simp] theorem Station.markMoved_regs (u : Nat) (st : Station) : (st.markMoved u).regs = st.regs := rfl

@[simp] theorem Station.markMoved_flags (u : Nat) (st : Station) : (st.markMoved u).flags = st.flags := rfl

theorem markMoved_eq (c : Fin 384) (k : Fin 8) (u : Nat) (s : State) : markMoved c k u s = s.setStation c k ((s.station c k).markMoved u) :=
  rfl

/-- Everything but a station of core c, its queues and what is under way between cores is as it was. -/
def StationOnly (c : Fin 384) (k : Fin 8) (s t : State) : Prop :=
  (∀ k' : Fin 8, k' ≠ k → t.station c k' = s.station c k') ∧ (∀ c' : Fin 384, c' ≠ c → t.core c' = s.core c')
    ∧ (t.core c).ls = (s.core c).ls ∧ (t.core c).vregs = (s.core c).vregs ∧ t.host = s.host ∧ t.gddr = s.gddr

theorem StationOnly.setStation {c : Fin 384} {k : Fin 8} {s t : State} (h : StationOnly c k s t) (x : Station) :
    StationOnly c k s (t.setStation c k x) := by
  obtain ⟨hst, hcore, hls, hvregs, hhost, hgddr⟩ := h
  refine ⟨fun j hj => (State.setStation_station_other t c k j x hj).trans (hst j hj),
    fun d hd => (State.setStation_core_other t c d k x hd).trans (hcore d hd), ?_, ?_, hhost, hgddr⟩
  · rw [← hls]
    simp [State.setStation]
  · rw [← hvregs]
    simp [State.setStation]

theorem fireAt_stationOnly (c : Fin 384) (k : Fin 8) (i : CoreInstr) (w : InstrWord) (s : State)
    (h : partsOf (s.core c) (poppedRegs (s.core c) i (s.station c k).regs) i.op = []) : StationOnly c k s (fireAt c k i w s) := by
  obtain ⟨hls, -, hvregs, -⟩ := fireAt_memories c k i w s
  obtain ⟨-, hgddr, hhost, -⟩ := fireAt_frame c k i w s
  exact ⟨fireAt_station_other c k i w s h, fireAt_core_other c k i w s, hls, hvregs, hhost, hgddr⟩

/-! ### What CTRL instructions leave in their station (R116) -/

/-- What a CTRL instruction leaves in a station that has fired it, beside the note that it has done its work. -/
def Station.ctrl (o : CoreOp) (st : Station) : Station :=
  match o with
  | .alu sd sa sb fn u imm =>
    { st with regs := regWrite st.regs sd (aluFn fn.toNat (regRead st.regs sa) (if u then imm else regRead st.regs sb)) }
  | .li sd imm => { st with regs := regWrite st.regs sd imm }
  | .br sa sb cond target => { st with pc := if condHolds cond.toNat (regRead st.regs sa) (regRead st.regs sb) then target else st.pc }
  | .loop sa target =>
    let rs := regWrite st.regs sa (regRead st.regs sa - 1)
    { st with regs := rs, pc := if regRead rs sa = 0 then st.pc else target }
  | .flags sd clear => { st with regs := regWrite st.regs sd (st.flags.setWidth 32), flags := if clear then 0 else st.flags }
  | .endStn => { st with ending := true }
  | _ => st

/-- The CTRL instructions, TRAP apart. -/
def CoreOp.isCtrl : CoreOp → Bool
  | .nop | .alu _ _ _ _ _ _ | .li _ _ | .br _ _ _ _ | .loop _ _ | .endStn | .flags _ _ => true
  | _ => false

theorem Station.ctrl_br (st : Station) (sa sb cond target) : st.ctrl (.br sa sb cond target)
    = { st with pc := if condHolds cond.toNat (regRead st.regs sa) (regRead st.regs sb) then target else st.pc } := rfl

theorem Station.ctrl_loop (st : Station) (sa target) : st.ctrl (.loop sa target)
    = { st with
        regs := regWrite st.regs sa (regRead st.regs sa - 1),
        pc := if regRead (regWrite st.regs sa (regRead st.regs sa - 1)) sa = 0 then st.pc else target } := rfl

theorem Station.ctrl_flags (st : Station) (sd clear) : st.ctrl (.flags sd clear)
    = { st with regs := regWrite st.regs sd (st.flags.setWidth 32), flags := if clear then 0 else st.flags } := rfl

theorem regRead_of_ne {r : BitVec 4} (h : r ≠ 0) (rs : Vector Word 16) : regRead rs r = rs[r.toNat] := if_neg h

theorem regWrite_of_ne {r : BitVec 4} (h : r ≠ 0) (rs : Vector Word 16) (v : Word) : regWrite rs r v = rs.set r.toNat v := if_neg h

theorem fireEffect_ctrl (c : Fin 384) (k : Fin 8) (i : CoreInstr) (u : Nat) (t : State) (h : i.op.isCtrl = true) :
    fireEffect c k i u t = t.setStation c k (((t.station c k).markMoved u).ctrl i.op) := by
  obtain ⟨op, inA, inB, outA, outB, outVal⟩ := i
  cases op
  case alu | li | endStn | nop =>
    simp only [fireEffect, aluEff, liEff, markMoved_eq, setReg, State.modStation, State.setStation_station, State.setStation_setStation]
    rfl
  case br | loop | flags =>
    simp only [fireEffect, brEff, loopEff, flagsEff, markMoved_eq, setReg, State.modStation, State.setStation_station,
      State.setStation_setStation, Station.ctrl_br, Station.ctrl_loop, Station.ctrl_flags, Station.markMoved_regs, Station.markMoved_flags, ne_eq, ite_not]
    split <;> (rename_i hcase; simp only [hcase, if_true, if_false, Bool.false_eq_true]) <;> rfl
  all_goals cases h

theorem partsOf_ctrl (co : Core) (rs : Vector Word 16) (o : CoreOp) (h : o.isCtrl = true) : partsOf co rs o = [] := by
  cases o
  case alu | li | endStn | nop | br | loop | flags => rfl
  all_goals cases h

/-- A CTRL instruction that fires does its work on its station as the firing leaves it, and on nothing else. -/
theorem ctrl_fires {s : State} {c : Fin 384} {k : Fin 8} {i : CoreInstr} (hf : firesNow s c k i = true) (h : i.op.isCtrl = true) :
    ∃ (t : State) (st : Station), exec (stationCmd c k i.op) s = .next t ∧ t.station c k = st.ctrl i.op
      ∧ st.regs = poppedRegs (s.core c) i (s.station c k).regs ∧ st.pc = (s.station c k).pc + 1 ∧ st.flags = (s.station c k).flags
      ∧ StationOnly c k s t := by
  have hst := fireAt_offNet c k i ((s.core c).instrAt (s.station c k).pc) s
  refine ⟨_, _, (exec_stationCmd_fires hf).trans (congrArg _ (fireEffect_ctrl c k i _ _ h)), State.setStation_station ..,
    fireAt_regs .., (congrArg Station.pc hst :), (congrArg Station.flags hst).trans rfl, (fireAt_stationOnly c k i _ s (partsOf_ctrl _ _ _ h)).setStation _⟩

/-! ### The functions and conditions of R116, and FN 11 and 12 of R140 -/

theorem bits_toNat_shift (b : Word) : (bits b 0 5 : BitVec 5).toNat = b.toNat % 32 := by
  simp [bits]

theorem aluFn_minimum (a b : Word) :
    (aluFn 8 a b = a ∨ aluFn 8 a b = b) ∧ (aluFn 8 a b).toNat = min a.toNat b.toNat ∧ (aluFn 9 a b).toNat = max a.toNat b.toNat := by
  rcases Nat.le_total a.toNat b.toNat with h | h <;> by_cases h' : a.toNat ≤ b.toNat <;> simp [aluFn, h, h']; omega

theorem aluFn_shifts (a b : Word) : aluFn 5 a b = a <<< (bits b 0 5 : BitVec 5) ∧ aluFn 6 a b = a >>> (bits b 0 5 : BitVec 5)
    ∧ aluFn 11 a b = a.sshiftRight (bits b 0 5 : BitVec 5).toNat := by
  simp only [BitVec.shiftLeft_eq', BitVec.ushiftRight_eq', bits_toNat_shift]
  exact ⟨rfl, rfl, rfl⟩

theorem aluFn_less (a b : Word) : aluFn 10 a b = if a.slt b then 1 else 0 := by
  simp [aluFn, BitVec.slt]

/-- The upper half of the product fits a word. -/
theorem aluFn_upperProduct (a b : Word) : (aluFn 12 a b).toNat = a.toNat * b.toNat / 2 ^ 32 := by
  have h : a.toNat * b.toNat / 2 ^ 32 < 2 ^ 32 := Nat.div_lt_of_lt_mul (Nat.mul_lt_mul'' a.isLt b.isLt)
  exact Nat.mod_eq_of_lt h

theorem condHolds_conditions (a b : Word) :
    (condHolds 0 a b ↔ a = b) ∧ (condHolds 1 a b ↔ a ≠ b) ∧ (condHolds 2 a b ↔ a.slt b = true) ∧ (condHolds 3 a b ↔ a.slt b = false)
    ∧ (condHolds 4 a b ↔ a.ult b = true) ∧ (condHolds 5 a b ↔ a.ult b = false) ∧ condHolds 6 a b = true := by
  simp [condHolds, BitVec.slt, BitVec.ult]

/-- Settles O16: an instruction that fires does its work on its station as the firing left it. -/
theorem controlInstructions : Obligations.ControlInstructions := by
  refine ⟨fun s c k i hf => ⟨?_, ?_, ?_, ?_, ?_, ?_, ?_, ?_⟩, fun a b => ?_⟩
  · intro sd sa sb fn u imm hi
    obtain ⟨t, st, he, ht, hr, hp, hl, hsame⟩ := ctrl_fires hf (by rw [hi]; rfl)
    rw [hi] at he ht
    refine ⟨t, he, ?_, ?_, ?_, hsame⟩ <;> rw [ht]
    · rw [← hr]; rfl
    · exact hp
    · exact hl
  · intro sd imm hi
    obtain ⟨t, st, he, ht, hr, hp, hl, hsame⟩ := ctrl_fires hf (by rw [hi]; rfl)
    rw [hi] at he ht
    refine ⟨t, he, ?_, ?_, ?_, hsame⟩ <;> rw [ht]
    · rw [← hr]; rfl
    · exact hp
    · exact hl
  · intro sa sb cond target hi
    obtain ⟨t, st, he, ht, hr, hp, hl, hsame⟩ := ctrl_fires hf (by rw [hi]; rfl)
    rw [hi] at he ht
    rw [Station.ctrl_br] at ht
    refine ⟨t, he, ?_, ?_, ?_, hsame⟩ <;> rw [ht]
    · exact hr
    · rw [← hr, ← hp]
    · exact hl
  · intro sa target hi hsa
    obtain ⟨t, st, he, ht, hr, hp, hl, hsame⟩ := ctrl_fires hf (by rw [hi]; rfl)
    rw [hi] at he ht
    rw [Station.ctrl_loop, regRead_of_ne hsa, regWrite_of_ne hsa] at ht
    refine ⟨t, he, ?_, ?_, ?_, hsame⟩ <;> rw [ht]
    · simp only [regRead_of_ne hsa, hr]
    · simp only [ne_eq, ite_not, regRead_of_ne hsa, Vector.getElem_set_self, hr, hp]
    · exact hl
  · intro target hi
    obtain ⟨t, st, he, ht, hr, hp, hl, hsame⟩ := ctrl_fires hf (by rw [hi]; rfl)
    rw [hi] at he ht
    rw [Station.ctrl_loop] at ht
    refine ⟨t, he, ?_, ?_, ?_, hsame⟩ <;> rw [ht]
    · exact hr
    · exact hp
    · exact hl
  · intro sd clear hi
    obtain ⟨t, st, he, ht, hr, hp, hl, hsame⟩ := ctrl_fires hf (by rw [hi]; rfl)
    rw [hi] at he ht
    rw [Station.ctrl_flags] at ht
    refine ⟨t, he, ?_, ?_, ?_, hsame⟩ <;> rw [ht]
    · simp only [hr, hl]
    · exact hp
    · simp only [hl]
  · intro hi
    obtain ⟨t, st, he, ht, hr, hp, hl, hsame⟩ := ctrl_fires hf (by rw [hi]; rfl)
    rw [hi] at he ht
    exact ⟨t, he, by rw [ht, ← hr]; rfl, by rw [ht, ← hp]; rfl, by rw [ht, ← hl]; rfl, hsame⟩
  · intro hi
    obtain ⟨t, st, he, ht, hr, hp, hl, hsame⟩ := ctrl_fires hf (by rw [hi]; rfl)
    rw [hi] at he ht
    exact ⟨t, he, by rw [ht, ← hr]; rfl, by rw [ht]; rfl, by rw [ht, ← hl]; rfl, hsame⟩
  · obtain ⟨hone, hmin, hmax⟩ := aluFn_minimum a b
    obtain ⟨hleft, hright, harith⟩ := aluFn_shifts a b
    exact ⟨rfl, rfl, rfl, rfl, rfl, hleft, hright, rfl, hone, hmin, hmax,
      aluFn_less a b, harith, aluFn_upperProduct a b, condHolds_conditions a b⟩

end Sys2Proof.Machine
end

section
/-! PROOFS. The stallkeeper's own part of a state, the operation it stands at, and its register operations and branches (R138 to R140). -/
namespace Sys2Proof.Machine
open Sys2Proof

/-! ### The stallkeeper of a cluster as a part of a state -/

@[simp] theorem State.setSk_sk (s : State) (cl : Fin 48) (x : Stallkeeper) : (s.setSk cl x).sk cl = x := by
  simp [State.setSk, State.sk]

@[simp] theorem State.setCluster_setCluster (s : State) (cl : Fin 48) (x y : Cluster) :
    (s.setCluster cl x).setCluster cl y = s.setCluster cl y := by
  simp [State.setCluster]

@[simp] theorem State.setSk_setSk (s : State) (cl : Fin 48) (x y : Stallkeeper) : (s.setSk cl x).setSk cl y = s.setSk cl y := by
  simp [State.setSk, State.modCluster]

theorem State.modSk_eq (s : State) (cl : Fin 48) (f : Stallkeeper → Stallkeeper) : s.modSk cl f = s.setSk cl (f (s.sk cl)) := rfl

theorem skNext_eq (cl : Fin 48) (s : State) : skNext cl s = s.setSk cl { s.sk cl with pc := (s.sk cl).pc + 4 } := rfl

@[simp] theorem Stallkeeper.setG_pc (k : Stallkeeper) (r : BitVec 5) (v : Word) : (k.setG r v).pc = k.pc := by
  unfold Stallkeeper.setG
  split <;> rfl

theorem skSet_eq (cl : Fin 48) (r : BitVec 5) (v : Word) (s : State) :
    skSet cl r v s = s.setSk cl { (s.sk cl).setG r v with pc := (s.sk cl).pc + 4 } := by
  simp only [skSet, skNext_eq, State.modSk_eq, State.setSk_sk, State.setSk_setSk, Stallkeeper.setG_pc]

theorem Stallkeeper.reg_zero (k : Stallkeeper) : k.reg 0 = 0 := rfl

theorem Stallkeeper.reg_setG_same (k : Stallkeeper) {r : BitVec 5} (h : r ≠ 0) (v : Word) : (k.setG r v).reg r = v := by
  rw [Stallkeeper.setG, if_neg h, Stallkeeper.reg, if_neg h]
  exact Vector.getElem_set_self _

theorem Stallkeeper.reg_setG_other (k : Stallkeeper) {r r' : BitVec 5} (h : r' ≠ r) (v : Word) : (k.setG r v).reg r' = k.reg r' := by
  have hn : r.toNat ≠ r'.toNat := fun e => h (BitVec.eq_of_toNat_eq e.symm)
  unfold Stallkeeper.setG
  split <;> simp [Stallkeeper.reg, hn]

/-! ### The operation a stallkeeper stands at (R140) -/

theorem skRuns_iff {s : State} {cl : Fin 48} {o : SkOp} :
    skRuns s cl o = true ↔ (s.sk cl).st = .run ∧ (skFetch (s.sk cl)).bind decodeSk = some o := by
  simp [skRuns]

/-- A command whose kind the operation is of executes it. -/
theorem skStep_runs {s : State} {cl : Fin 48} {o : SkOp} {kind : Stallkeeper → SkOp → Bool} (h : skRuns s cl o = true)
    (hk : kind (s.sk cl) o = true) : skStep cl kind s = skExec cl o s := by
  obtain ⟨hst, ho⟩ := skRuns_iff.1 h
  simp [skStep, hst, ho, hk]

theorem skStep_other {s : State} {cl : Fin 48} {o : SkOp} {kind : Stallkeeper → SkOp → Bool} (h : skRuns s cl o = true)
    (hk : kind (s.sk cl) o = false) : skStep cl kind s = s := by
  obtain ⟨hst, ho⟩ := skRuns_iff.1 h
  simp [skStep, hst, ho, hk]

theorem skStep_illegal {s : State} {cl : Fin 48} (kind : Stallkeeper → SkOp → Bool) (hst : (s.sk cl).st = .run)
    (ho : (skFetch (s.sk cl)).bind decodeSk = none) : skStep cl kind s = skStop cl s := by
  simp [skStep, hst, ho]

theorem skStep_idle {s : State} {cl : Fin 48} (kind : Stallkeeper → SkOp → Bool) (hst : (s.sk cl).st ≠ .run) : skStep cl kind s = s := by
  simp [skStep, hst]

theorem bitVec3_cases (c : BitVec 3) : c = 0 ∨ c = 1 ∨ c = 2 ∨ c = 3 ∨ c = 4 ∨ c = 5 ∨ c = 6 ∨ c = 7 := by
  revert c
  decide

theorem skCmd_cctl (cl : Fin 48) (gd ga gb fn : BitVec 5) :
    fn = 0 ∨ fn = 1 ∨ fn = 2 ∨ fn = 3 ∨ skCmd cl (.cctl gd ga gb fn) = .cctlInject cl := by
  by_cases h : fn.toNat < 4
  · have hfn : fn = BitVec.ofNat 5 fn.toNat := by simp
    interval_cases fn.toNat <;> simp [hfn]
  · refine .inr (.inr (.inr (.inr ?_)))
    simp only [skCmd]
    split <;> first | rfl | omega

/-- The command of an operation executes it where the stallkeeper stands at it; where it stands at another's, it does nothing. -/
theorem exec_skCmd (cl : Fin 48) (o : SkOp) : ∃ kind : Stallkeeper → SkOp → Bool, (∀ s, exec (skCmd cl o) s = .next (skStep cl kind s))
    ∧ ∀ k o', kind k o' = true → skCmd cl o = skCmd cl o' := by
  cases o
  case branch c ga gb i =>
    obtain rfl | rfl | rfl | rfl | rfl | rfl | rfl | rfl := bitVec3_cases c
    all_goals
      refine ⟨_, fun s => rfl, fun k o' h => ?_⟩
      cases o'
      case branch => cases of_decide_eq_true h; rfl
      all_goals cases h
  case cctl gd ga gb fn =>
    obtain rfl | rfl | rfl | rfl | h := skCmd_cctl cl gd ga gb fn
    on_goal 5 => rw [h]
    all_goals
      refine ⟨_, fun s => rfl, fun k o' h => ?_⟩
      cases o'
      case cctl => cases of_decide_eq_true h; rfl
      all_goals cases h
  all_goals
    refine ⟨_, fun s => rfl, fun k o' h => ?_⟩
    cases o' <;> first | rfl | cases h

theorem branchTo_eq {w : Nat} (pc : Word) (off : BitVec w) : branchTo pc off = pc + 4 * off.signExtend 32 := by
  rw [branchTo, BitVec.ofInt_mul]
  rfl

theorem lui_eq (i : Half) : (i ++ 0#16 : Word) = BitVec.ofNat 32 (i.toNat * 2 ^ 16) := by
  apply BitVec.eq_of_toNat_eq
  have := i.isLt
  simp only [BitVec.toNat_append, Nat.shiftLeft_eq, BitVec.toNat_ofNat, Nat.zero_mod, Nat.or_zero]
  omega

/-- A branch goes to its target where its condition holds, and on where it does not. -/
theorem branch_eq (cl : Fin 48) (c : BitVec 3) (ga gb : BitVec 5) (i : Half) (s : State) : skExec cl (.branch c ga gb i) s
    = s.setSk cl { s.sk cl with
        pc := if condHolds c.toNat ((s.sk cl).reg ga) ((s.sk cl).reg gb) then (s.sk cl).pc + 4 * i.signExtend 32 else (s.sk cl).pc + 4 } := by
  simp only [skExec, branchTo_eq]
  split <;> rfl

theorem jal_eq (cl : Fin 48) (off : BitVec 26) (s : State) : skExec cl (.jal off) s
    = s.setSk cl { (s.sk cl).setG 31 ((s.sk cl).pc + 4) with pc := (s.sk cl).pc + 4 * off.signExtend 32 } := by
  simp only [skExec, branchTo_eq]
  rfl

/-- Settles O20: each operation sets its register or the pc, and nothing else. -/
theorem stallkeeperRegistersAndBranches : Obligations.StallkeeperRegistersAndBranches := by
  refine ⟨fun s cl => ⟨fun gd ga gb fn h => ?_, fun gd ga i h => ?_, fun gd ga i h => ?_, fun gd ga i h => ?_, fun gd ga i h => ?_, fun r v => ?_⟩,
    fun s cl => ⟨fun ga gb i h => ?_, fun ga gb i h => ?_, fun ga gb i h => ?_, fun ga gb i h => ?_, fun ga gb i h => ?_, fun ga gb i h => ?_,
      fun off h => ?_, fun gd ga i h => ?_⟩⟩
  · exact congrArg Host.Outcome.next ((skStep_runs h rfl).trans (skSet_eq ..))
  · exact congrArg Host.Outcome.next ((skStep_runs h rfl).trans (skSet_eq ..))
  · exact congrArg Host.Outcome.next ((skStep_runs h rfl).trans (skSet_eq ..))
  · exact congrArg Host.Outcome.next ((skStep_runs h rfl).trans (skSet_eq ..))
  · rw [← lui_eq]
    exact congrArg Host.Outcome.next ((skStep_runs h rfl).trans (skSet_eq ..))
  · exact ⟨Stallkeeper.reg_zero _, fun hr => Stallkeeper.reg_setG_same _ hr v, fun r' hr => Stallkeeper.reg_setG_other _ hr v⟩
  iterate 6 exact congrArg Host.Outcome.next ((skStep_runs h rfl).trans (branch_eq ..))
  · exact congrArg Host.Outcome.next ((skStep_runs h rfl).trans (jal_eq ..))
  · exact congrArg Host.Outcome.next (skStep_runs h rfl)

end Sys2Proof.Machine
end

section
/-! PROOFS. The stallkeeper's loads and stores (R138), counters and criers (R104, R154, R169). -/
namespace Sys2Proof.Machine
open Sys2Proof

/-! ### Numbers in a memory -/

theorem Memory.getBytes_putBytes (m : Memory) (a : Nat) (bs : List Byte) (h : m.wf = true) :
    (m.putBytes a bs).getBytes a bs.length = bs := by
  refine List.ext_getElem (by simp [Memory.getBytes]) fun i hi hi' => ?_
  simpa [Memory.getBytes] using Memory.get_putBytes_same m a i bs h hi'

theorem Memory.getLE_putLE (m : Memory) (a n v : Nat) (h : m.wf = true) : (m.putLE a n v).getLE a n = v % 256 ^ n := by
  have hb := m.getBytes_putBytes a (leBytes v n) h
  rw [leBytes_length] at hb
  rw [Memory.getLE, Memory.putLE, hb, leNat_leBytes]

theorem Memory.word_putLE (m : Memory) (a : Nat) (v : Word) (h : m.wf = true) : (m.putLE a 4 v.toNat).word a = v := by
  have hv := v.isLt
  rw [Memory.word, Memory.getLE_putLE m a 4 _ h, Nat.mod_eq_of_lt (by omega), BitVec.ofNat_toNat, BitVec.setWidth_eq]

theorem Memory.get_putLE_other (m : Memory) (a b n v : Nat) (h : b < a ∨ a + n ≤ b) : (m.putLE a n v).get b = m.get b :=
  Memory.get_putBytes_other m a b _ (by rwa [leBytes_length])

/-! ### The stallkeeper's address space (R138) -/

section Space
variable (s : State) (cl : Fin 48)

theorem skRead_data {a : Nat} (h4 : a % 4 = 0) (hlo : 0x10000 ≤ a) (hhi : a < 0x50000) :
    skRead s cl a = some ((s.sk cl).dmem.word (a - 0x10000)) := by
  unfold skRead
  rw [if_neg (by omega), if_neg (by omega), if_pos hhi]
  rfl

theorem skWrite_data {a : Nat} (v : Word) (h4 : a % 4 = 0) (hlo : 0x10000 ≤ a) (hhi : a < 0x50000) :
    skWrite s cl a v = some (s.setSk cl { s.sk cl with dmem := (s.sk cl).dmem.putLE (a - 0x10000) 4 v.toNat }) := by
  unfold skWrite
  rw [if_neg (by omega), if_neg (by omega), if_pos hhi]
  rfl

/-- Off a word, between the regions and above them nothing is read or written. -/
theorem skSpace_outside {a : Nat} (v : Word) (h : a % 4 ≠ 0 ∨ (0x50000 ≤ a ∧ a < 0x10000000) ∨ 0x21000014 ≤ a) :
    skRead s cl a = none ∧ skWrite s cl a v = none := by
  unfold skRead skWrite
  simp only [Bool.and_eq_true, decide_eq_true_eq]
  constructor
  all_goals
    split_ifs
    all_goals first | rfl | omega

theorem skWrite_crierCount {a : Nat} (v : Word) (ch : Fin 64) (h : a = 0x2000000C + 16 * ch.val) (hv : (bits v 0 16 : Half) = 1) :
    skWrite s cl a v = some (crierArrive cl ch 1 s) := by
  have := ch.isLt
  have hch : ix 64 ((a - 0x20000000) / 16) = ch := Fin.ext (by simp [ix]; omega)
  have ho : a % 16 = 12 := by omega
  unfold skWrite
  iterate 6 rw [if_neg (by omega)]
  rw [if_pos (by omega), hch, ho]
  simp [crierWrite, hv]

theorem skWrite_counters {a : Nat} (v : Word) (j : Fin 8) {o : Nat} (ho : o < 0x200) (h4 : o % 4 = 0)
    (h : a = 0x10000000 + 0x100000 * j.val + 0x14000 + o) :
    skWrite s cl a v = some (watchCheck (coreOf cl j.val) (s.setCore (coreOf cl j.val) (ctrWrite o v (s.core (coreOf cl j.val))))) := by
  have := j.isLt
  have hj : (a - 0x10000000) / 0x100000 = j.val := by omega
  have hm : a % 0x100000 = 0x14000 + o := by omega
  have hw (co : Core) : windowWrite co (0x14000 + o) v = some (ctrWrite o v co) := by
    unfold windowWrite
    iterate 6 rw [if_neg (by omega)]
    rw [if_pos (by omega), Nat.add_sub_cancel_left]
  unfold skWrite
  iterate 4 rw [if_neg (by omega)]
  rw [if_pos (by omega)]
  simp only [hj, hm, hw, Option.map_some]

end Space

theorem State.setSk_cluster (s : State) (cl : Fin 48) (x : Stallkeeper) : (s.setSk cl x).cluster cl = { s.cluster cl with sk := x } := by
  simp [State.setSk]

theorem crierArrive_same (cl : Fin 48) (ch : Fin 64) (n : Nat) (s : State) :
    ((crierArrive cl ch n s).cluster cl).crier[ch].count = (s.cluster cl).crier[ch].count + BitVec.ofNat 16 n := by
  simp [crierArrive]

theorem crierArrive_other (cl : Fin 48) {ch ch' : Fin 64} (h : ch' ≠ ch) (n : Nat) (s : State) :
    ((crierArrive cl ch n s).cluster cl).crier[ch'] = (s.cluster cl).crier[ch'] := by
  have hv : ch.val ≠ ch'.val := fun e => h (Fin.ext e.symm)
  simp [crierArrive, hv]

@[simp] theorem crierArrive_sk (cl : Fin 48) (ch : Fin 64) (n : Nat) (s : State) : (crierArrive cl ch n s).sk cl = s.sk cl := by
  simp [crierArrive, State.sk]

/-! ### Counters and the watch (R104, R169) -/

theorem cntClear_arrays (v : Word) (co : Core) (a : Fin 4) :
    (cntClear v co).arrays[a] = if v.getLsbD a.val then clearArr co.arrays[a] else co.arrays[a] := by
  unfold cntClear takeBase
  split_ifs <;> simp [*]

theorem cntClear_kept (v : Word) (co : Core) : (cntClear v co).ls = co.ls ∧ (cntClear v co).stns = co.stns := by
  unfold cntClear takeBase
  split_ifs <;> exact ⟨rfl, rfl⟩

theorem cntClear_events {v : Word} (co : Core) (h : v.getLsbD 5 = true) : (cntClear v co).satCnt = 0 ∧ (cntClear v co).ufzCnt = 0
    ∧ (cntClear v co).psnCnt = 0 ∧ (cntClear v co).edgeCnt = 0 ∧ (cntClear v co).watch.baseSat = 0 := by
  unfold cntClear takeBase
  rw [if_pos h]
  exact ⟨rfl, rfl, rfl, rfl, rfl⟩

theorem cntClear_events_kept {v : Word} (co : Core) (h : v.getLsbD 5 = false) :
    (cntClear v co).satCnt = co.satCnt ∧ (cntClear v co).watch = co.watch := by
  unfold cntClear
  simp only [h, Bool.false_eq_true, if_false]
  split_ifs <;> exact ⟨rfl, rfl⟩

/-! ### A store and the commands that execute it -/

theorem skExec_store {s t : State} {cl : Fin 48} {gd ga : BitVec 5} {i : Half}
    (h : skWrite s cl ((s.sk cl).reg ga + i.signExtend 32).toNat ((s.sk cl).reg gd) = some t) : skExec cl (.sw gd ga i) s = skNext cl t := by
  simp only [skExec, effAddr, h]

theorem one_and_ne_zero {v : Word} (h : v.getLsbD 0 = true) : v &&& 1 ≠ 0 := by
  intro h0
  have hbit := congrArg (·.getLsbD 0) h0
  rw [BitVec.getLsbD_and, h] at hbit
  cases hbit

/-- A store into the counter block of a core of the cluster is of the kind that its word and its bits name. -/
theorem storesCtr_sw {o : Nat} {mask : Word} (k : Stallkeeper) {gd ga : BitVec 5} (i : Half) (j : Fin 8) (ho : o < 0x200)
    (ha : (k.reg ga + i.signExtend 32).toNat = 0x10000000 + 0x100000 * j.val + (0x14000 + o)) (hv : k.reg gd &&& mask ≠ 0) :
    storesCtr o mask k (.sw gd ga i) = true := by
  have := j.isLt
  simp only [storesCtr, storeOf, effAddr, Bool.and_eq_true, decide_eq_true_eq]
  exact ⟨⟨⟨by omega, by omega⟩, by omega⟩, hv⟩

theorem storesCount_sw (k : Stallkeeper) {gd ga : BitVec 5} (i : Half) (ch : Fin 64)
    (ha : (k.reg ga + i.signExtend 32).toNat = 0x2000000C + 16 * ch.val) (hv : (bits (k.reg gd) 0 16 : Half) = 1) :
    storesCount k (.sw gd ga i) = true := by
  have := ch.isLt
  simp only [storesCount, storeOf, effAddr, Bool.and_eq_true, decide_eq_true_eq]
  exact ⟨⟨⟨by omega, by omega⟩, by omega⟩, hv⟩

/-- Settles O21: a store goes where the address space has its word, and the commands that act on a register of their own execute it. -/
theorem stallkeeperMemoryAndCounters : Obligations.StallkeeperMemoryAndCounters := by
  refine ⟨fun s cl => ⟨fun gd ga i v h hr => ?_, fun gd ga i h hr => ?_, fun gd ga i t h hw => ?_, fun gd ga i h hw => ?_,
    fun a v h4 hlo hhi hwf => ?_, fun a v h => skSpace_outside s cl v h⟩,
    fun s cl gd ga i h => ⟨fun ch ha hv => ?_, fun j ha hv => ⟨?_, rfl, rfl, rfl, rfl, rfl, rfl, rfl⟩, fun j ha hv => ⟨?_, fun b hb => ?_, fun b hb => ?_, cntClear_events _, cntClear_events_kept _,
      cntClear_kept _ _⟩⟩⟩
  · exact congrArg Host.Outcome.next ((skStep_runs h rfl).trans (by simp only [skExec, effAddr, hr, skSet_eq]))
  · exact congrArg Host.Outcome.next ((skStep_runs h rfl).trans (by simp only [skExec, effAddr, hr, skStop]))
  · exact congrArg Host.Outcome.next ((skStep_runs h rfl).trans (by simp only [skExec, effAddr, hw, skNext_eq]))
  · exact congrArg Host.Outcome.next ((skStep_runs h rfl).trans (by simp only [skExec, effAddr, hw, skStop]))
  · refine ⟨_, skWrite_data s cl v h4 hlo hhi, ?_, ?_, fun b hb => ?_⟩
    · rw [skRead_data _ cl h4 hlo hhi, State.setSk_sk]
      exact congrArg some (Memory.word_putLE _ _ _ hwf)
    · rw [State.setSk_sk]
    · rw [State.setSk_sk]
      exact Memory.get_putLE_other _ _ _ _ _ hb
  · have hw := skWrite_crierCount s cl _ ch ha hv
    refine ⟨_, congrArg Host.Outcome.next ((skStep_runs h ?_).trans (skExec_store hw)), ?_, ?_⟩
    · exact storesCount_sw _ _ ch ha hv
    · rw [skNext_eq, State.setSk_cluster]
      exact crierArrive_same cl ch 1 s
    · rw [skNext_eq, State.setSk_sk, crierArrive_sk]
  · have hw := skWrite_counters s cl ((s.sk cl).reg gd) j (o := 0x1A8) (by decide) (by decide) ha
    refine congrArg Host.Outcome.next ((skStep_runs h ?_).trans ((skExec_store hw).trans ?_))
    · exact storesCtr_sw _ _ j (by decide) ha (one_and_ne_zero hv)
    · rw [show ctrWrite 0x1A8 ((s.sk cl).reg gd) _ = _ from if_pos hv]
  · have hw := skWrite_counters s cl ((s.sk cl).reg gd) j (o := 0x1F8) (by decide) (by decide) ha
    exact congrArg Host.Outcome.next ((skStep_runs h (storesCtr_sw _ _ j (by decide) ha hv)).trans (skExec_store hw))
  · rw [cntClear_arrays, if_pos hb]
    exact ⟨rfl, rfl, rfl⟩
  · rw [cntClear_arrays, hb]
    rfl

end Sys2Proof.Machine
end

section
/-! PROOFS. What a halt leaves of its core, and the end of a launch on a cluster (R131, R149). -/
namespace Sys2Proof.Machine
open Sys2Proof

/-! ### What a halt leaves of its core (R131) -/

/-- A station as a halt leaves it, but for turns of the network. -/
def Station.halted (code : Nat) (pc : BitVec 12) (detail : Word) (uid : Option Nat) (st : Station) : Station :=
  let young (i : Inflight) : Bool := match uid with
    | some u => u < i.uid
    | none => false
  { st with
    state := .halted, excCode := BitVec.ofNat 8 code, excPost := uid.isSome, excPc := pc,
    excLost := BitVec.ofNat 5 (st.inflight.filter young).length, excDetail := detail,
    inflight := (st.inflight.filter fun i => !i.isStreaming).map fun i => if young i then { i with mute := true } else i, ending := false,
    stuck := st.stuck ++ (st.inflight.filter Inflight.isStreaming).flatMap fun i => outQueues i.word }

/-- A core one of whose stations halts. -/
def haltCore (k : Fin 8) (code : Nat) (pc : BitVec 12) (detail : Word) (uid : Option Nat) (co : Core) : Core :=
  let gone := co.stns[k].inflight.filter Inflight.isStreaming
  dropReqs (fun o => o.1 = k && gone.any fun i => i.uid = o.2)
    (abandonStreams k { co with stns := co.stns.set k (co.stns[k].halted code pc detail uid) })

section Halt
variable (c : Fin 384) (k : Fin 8) (code : Nat) (pc : BitVec 12) (detail : Word) (uid : Option Nat)

theorem haltStation_run {s : State} (h : (s.station c k).state = .run) :
    haltStation c k code pc detail uid s
      = skPost (clusterOf c) 0 (c.val % 8) k.val code (s.modCore c (haltCore k code pc detail uid)) :=
  if_neg (not_not.2 h)

theorem haltStation_not_run {s : State} (h : (s.station c k).state ≠ .run) : haltStation c k code pc detail uid s = s := if_pos h

/-- Requests dropped: stations but for the pieces of their instructions, and everything beyond stations, ports and the network, stay. -/
theorem dropReqs_eq (p : Fin 8 × Nat → Bool) (co : Core) : dropReqs p co =
    { co with
      stns := (dropReqs p co).stns, lports := (dropReqs p co).lports, xnetOwner := (dropReqs p co).xnetOwner,
      xnetWait := (dropReqs p co).xnetWait } := by
  rw [dropReqs, netTurn_eq]

theorem dropReqs_offNet (p : Fin 8 × Nat → Bool) (co : Core) (j : Fin 8) : ((dropReqs p co).stns[j]).offNet = (co.stns[j]).offNet :=
  netTurn_offNet _ j

theorem haltCore_station (co : Core) :
    ((haltCore k code pc detail uid co).stns[k]).offNet = ((co.stns[k]).halted code pc detail uid).offNet := by
  rw [haltCore, dropReqs_offNet]
  simp [abandonStreams]

theorem haltCore_station_other (co : Core) {j : Fin 8} (h : j ≠ k) :
    ((haltCore k code pc detail uid co).stns[j]).offNet = (co.stns[j]).offNet := by
  have hv : k.val ≠ j.val := fun e => h (Fin.ext e.symm)
  rw [haltCore, dropReqs_offNet]
  simp [abandonStreams, hv]

theorem haltCore_stores (co : Core) : (haltCore k code pc detail uid co).stores = co.stores := by
  rw [haltCore, dropReqs_eq]
  rfl

/-- What a halt leaves: the other cores, the other stations, and of its core the memories and queues. -/
theorem haltStation_core_other {d : Fin 384} (h : d ≠ c) (s : State) : (haltStation c k code pc detail uid s).core d = s.core d := by
  by_cases hr : (s.station c k).state = .run
  · rw [haltStation_run _ _ _ _ _ _ hr]
    exact State.modCore_other _ _ _ _ h.symm
  · rw [haltStation_not_run _ _ _ _ _ _ hr]

theorem haltStation_station_other {j : Fin 8} (h : j ≠ k) (s : State) :
    ((haltStation c k code pc detail uid s).station c j).offNet = (s.station c j).offNet := by
  by_cases hr : (s.station c k).state = .run
  · rw [haltStation_run _ _ _ _ _ _ hr, skPost_station, State.station, State.modCore_same]
    exact haltCore_station_other k code pc detail uid _ h
  · rw [haltStation_not_run _ _ _ _ _ _ hr]

theorem haltStation_station {s : State} (h : (s.station c k).state = .run) :
    ((haltStation c k code pc detail uid s).station c k).offNet = ((s.station c k).halted code pc detail uid).offNet := by
  rw [haltStation_run _ _ _ _ _ _ h, skPost_station, State.station, State.modCore_same]
  exact haltCore_station k code pc detail uid _

theorem haltStation_stores (d : Fin 384) (s : State) : ((haltStation c k code pc detail uid s).core d).stores = (s.core d).stores := by
  by_cases hd : d = c
  · subst hd
    by_cases hr : (s.station d k).state = .run
    · rw [haltStation_run _ _ _ _ _ _ hr]
      exact (congrArg Core.stores (State.modCore_same ..)).trans (haltCore_stores ..)
    · rw [haltStation_not_run _ _ _ _ _ _ hr]
  · rw [haltStation_core_other c k code pc detail uid hd]

theorem haltStation_cluster (cl : Fin 48) (s : State) : (haltStation c k code pc detail uid s).cluster cl
    = { s.cluster cl with sk := { s.sk cl with events := ((haltStation c k code pc detail uid s).sk cl).events } } := by
  by_cases hr : (s.station c k).state = .run
  · rw [haltStation_run _ _ _ _ _ _ hr]
    by_cases hcl : clusterOf c = cl
    · subst hcl
      simp [skPost, State.sk]
    · have hother := State.modCluster_other (s.modCore c (haltCore k code pc detail uid)) (clusterOf c) cl
      simp only [skPost, State.sk, hother _ hcl]
      rfl
  · rw [haltStation_not_run _ _ _ _ _ _ hr]
    rfl

theorem haltStation_state (d : Fin 384) (j : Fin 8) (s : State) (h : (d, j) ≠ (c, k)) :
    ((haltStation c k code pc detail uid s).station d j).state = (s.station d j).state := by
  by_cases hd : d = c
  · subst hd
    have hj : j ≠ k := fun e => h (by rw [e])
    exact (congrArg Station.state (haltStation_station_other d k code pc detail uid hj s) :)
  · rw [State.station, haltStation_core_other c k code pc detail uid hd]
    rfl

theorem haltStation_halts (s : State) : ((haltStation c k code pc detail uid s).station c k).state ≠ .run := by
  by_cases hr : (s.station c k).state = .run
  · have h := congrArg Station.state (haltStation_station c k code pc detail uid hr)
    exact fun e => nomatch (show StnState.halted = .run from (h.symm.trans e :))
  · rwa [haltStation_not_run _ _ _ _ _ _ hr]

end Halt

/-! ### The end of a launch on a cluster (R149) -/

theorem clusterOf_coreOf (cl : Fin 48) (j : Nat) : clusterOf (coreOf cl j) = cl := by
  have := cl.isLt
  exact Fin.ext (by simp [clusterOf, coreOf, ix]; omega)

theorem mem_stationsOf (cl : Fin 48) (j k : Fin 8) : (coreOf cl j.val, k) ∈ stationsOf cl :=
  List.mem_flatMap.2 ⟨j.val, List.mem_range.2 j.isLt, List.mem_map.2 ⟨k, List.mem_finRange k, rfl⟩⟩

theorem clusterOf_of_mem_stationsOf {cl : Fin 48} {x : Fin 384 × Fin 8} (h : x ∈ stationsOf cl) : clusterOf x.1 = cl := by
  obtain ⟨j, -, hx⟩ := List.mem_flatMap.1 h
  obtain ⟨k, -, rfl⟩ := List.mem_map.1 hx
  exact clusterOf_coreOf cl j

/-- Every running station of a cluster halted. -/
def haltAll (cl : Fin 48) (s : State) : State := forAll (stationsOf cl) (fun x => haltCommanded x.1 x.2) s

theorem endCluster_eq (cl : Fin 48) (status : Byte) (s : State) : endCluster cl status s = (haltAll cl s).modCluster cl fun c =>
    { c with sk := { c.sk with st := .stopped }, ending := some (c.ending.getD status) } := rfl

theorem haltAll_ending (cl d : Fin 48) (s : State) : ((haltAll cl s).cluster d).ending = (s.cluster d).ending :=
  forAll_leaves (fun t => (t.cluster d).ending) _ _ _ fun x t =>
    (congrArg Cluster.ending (haltStation_cluster x.1 x.2 0x0B (t.station x.1 x.2).pc 0 none d t) :)

theorem haltAll_halts (cl : Fin 48) (j k : Fin 8) (s : State) : ((haltAll cl s).station (coreOf cl j.val) k).state ≠ .run :=
  forAll_establishes (fun t => (t.station (coreOf cl j.val) k).state ≠ .run) _ _ (coreOf cl j.val, k) s (mem_stationsOf cl j k)
    (fun t => haltStation_halts _ _ _ _ _ _ t) fun b t hb ht => by rwa [haltCommanded, haltStation_state _ _ _ _ _ _ _ _ _ hb.symm]

theorem haltAll_core_other {cl : Fin 48} {c : Fin 384} (h : clusterOf c ≠ cl) (s : State) : (haltAll cl s).core c = s.core c :=
  forAll_keeps (fun t => t.core c = s.core c) _ _ _
    (fun x hx t ht => (haltStation_core_other _ _ _ _ _ _ (fun e => h (by rw [e, clusterOf_of_mem_stationsOf hx])) t).trans ht) rfl

theorem haltAll_stores (cl : Fin 48) (c : Fin 384) (s : State) : ((haltAll cl s).core c).stores = (s.core c).stores :=
  forAll_leaves (fun t => (t.core c).stores) _ _ _ fun _ _ => haltStation_stores ..

end Sys2Proof.Machine
end

section
/-! PROOFS. The stallkeeper's posts, END and illegal words (R140, R143, R151, R155). -/
namespace Sys2Proof.Machine
open Sys2Proof

/-! ### Pieces of a block of data memory -/

theorem Memory.take_getBytes (m : Memory) (a : Nat) {n k : Nat} (h : k ≤ n) : (m.getBytes a n).take k = m.getBytes a k := by
  rw [Memory.getBytes, ← List.map_take, List.take_range, Nat.min_eq_left h]
  rfl

theorem Memory.drop_getBytes (m : Memory) (a n k : Nat) : (m.getBytes a n).drop k = m.getBytes (a + k) (n - k) := by
  refine List.ext_getElem (by simp [Memory.getBytes]) fun i hi hi' => ?_
  simp [Memory.getBytes, Nat.add_assoc]

theorem Memory.getD_getBytes (m : Memory) (a : Nat) {n i : Nat} (h : i < n) : (m.getBytes a n).getD i 0 = m.get (a + i) := by
  simp [Memory.getBytes, h]

/-- The number in a part of a block. -/
theorem Memory.leNat_getBytes_part (m : Memory) (a k : Nat) {n p : Nat} (h : k + p ≤ n) :
    leNat (((m.getBytes a n).drop k).take p) = m.getLE (a + k) p := by
  rw [Memory.drop_getBytes, Memory.take_getBytes _ _ (by omega)]
  rfl

theorem dataAt_inside (k : Stallkeeper) {a n : Nat} (hlo : 0x10000 ≤ a) (hhi : a + n ≤ 0x50000) :
    dataAt k a n = some (k.dmem.getBytes (a - 0x10000) n) := by
  rw [dataAt, if_pos (by simp [hlo, hhi])]

theorem dataAt_outside (k : Stallkeeper) {a n : Nat} (h : a < 0x10000 ∨ 0x50000 < a + n) : dataAt k a n = none := by
  rw [dataAt, if_neg (by simp; omega)]

/-! ### Operations that are not executed -/

/-- Every command of a stallkeeper's operation. -/
theorem exec_skCmd_idle {s : State} {cl : Fin 48} (h : (s.sk cl).st ≠ .run) (o : SkOp) : exec (skCmd cl o) s = .next s := by
  obtain ⟨kind, hexec, -⟩ := exec_skCmd cl o
  rw [hexec, skStep_idle kind h]

theorem exec_skCmd_illegal {s : State} {cl : Fin 48} (h : (s.sk cl).st = .run) (hd : (skFetch (s.sk cl)).bind decodeSk = none) (o : SkOp) :
    exec (skCmd cl o) s = .next (endCluster cl stMalformed s) := by
  obtain ⟨kind, hexec, -⟩ := exec_skCmd cl o
  rw [hexec, skStep_illegal kind h hd]
  rfl

theorem exec_skCmd_other {s : State} {cl : Fin 48} {o o' : SkOp} (h : skRuns s cl o' = true) (hne : skCmd cl o ≠ skCmd cl o') :
    exec (skCmd cl o) s = .next s := by
  obtain ⟨kind, hexec, hkind⟩ := exec_skCmd cl o
  rw [hexec, skStep_other h (Bool.eq_false_iff.2 fun hk => hne (hkind _ _ hk))]

theorem normFactorTimeout_idle {s : State} {cl : Fin 48} (h : (s.sk cl).st ≠ .run) : execNormFactorTimeout cl s = .next s := by
  unfold execNormFactorTimeout
  dsimp only
  split
  · rw [if_neg (by simp [h])]
  · rfl

theorem ix_toNat {w n : Nat} [NeZero n] (h : n = 2 ^ w) (x : BitVec w) : ix n x.toNat = ⟨x.toNat, h ▸ x.isLt⟩ :=
  Fin.ext (Nat.mod_eq_of_lt (h ▸ x.isLt))

theorem pcmd_posts {s : State} {cl : Fin 48} {gd ga : BitVec 5} {i : Half} {bs : List Byte}
    (h : dataAt (s.sk cl) ((s.sk cl).reg ga).toNat 64 = some bs) (hq : (bits i 0 2 : BitVec 2).toFin ≠ 3) :
    skExec cl (.pcmd gd ga i) s = if 64 ≤ ((s.cluster cl).pq[(bits i 0 2 : BitVec 2).toFin]).length then s
      else skNext cl (s.modCluster cl fun cu => { cu with
        pq := cu.pq.set (bits i 0 2 : BitVec 2).toFin (cu.pq[(bits i 0 2 : BitVec 2).toFin] ++ [⟨BitVec.ofNat 512 (leNat bs), none⟩]) }) := by
  simp only [skExec, pcmd, h, ix_toNat (show 4 = 2 ^ 2 from rfl)]
  exact if_neg hq

/-- The broadcast that the 24 bytes of CCMD give. -/
def broadcastOf (m : Memory) (a : Nat) : Broadcast :=
  { src := m.getLE a 2, coreMask := m.get (a + 2), chan := ix 64 (m.get (a + 3)).toNat, addr := m.getLE (a + 4) 4,
    len := m.getLE (a + 8) 4, clusters := BitVec.ofNat 48 (m.getLE (a + 12) 8) }

theorem ccmd_posts {s : State} {cl : Fin 48} {gd ga : BitVec 5} {i : Half} (hlo : 0x10000 ≤ ((s.sk cl).reg ga).toNat)
    (hhi : ((s.sk cl).reg ga).toNat + 24 ≤ 0x50000) : skExec cl (.ccmd gd ga i) s = skNext cl (s.modCluster cl fun cu =>
      { cu with bcasts := cu.bcasts ++ [broadcastOf (s.sk cl).dmem (((s.sk cl).reg ga).toNat - 0x10000)] }) := by
  simp only [skExec, ccmd, dataAt_inside _ hlo hhi, broadcastOf]
  rw [Memory.take_getBytes _ _ (by decide), Memory.leNat_getBytes_part _ _ _ (by decide), Memory.leNat_getBytes_part _ _ _ (by decide),
    Memory.leNat_getBytes_part _ _ _ (by decide), Memory.getD_getBytes _ _ (by decide), Memory.getD_getBytes _ _ (by decide)]
  rfl

/-- Settles O24: a post fills its queue from data memory, and the end of a launch halts station after station of its cluster. -/
theorem stallkeeperPostsAndEnds : Obligations.StallkeeperPostsAndEnds := by
  refine ⟨fun s cl => ⟨fun gd ga i h hlo hhi => ⟨fun hq hl => ?_, fun hq hl => ?_, fun hq => ?_⟩, fun gd ga i h ho => ?_, fun gd ga i h ho => ?_,
      fun gd ga i h hlo hhi => ?_, fun gd ga i h => ?_, ?_⟩,
    fun s cl x => ⟨?_, ?_, fun j k => ?_, fun c hc => ?_, fun c => ?_⟩,
    fun s cl h hd o => ?_, fun s cl h => ⟨fun o => ?_, ?_⟩, fun s cl o o' h hne => ?_⟩
  · have hb := dataAt_inside (s.sk cl) hlo hhi
    refine congrArg Host.Outcome.next ((skStep_runs h rfl).trans ((pcmd_posts hb hq).trans ?_))
    rw [if_neg (Nat.not_le.2 hl)]
    simp [skNext_eq, State.setSk, State.modCluster, State.sk]
  · have hb := dataAt_inside (s.sk cl) hlo hhi
    exact congrArg Host.Outcome.next ((skStep_runs h rfl).trans ((pcmd_posts hb hq).trans (if_pos hl)))
  · have hb := dataAt_inside (s.sk cl) hlo hhi
    refine congrArg Host.Outcome.next ((skStep_runs h rfl).trans ?_)
    simp only [skExec, pcmd, hb, ix_toNat (show 4 = 2 ^ 2 from rfl)]
    exact if_pos hq
  · exact congrArg Host.Outcome.next ((skStep_runs h rfl).trans (by simp only [skExec, pcmd, dataAt_outside _ ho, skStop]))
  · exact congrArg Host.Outcome.next ((skStep_runs h rfl).trans (by simp only [skExec, ccmd, dataAt_outside _ ho, skStop]))
  · refine ⟨_, broadcastOf (s.sk cl).dmem (((s.sk cl).reg ga).toNat - 0x10000),
      congrArg Host.Outcome.next ((skStep_runs h rfl).trans (ccmd_posts hlo hhi)), ?_, ?_, ?_, ?_, ?_, ?_, ?_, ?_, ?_, ?_⟩
    · simp [skNext_eq, State.setSk_cluster]
    · simp only [skNext_eq, State.setSk_sk]
      simp [State.sk]
    · rfl
    · rfl
    · rfl
    · rfl
    · rfl
    · exact BitVec.toNat_ofNat ..
    · rfl
    · intro d hd
      simp [skNext_eq, State.setSk, State.modCluster_other _ _ _ _ hd.symm]
  · exact congrArg Host.Outcome.next ((skStep_runs h rfl).trans (by simp only [skExec]))
  · decide
  · simp [endCluster_eq, State.sk]
  · simp [endCluster_eq, haltAll_ending]
  · rw [endCluster_eq, State.station, State.modCluster_core]
    exact haltAll_halts cl j k s
  · rw [endCluster_eq, State.modCluster_core]
    exact haltAll_core_other hc s
  · rw [endCluster_eq, State.modCluster_core]
    obtain ⟨hls, -⟩ := Prod.mk.inj (haltAll_stores cl c s)
    exact hls
  · exact exec_skCmd_illegal h hd o
  · exact exec_skCmd_idle h o
  · simp only [List.mem_cons, List.not_mem_nil, or_false]
    rintro i (rfl | rfl | rfl | rfl | rfl | rfl | rfl | rfl | rfl | rfl | rfl | rfl | rfl)
    case inr.inr.inr.inr.inr.inr.inr.inr.inr.inl => exact normFactorTimeout_idle h
    all_goals exact congrArg Host.Outcome.next (skStep_idle _ h)
  · exact exec_skCmd_other h hne

end Sys2Proof.Machine
end

section
/-! PROOFS. Station commands and token injection (R109, R133). -/
namespace Sys2Proof.Machine
open Sys2Proof

/-! ### RESET of a station (R133) -/

theorem freeSlots_kept (k : Fin 8) (f : Inflight) (co : Core) :
    (freeSlots k f co).stns = co.stns ∧ (freeSlots k f co).stores = co.stores := by
  unfold freeSlots
  split <;> exact ⟨rfl, rfl⟩

theorem freeAll_kept (k : Fin 8) (l : List Inflight) (co : Core) : (l.foldl (fun co f => freeSlots k f co) co).stns = co.stns
    ∧ (l.foldl (fun co f => freeSlots k f co) co).stores = co.stores := by
  induction l generalizing co with
  | nil => exact ⟨rfl, rfl⟩
  | cons f l ih =>
    obtain ⟨hst, hsto⟩ := freeSlots_kept k f co
    obtain ⟨hst', hsto'⟩ := ih (freeSlots k f co)
    exact ⟨hst'.trans hst, hsto'.trans hsto⟩

/-- A station as RESET leaves it. -/
def Station.cleared (st : Station) : Station :=
  { st with
    state := .idle, regs := Vector.replicate 16 0, flags := 0, inflight := [], stuck := [], ending := false,
    excCode := 0, excPost := false, excPc := 0, excLost := 0, excDetail := 0 }

/-- A core of whose station k holds, streams, slots and requests are gone. -/
def letFree (k : Fin 8) (l : List Inflight) (co : Core) : Core :=
  dropReqs (fun o => o.1 = k) (dropHolds k (abandonStreams k ((l.filter fun f => !f.started).foldl (fun co f => freeSlots k f co) co)))

theorem letFree_offNet (k : Fin 8) (l : List Inflight) (co : Core) (j : Fin 8) : ((letFree k l co).stns[j]).offNet = (co.stns[j]).offNet := by
  obtain ⟨hstns, -⟩ := freeAll_kept k (l.filter fun f => !f.started) co
  rw [letFree, dropReqs_offNet, dropHolds, abandonStreams]
  exact congrArg (fun v : Vector Station 8 => v[j].offNet) hstns

theorem letFree_stores (k : Fin 8) (l : List Inflight) (co : Core) : (letFree k l co).stores = co.stores := by
  obtain ⟨-, hstores⟩ := freeAll_kept k (l.filter fun f => !f.started) co
  rw [letFree, dropReqs_eq]
  exact hstores

theorem State.modCluster_keeps_sk (s : State) (c : Fin 48) (f : Cluster → Cluster) (h : ∀ cu, (f cu).sk = cu.sk) (cl : Fin 48) :
    (s.modCluster c f).sk cl = s.sk cl := by
  by_cases hcl : c = cl
  · subst hcl
    exact (congrArg Cluster.sk (State.modCluster_same s c f)).trans (h _)
  · exact congrArg Cluster.sk (State.modCluster_other s c cl f hcl)

/-- Everything that RESET of a station does but for the return of its credits. -/
theorem resetStation_eq (c : Fin 384) (k : Fin 8) (s : State) : ∃ t : State,
    resetStation c k s = forAll ((s.station c k).stuck ++ (s.station c k).inflight.flatMap fun f => outQueues f.word) (fun q => returnCredit c q) t
      ∧ t.station c k = (s.station c k).cleared ∧ (∀ j : Fin 8, j ≠ k → (t.station c j).offNet = (s.station c j).offNet)
      ∧ (∀ d : Fin 384, d ≠ c → t.core d = s.core d) ∧ (t.core c).stores = (s.core c).stores ∧ ∀ cl : Fin 48, t.sk cl = s.sk cl := by
  refine ⟨_, rfl, ?_, fun j hj => ?_, fun d hd => ?_, ?_, fun cl => ?_⟩
  · simp [State.station]
    rfl
  · have hv : k.val ≠ j.val := fun e => hj (Fin.ext e.symm)
    rw [State.station, State.modCluster_core, State.modCore_same]
    refine (congrArg Station.offNet (Vector.getElem_set_ne k.isLt j.isLt hv)).trans ?_
    exact letFree_offNet k _ _ j
  · rw [State.modCluster_core]
    exact State.modCore_other _ _ _ _ hd.symm
  · rw [State.modCluster_core, State.modCore_same]
    exact letFree_stores k (s.station c k).inflight (s.core c)
  · refine State.modCluster_keeps_sk (s.modCore c _) _ _ ?_ cl
    exact fun _ => rfl

theorem returnCredit_queuesOnly (c : Fin 384) (q : Fin 32) (s : State) : QueuesOnly c s (returnCredit c q s) := .modCore c s _

theorem returnCredits_queue (c : Fin 384) (l : List (Fin 32)) (q : Fin 32) (s : State) :
    ((forAll l (fun q => returnCredit c q) s).core c).queues[q]
      = { ((s.core c).queues[q]) with credits := ((s.core c).queues[q]).credits + l.count q } := by
  induction l generalizing s with
  | nil => rfl
  | cons a l ih =>
    show ((forAll l (fun q => returnCredit c q) (returnCredit c a s)).core c).queues[q] = _
    have hq : ((returnCredit c a s).core c).queues
        = (s.core c).queues.set a { (s.core c).queues[a] with credits := (s.core c).queues[a].credits + 1 } :=
      congrArg Core.queues (State.modCore_same ..)
    rw [ih, hq, queues_modify _ a q fun t => { t with credits := t.credits + 1 }, List.count_cons]
    by_cases h : a = q <;> simp [h]
    omega

/-! ### The end of a station that has fired END (R133) -/

theorem skPost_pc (cl d : Fin 48) (kind core stn code : Nat) (s : State) : ((skPost cl kind core stn code s).sk d).pc = (s.sk d).pc := by
  by_cases h : cl = d
  · subst h
    simp [skPost, State.sk]
  · simp [skPost, State.sk, State.modCluster_other _ _ _ _ h]

section Done
variable (c : Fin 384) (k : Fin 8) (s : State)

theorem checkDone_station : (checkDone c k s).station c k =
    if (s.station c k).state = .run ∧ (s.station c k).ending = true ∧ (s.station c k).inflight = [] then
      { s.station c k with state := .done, ending := false } else s.station c k := by
  simp only [checkDone, Bool.and_eq_true, decide_eq_true_eq, List.isEmpty_iff, and_assoc]
  split
  · rw [skPost_station, State.setStation_station]
  · rfl

theorem checkDone_frame : (∀ j : Fin 8, j ≠ k → (checkDone c k s).station c j = s.station c j)
    ∧ (∀ d : Fin 384, d ≠ c → (checkDone c k s).core d = s.core d) ∧ ∀ cl : Fin 48, ((checkDone c k s).sk cl).pc = (s.sk cl).pc := by
  unfold checkDone
  dsimp only
  split
  · refine ⟨fun j hj => State.setStation_station_other _ _ _ _ _ hj, fun d hd => State.setStation_core_other _ _ _ _ _ hd, fun cl => skPost_pc ..⟩
  · exact ⟨fun _ _ => rfl, fun _ _ => rfl, fun _ => rfl⟩

end Done

/-! ### Station commands (R133, R140) -/

section Commands
variable (s : State) (cl : Fin 48) (gd ga gb : BitVec 5)

/-- The core and the station that ga names. -/
abbrev skTarget : Fin 384 × Fin 8 :=
  (coreOf cl (bits ((s.sk cl).reg ga) 0 3 : BitVec 3).toNat, (bits ((s.sk cl).reg ga) 3 3 : BitVec 3).toFin)

theorem cctl_start : skExec cl (.cctl gd ga gb 0) s = skNext cl (startStation (skTarget s cl ga).1 (skTarget s cl ga).2 s) := by
  simp only [skExec, cctl, ix_toNat (show 8 = 2 ^ 3 from rfl)]
  rfl

theorem cctl_halt : skExec cl (.cctl gd ga gb 1) s = skNext cl (haltCommanded (skTarget s cl ga).1 (skTarget s cl ga).2 s) := by
  simp only [skExec, cctl, ix_toNat (show 8 = 2 ^ 3 from rfl)]
  rfl

theorem cctl_resume : skExec cl (.cctl gd ga gb 2) s = skNext cl (resumeStation (skTarget s cl ga).1 (skTarget s cl ga).2 s) := by
  simp only [skExec, cctl, ix_toNat (show 8 = 2 ^ 3 from rfl)]
  rfl

theorem cctl_reset : skExec cl (.cctl gd ga gb 3) s = skNext cl (resetStation (skTarget s cl ga).1 (skTarget s cl ga).2 s) := by
  simp only [skExec, cctl, ix_toNat (show 8 = 2 ^ 3 from rfl)]
  rfl

/-- INJECT pushes where a credit is left: from a queue whose producer is elsewhere, with the producer's credit. -/
theorem cctl_inject {c : Fin 384} {q : Fin 32} (hc : (skTarget s cl ga).1 = c) (hq : (bits ((s.sk cl).reg gb) 0 5 : BitVec 5).toFin = q) :
    skExec cl (.cctl gd ga gb 4) s = if (s.core c).queues[q].prod = 0x20 then
        if (s.core (ix 384 (s.core c).queues[q].peerCore.toNat)).queues[(s.core c).queues[q].peerQ].credits = 0 then s
        else skNext cl (sendToken c q ((s.sk cl).reg gd) (spendCredit (ix 384 (s.core c).queues[q].peerCore.toNat) (s.core c).queues[q].peerQ s))
      else if (s.core c).queues[q].credits = 0 then s else skNext cl (pushToken c q ((s.sk cl).reg gd) s) := by
  subst hc hq
  simp only [skExec, cctl, ix_toNat (show 32 = 2 ^ 5 from rfl)]
  rfl

end Commands

theorem spendCredit_same (c : Fin 384) (q : Fin 32) (s : State) : ((spendCredit c q s).core c).queues[q]
    = { (s.core c).queues[q] with credits := (s.core c).queues[q].credits - 1 } := by
  simp [spendCredit]

theorem pushToken_here {c : Fin 384} {q : Fin 32} {s : State} (v : Word) (h : (s.core c).queues[q].cons ≠ 0x20) :
    ((pushToken c q v s).core c).queues[q]
      = { (s.core c).queues[q] with tokens := (s.core c).queues[q].tokens ++ [v], credits := (s.core c).queues[q].credits - 1 } := by
  rw [pushToken, sendToken_here _ _ _ _ (by rw [spendCredit_same]; exact h), spendCredit_same]

theorem pushToken_remote {c : Fin 384} {q : Fin 32} {s : State} (v : Word) (h : (s.core c).queues[q].cons = 0x20) :
    (pushToken c q v s).wires = s.wires ++ [⟨(s.core c).queues[q].peerCore.toNat, (s.core c).queues[q].peerQ, v, false⟩]
      ∧ ((pushToken c q v s).core c).queues[q] = { (s.core c).queues[q] with credits := (s.core c).queues[q].credits - 1 } := by
  have hcons : ((spendCredit c q s).core c).queues[q].cons = 0x20 := by rw [spendCredit_same]; exact h
  rw [pushToken, sendToken, if_pos hcons]
  exact ⟨by rw [spendCredit_same]; rfl, spendCredit_same c q s⟩

theorem haltCommanded_pc (c : Fin 384) (k : Fin 8) (s : State) (cl : Fin 48) : ((haltCommanded c k s).sk cl).pc = (s.sk cl).pc := by
  rw [haltCommanded, State.sk, haltStation_cluster]

@[simp] theorem skNext_pc (cl : Fin 48) (s : State) : ((skNext cl s).sk cl).pc = (s.sk cl).pc + 4 := by
  rw [skNext_eq, State.setSk_sk]

/-- What START does (R133). -/
theorem startStation_station (c : Fin 384) (k : Fin 8) (s : State) : (startStation c k s).station c k =
    if (s.station c k).state = .idle then
      { s.station c k with state := .run, pc := (s.station c k).entry, wdogFrom := s.clusterTime (clusterOf c) }
    else s.station c k := State.modStation_station ..

/-- A station that RESUME takes out of HALTED, before the look at whether it has ended. -/
def Station.resumed (now : Dword) (st : Station) : Station :=
  if st.state = .halted then
    { st with
      state := .run, pc := if st.excPost then st.excPc + 1 else st.excPc, wdogFrom := now,
      excCode := 0, excPost := false, excPc := 0, excLost := 0, excDetail := 0 }
  else st

theorem Station.resumed_halted (now : Dword) {st : Station} (h : st.state = .halted) : st.resumed now =
    { st with
      state := .run, pc := if st.excPost then st.excPc + 1 else st.excPc, wdogFrom := now,
      excCode := 0, excPost := false, excPc := 0, excLost := 0, excDetail := 0 } := if_pos h

theorem Station.resumed_of_not_halted (now : Dword) {st : Station} (h : st.state ≠ .halted) : st.resumed now = st := if_neg h

theorem Station.resumed_regs (now : Dword) (st : Station) : (st.resumed now).regs = st.regs := by
  unfold Station.resumed
  split <;> rfl

theorem resumeStation_eq (c : Fin 384) (k : Fin 8) (s : State) :
    resumeStation c k s = checkDone c k (s.setStation c k ((s.station c k).resumed (s.clusterTime (clusterOf c)))) := rfl

theorem resumeStation_station (c : Fin 384) (k : Fin 8) (s : State) : (resumeStation c k s).station c k =
    (let st := (s.station c k).resumed (s.clusterTime (clusterOf c))
    if st.state = .run ∧ st.ending = true ∧ st.inflight = [] then { st with state := .done, ending := false } else st) := by
  rw [resumeStation_eq, checkDone_station, State.setStation_station]

theorem resumeStation_regs (c : Fin 384) (k : Fin 8) (s : State) : ((resumeStation c k s).station c k).regs = (s.station c k).regs := by
  rw [resumeStation_station, ← Station.resumed_regs (s.clusterTime (clusterOf c)) (s.station c k)]
  dsimp only
  split <;> rfl

/-- A halted station goes on where its exception says, and is done at once where it had fired END and has nothing in flight. -/
theorem resumeStation_halted {c : Fin 384} {k : Fin 8} {s : State} (h : (s.station c k).state = .halted) :
    ((resumeStation c k s).station c k).excCode = 0 ∧ ((resumeStation c k s).station c k).excDetail = 0
      ∧ ((resumeStation c k s).station c k).pc = (if (s.station c k).excPost then (s.station c k).excPc + 1 else (s.station c k).excPc)
      ∧ ((resumeStation c k s).station c k).state
        = (if (s.station c k).ending = true ∧ (s.station c k).inflight = [] then .done else .run) := by
  rw [resumeStation_station, Station.resumed_halted _ h]
  simp only [true_and]
  split <;> exact ⟨rfl, rfl, rfl, rfl⟩

theorem resumeStation_kept {c : Fin 384} {k : Fin 8} {s : State} (h : (s.station c k).state = .idle ∨ (s.station c k).state = .done
    ∨ ((s.station c k).state = .run ∧ ((s.station c k).ending = false ∨ (s.station c k).inflight ≠ []))) :
    (resumeStation c k s).station c k = s.station c k := by
  have hh : (s.station c k).state ≠ .halted := by
    obtain h | h | ⟨h, -⟩ := h <;> simp [h]
  rw [resumeStation_station, Station.resumed_of_not_halted _ hh]
  refine if_neg fun ⟨hrun, hend, hempty⟩ => ?_
  simp [hrun, hend, hempty] at h

theorem resumeStation_frame (c : Fin 384) (k : Fin 8) (s : State) :
    (∀ j : Fin 8, j ≠ k → (resumeStation c k s).station c j = s.station c j)
      ∧ (∀ d : Fin 384, d ≠ c → (resumeStation c k s).core d = s.core d)
      ∧ ∀ cl : Fin 48, ((resumeStation c k s).sk cl).pc = (s.sk cl).pc := by
  rw [resumeStation_eq]
  obtain ⟨hstn, hcore, hpc⟩ := checkDone_frame c k (s.setStation c k ((s.station c k).resumed (s.clusterTime (clusterOf c))))
  exact ⟨fun j hj => (hstn j hj).trans (State.setStation_station_other _ _ _ _ _ hj),
    fun d hd => (hcore d hd).trans (State.setStation_core_other _ _ _ _ _ hd), hpc⟩

theorem haltCommanded_regs (c : Fin 384) (k : Fin 8) (s : State) : ((haltCommanded c k s).station c k).regs = (s.station c k).regs := by
  by_cases hr : (s.station c k).state = .run
  · rw [haltCommanded]
    exact (congrArg Station.regs (haltStation_station c k 0x0B (s.station c k).pc 0 none hr) :)
  · rw [haltCommanded, haltStation_not_run _ _ _ _ _ _ hr]

theorem QueuesOnly.core_eq {c : Fin 384} {s t : State} (h : QueuesOnly c s t) :
    (t.core c).stns = (s.core c).stns ∧ (t.core c).ls = (s.core c).ls ∧ t.clusters = s.clusters := by
  obtain ⟨ht, -, hc⟩ := h
  rw [hc, ht]
  exact ⟨rfl, rfl, rfl⟩

/-- What RESET does of a station, and that it gives back each credit that the station had reserved and not spent. -/
theorem resetStation_spec (c : Fin 384) (k : Fin 8) (s : State) : (resetStation c k s).station c k = (s.station c k).cleared
    ∧ (∀ j : Fin 8, j ≠ k → ((resetStation c k s).station c j).offNet = (s.station c j).offNet)
    ∧ (∀ d : Fin 384, d ≠ c → (resetStation c k s).core d = s.core d) ∧ ((resetStation c k s).core c).ls = (s.core c).ls
    ∧ (∀ cl : Fin 48, (resetStation c k s).sk cl = s.sk cl)
    ∧ ∀ q : Fin 32, ((resetStation c k s).core c).queues[q] = { ((s.core c).queues[q]) with
        credits := ((s.core c).queues[q]).credits
          + ((s.station c k).stuck ++ (s.station c k).inflight.flatMap fun f => outQueues f.word).count q } := by
  obtain ⟨t, ht, hstn, hother, hcore, hstores, hsk⟩ := resetStation_eq c k s
  have honly := QueuesOnly.forAll c (fun q => returnCredit c q) (returnCredit_queuesOnly c)
    ((s.station c k).stuck ++ (s.station c k).inflight.flatMap fun f => outQueues f.word) t
  obtain ⟨hstns, hls, hclusters⟩ := honly.core_eq
  obtain ⟨-, hfar, -⟩ := honly
  obtain ⟨hlst, -, -, -, -, -, hqueues⟩ : (t.core c).ls = (s.core c).ls ∧ _ := by simpa only [Core.stores, Prod.mk.injEq] using hstores
  rw [ht]
  refine ⟨(congrArg (·[k]) hstns).trans hstn, fun j hj => ?_, fun d hd => (hfar d hd).trans (hcore d hd), hls.trans hlst,
    fun cl => (congrArg (fun v : Vector Cluster 48 => v[cl].sk) hclusters).trans (hsk cl), fun q => ?_⟩
  · exact (congrArg (fun v : Vector Station 8 => v[j].offNet) hstns).trans (hother j hj)
  · rw [returnCredits_queue, hqueues]

theorem haltCommanded_not_run {c : Fin 384} {k : Fin 8} {s : State} (h : (s.station c k).state ≠ .run) :
    (haltCommanded c k s).station c k = s.station c k := by
  rw [haltCommanded, haltStation_not_run _ _ _ _ _ _ h]

theorem skNext_station (cl : Fin 48) (s : State) (c : Fin 384) (k : Fin 8) : (skNext cl s).station c k = s.station c k := rfl

theorem skNext_core (cl : Fin 48) (s : State) (c : Fin 384) : (skNext cl s).core c = s.core c := rfl

theorem skNext_events (cl : Fin 48) (s : State) : ((skNext cl s).sk cl).events = (s.sk cl).events := by
  rw [skNext_eq, State.setSk_sk]

/-- START takes an idle station to RUN at its ENTRY, and nothing else changes. -/
theorem startStation_spec (c : Fin 384) (k : Fin 8) (s : State) :
    ((startStation c k s).station c k).regs = (s.station c k).regs
      ∧ ((s.station c k).state = .idle → ((startStation c k s).station c k).state = .run
          ∧ ((startStation c k s).station c k).pc = (s.station c k).entry)
      ∧ ((s.station c k).state ≠ .idle → (startStation c k s).station c k = s.station c k)
      ∧ (∀ j : Fin 8, j ≠ k → (startStation c k s).station c j = s.station c j)
      ∧ ∀ d : Fin 384, d ≠ c → (startStation c k s).core d = s.core d := by
  refine ⟨?_, fun hi => ?_, fun hi => ?_, fun j hj => State.setStation_station_other _ _ _ _ _ hj,
    fun d hd => State.setStation_core_other _ _ _ _ _ hd⟩
  · rw [startStation_station]
    split <;> rfl
  · rw [startStation_station, if_pos hi]
    exact ⟨rfl, rfl⟩
  · rw [startStation_station, if_neg hi]

/-- Settles O23: each command acts on the station that ga names, and the stallkeeper goes on. -/
theorem stationCommandsMoveStations : Obligations.StationCommandsMoveStations := by
  refine fun s cl gd ga gb => ⟨fun h => ?_, fun h => ?_, fun h => ?_, fun h => ?_, fun h => ⟨fun hp hc => ⟨?_, pushToken_here _, pushToken_remote _⟩,
    fun hp hc => ?_, fun hp hc => ?_, fun hp hc => ?_⟩⟩
  · refine ⟨_, congrArg Host.Outcome.next ((skStep_runs h rfl).trans (cctl_start ..)), skNext_pc .., ?_⟩
    simp only [skNext_station, skNext_core]
    exact startStation_spec _ _ s
  · refine ⟨_, congrArg Host.Outcome.next ((skStep_runs h rfl).trans (cctl_halt ..)), (skNext_pc ..).trans (by rw [haltCommanded_pc]), ?_⟩
    simp only [skNext_station, skNext_core]
    refine ⟨haltCommanded_regs _ _ s, fun hr => ?_, haltCommanded_not_run,
      fun j hj => haltStation_station_other _ _ _ _ _ _ hj s, fun d hd => haltStation_core_other _ _ _ _ _ _ hd s⟩
    obtain ⟨hstate, hcode, hpost, hpc, -⟩ := Station.exception_eq (haltStation_exception _ _ 0x0B _ 0 none s hr)
    exact ⟨hstate, hcode, hpost, hpc⟩
  · obtain ⟨hother, hcore, hpc⟩ := resumeStation_frame (skTarget s cl ga).1 (skTarget s cl ga).2 s
    refine ⟨_, congrArg Host.Outcome.next ((skStep_runs h rfl).trans (cctl_resume ..)), (skNext_pc ..).trans (by rw [hpc]), ?_⟩
    simp only [skNext_station, skNext_core]
    exact ⟨resumeStation_regs _ _ s, resumeStation_halted, resumeStation_kept, hother, hcore⟩
  · obtain ⟨hst, hother, hcore, hls, hsk, hq⟩ := resetStation_spec (skTarget s cl ga).1 (skTarget s cl ga).2 s
    refine ⟨_, congrArg Host.Outcome.next ((skStep_runs h rfl).trans (cctl_reset ..)), (skNext_pc ..).trans (by rw [hsk]), ?_⟩
    simp only [skNext_station, skNext_core, skNext_events, hst, hls, hsk, hq]
    exact ⟨rfl, rfl, rfl, rfl, rfl, rfl, rfl, trivial, trivial, fun _ => ⟨trivial, trivial⟩, hother, hcore⟩
  · refine congrArg Host.Outcome.next ((skStep_runs h rfl).trans ((cctl_inject s cl gd ga gb rfl rfl).trans ?_))
    exact (if_neg hp).trans (if_neg hc)
  · refine congrArg Host.Outcome.next ((skStep_runs h rfl).trans ((cctl_inject s cl gd ga gb rfl rfl).trans ?_))
    exact (if_neg hp).trans (if_pos hc)
  · refine congrArg Host.Outcome.next ((skStep_runs h rfl).trans ((cctl_inject s cl gd ga gb rfl rfl).trans ?_))
    exact (if_pos hp).trans (if_neg hc)
  · refine congrArg Host.Outcome.next ((skStep_runs h rfl).trans ((cctl_inject s cl gd ga gb rfl rfl).trans ?_))
    exact (if_pos hp).trans (if_pos hc)

end Sys2Proof.Machine
end

section
/-! PROOFS. The control registers, the timer, intervals and norm factors of the stallkeeper (R140 to R142, R384, R412, R413). -/
namespace Sys2Proof.Machine
open Sys2Proof

/-! ### Control registers (R140 to R142) -/

theorem Stallkeeper.setG_events (k : Stallkeeper) (r : BitVec 5) (v : Word) (l : List Word) :
    ({ k with events := l } : Stallkeeper).setG r v = { k.setG r v with events := l } := by
  unfold Stallkeeper.setG
  split <;> rfl

section Registers
variable (s : State) (cl : Fin 48) (gd ga : BitVec 5)

theorem skSet_modSk (v : Word) (f : Stallkeeper → Stallkeeper) :
    skSet cl gd v (s.modSk cl f) = s.setSk cl { (f (s.sk cl)).setG gd v with pc := (f (s.sk cl)).pc + 4 } := by
  rw [skSet_eq, State.modSk_eq, State.setSk_sk, State.setSk_setSk]

theorem skNext_modSk (f : Stallkeeper → Stallkeeper) :
    skNext cl (s.modSk cl f) = s.setSk cl { f (s.sk cl) with pc := (f (s.sk cl)).pc + 4 } := by
  rw [skNext_eq, State.modSk_eq, State.setSk_sk, State.setSk_setSk]

/-- A number of no register that can be read. -/
theorem csrRead_other (i : Half) (h : i ∉ [0x01, 0x10, 0x14, 0x15, 0x17, 0x20, (0x21 : Half)]) : csrRead cl gd i s = skSet cl gd 0 s := by
  unfold csrRead
  dsimp only
  split
  case h_8 => rfl
  all_goals
    rename_i hn
    rw [← BitVec.setWidth_eq i, ← BitVec.ofNat_toNat, hn] at h
    exact absurd h (by decide)

theorem csrWrite_other (i : Half) (v : Word) (h : i ∉ [0x10, 0x11, 0x12, 0x13, 0x16, (0x20 : Half)]) :
    csrWrite cl i v s = skNext cl (s.modSk cl id) := by
  unfold csrWrite
  dsimp only
  split
  case h_7 => rfl
  all_goals
    rename_i hn
    rw [← BitVec.setWidth_eq i, ← BitVec.ofNat_toNat, hn] at h
    exact absurd h (by decide)

end Registers

section Factor
variable {s : State} {cl : Fin 48}

/-- What a read of NORM_FACTOR does with a factor that stands. -/
theorem csrRead_factor (gd : BitVec 5) {v : Word} (h : (normLook s (s.sk cl).normSel).1 = some v) :
    csrRead cl gd 0x21 s = s.setSk cl { ({ s.sk cl with normSince := none } : Stallkeeper).setG gd v with pc := (s.sk cl).pc + 4 } := by
  refine Eq.trans ?_ (skSet_modSk s cl gd v fun k => { k with normSince := none })
  show (match (normLook s (s.sk cl).normSel).1 with
    | some v => skSet cl gd v (s.modSk cl fun k => { k with normSince := none })
    | none => _) = _
  rw [h]

theorem csrRead_factor_pending (gd : BitVec 5) (h : normLook s (s.sk cl).normSel = (none, true)) :
    csrRead cl gd 0x21 s = s.setSk cl { s.sk cl with normSince := none } := by
  show (match (normLook s (s.sk cl).normSel).1 with
    | some v => _
    | none => if (normLook s (s.sk cl).normSel).2 then s.modSk cl fun k => { k with normSince := none } else _) = _
  rw [h]
  rfl

theorem csrRead_factor_unknown (gd : BitVec 5) (h : normLook s (s.sk cl).normSel = (none, false)) :
    csrRead cl gd 0x21 s = s.setSk cl { s.sk cl with normSince := some ((s.sk cl).normSince.getD s.ns) } := by
  show (match (normLook s (s.sk cl).normSel).1 with
    | some v => _
    | none => if (normLook s (s.sk cl).normSel).2 then _
      else s.modSk cl fun k => { k with normSince := some (k.normSince.getD s.ns) }) = _
  rw [h]
  rfl

theorem normLook_found {e : NormEntry} {id : Word} (h : (s.coll.norms.find? fun n => n.id = id) = some e) : normLook s id
    = if e.status = 1 then (some e.factor, true) else if e.status = 2 then (some 0x7FFFFFFF, true) else (none, true) := by
  simp only [normLook, h]

theorem normLook_unknown {id : Word} (h : (s.coll.norms.find? fun n => n.id = id) = none) : normLook s id = (none, false) := by
  simp only [normLook, h]

end Factor

theorem eventPending_iff (k : Stallkeeper) (m : Word) : eventPending k m = true ↔ ∃ e ∈ k.events, m.getLsbD (e.toNat % 32) = true := by
  simp [eventPending, Nat.mod_mod_of_dvd]

/-! ### Intervals (R413) -/

theorem intervalOf_negative {x : IStart} {now : Dword} (hold : Bool) (h : x.stepped = true ∨ (now - x.val).toInt < 0) :
    (intervalOf (some x) now hold).getLsbD 31 = true ∧ (bits (intervalOf (some x) now hold) 0 29 : BitVec 29) = 0 := by
  have hv : intervalOf (some x) now hold = BitVec.ofNat 32 (2 ^ 31 + 2 ^ 29 * b2n (x.hold || hold)) := if_pos (by simpa using h)
  rw [hv]
  cases x.hold || hold <;> decide

theorem intervalOf_zero {x : IStart} {now : Dword} (hold : Bool) (hs : x.stepped = false) (h : now = x.val) :
    (bits (intervalOf (some x) now hold) 30 2 : BitVec 2) = 1 ∧ (bits (intervalOf (some x) now hold) 0 29 : BitVec 29) = 0 := by
  have hv : intervalOf (some x) now hold = BitVec.ofNat 32 (2 ^ 30 + 2 ^ 29 * b2n (x.hold || hold)) := by
    simp [intervalOf, hs, h]
  rw [hv]
  cases x.hold || hold <;> decide

/-- The parts of an interval's word: the interval, the note of holdover above it, and two bits of zero. -/
theorem intervalWord_parts {m : Nat} (hm : m < 2 ^ 29) (h : Bool) :
    (bits (BitVec.ofNat 32 (m + 2 ^ 29 * b2n h)) 30 2 : BitVec 2) = 0 ∧ (bits (BitVec.ofNat 32 (m + 2 ^ 29 * b2n h)) 0 29 : BitVec 29).toNat = m
      ∧ (BitVec.ofNat 32 (m + 2 ^ 29 * b2n h)).getLsbD 29 = h := by
  have hb : b2n h ≤ 1 := by cases h <;> decide
  refine ⟨BitVec.eq_of_toNat_eq ?_, ?_, ?_⟩
  · simp only [bits, BitVec.extractLsb'_toNat, BitVec.toNat_ofNat, Nat.shiftRight_eq_div_pow, BitVec.ofNat_eq_ofNat]
    omega
  · simp only [bits, BitVec.extractLsb'_toNat, BitVec.toNat_ofNat, Nat.shiftRight_eq_div_pow]
    omega
  · rw [BitVec.getLsbD_ofNat, Nat.testBit_eq_decide_div_mod_eq]
    cases h
    · simp only [b2n, Bool.false_eq_true, if_false]
      simp; omega
    · simp only [b2n, if_true]
      simp; omega

theorem intervalOf_positive {x : IStart} {now : Dword} (hold : Bool) (hs : x.stepped = false) (h : 0 < (now - x.val).toInt) :
    (bits (intervalOf (some x) now hold) 30 2 : BitVec 2) = 0
      ∧ (bits (intervalOf (some x) now hold) 0 29 : BitVec 29).toNat = min (now - x.val).toInt.toNat (2 ^ 29 - 1)
      ∧ (intervalOf (some x) now hold).getLsbD 29 = (x.hold || hold) := by
  have hv : intervalOf (some x) now hold
      = BitVec.ofNat 32 (min (now - x.val).toInt.toNat (2 ^ 29 - 1) + 2 ^ 29 * b2n (x.hold || hold)) := by
    have h1 : ¬ (now - x.val).toInt < 0 := by omega
    have h2 : ¬ (now - x.val).toInt = 0 := by omega
    simp only [intervalOf, hs, h1, h2, decide_false, Bool.or_self, Bool.false_eq_true, if_false]
  rw [hv]
  exact intervalWord_parts (Nat.lt_of_le_of_lt (Nat.min_le_right _ _) (by decide)) _

/-! ### The timer, WAIT and the end of the wait for a factor (R140, R142, R384) -/

theorem timerEvent_eq (s : State) (cl : Fin 48) : exec (.timerEvent cl) s =
    if (s.sk cl).timerArmed = true ∧ ((bits (s.clusterTime cl) 0 32 : Word) - (s.sk cl).timer).toNat < 2 ^ 31 then
      .next (s.setSk cl { s.sk cl with timerArmed := false, events := (s.sk cl).events ++ [5] })
    else .next s := by
  have hpost : skPost cl 5 0 0 0 (s.modSk cl fun k => { k with timerArmed := false })
      = s.setSk cl { s.sk cl with timerArmed := false, events := (s.sk cl).events ++ [5] } := by
    simp [skPost, State.modSk, State.setSk, State.modCluster, State.sk]
  show execTimerEvent cl s = _
  simp only [execTimerEvent, hpost, Bool.and_eq_true, decide_eq_true_eq]
  rfl

theorem waitWake_eq (s : State) (cl : Fin 48) : exec (.waitWake cl) s =
    if (s.sk cl).st = .wait ∧ eventPending (s.sk cl) (s.sk cl).waitMask = true then
      .next (s.setSk cl { s.sk cl with st := .run, pc := (s.sk cl).pc + 4 })
    else .next s := by
  show execWaitWake cl s = _
  simp only [execWaitWake, skNext_modSk, Bool.and_eq_true, decide_eq_true_eq]

theorem normFactorTimeout_eq {s : State} {cl : Fin 48} {gd ga : BitVec 5} {t : Nat} (ht : (s.sk cl).normSince = some t)
    (ho : (skFetch (s.sk cl)).bind decodeSk = some (.csrr gd ga 0x21)) (hst : (s.sk cl).st = .run)
    (hn : (normLook s (s.sk cl).normSel).2 = false) : exec (.normFactorTimeout cl) s = if t + 100000000 ≤ s.ns then
      .next (s.setSk cl { ({ s.sk cl with normSince := none } : Stallkeeper).setG gd 0x7FFFFFFF with pc := (s.sk cl).pc + 4 }) else .next s := by
  show execNormFactorTimeout cl s = _
  simp only [execNormFactorTimeout, ht, ho, hst, hn, skSet_modSk, decide_true, Bool.true_and, Bool.and_true, decide_eq_true_eq]

/-- Settles O22: each register reads and writes its part of the stallkeeper, and an interval's word has its parts. -/
theorem stallkeeperTimersAndFactors : Obligations.StallkeeperTimersAndFactors := by
  refine ⟨fun s cl => ⟨fun gd ga i h => ⟨?_, ?_, ?_, ?_, ?_, ?_, ?_, ?_⟩, fun gd ga i h => ⟨?_, ?_, ?_, ?_, ?_, ?_, ?_⟩, ?_, ?_, ?_, ?_, ?_⟩,
    fun s cl => ⟨?_, ?_, ?_, ?_, ?_, ?_, ?_, ?_, rfl, fun x => intervalOf_negative _, fun x => intervalOf_zero _, fun x => intervalOf_positive _⟩⟩
  · rintro rfl
    refine ⟨congrArg Host.Outcome.next ((skStep_runs h rfl).trans ((skSet_modSk ..).trans ?_)),
      congrArg Host.Outcome.next ((skStep_runs h rfl).trans (skStep_runs h rfl).symm)⟩
    rw [Stallkeeper.setG_events]
  · rintro rfl
    exact congrArg Host.Outcome.next ((skStep_runs h rfl).trans (skSet_eq ..))
  · rintro rfl
    exact ⟨congrArg Host.Outcome.next ((skStep_runs h rfl).trans (skSet_modSk ..)),
      congrArg Host.Outcome.next ((skStep_runs h rfl).trans (skStep_runs h rfl).symm)⟩
  · rintro rfl
    exact congrArg Host.Outcome.next ((skStep_runs h rfl).trans (skSet_eq ..))
  · rintro rfl
    exact congrArg Host.Outcome.next ((skStep_runs h rfl).trans (skSet_eq ..))
  · rintro rfl
    exact congrArg Host.Outcome.next ((skStep_runs h rfl).trans (skSet_eq ..))
  · rintro rfl
    exact congrArg Host.Outcome.next ((skStep_runs h rfl).trans (skStep_runs h rfl).symm)
  · exact fun hi => congrArg Host.Outcome.next ((skStep_runs h rfl).trans ((csrRead_other s cl gd i hi).trans (skSet_eq ..)))
  · rintro rfl
    exact ⟨congrArg Host.Outcome.next ((skStep_runs h rfl).trans (skNext_modSk ..)),
      congrArg Host.Outcome.next ((skStep_runs h rfl).trans (skStep_runs h rfl).symm)⟩
  iterate 5
    rintro rfl
    exact congrArg Host.Outcome.next ((skStep_runs h rfl).trans (skStep_runs h rfl).symm)
  · exact fun hi => congrArg Host.Outcome.next ((skStep_runs h rfl).trans ((csrWrite_other s cl i _ hi).trans (skNext_modSk ..)))
  · intro harm hdue
    exact (timerEvent_eq s cl).trans (if_pos ⟨harm, hdue⟩)
  · intro h
    refine (timerEvent_eq s cl).trans (if_neg fun ⟨harm, hdue⟩ => ?_)
    obtain h | h := h
    · exact nomatch harm.symm.trans h
    · omega
  · intro gd ga i h
    refine ⟨fun he => congrArg Host.Outcome.next ((skStep_runs h rfl).trans ((if_pos he).trans (skNext_eq ..))),
      fun he => congrArg Host.Outcome.next ((skStep_runs h rfl).trans ((if_neg (by simp [he])).trans ?_))⟩
    rfl
  · intro hst
    exact ⟨fun he => (waitWake_eq s cl).trans (if_pos ⟨hst, he⟩), fun he => (waitWake_eq s cl).trans (if_neg (by simp [he]))⟩
  · exact eventPending_iff _
  iterate 3 exact fun gd ga h => congrArg Host.Outcome.next ((skStep_runs h rfl).trans (skNext_modSk ..))
  · exact fun gd ga h => congrArg Host.Outcome.next ((skStep_runs h rfl).trans (skSet_modSk ..))
  iterate 2 exact fun gd ga h => congrArg Host.Outcome.next ((skStep_runs h rfl).trans (skNext_modSk ..))
  · intro gd ga e h he
    have hlook := normLook_found he
    refine ⟨fun h1 => ?_, fun h2 => ?_, fun h0 => ?_⟩
    · rw [if_pos h1] at hlook
      exact congrArg Host.Outcome.next ((skStep_runs h rfl).trans (csrRead_factor gd (by rw [hlook])))
    · rw [if_neg (by omega), if_pos h2] at hlook
      exact congrArg Host.Outcome.next ((skStep_runs h rfl).trans (csrRead_factor gd (by rw [hlook])))
    · rw [if_neg (by omega), if_neg (by omega)] at hlook
      exact congrArg Host.Outcome.next ((skStep_runs h rfl).trans (csrRead_factor_pending gd hlook))
  · intro gd ga h he
    have hlook := normLook_unknown he
    refine ⟨congrArg Host.Outcome.next ((skStep_runs h rfl).trans (csrRead_factor_unknown gd hlook)), fun t ht => ?_⟩
    obtain ⟨hst, ho⟩ := skRuns_iff.1 h
    have hexec := normFactorTimeout_eq ht ho hst (congrArg Prod.snd hlook)
    exact ⟨fun hlate => hexec.trans (if_pos hlate), fun hearly => hexec.trans (if_neg (Nat.not_le.2 hearly))⟩

end Sys2Proof.Machine
end

section
/-! PROOFS. SYNC and XFER instructions post, and SLOAD and SSTORE move their four bytes (R94, R117, R118, R125). -/
namespace Sys2Proof.Machine
open Sys2Proof

/-! ### Posts of an instruction that fires (R117, R125) -/

section Fires
variable {s : State} {c : Fin 384} {k : Fin 8} {i : CoreInstr}

/-- The state an instruction's effect starts from: the station has gone on, its registers hold the popped tokens, the clusters are as
they were. -/
theorem fireAt_before (c : Fin 384) (k : Fin 8) (i : CoreInstr) (w : InstrWord) (s : State) :
    ((fireAt c k i w s).station c k).pc = (s.station c k).pc + 1
      ∧ ((fireAt c k i w s).station c k).regs = poppedRegs (s.core c) i (s.station c k).regs ∧ (fireAt c k i w s).clusters = s.clusters := by
  obtain ⟨hclusters, -⟩ := fireAt_frame c k i w s
  exact ⟨(congrArg Station.pc (fireAt_offNet c k i w s) :), fireAt_regs .., hclusters⟩

theorem markMoved_station (c : Fin 384) (k : Fin 8) (u : Nat) (t : State) : (markMoved c k u t).station c k = (t.station c k).markMoved u := by
  rw [markMoved_eq, State.setStation_station]

theorem Station.markMoved_pc (u : Nat) (st : Station) : (st.markMoved u).pc = st.pc := rfl

theorem firesNow_quiesce (h : firesNow s c k i = true) (hi : i.op = .quiesce) : (s.station c k).inflight = [] := by
  simp only [firesNow, readyToFire, Bool.and_eq_true] at h
  obtain ⟨-, -, hq⟩ := h
  simpa [hi] using hq

theorem crierArrive_cluster_other {cl cl' : Fin 48} (h : cl' ≠ cl) (ch : Fin 64) (n : Nat) (s : State) :
    (crierArrive cl ch n s).cluster cl' = s.cluster cl' := State.modCluster_other _ _ _ _ h.symm

theorem skPost_cluster_other {cl cl' : Fin 48} (h : cl' ≠ cl) (kind core stn code : Nat) (s : State) :
    (skPost cl kind core stn code s).cluster cl' = s.cluster cl' := State.modCluster_other _ _ _ _ h.symm

/-- The transfer that a SEND or a RECV posts. -/
def postedXfer (c : Fin 384) (k : Fin 8) (u : Nat) (send : Bool) (x : XferOp) (co : Core) (rs : Vector Word 16) : XferCmd :=
  ⟨send, c, k, u, (co.entry x.opnd).rowAddr (regRead rs x.off).toNat, x.peer.toNat, x.peerAddr.toNat + (regRead rs x.peerOff).toNat,
    x.len.toNat⟩

theorem fireEffect_xfer (u : Nat) (t : State) (x : XferOp) (h : i.op = .send x ∨ i.op = .recv x) : fireEffect c k i u t =
    t.modCluster (clusterOf c) fun cu => { cu with
      pq := cu.pq.set 3 (cu.pq[3] ++ [⟨0, some (postedXfer c k u (decide (i.op = .send x)) x (t.core c) (t.station c k).regs)⟩]) } := by
  obtain h | h := h <;> simp only [fireEffect, xferPost, h] <;> rfl

theorem Core.entry_congr {co co' : Core} (h : co'.optab = co.optab) : co'.entry = co.entry := by
  funext i
  rw [Core.entry, Core.entry, h]

theorem postedXfer_congr {co co' : Core} (h : co'.optab = co.optab) (c : Fin 384) (k : Fin 8) (u : Nat) (send : Bool) (x : XferOp)
    (rs : Vector Word 16) : postedXfer c k u send x co' rs = postedXfer c k u send x co rs := by
  rw [postedXfer, postedXfer, Core.entry_congr h]

end Fires

/-! ### Local store as a grant delivers it (R94) -/

theorem dropWhile_dropWhile_of_imp {α : Type} {p q : α → Bool} (h : ∀ a, p a = true → q a = true) (l : List α) :
    (l.dropWhile p).dropWhile q = l.dropWhile q := by
  induction l with
  | nil => rfl
  | cons a l ih =>
    by_cases hp : p a = true
    · rw [List.dropWhile_cons_of_pos hp, ih, List.dropWhile_cons_of_pos (h a hp)]
    · rw [List.dropWhile_cons_of_neg hp]

/-- A line put back as it stands changes nothing. -/
theorem Memory.putLine_lineCells (m : Memory) (line : Nat) : m.putLine line (m.lineCells line) = m := by
  have hq : ∀ x : Nat × Byte, decide (x.1 < 512 * line) = true → decide (x.1 < 512 * line + 512) = true := by
    intro x hx
    simp only [decide_eq_true_eq] at hx ⊢
    omega
  rw [Memory.putLine, Memory.lineCells, ← dropWhile_dropWhile_of_imp hq m, List.append_assoc, List.takeWhile_append_dropWhile,
    List.takeWhile_append_dropWhile]

/-! ### SSTORE's four bytes (R118) -/

theorem lsWrite_leBytes_getLE (co : Core) (a n v : Nat) (h : co.ls.wf = true) : (co.lsWrite a (leBytes v n)).ls.getLE a n = v % 256 ^ n :=
  Memory.getLE_putLE co.ls a n v h

theorem lsWrite_leBytes_other (co : Core) (a b n v : Nat) (h : b < a ∨ a + n ≤ b) : (co.lsWrite a (leBytes v n)).ls.get b = co.ls.get b :=
  Memory.get_putLE_other co.ls a b n v h

/-- Settles O17: each post is made on the state as the firing leaves it, whose clusters are as before; a move is read off its data. -/
theorem postsTransfersAndScalarMoves : Obligations.PostsTransfersAndScalarMoves := by
  refine ⟨fun s c k i hf => ?_, fun co k f sd sa imm => ?_⟩
  · have hexec := exec_stationCmd_fires hf
    obtain ⟨hpc, hregs, hclusters⟩ := fireAt_before c k i ((s.core c).instrAt (s.station c k).pc) s
    obtain ⟨-, -, -, -, hoptab, -⟩ := fireAt_memories c k i ((s.core c).instrAt (s.station c k).pc) s
    generalize fireAt c k i ((s.core c).instrAt (s.station c k).pc) s = t at hexec hpc hregs hclusters hoptab
    have hcl (d : Fin 48) : t.cluster d = s.cluster d := congrArg (fun v : Vector Cluster 48 => v[d]) hclusters
    have hmoved : ((markMoved c k (s.station c k).nextUid t).station c k).pc = (s.station c k).pc + 1 := by
      rw [markMoved_station, Station.markMoved_pc, hpc]
    have hmregs : ((markMoved c k (s.station c k).nextUid t).station c k).regs = poppedRegs (s.core c) i (s.station c k).regs := by
      rw [markMoved_station, Station.markMoved_regs, hregs]
    refine ⟨fun ch hi => ?_, fun code hi => ?_, fun hi => ?_, fun hi => ?_, fun x hi => ?_⟩
    · rw [hi] at hexec
      simp only [fireEffect, hi] at hexec
      refine ⟨_, hexec, ?_, fun ch' hne => ?_, hmoved, fun d hd => (crierArrive_cluster_other hd ..).trans (hcl d)⟩
      · rw [crierArrive_same]
        exact congrArg (fun cu : Cluster => cu.crier[ch.toFin].count + 1) (hcl _)
      · rw [crierArrive_other _ hne]
        exact congrArg (fun cu : Cluster => cu.crier[ch']) (hcl _)
    · rw [hi] at hexec
      simp only [fireEffect, hi] at hexec
      refine ⟨_, hexec, ?_, hmoved, fun d hd => (skPost_cluster_other hd ..).trans (hcl d)⟩
      rw [skPost_events]
      exact congrArg (fun cu : Cluster => cu.sk.events ++ _) (hcl _)
    · rw [hi] at hexec
      simp only [fireEffect, hi] at hexec
      exact ⟨_, hexec, hmoved, hmregs, hclusters⟩
    · have hempty := firesNow_quiesce hf hi
      rw [hi] at hexec
      simp only [fireEffect, hi] at hexec
      exact ⟨hempty, _, hexec, hmoved, hmregs, hclusters⟩
    · rw [fireEffect_xfer _ _ x hi, postedXfer_congr hoptab, hregs] at hexec
      refine ⟨_, hexec, ?_, hpc⟩
      rw [State.modCluster_same, hcl]
      exact Vector.getElem_set_self _
  · have hv := (regRead f.regVec sd).isLt
    refine ⟨rfl, rfl, fun l hwf => co.ls.putLine_lineCells l, fun hwf => ?_, fun b hb => lsWrite_leBytes_other co _ b 4 _ hb, rfl, rfl, rfl⟩
    exact (lsWrite_leBytes_getLE co _ 4 _ hwf).trans (Nat.mod_eq_of_lt hv)

end Sys2Proof.Machine
end

section
/-! PROOFS. Pre-fire exceptions: which one a station raises, and what it leaves (R130, R131, R136, R137). -/
namespace Sys2Proof.Machine
open Sys2Proof

/-! ### The lowest code that an instruction's operands raise (R130) -/

section Operands
variable {co : Core} {k : Fin 8} {rs : Vector Word 16} {i : CoreInstr}

theorem operandFault_range {a : Nat} (h : (rangeFault co rs i.op).orElse (fun _ => regionFault co rs i.op) = some a) :
    operandFault co k rs i = some (2, a) := by
  simp only [operandFault, h, Option.map_some, Option.orElse_some]

variable (hr : rangeFault co rs i.op = none) (hg : regionFault co rs i.op = none)
include hr hg

theorem operandFault_inside : operandFault co k rs i = ((misalignFault co rs i.op).map (Prod.mk 3)).orElse fun _ =>
    ((pushFault co k i).map (Prod.mk 4)).orElse fun _ => if chainFault co k i.op then some (5, 0) else none := by
  simp only [operandFault, hr, hg, Option.orElse_none, Option.map_none]

theorem operandFault_misaligned {a : Nat} (h : misalignFault co rs i.op = some a) : operandFault co k rs i = some (3, a) := by
  rw [operandFault_inside hr hg, h]
  rfl

theorem operandFault_push (hm : misalignFault co rs i.op = none) {q : Nat} (h : pushFault co k i = some q) :
    operandFault co k rs i = some (4, q) := by
  rw [operandFault_inside hr hg, hm, h]
  rfl

theorem operandFault_chain (hm : misalignFault co rs i.op = none) (h : pushFault co k i = none) :
    operandFault co k rs i = if chainFault co k i.op then some (5, 0) else none := by
  rw [operandFault_inside hr hg, hm, h]
  rfl

end Operands

/-! ### Which exception a station raises in place of firing (R130) -/

section PreFire
variable {s : State} {c : Fin 384} {k : Fin 8} {kind : CoreOp → Bool} (eff : CoreInstr → Nat → State → State)
variable (hrun : (s.station c k).state = .run) (hend : (s.station c k).ending = false)
include hrun hend

theorem fireWith_undecodable (hd : decodeCore ((s.core c).instrAt (s.station c k).pc) = none) :
    fireWith c k kind eff s = preFire c k 1 0 s := by
  simp [fireWith, hrun, hend, hd]

variable {i : CoreInstr} (hd : decodeCore ((s.core c).instrAt (s.station c k).pc) = some i) (hk : kind i.op = true)
include hd hk

theorem fireWith_illegal (h : entryIllegal (s.core c) i.op = true) : fireWith c k kind eff s = preFire c k 1 0 s := by
  simp [fireWith, hrun, hend, hd, hk, h]

variable (hl : entryIllegal (s.core c) i.op = false) (hz : regHazard (s.station c k).inflight (touched i) = false)
include hl hz

theorem fireWith_popFault {q : Nat} (hp : popFault (s.core c) k i = some q) : fireWith c k kind eff s =
    (let f := ((operandFault (s.core c) k (s.station c k).regs i).filter fun f => f.1 < 4).getD (4, q)
    preFire c k f.1 f.2 s) := by
  simp [fireWith, hrun, hend, hd, hk, hl, hz, hp]

theorem fireWith_operandFault (hp : popFault (s.core c) k i = none) (ht : tokensReady (s.core c) i = true) {f : Nat × Nat}
    (hf : operandFault (s.core c) k (poppedRegs (s.core c) i (s.station c k).regs) i = some f) :
    fireWith c k kind eff s = preFire c k f.1 f.2 s := by
  simp [fireWith, hrun, hend, hd, hk, hl, hz, hp, ht, hf]

end PreFire

theorem Station.offNet_kept {x y : Station} (h : x.offNet = y.offNet) :
    x.regs = y.regs ∧ x.pc = y.pc ∧ x.flags = y.flags ∧ x.excLost = y.excLost :=
  ⟨(congrArg Station.regs h :), (congrArg Station.pc h :), (congrArg Station.flags h :), (congrArg Station.excLost h :)⟩

/-- What a pre-fire exception leaves: the station halted at its instruction, the event, and everything else of the core's state. -/
theorem preFire_halts {s : State} {c : Fin 384} {k : Fin 8} (code detail : Nat) (h : (s.station c k).state = .run) :
    ((preFire c k code detail s).station c k).offNet
        = ((s.station c k).halted code (s.station c k).pc (BitVec.ofNat 32 detail) none).offNet
      ∧ ((preFire c k code detail s).core c).stores = (s.core c).stores
      ∧ ((preFire c k code detail s).sk (clusterOf c)).events =
        (s.sk (clusterOf c)).events ++ [BitVec.ofNat 32 (256 * (c.val % 8) + 2048 * k.val + 65536 * code)] := by
  refine ⟨haltStation_station c k code _ _ none h, haltStation_stores .., ?_⟩
  rw [preFire, haltStation_run _ _ _ _ _ _ h, skPost_events, Nat.zero_add]
  rfl

/-- Settles O18: the conditions of a firing are looked at in order, and each that an exception reports halts the station. -/
theorem preFireExceptionsHalt : Obligations.PreFireExceptionsHalt := by
  refine ⟨fun s c k hrun hend => ⟨fun hd o => ?_, fun i hd => ?_⟩,
    fun co k rs i => ⟨fun a ha => operandFault_range ha, fun hr hg => ⟨fun a ha => operandFault_misaligned hr hg ha, fun hm =>
      ⟨fun q hq => operandFault_push hr hg hm hq, fun hq => operandFault_chain hr hg hm hq⟩⟩⟩,
    fun s c k code detail hrun => ?_⟩
  · obtain ⟨kind, eff, he, -⟩ := exec_stationCmd c k o s
    rw [he, fireWith_undecodable eff hrun hend hd]
  · obtain ⟨kind, eff, he, hkind⟩ := exec_stationCmd c k i.op s
    obtain ⟨hk, -⟩ := hkind fun v hv => vecOk_ne_fifteen (opOf_vec_ok (hv ▸ decodeCore_op hd)) rfl
    simp only [he]
    refine ⟨fun h => ?_, fun hl hz => ⟨fun q hp => ⟨fun f hf hlow => ?_, fun hhigh => ?_⟩, fun hp ht f hf => ?_⟩⟩
    · rw [fireWith_illegal eff hrun hend hd hk h]
    · rw [fireWith_popFault eff hrun hend hd hk hl hz hp, hf, Option.filter_some_pos (by simpa using hlow)]
      rfl
    · rw [fireWith_popFault eff hrun hend hd hk hl hz hp]
      cases ho : operandFault (s.core c) k (s.station c k).regs i with
      | none => rfl
      | some f =>
        rw [Option.filter_some_neg (by simpa using hhigh f ho)]
        rfl
    · rw [fireWith_operandFault eff hrun hend hd hk hl hz hp ht hf]
  · obtain ⟨hst, hstores, hev⟩ := preFire_halts (c := c) (k := k) code detail hrun
    simp only [Core.stores, Prod.mk.injEq] at hstores
    obtain ⟨hls, -, hvregs, -, -, -, hqueues⟩ := hstores
    obtain ⟨hregs, hpc, hflags, hlost⟩ := Station.offNet_kept hst
    obtain ⟨hstate, hcode, hpost, hexcPc, hdetail⟩ := Station.exception_eq (haltStation_exception c k code _ _ none s hrun)
    have hnone : ((s.station c k).halted code (s.station c k).pc (BitVec.ofNat 32 detail) none).excLost = 0 := by
      simp [Station.halted]
    refine ⟨hstate, hcode, hpost, hexcPc, hlost.trans hnone, hdetail, hregs, hpc, hflags, hqueues, hls, hvregs, hev, ?_, ?_⟩
    · exact fun j hj => haltStation_station_other c k code (s.station c k).pc (BitVec.ofNat 32 detail) none hj s
    · exact fun d hd => haltStation_core_other c k code (s.station c k).pc (BitVec.ofNat 32 detail) none hd s

end Sys2Proof.Machine
end

section
/-! PROOFS. Crier channels that fire, and broadcasts that complete (R154, R155). -/
namespace Sys2Proof.Machine
open Sys2Proof

/-! ### Targets of a crier channel (R154) -/

/-- Without token targets no credit is reserved. -/
theorem reserveTargets_none {l : List Half} (h : ∀ y ∈ l, (bits y 14 2 : BitVec 2) = 0) (s : State) : reserveTargets l s = some s := by
  induction l with
  | nil => rfl
  | cons y l ih =>
    have hy : ¬ (bits y 14 2 : BitVec 2) = 1 := by rw [h y List.mem_cons_self]; decide
    rw [reserveTargets, if_neg hy, ih fun z hz => h z (List.mem_cons_of_mem _ hz)]

theorem serveTarget_token {y : Half} (h : (bits y 14 2 : BitVec 2) = 1) (gen : Half) (t : State) :
    serveTarget gen y t = sendToken (targetQueue y).1 (targetQueue y).2 (gen.setWidth 32) t := if_pos h

theorem serveTarget_channel {y : Half} (h : (bits y 14 2 : BitVec 2) = 2) (hc : (bits y 6 6 : BitVec 6).toNat < 48) (gen : Half) (t : State) :
    serveTarget gen y t = crierArrive (ix 48 (bits y 6 6 : BitVec 6).toNat) (bits y 0 6 : BitVec 6).toFin 1 t := by
  rw [serveTarget, if_neg (by rw [h]; decide), if_pos (by simp [h, hc]), ix_toNat (show 64 = 2 ^ 6 from rfl)]
  rfl

theorem serveTarget_none {y : Half} (h : (bits y 14 2 : BitVec 2) = 0) (gen : Half) (t : State) : serveTarget gen y t = t := by
  rw [serveTarget, h, if_neg (by decide)]
  rfl

theorem serveTargets_none {l : List Half} (h : ∀ y ∈ l, (bits y 14 2 : BitVec 2) = 0) (gen : Half) (t : State) :
    l.foldl (fun t y => serveTarget gen y t) t = t := by
  induction l with
  | nil => rfl
  | cons y l ih => rw [List.foldl_cons, serveTarget_none (h y List.mem_cons_self), ih fun z hz => h z (List.mem_cons_of_mem _ hz)]

section Fire
variable {s : State} {cl : Fin 48} {ch : Fin 64}

theorem crierFire_eq (cl : Fin 48) (ch : Fin 64) (s : State) : exec (.crierFire cl ch) s = execCrierFire cl ch s := rfl

/-- The channel that a firing leaves (R154). -/
def CrierChan.fired (x : CrierChan) : CrierChan :=
  let left : Half := BitVec.ofNat 16 (x.count.toNat - x.threshold.toNat)
  { x with count := left, gen := x.gen + 1, firing := decide (x.threshold ≠ 0 ∧ x.threshold.toNat ≤ left.toNat) }

theorem crierFire_fires (hx : ((s.cluster cl).crier[ch]).firing = true) {u : State}
    (hu : reserveTargets ((s.cluster cl).crier[ch]).targets.toList s = some u) : exec (.crierFire cl ch) s =
    (let x := (s.cluster cl).crier[ch]
    let u1 := u.modCluster cl fun cu => { cu with crier := cu.crier.set ch x.fired }
    let u2 := if x.skEvent then skPost cl 4 0 0 ch.val u1 else u1
    .next (x.targets.toList.foldl (fun t y => serveTarget (x.gen + 1) y t) u2)) := by
  rw [crierFire_eq]
  simp only [execCrierFire, hx, Bool.not_true, Bool.false_eq_true, if_false, hu, CrierChan.fired, Bool.decide_and, ne_eq]

end Fire

/-! ### Broadcasts (R155) -/

/-- What one member of a list brings about where an invariant stands, and the others keep, stands after all of them. -/
theorem forAll_establishes_under {α : Type} [DecidableEq α] (I P : State → Prop) (l : List α) (f : α → State → State) (a : α) (s : State)
    (ha : a ∈ l) (hI : I s) (inv : ∀ b t, I t → I (f b t)) (brings : ∀ t, I t → P (f a t)) (keeps : ∀ b t, b ≠ a → P t → P (f b t)) :
    P (forAll l f s) := by
  have stays : ∀ b t, I t ∧ P t → I (f b t) ∧ P (f b t) := fun b t ⟨hi, hp⟩ =>
    ⟨inv b t hi, if hb : b = a then hb ▸ brings t hi else keeps b t hb hp⟩
  induction l generalizing s with
  | nil => exact absurd ha List.not_mem_nil
  | cons b l ih =>
    by_cases hb : b = a
    · subst hb
      obtain ⟨-, hp⟩ := forAll_keeps (fun t => I t ∧ P t) l f (f b s) (fun d _ t => stays d t) ⟨inv b s hI, brings s hI⟩
      exact hp
    · exact ih (f b s) ((List.mem_cons.1 ha).resolve_left fun e => hb e.symm) (inv b s hI)

theorem mem_maskList {m : BitVec 48} {cl : Fin 48} : cl ∈ maskList m ↔ m.getLsbD cl.val = true := by
  simp [maskList, List.mem_finRange]

/-- The cores that a broadcast names. -/
def bcastCores (b : Broadcast) : List (Fin 384) :=
  (maskList b.clusters).flatMap fun cl => ((List.range 8).filter fun j => b.coreMask.getLsbD j).map fun j => coreOf cl j

theorem mem_bcastCores {b : Broadcast} {cl : Fin 48} {j : Fin 8} (hcl : b.clusters.getLsbD cl.val = true)
    (hj : b.coreMask.getLsbD j.val = true) : coreOf cl j.val ∈ bcastCores b :=
  List.mem_flatMap.2 ⟨cl, mem_maskList.2 hcl, List.mem_map.2 ⟨j.val, List.mem_filter.2 ⟨List.mem_range.2 j.isLt, hj⟩, rfl⟩⟩

/-- A copy of bytes to one core in service. -/
def copyTo (a : Nat) (bs : List MByte) (c : Fin 384) (t : State) : State :=
  if coreServes t c.val then writePlace (.ls c a) bs t else t

theorem bcastCopy_eq (b : Broadcast) (s : State) :
    bcastCopy b s = forAll (bcastCores b) (copyTo b.addr (readPlace s (.ls (ix 384 b.src) b.addr) b.len)) s := rfl

theorem writePlace_ls_core (c d : Fin 384) (a : Nat) (bs : List MByte) (t : State) : (writePlace (.ls c a) bs t).core d =
    if c = d then { t.core d with ls := (t.core d).ls.putBytes a (bs.map fun b => b.1), lsPoison := newMarks (t.core d).lsPoison a bs }
    else t.core d := by
  by_cases h : c = d
  · subst h
    rw [if_pos rfl]
    exact State.modCore_same ..
  · rw [if_neg h]
    exact State.modCore_other _ _ _ _ h

theorem copyTo_cases (a : Nat) (bs : List MByte) (c : Fin 384) (t : State) :
    copyTo a bs c t = t ∨ copyTo a bs c t = writePlace (.ls c a) bs t := by
  unfold copyTo
  split
  · exact .inr rfl
  · exact .inl rfl

theorem copyTo_clusters (a : Nat) (bs : List MByte) (c : Fin 384) (t : State) : (copyTo a bs c t).clusters = t.clusters := by
  obtain h | h := copyTo_cases a bs c t <;> rw [h]
  rfl

theorem copyTo_get_outside {a x : Nat} {bs : List MByte} (h : x < a ∨ a + bs.length ≤ x) (c d : Fin 384) (t : State) :
    ((copyTo a bs c t).core d).ls.get x = (t.core d).ls.get x := by
  obtain h' | h' := copyTo_cases a bs c t <;> rw [h']
  rw [writePlace_ls_core]
  split
  · exact Memory.get_putBytes_other _ _ _ _ (by simpa using h)
  · rfl

/-- A core of which bytes can be written: its local store is in order and it is in service. -/
def takesBytes (c : Fin 384) (t : State) : Prop := (t.core c).ls.wf = true ∧ coreServes t c.val = true

theorem coreServes_congr {s t : State} (hc : t.clusters = s.clusters) (n : Nat)
    (hr : ∀ c : Fin 384, (t.core c).retired = (s.core c).retired) : coreServes t n = coreServes s n := by
  have hcl (d : Fin 48) : t.cluster d = s.cluster d := congrArg (fun v : Vector Cluster 48 => v[d]) hc
  simp only [coreServes, hcl, hr]

theorem copyTo_retired (a : Nat) (bs : List MByte) (c d : Fin 384) (t : State) : ((copyTo a bs c t).core d).retired = (t.core d).retired := by
  obtain h' | h' := copyTo_cases a bs c t <;> rw [h']
  rw [writePlace_ls_core]
  split <;> rfl

theorem copyTo_takesBytes (a : Nat) (bs : List MByte) (c d : Fin 384) (t : State) (h : takesBytes d t) : takesBytes d (copyTo a bs c t) := by
  obtain ⟨hwf, hserves⟩ := h
  refine ⟨?_, (coreServes_congr (copyTo_clusters a bs c t) _ fun e => copyTo_retired a bs c e t).trans hserves⟩
  obtain h' | h' := copyTo_cases a bs c t <;> rw [h']
  · exact hwf
  · rw [writePlace_ls_core]
    split
    · exact Memory.putBytes_wf _ _ _ hwf
    · exact hwf

theorem copyTo_get (a : Nat) (bs : List MByte) {c : Fin 384} {t : State} (h : takesBytes c t) {i : Nat} (hi : i < bs.length) :
    ((copyTo a bs c t).core c).ls.get (a + i) = bs[i].1 := by
  obtain ⟨hwf, hserves⟩ := h
  rw [copyTo, if_pos hserves, writePlace_ls_core, if_pos rfl]
  exact (Memory.get_putBytes_same _ _ _ _ hwf (by simpa using hi)).trans (by simp)

theorem copyTo_core_other (a : Nat) (bs : List MByte) {c d : Fin 384} (h : c ≠ d) (t : State) : (copyTo a bs c t).core d = t.core d := by
  obtain h' | h' := copyTo_cases a bs c t <;> rw [h']
  rw [writePlace_ls_core, if_neg h]

theorem readPlace_ls_length (s : State) (c : Fin 384) (a n : Nat) : (readPlace s (.ls c a) n).length = n := by
  simp [readPlace]

/-- A named core in service gets the bytes. -/
theorem bcastCopy_get {b : Broadcast} {s : State} {c : Fin 384} (hc : c ∈ bcastCores b) (h : takesBytes c s) {i : Nat} (hi : i < b.len) :
    ((bcastCopy b s).core c).ls.get (b.addr + i) = (s.core (ix 384 b.src)).ls.get (b.addr + i) := by
  have hlen := readPlace_ls_length s (ix 384 b.src) b.addr b.len
  have hbyte : (readPlace s (.ls (ix 384 b.src) b.addr) b.len)[i].1 = (s.core (ix 384 b.src)).ls.get (b.addr + i) := by
    simp [readPlace]
  rw [bcastCopy_eq, ← hbyte]
  exact forAll_establishes_under (takesBytes c) (fun t => (t.core c).ls.get (b.addr + i) = _) _ _ c s hc h
    (fun d t ht => copyTo_takesBytes _ _ d c t ht) (fun t ht => copyTo_get _ _ ht (by omega))
    fun d t hd ht => (congrArg (fun co : Core => co.ls.get (b.addr + i)) (copyTo_core_other _ _ hd t)).trans ht

theorem bcastCopy_get_outside {b : Broadcast} {a : Nat} (h : a < b.addr ∨ b.addr + b.len ≤ a) (s : State) (c : Fin 384) :
    ((bcastCopy b s).core c).ls.get a = (s.core c).ls.get a := by
  rw [bcastCopy_eq]
  exact forAll_leaves (fun t => (t.core c).ls.get a) _ _ _ fun d t => copyTo_get_outside (by rwa [readPlace_ls_length]) d c t

theorem bcastCopy_clusters (b : Broadcast) (s : State) : (bcastCopy b s).clusters = s.clusters := by
  rw [bcastCopy_eq]
  exact forAll_leaves State.clusters _ _ _ fun d t => copyTo_clusters _ _ d t

/-- A broadcast taken off its list. -/
def dropBcast (cl : Fin 48) (n : Nat) (s : State) : State := s.modCluster cl fun cu => { cu with bcasts := cu.bcasts.eraseIdx n }

theorem broadcastComplete_eq {s : State} {cl : Fin 48} {n : Nat} {b : Broadcast} (h : (s.cluster cl).bcasts[n]? = some b) :
    exec (.crierBroadcastComplete cl n) s =
      if bcastOk b then .next (crierArrive cl b.chan 1 (bcastCopy b (dropBcast cl n s))) else .next (dropBcast cl n s) := by
  show execCrierBroadcastComplete cl n s = _
  simp only [execCrierBroadcastComplete, h, dropBcast]

theorem dropBcast_serves (cl : Fin 48) (n : Nat) (s : State) (m : Nat) : coreServes (dropBcast cl n s) m = coreServes s m := by
  have hin (d : Fin 48) : ((dropBcast cl n s).cluster d).inService = (s.cluster d).inService := by
    by_cases h : cl = d
    · subst h
      simp [dropBcast]
    · rw [dropBcast, State.modCluster_other _ _ _ _ h]
  simp only [coreServes, hin]
  rfl

theorem crierArrive_bcasts (cl : Fin 48) (ch : Fin 64) (n : Nat) (s : State) :
    ((crierArrive cl ch n s).cluster cl).bcasts = (s.cluster cl).bcasts := by
  simp [crierArrive]

theorem skPost_crier (cl d : Fin 48) (kind core stn code : Nat) (s : State) :
    ((skPost cl kind core stn code s).cluster d).crier = (s.cluster d).crier := by
  by_cases h : cl = d
  · subst h
    simp [skPost]
  · rw [skPost_cluster_other (Ne.symm h)]

/-- A state in which channel ch is x and, where asked for, the CRIER event is posted. -/
theorem firedChannel_spec (s : State) (cl : Fin 48) (ch : Fin 64) (x : CrierChan) (event : Bool) :
    let u := s.modCluster cl fun cu => { cu with crier := cu.crier.set ch x }
    let t := if event then skPost cl 4 0 0 ch.val u else u
    (t.cluster cl).crier = (s.cluster cl).crier.set ch x
      ∧ (t.sk cl).events = (s.sk cl).events ++ (if event then [BitVec.ofNat 32 (4 + 65536 * ch.val)] else []) ∧ t.cores = s.cores := by
  have hcrier : ((s.modCluster cl fun cu => { cu with crier := cu.crier.set ch x }).cluster cl).crier = (s.cluster cl).crier.set ch x :=
    congrArg Cluster.crier (State.modCluster_same ..)
  have hsk : (s.modCluster cl fun cu => { cu with crier := cu.crier.set ch x }).sk cl = s.sk cl := by
    simp [State.sk]
  cases event with
  | false => exact ⟨hcrier, by simp [hsk], rfl⟩
  | true => exact ⟨(skPost_crier ..).trans hcrier, by simp [skPost_events, hsk], rfl⟩

/-- Settles O26: a firing is its model's own steps, and a broadcast copies to each named core what the source held before it. -/
theorem crierFiresAndBroadcasts : Obligations.CrierFiresAndBroadcasts := by
  refine ⟨fun s cl ch => ⟨fun hx => ?_, fun hx hn => ?_, fun hx u hu => crierFire_fires hx hu, fun hx hy => ?_, fun gen y t =>
    ⟨fun h => serveTarget_token h gen t, fun h hc => serveTarget_channel h hc gen t⟩⟩, fun s cl n b hb => ⟨fun hok => ?_, fun hok => ?_⟩⟩
  · rw [crierFire_eq]
    simp only [execCrierFire, hx, Bool.not_false, if_true]
  · rw [crierFire_eq]
    simp only [execCrierFire, hx, Bool.not_true, Bool.false_eq_true, if_false, hn]
  · have hy' : ∀ y ∈ ((s.cluster cl).crier[ch]).targets.toList, (bits y 14 2 : BitVec 2) = 0 := by
      intro y hm
      obtain ⟨j, hj, rfl⟩ := List.mem_iff_getElem.1 hm
      simpa using hy ⟨j, by simpa using hj⟩
    obtain ⟨hcrier, hevents, hcores⟩ := firedChannel_spec s cl ch ((s.cluster cl).crier[ch]).fired ((s.cluster cl).crier[ch]).skEvent
    refine ⟨_, (crierFire_fires hx (reserveTargets_none hy' s)).trans (congrArg Host.Outcome.next (serveTargets_none hy' _ _)),
      ?_, ?_, fun ch' hne => ?_, hevents, hcores⟩
    · exact (congrArg (fun v : Vector CrierChan 64 => v[ch].gen) hcrier).trans (by simp [CrierChan.fired])
    · exact (congrArg (fun v : Vector CrierChan 64 => v[ch].count) hcrier).trans (by simp [CrierChan.fired])
    · have hv : ch.val ≠ ch'.val := fun e => hne (Fin.ext e.symm)
      exact (congrArg (fun v : Vector CrierChan 64 => v[ch']) hcrier).trans (by simp [hv])
  · have hcl : (bcastCopy b (dropBcast cl n s)).cluster cl = { s.cluster cl with bcasts := (s.cluster cl).bcasts.eraseIdx n } :=
      (congrArg (fun v : Vector Cluster 48 => v[cl]) (bcastCopy_clusters ..)).trans (State.modCluster_same ..)
    refine ⟨_, (broadcastComplete_eq hb).trans (if_pos hok), ?_, ?_, ?_, ?_⟩
    · rw [crierArrive_bcasts, hcl]
    · rw [crierArrive_same, hcl]
      rfl
    · rintro c d j rfl hd hj hserves i hi hwf
      exact bcastCopy_get (s := dropBcast cl n s) (mem_bcastCores hd hj) ⟨hwf, (dropBcast_serves ..).trans hserves⟩ hi
    · exact fun c a ha => bcastCopy_get_outside ha (dropBcast cl n s) c
  · exact (broadcastComplete_eq hb).trans (if_neg (by simp [hok]))

end Sys2Proof.Machine
end

section
/-! PROOFS. What a launch starts: RESET and START over the clusters of a mask (R148). -/
namespace Sys2Proof.Machine
open Sys2Proof

/-! ### What an operation on clusters leaves elsewhere -/

/-- Beyond the clusters that P names and their cores, a state has the clusters, cores, memories and launches of another. -/
def Confined (P : Fin 48 → Prop) (s t : State) : Prop :=
  (∀ cl, ¬ P cl → t.cluster cl = s.cluster cl) ∧ (∀ c, ¬ P (clusterOf c) → t.core c = s.core c) ∧ t.gddr = s.gddr ∧ t.host = s.host
    ∧ t.launches = s.launches

namespace Confined
variable {P : Fin 48 → Prop} {s t u : State}

theorem refl (P : Fin 48 → Prop) (s : State) : Confined P s s := ⟨fun _ _ => rfl, fun _ _ => rfl, rfl, rfl, rfl⟩

theorem trans (h : Confined P s t) (k : Confined P t u) : Confined P s u := by
  obtain ⟨hcl, hco, hg, hh, hl⟩ := h
  obtain ⟨kcl, kco, kg, kh, kl⟩ := k
  exact ⟨fun cl n => (kcl cl n).trans (hcl cl n), fun c n => (kco c n).trans (hco c n), kg.trans hg, kh.trans hh, kl.trans hl⟩

theorem modCore {c : Fin 384} (h : P (clusterOf c)) (s : State) (f : Core → Core) : Confined P s (s.modCore c f) :=
  ⟨fun _ _ => rfl, fun d n => State.modCore_other s c d f fun e => n (e ▸ h), rfl, rfl, rfl⟩

theorem modCluster {cl : Fin 48} (h : P cl) (s : State) (f : Cluster → Cluster) : Confined P s (s.modCluster cl f) :=
  ⟨fun d n => State.modCluster_other s cl d f fun e => n (e ▸ h), fun _ _ => rfl, rfl, rfl, rfl⟩

theorem setCpwr (P : Fin 48 → Prop) (s : State) (cl : Fin 48) (x : ClusterPower) : Confined P s (s.setCpwr cl x) :=
  ⟨fun _ _ => rfl, fun _ _ => rfl, rfl, rfl, rfl⟩

theorem setWires (P : Fin 48 → Prop) (s : State) (x : List Transit) : Confined P s (s.setWires x) :=
  ⟨fun _ _ => rfl, fun _ _ => rfl, rfl, rfl, rfl⟩

theorem forAll {α : Type} (l : List α) (f : α → State → State) (h : ∀ a ∈ l, ∀ v, Confined P v (f a v)) (s : State) :
    Confined P s (forAll l f s) :=
  forAll_keeps (Confined P s) l f s (fun a ha v hv => hv.trans (h a ha v)) (refl P s)

theorem cluster_eq (h : Confined P s t) {cl : Fin 48} (n : ¬ P cl) : t.cluster cl = s.cluster cl := by
  obtain ⟨hcl, -⟩ := h
  exact hcl cl n

theorem core_eq (h : Confined P s t) {c : Fin 384} (n : ¬ P (clusterOf c)) : t.core c = s.core c := by
  obtain ⟨-, hco, -⟩ := h
  exact hco c n

theorem launches_eq (h : Confined P s t) : t.launches = s.launches := by
  obtain ⟨-, -, -, -, hl⟩ := h
  exact hl

end Confined

/-- A change of one cluster that happens once: it is made of the cluster as it stood before all of them. -/
theorem forAll_cluster_once (l : List (Fin 48)) (hl : l.Nodup) (f : Fin 48 → State → State) {cl : Fin 48} (hcl : cl ∈ l)
    (other : ∀ d t, d ≠ cl → (f d t).cluster cl = t.cluster cl) (s : State) :
    ∃ u, u.cluster cl = s.cluster cl ∧ (forAll l f s).cluster cl = (f cl u).cluster cl := by
  induction l generalizing s with
  | nil => exact absurd hcl List.not_mem_nil
  | cons d l ih =>
    obtain ⟨hd, hl'⟩ := List.nodup_cons.1 hl
    by_cases h : d = cl
    · subst h
      exact ⟨s, rfl, forAll_keeps (fun t => t.cluster d = (f d s).cluster d) l f (f d s)
        (fun e he t ht => (other e t fun x => hd (x ▸ he)).trans ht) rfl⟩
    · obtain ⟨u, hu, hall⟩ := ih hl' ((List.mem_cons.1 hcl).resolve_left fun e => h e.symm) (f d s)
      exact ⟨u, hu.trans (other d s h), hall⟩

theorem maskList_nodup (m : BitVec 48) : (maskList m).Nodup := (List.nodup_finRange 48).filter _

theorem mem_maskCores {m : BitVec 48} {cl : Fin 48} (h : cl ∈ maskList m) (j : Fin 8) : coreOf cl j.val ∈ maskCores m :=
  List.mem_flatMap.2 ⟨cl, h, List.mem_map.2 ⟨j.val, List.mem_range.2 j.isLt, rfl⟩⟩

theorem clusterOf_of_mem_maskCores {m : BitVec 48} {c : Fin 384} (h : c ∈ maskCores m) : clusterOf c ∈ maskList m := by
  obtain ⟨cl, hcl, hc⟩ := List.mem_flatMap.1 h
  obtain ⟨j, -, rfl⟩ := List.mem_map.1 hc
  rwa [clusterOf_coreOf]

/-! ### RESET and START over a mask (R148) -/

theorem resetStation_shape (c : Fin 384) (k : Fin 8) (s : State) : ∃ l f g,
    resetStation c k s = forAll l (fun q => returnCredit c q) ((s.modCore c f).modCluster (clusterOf c) g)
      ∧ ∀ cu, (g cu).entry = cu.entry :=
  ⟨_, _, _, rfl, fun _ => rfl⟩

/-- A core of which step 2 of R148 has reset the stations: queues as the map of the state before gives them, the watch on its base. -/
def clearedCore (s : State) (seed : Dword) (ret rep : Bool) (c : Fin 384) (co : Core) : Core :=
  let co1 : Core := { co with
    stns := Vector.ofFn fun k => { co.stns[k] with state := .idle, flags := 0, lfsr := seedLfsr seed c k },
    queues := Vector.ofFn fun q => setQueue s c q, drainQ := [] }
  takeBase { co1 with watch := { co1.watch with
    satTrig := false, ufzTrig := false, edgeTrig := false, retaining := ret, retainFull := false, replayed := rep,
    refused := false, trigCnt := 0, replayUsed := 0, retained := [], eventSent := false } }

theorem resetCore_eq (seed : Dword) (ret rep : Bool) (c : Fin 384) (s : State) : resetCore seed ret rep c s
    = (forAll (List.finRange 8) (fun k => resetStation c k) s).modCore c (clearedCore s seed ret rep c) := rfl

theorem clearedCore_stns (s : State) (seed : Dword) (ret rep : Bool) (c : Fin 384) (co : Core) (k : Fin 8) :
    (clearedCore s seed ret rep c co).stns[k] = { co.stns[k] with state := .idle, flags := 0, lfsr := seedLfsr seed c k } := by
  simp [clearedCore, takeBase]

section Reset
variable {P : Fin 48 → Prop} {c : Fin 384} (h : P (clusterOf c))
include h

theorem resetStation_confined (k : Fin 8) (s : State) : Confined P s (resetStation c k s) := by
  obtain ⟨l, f, g, he, -⟩ := resetStation_shape c k s
  rw [he]
  have hback := Confined.forAll (P := P) l (fun q => returnCredit c q) fun q _ v => Confined.modCore h v _
  exact ((Confined.modCore h s f).trans (Confined.modCluster h _ g)).trans (hback _)

theorem resetCore_confined (seed : Dword) (ret rep : Bool) (s : State) : Confined P s (resetCore seed ret rep c s) := by
  rw [resetCore_eq]
  have hstns := Confined.forAll (P := P) (List.finRange 8) (fun k => resetStation c k) fun k _ v => resetStation_confined h k v
  exact (hstns s).trans (Confined.modCore h _ _)

end Reset

theorem resetStation_entry (c : Fin 384) (k : Fin 8) (s : State) (cl : Fin 48) :
    ((resetStation c k s).cluster cl).entry = (s.cluster cl).entry := by
  obtain ⟨l, f, g, he, hg⟩ := resetStation_shape c k s
  have hback := forAll_leaves (fun t => (t.cluster cl).entry) l (fun q => returnCredit c q) ((s.modCore c f).modCluster (clusterOf c) g)
    fun _ _ => rfl
  rw [he, hback]
  by_cases hcl : clusterOf c = cl
  · subst hcl
    rw [State.modCluster_same, hg]
    rfl
  · rw [State.modCluster_other _ _ _ _ hcl]
    rfl

theorem resetCore_entry (seed : Dword) (ret rep : Bool) (c : Fin 384) (s : State) (cl : Fin 48) :
    ((resetCore seed ret rep c s).cluster cl).entry = (s.cluster cl).entry := by
  rw [resetCore_eq, State.modCore_cluster]
  exact forAll_leaves (fun t => (t.cluster cl).entry) _ _ _ fun k t => resetStation_entry c k t cl

/-- A station as step 2 of R148 leaves it: idle, its registers, flags and flights gone, its control block as it was. -/
def FreshStation (enable : Bool) (entry : BitVec 12) (st : Station) : Prop :=
  st.regs = Vector.replicate 16 0 ∧ st.flags = 0 ∧ st.inflight = [] ∧ st.state = .idle ∧ st.enable = enable ∧ st.entry = entry

/-- What of a station does not depend on its instructions in flight. -/
theorem Station.offNet_parts {x y : Station} (h : x.offNet = y.offNet) : x.regs = y.regs ∧ x.flags = y.flags ∧ x.state = y.state
    ∧ x.enable = y.enable ∧ x.entry = y.entry ∧ (y.inflight = [] → x.inflight = []) := by
  refine ⟨(congrArg Station.regs h :), (congrArg Station.flags h :), (congrArg Station.state h :), (congrArg Station.enable h :),
    (congrArg Station.entry h :), fun hi => ?_⟩
  have hfl : x.inflight.map (fun f => { f with pieces := [] }) = y.inflight.map (fun f => { f with pieces := [] }) :=
    congrArg Station.inflight h
  rwa [hi, List.map_nil, List.map_eq_nil_iff] at hfl

theorem FreshStation.of_offNet {enable : Bool} {entry : BitVec 12} {x y : Station} (h : x.offNet = y.offNet)
    (hy : FreshStation enable entry y) : FreshStation enable entry x := by
  obtain ⟨hr, hf, hi, hs, he, hn⟩ := hy
  obtain ⟨xr, xf, xs, xe, xn, xi⟩ := Station.offNet_parts h
  exact ⟨xr.trans hr, xf.trans hf, xi hi, xs.trans hs, xe.trans he, xn.trans hn⟩

/-- A station's ENABLE and ENTRY in a state. -/
def ControlledAs (c : Fin 384) (k : Fin 8) (enable : Bool) (entry : BitVec 12) (t : State) : Prop :=
  (t.station c k).enable = enable ∧ (t.station c k).entry = entry

theorem resetStations_controlled (c : Fin 384) (k j : Fin 8) {enable : Bool} {entry : BitVec 12} (t : State)
    (h : ControlledAs c k enable entry t) : ControlledAs c k enable entry (resetStation c j t) := by
  obtain ⟨he, hn⟩ := h
  obtain ⟨hst, hother, -⟩ := resetStation_spec c j t
  by_cases hj : k = j
  · subst hj
    exact ⟨by rw [hst]; exact he, by rw [hst]; exact hn⟩
  · obtain ⟨-, -, -, xe, xn, -⟩ := Station.offNet_parts (hother k hj)
    exact ⟨xe.trans he, xn.trans hn⟩

theorem resetStation_fresh (c : Fin 384) (k : Fin 8) {enable : Bool} {entry : BitVec 12} (t : State)
    (h : ControlledAs c k enable entry t) : FreshStation enable entry ((resetStation c k t).station c k) := by
  obtain ⟨hst, -⟩ := resetStation_spec c k t
  rw [hst]
  exact ⟨rfl, rfl, rfl, rfl, h⟩

theorem resetStations_fresh (c : Fin 384) (k : Fin 8) {enable : Bool} {entry : BitVec 12} (t : State)
    (h : ControlledAs c k enable entry t) :
    FreshStation enable entry ((forAll (List.finRange 8) (fun k => resetStation c k) t).station c k) :=
  forAll_establishes_under (ControlledAs c k enable entry) (fun t => FreshStation enable entry (t.station c k)) _ _ k t
    (List.mem_finRange k) h (fun j t => resetStations_controlled c k j t) (fun t => resetStation_fresh c k t)
    fun j t hj ht => ht.of_offNet ((resetStation_spec c j t).2.1 k hj.symm)

theorem resetCore_fresh (seed : Dword) (ret rep : Bool) (c : Fin 384) (k : Fin 8) {enable : Bool} {entry : BitVec 12} (t : State)
    (h : ControlledAs c k enable entry t) : FreshStation enable entry ((resetCore seed ret rep c t).station c k) := by
  have hfresh := resetStations_fresh c k t h
  rw [resetCore_eq]
  generalize forAll (List.finRange 8) (fun k => resetStation c k) t = u at hfresh
  obtain ⟨hr, -, hi, -, he, hn⟩ := hfresh
  rw [State.station, State.modCore_same, clearedCore_stns]
  exact ⟨hr, rfl, hi, rfl, he, hn⟩

theorem resetCore_core_other (seed : Dword) (ret rep : Bool) {c d : Fin 384} (h : d ≠ c) (t : State) :
    (resetCore seed ret rep c t).core d = t.core d := by
  rw [resetCore_eq, State.modCore_other _ _ _ _ h.symm]
  refine forAll_leaves (fun t => t.core d) _ _ _ fun k t => ?_
  obtain ⟨-, -, hcore, -⟩ := resetStation_spec c k t
  exact hcore d h

theorem FreshStation.controlled {c : Fin 384} {k : Fin 8} {enable : Bool} {entry : BitVec 12} {t : State}
    (h : FreshStation enable entry (t.station c k)) : ControlledAs c k enable entry t := by
  obtain ⟨-, -, -, -, hc⟩ := h
  exact hc

/-- Step 2 of R148 over a mask makes every station of its cores fresh. -/
theorem resetCores_fresh (seed : Dword) (ret rep : Bool) {l : List (Fin 384)} {c : Fin 384} (hc : c ∈ l) (k : Fin 8) (t : State) :
    FreshStation (t.station c k).enable (t.station c k).entry ((forAll l (resetCore seed ret rep) t).station c k) := by
  have hsame {d : Fin 384} (hd : d ≠ c) (u : State) : (resetCore seed ret rep d u).station c k = u.station c k :=
    congrArg (fun co : Core => co.stns[k]) (resetCore_core_other seed ret rep hd.symm u)
  refine forAll_establishes_under (ControlledAs c k (t.station c k).enable (t.station c k).entry)
    (fun u => FreshStation (t.station c k).enable (t.station c k).entry (u.station c k)) l _ c t hc ⟨rfl, rfl⟩ (fun d u hu => ?_)
    (fun u => resetCore_fresh seed ret rep c k u) fun d u hd hu => ?_
  · by_cases hd : d = c
    · subst hd
      exact (resetCore_fresh seed ret rep d k u hu).controlled
    · unfold ControlledAs
      rwa [hsame hd]
  · rwa [hsame hd]

/-! ### Steps 3 and 4 of R148 -/

/-- A station as LAUNCH leaves it: enabled ones run at their ENTRY. -/
def StartedStation (enable : Bool) (entry : BitVec 12) (st : Station) : Prop :=
  st.regs = Vector.replicate 16 0 ∧ st.flags = 0 ∧ st.inflight = [] ∧ (enable = true → st.state = .run ∧ st.pc = entry)
    ∧ (enable = false → st.state = .idle) ∧ st.enable = enable ∧ st.entry = entry

/-- START of an enabled station. -/
def startEnabled (x : Fin 384 × Fin 8) (t : State) : State := if (t.station x.1 x.2).enable then startStation x.1 x.2 t else t

/-- A cluster that starts a launch. -/
def Cluster.launched (id : Nat) (arg : Word) (cl : Fin 48) (c : Cluster) : Cluster :=
  { c with
    launch := some id, ending := none, crier := c.crier.map fun x => { x with gen := 0 },
    sk := { c.sk with
      st := .run, pc := c.entry,
      g := Vector.ofFn fun i => if i.val = 1 then BitVec.ofNat 32 cl.val else if i.val = 2 then arg else 0,
      events := [], timerArmed := false, normSince := none } }

theorem startCluster_eq (id : Nat) (arg : Word) (cl : Fin 48) (s : State) : startCluster id arg cl s =
    (let t := forAll (stationsOf cl) startEnabled (s.modCluster cl (Cluster.launched id arg cl))
    t.setCpwr cl { t.cpwr cl with mode := .run, op := heldPoint s cl }) := rfl

theorem startEnabled_confined {P : Fin 48 → Prop} {x : Fin 384 × Fin 8} (h : P (clusterOf x.1)) (s : State) :
    Confined P s (startEnabled x s) := by
  unfold startEnabled
  split
  · exact Confined.modCore h s _
  · exact .refl P s

theorem startEnabled_same (x : Fin 384 × Fin 8) (s : State) :
    (startEnabled x s).clusters = s.clusters ∧ (startEnabled x s).pwr = s.pwr := by
  unfold startEnabled
  split <;> exact ⟨rfl, rfl⟩

theorem startCluster_confined {P : Fin 48 → Prop} {cl : Fin 48} (h : P cl) (id : Nat) (arg : Word) (s : State) :
    Confined P s (startCluster id arg cl s) := by
  rw [startCluster_eq]
  have hstns := Confined.forAll (P := P) (stationsOf cl) startEnabled fun x hx v =>
    startEnabled_confined (by rwa [clusterOf_of_mem_stationsOf hx]) v
  exact ((Confined.modCluster h s _).trans (hstns _)).trans (Confined.setCpwr ..)

theorem startCluster_cluster (id : Nat) (arg : Word) (cl : Fin 48) (s : State) :
    (startCluster id arg cl s).cluster cl = (s.cluster cl).launched id arg cl := by
  rw [startCluster_eq, State.setCpwr_cluster]
  exact (forAll_leaves (fun t => t.cluster cl) _ _ _ fun x t =>
    congrArg (fun v : Vector Cluster 48 => v[cl]) (startEnabled_same x t).1).trans (State.modCluster_same ..)

theorem setCpwr_cpwr_other {cl d : Fin 48} (h : d ≠ cl) (s : State) (x : ClusterPower) : (s.setCpwr cl x).cpwr d = s.cpwr d := by
  have hv : cl.val ≠ d.val := fun e => h (Fin.ext e.symm)
  simp [State.setCpwr, State.cpwr, hv]

theorem startCluster_mode (id : Nat) (arg : Word) (cl : Fin 48) (s : State) : ((startCluster id arg cl s).cpwr cl).mode = .run := by
  rw [startCluster_eq, State.setCpwr_cpwr]

theorem startCluster_cpwr_other (id : Nat) (arg : Word) {cl d : Fin 48} (h : d ≠ cl) (s : State) :
    (startCluster id arg cl s).cpwr d = s.cpwr d := by
  rw [startCluster_eq, setCpwr_cpwr_other h]
  exact forAll_leaves (fun t => t.cpwr d) _ _ _ fun x t =>
    congrArg (fun p : Power => p.clusters[d]) (startEnabled_same x t).2

theorem startStation_core_other (c : Fin 384) (k : Fin 8) (s : State) {d : Fin 384} (h : d ≠ c) :
    (startStation c k s).core d = s.core d := State.setStation_core_other _ _ _ _ _ h

theorem startEnabled_station_other {x : Fin 384 × Fin 8} {c : Fin 384} {k : Fin 8} (h : x ≠ (c, k)) (s : State) :
    (startEnabled x s).station c k = s.station c k := by
  unfold startEnabled
  split
  · by_cases hc : c = x.1
    · subst hc
      exact State.setStation_station_other _ _ _ _ _ fun e => h (by rw [e])
    · rw [State.station, startStation_core_other _ _ _ hc]
      rfl
  · rfl

theorem startEnabled_starts {c : Fin 384} {k : Fin 8} {enable : Bool} {entry : BitVec 12} {s : State}
    (h : FreshStation enable entry (s.station c k) ∨ StartedStation enable entry (s.station c k)) :
    StartedStation enable entry ((startEnabled (c, k) s).station c k) := by
  unfold startEnabled
  obtain ⟨hr, hf, hi, hs, he, hn⟩ | ⟨hr, hf, hi, hrun, hidle, he, hn⟩ := h
  · cases enable
    · rw [if_neg (by simp [he])]
      exact ⟨hr, hf, hi, fun h => (nomatch h), fun _ => hs, he, hn⟩
    · rw [if_pos he, startStation_station, if_pos hs]
      exact ⟨hr, hf, hi, fun _ => ⟨rfl, hn⟩, fun h => (nomatch h), he, hn⟩
  · cases enable
    · rw [if_neg (by simp [he])]
      exact ⟨hr, hf, hi, hrun, hidle, he, hn⟩
    · obtain ⟨hst, -⟩ := hrun rfl
      rw [if_pos he, startStation_station, if_neg (by simp [hst])]
      exact ⟨hr, hf, hi, hrun, hidle, he, hn⟩

/-- START over a cluster starts each of its enabled stations. -/
theorem startCluster_starts (id : Nat) (arg : Word) (cl : Fin 48) (j k : Fin 8) {enable : Bool} {entry : BitVec 12} {s : State}
    (h : FreshStation enable entry (s.station (coreOf cl j.val) k) ∨ StartedStation enable entry (s.station (coreOf cl j.val) k)) :
    StartedStation enable entry ((startCluster id arg cl s).station (coreOf cl j.val) k) := by
  rw [startCluster_eq, State.station, State.setCpwr_core]
  refine forAll_establishes_under
    (fun t => FreshStation enable entry (t.station (coreOf cl j.val) k) ∨ StartedStation enable entry (t.station (coreOf cl j.val) k))
    (fun t => StartedStation enable entry (t.station (coreOf cl j.val) k)) _ startEnabled (coreOf cl j.val, k) _
    (mem_stationsOf cl j k) h (fun x t ht => ?_) (fun t ht => startEnabled_starts ht) fun x t hx ht => ?_
  · by_cases hx : x = (coreOf cl j.val, k)
    · subst hx
      exact .inr (startEnabled_starts ht)
    · rwa [startEnabled_station_other hx]
  · rwa [startEnabled_station_other hx]

/-! ### A launch that starts (R148) -/

section Start
variable (id : Nat) (m : BitVec 48) (seed : Dword) (arg : Word) (ret rep : Bool) (s : State)

/-- The cores of a mask reset, before its clusters start. -/
def resetMask : State :=
  forAll (maskCores m) (resetCore seed ret rep) (s.setWires (s.wires.filter fun w => !m.getLsbD (w.core / 8)))

theorem startClusters_eq : startClusters id m seed arg ret rep s = forAll (maskList m) (startCluster id arg) (resetMask m seed ret rep s) := rfl

theorem resetMask_confined : Confined (· ∈ maskList m) s (resetMask m seed ret rep s) := by
  have hcores := Confined.forAll (P := (· ∈ maskList m)) (maskCores m) (resetCore seed ret rep) fun c hc v =>
    resetCore_confined (clusterOf_of_mem_maskCores hc) seed ret rep v
  exact (Confined.setWires _ s _).trans (hcores _)

theorem startClusters_confined : Confined (· ∈ maskList m) s (startClusters id m seed arg ret rep s) := by
  have hstart := Confined.forAll (P := (· ∈ maskList m)) (maskList m) (startCluster id arg) fun cl hcl v =>
    startCluster_confined hcl id arg v
  exact (resetMask_confined m seed ret rep s).trans (hstart _)

theorem resetMask_entry (cl : Fin 48) : ((resetMask m seed ret rep s).cluster cl).entry = (s.cluster cl).entry :=
  forAll_leaves (fun t => (t.cluster cl).entry) _ _ _ fun c t => resetCore_entry seed ret rep c t cl

variable {m} {cl : Fin 48} (hcl : cl ∈ maskList m)
include hcl

/-- Each cluster of the mask runs the launch from its program's ENTRY. -/
theorem startClusters_cluster : ∃ cu : Cluster, cu.entry = (s.cluster cl).entry
    ∧ (startClusters id m seed arg ret rep s).cluster cl = cu.launched id arg cl := by
  have hother : ∀ d t, d ≠ cl → (startCluster id arg d t).cluster cl = t.cluster cl := fun d t hd =>
    (startCluster_confined (P := (· = d)) rfl id arg t).cluster_eq fun e => hd e.symm
  obtain ⟨u, hu, hall⟩ := forAll_cluster_once _ (maskList_nodup m) _ hcl hother (resetMask m seed ret rep s)
  refine ⟨u.cluster cl, ?_, ?_⟩
  · rw [hu, resetMask_entry]
  · rw [startClusters_eq, hall, startCluster_cluster]

theorem startClusters_mode : ((startClusters id m seed arg ret rep s).cpwr cl).mode = .run :=
  forAll_establishes (fun t => (t.cpwr cl).mode = .run) _ _ cl _ hcl (fun t => startCluster_mode id arg cl t)
    fun d t hd ht => by rwa [startCluster_cpwr_other id arg hd.symm]

theorem startClusters_station (j k : Fin 8) : StartedStation (s.station (coreOf cl j.val) k).enable (s.station (coreOf cl j.val) k).entry
    ((startClusters id m seed arg ret rep s).station (coreOf cl j.val) k) := by
  have hfresh := resetCores_fresh seed ret rep (mem_maskCores hcl j) k (s.setWires (s.wires.filter fun w => !m.getLsbD (w.core / 8)))
  have hsame {d : Fin 48} (hd : d ≠ cl) (t : State) :
      (startCluster id arg d t).station (coreOf cl j.val) k = t.station (coreOf cl j.val) k :=
    congrArg (fun co : Core => co.stns[k]) ((startCluster_confined (P := (· = d)) rfl id arg t).core_eq fun e =>
      hd (by rw [← e, clusterOf_coreOf]))
  rw [startClusters_eq]
  refine forAll_establishes_under (fun t => FreshStation _ _ (t.station (coreOf cl j.val) k) ∨ StartedStation _ _ (t.station (coreOf cl j.val) k))
    (fun t => StartedStation _ _ (t.station (coreOf cl j.val) k)) _ _ cl _ hcl (.inl hfresh) (fun d t ht => ?_)
    (fun t ht => startCluster_starts id arg cl j k ht) fun d t hd ht => by rwa [hsame hd]
  by_cases hd : d = cl
  · subst hd
    exact .inr (startCluster_starts id arg d j k ht)
  · rwa [hsame hd]

end Start

end Sys2Proof.Machine
end

section
/-! PROOFS. The load of an image, the checks before it, and how launches end (R146, R149, R171, R172, R176). -/
namespace Sys2Proof.Machine
open Sys2Proof

/-! ### The load of an image (R146) -/

theorem writePlace_ls_confined {P : Fin 48 → Prop} {c : Fin 384} (h : P (clusterOf c)) (a : Nat) (bs : List MByte) (s : State) :
    Confined P s (writePlace (.ls c a) bs s) := Confined.modCore h s _

theorem loadCore_confined {P : Fin 48 → Prop} {c : Fin 384} (h : P (clusterOf c)) (x : Section) (bs : List MByte) (s : State) :
    Confined P s (loadCore x bs c s) := by
  unfold loadCore
  split
  · exact Confined.modCore h s _
  · exact Confined.modCore h s _
  · exact Confined.modCore h s _
  · exact Confined.modCore h s _
  · exact writePlace_ls_confined h _ bs s
  · exact .refl P s

theorem loadCore_clusters (x : Section) (bs : List MByte) (c : Fin 384) (s : State) : (loadCore x bs c s).clusters = s.clusters := by
  unfold loadCore
  split <;> rfl

theorem loadSection_confined {P : Fin 48 → Prop} {cl : Fin 48} (h : P cl) (img : List MByte) (x : Section) (s : State) :
    Confined P s (loadSection img cl x s) := by
  unfold loadSection
  dsimp only
  split
  · exact Confined.modCluster h s _
  · split
    · exact Confined.modCluster h s _
    · exact Confined.forAll _ _ (fun j _ v => loadCore_confined (by rwa [clusterOf_coreOf]) x _ v) s

/-- A section goes to the stallkeeper's memories or to cores. -/
theorem loadSection_launch (img : List MByte) (cl : Fin 48) (x : Section) (s : State) :
    ((loadSection img cl x s).cluster cl).launch = (s.cluster cl).launch := by
  unfold loadSection
  dsimp only
  split
  · simp [State.modSk]
  · split
    · simp [State.modSk]
    · exact forAll_leaves (fun t => (t.cluster cl).launch) _ _ _ fun j t =>
        congrArg (fun v : Vector Cluster 48 => v[cl].launch) (loadCore_clusters ..)

/-- The sections of an image in a cluster. -/
def loadSections (img : List MByte) (cl : Fin 48) (s : State) : State :=
  forAll (sectionsOf (plain img)) (loadSection img cl) s

theorem loadImage_eq (img : List MByte) (cl : Fin 48) (s : State) : loadImage img cl s = (loadSections img cl s).modCluster cl fun c =>
    { c with
      handle := BitVec.ofNat 32 (fieldAt (plain img) 0x10 4), entry := BitVec.ofNat 32 (fieldAt (plain img) 0x18 4),
      imgCores := imageCores (sectionsOf (plain img)), loaded := true } := rfl

theorem loadImage_confined {P : Fin 48 → Prop} {cl : Fin 48} (h : P cl) (img : List MByte) (s : State) :
    Confined P s (loadImage img cl s) := by
  rw [loadImage_eq]
  have hsections := Confined.forAll (P := P) (sectionsOf (plain img)) (loadSection img cl) fun x _ v => loadSection_confined h img x v
  exact (hsections s).trans (Confined.modCluster h _ _)

theorem loadImage_cluster (img : List MByte) (cl : Fin 48) (s : State) : ((loadImage img cl s).cluster cl).loaded = true
    ∧ ((loadImage img cl s).cluster cl).handle = BitVec.ofNat 32 (fieldAt (plain img) 0x10 4)
    ∧ ((loadImage img cl s).cluster cl).entry = BitVec.ofNat 32 (fieldAt (plain img) 0x18 4)
    ∧ ((loadImage img cl s).cluster cl).launch = (s.cluster cl).launch := by
  have hlaunch : ((loadSections img cl s).cluster cl).launch = (s.cluster cl).launch :=
    forAll_leaves (fun t => (t.cluster cl).launch) _ _ _ fun x t => loadSection_launch img cl x t
  rw [loadImage_eq, State.modCluster_same]
  exact ⟨rfl, rfl, rfl, hlaunch⟩

/-- An image in every cluster of a mask. -/
theorem loadImages_cluster (img : List MByte) {m : BitVec 48} {cl : Fin 48} (h : cl ∈ maskList m) (s : State) :
    ((forAll (maskList m) (loadImage img) s).cluster cl).loaded = true
      ∧ ((forAll (maskList m) (loadImage img) s).cluster cl).handle = BitVec.ofNat 32 (fieldAt (plain img) 0x10 4)
      ∧ ((forAll (maskList m) (loadImage img) s).cluster cl).entry = BitVec.ofNat 32 (fieldAt (plain img) 0x18 4)
      ∧ ((forAll (maskList m) (loadImage img) s).cluster cl).launch = (s.cluster cl).launch := by
  obtain ⟨u, hu, hall⟩ := forAll_cluster_once _ (maskList_nodup m) (loadImage img) h
    (fun d t hd => (loadImage_confined (P := (· = d)) rfl img t).cluster_eq fun e => hd e.symm) s
  rw [hall, ← hu]
  exact loadImage_cluster img cl u

theorem loadImages_confined (img : List MByte) (m : BitVec 48) (s : State) :
    Confined (· ∈ maskList m) s (forAll (maskList m) (loadImage img) s) :=
  Confined.forAll _ _ (fun _ hcl v => loadImage_confined hcl img v) s

/-! ### The checks of PROGRAM_LOAD and LAUNCH -/

theorem maskBusy_false {s : State} {m : BitVec 48} (h : maskBusy s m = false) {cl : Fin 48} (hcl : cl ∈ maskList m) :
    (s.cluster cl).launch = none := by
  simp only [maskBusy, List.any_eq_false] at h
  simpa using h cl hcl

/-- What a descriptor's first requests leave: the clusters, host memory and what GDDR7 holds. -/
theorem askDesc_accept_frame (r : Fin 256) (c : DescCtx) (k : Nat) (o : TxnOwner) (cls : Nat) (w : Bool) (p : Place) (n : Nat) (s : State) :
    (askDesc r c k (acceptAt o cls w p n) s).clusters = s.clusters ∧ (askDesc r c k (acceptAt o cls w p n) s).host = s.host
      ∧ (askDesc r c k (acceptAt o cls w p n) s).gddr.mem = s.gddr.mem := by
  unfold askDesc
  split
  · exact ⟨rfl, rfl, rfl⟩
  · rw [acceptAt_askOnly o cls w p n (modCtx r c.idx _ s)]
    exact ⟨rfl, rfl, rfl⟩

section Fault
variable {s : State} {w : DescWord}

/-- The bytes of the image that a PROGRAM_LOAD names, as they stand. -/
def imageBytes (s : State) (w : DescWord) : List Byte := plain (readPlace s (placeOf s (dQ w 0x10)) (dW2 w).toNat)

theorem programFault_first {f : Byte × Half}
    (h : worst [maskOut s (bits (dQ w 0x18) 0 48), recordFault s (dQ w 0x10) (dW2 w).toNat 0x10] = some f) : programFault s w = some f := by
  simp only [programFault, h, Option.orElse_some]

variable (h : worst [maskOut s (bits (dQ w 0x18) 0 48), recordFault s (dQ w 0x10) (dW2 w).toNat 0x10] = none)
include h

theorem programFault_image : programFault s w =
    worst [failIf (!imageOk (imageBytes s w) (dW2 w).toNat) stMalformed 0x8000,
      failIf (s.sec.feature.toNat < fieldAt (imageBytes s w) 0x0C 4) stUnsupported 1,
      if imageOk (imageBytes s w) (dW2 w).toNat then
        retiredIn s (bits (dQ w 0x18) 0 48) fun _ => imageCores (sectionsOf (imageBytes s w)) else none] := by
  simp only [programFault, h, Option.orElse_none, imageBytes]
  rfl

theorem programFault_malformed (hi : imageOk (imageBytes s w) (dW2 w).toNat = false) : programFault s w =
    some (if s.sec.feature.toNat < fieldAt (imageBytes s w) 0x0C 4 then (0x31, 1) else (0x30, 0x8000)) := by
  rw [programFault_image h, hi]
  by_cases hl : s.sec.feature.toNat < fieldAt (imageBytes s w) 0x0C 4
  · rw [decide_eq_true hl, if_pos hl]
    rfl
  · rw [decide_eq_false hl, if_neg hl]
    rfl

variable (hi : imageOk (imageBytes s w) (dW2 w).toNat = true)
include hi

theorem programFault_unsupported (hl : s.sec.feature.toNat < fieldAt (imageBytes s w) 0x0C 4) : programFault s w =
    some ((retiredIn s (bits (dQ w 0x18) 0 48) fun _ => imageCores (sectionsOf (imageBytes s w))).getD (0x31, 1)) := by
  rw [programFault_image h, hi, decide_eq_true hl, retiredIn]
  generalize List.any _ _ = b
  cases b <;> rfl

theorem programFault_retired (hl : ¬ s.sec.feature.toNat < fieldAt (imageBytes s w) 0x0C 4) : programFault s w =
    retiredIn s (bits (dQ w 0x18) 0 48) fun _ => imageCores (sectionsOf (imageBytes s w)) := by
  rw [programFault_image h, hi, decide_eq_false hl, retiredIn]
  generalize List.any _ _ = b
  cases b <;> rfl

end Fault

/-! ### The end of launches (R149, R171, R172) -/

theorem skPost_confined {P : Fin 48 → Prop} {cl : Fin 48} (h : P cl) (kind core stn code : Nat) (s : State) :
    Confined P s (skPost cl kind core stn code s) := Confined.modCluster h s _

theorem haltStation_confined {P : Fin 48 → Prop} {c : Fin 384} (h : P (clusterOf c)) (k : Fin 8) (code : Nat) (pc : BitVec 12)
    (detail : Word) (uid : Option Nat) (s : State) : Confined P s (haltStation c k code pc detail uid s) := by
  by_cases hr : (s.station c k).state = .run
  · rw [haltStation_run _ _ _ _ _ _ hr]
    exact (Confined.modCore h s _).trans (skPost_confined h _ _ _ _ _)
  · rw [haltStation_not_run _ _ _ _ _ _ hr]
    exact .refl P s

theorem endCluster_confined {P : Fin 48 → Prop} {cl : Fin 48} (h : P cl) (status : Byte) (s : State) :
    Confined P s (endCluster cl status s) := by
  have hall : Confined P s (haltAll cl s) := Confined.forAll (P := P) _ _ (fun x hx v =>
    haltStation_confined (by rwa [clusterOf_of_mem_stationsOf hx]) x.2 0x0B (v.station x.1 x.2).pc 0 none v) s
  rw [endCluster_eq]
  exact hall.trans (Confined.modCluster h _ _)

theorem endCluster_ending (cl : Fin 48) (status : Byte) (s : State) :
    ((endCluster cl status s).cluster cl).ending = some ((s.cluster cl).ending.getD status) := by
  simp [endCluster_eq, haltAll_ending]

theorem haltCore_watch (k : Fin 8) (code : Nat) (pc : BitVec 12) (detail : Word) (uid : Option Nat) (co : Core) :
    (haltCore k code pc detail uid co).watch = co.watch := by
  rw [haltCore, dropReqs_eq]
  rfl

theorem haltStation_watch (c d : Fin 384) (k : Fin 8) (code : Nat) (pc : BitVec 12) (detail : Word) (uid : Option Nat) (s : State) :
    ((haltStation c k code pc detail uid s).core d).watch = (s.core d).watch := by
  by_cases hd : d = c
  · subst hd
    by_cases hr : (s.station d k).state = .run
    · rw [haltStation_run _ _ _ _ _ _ hr, skPost, State.modCluster_core, State.modCore_same, haltCore_watch]
    · rw [haltStation_not_run _ _ _ _ _ _ hr]
  · rw [haltStation_core_other _ _ _ _ _ _ hd]

theorem endCluster_watch (cl : Fin 48) (status : Byte) (d : Fin 384) (s : State) :
    ((endCluster cl status s).core d).watch = (s.core d).watch := by
  rw [endCluster_eq, State.modCluster_core]
  exact forAll_leaves (fun t => (t.core d).watch) _ _ _ fun x t => haltStation_watch x.1 d x.2 0x0B (t.station x.1 x.2).pc 0 none t

/-- A cluster of a launch that VK1 replay stops (R176). -/
def stopCluster (l : Launch) (cl : Fin 48) (t : State) : State :=
  if (t.cluster cl).launch = some l.id then
    (endCluster cl 0x40 t).modCluster cl fun c => { c with ending := c.ending.map recipeStatus }
  else t

theorem stopLaunch_eq (l : Launch) (s : State) : stopLaunch l s =
    setLaunch { l with phase := 1, ended := l.ended.map fun x => (x.1, recipeStatus x.2) } (forAll (maskList l.mask) (stopCluster l) s) := rfl

theorem stopCluster_confined {P : Fin 48 → Prop} {cl : Fin 48} (h : P cl) (l : Launch) (s : State) : Confined P s (stopCluster l cl s) := by
  unfold stopCluster
  split
  · exact (endCluster_confined h _ s).trans (Confined.modCluster h _ _)
  · exact .refl P s

theorem stopCluster_watch (l : Launch) (cl : Fin 48) (d : Fin 384) (s : State) : ((stopCluster l cl s).core d).watch = (s.core d).watch := by
  unfold stopCluster
  split
  · rw [State.modCluster_core, endCluster_watch]
  · rfl

theorem stopCluster_cluster {l : Launch} {cl : Fin 48} {s : State} (h : (s.cluster cl).launch = some l.id) :
    ((stopCluster l cl s).sk cl).st = .stopped
      ∧ ((stopCluster l cl s).cluster cl).ending = some (recipeStatus ((s.cluster cl).ending.getD 0x40)) := by
  rw [stopCluster, if_pos h, State.sk, State.modCluster_same, endCluster_ending]
  refine ⟨?_, rfl⟩
  simp [endCluster_eq]

theorem stopLaunch_cluster {l : Launch} {cl : Fin 48} (hcl : cl ∈ maskList l.mask) {s : State} (h : (s.cluster cl).launch = some l.id) :
    ((stopLaunch l s).sk cl).st = .stopped
      ∧ ((stopLaunch l s).cluster cl).ending = some (recipeStatus ((s.cluster cl).ending.getD 0x40)) := by
  obtain ⟨u, hu, hall⟩ := forAll_cluster_once _ (maskList_nodup l.mask) (stopCluster l) hcl
    (fun d t hd => (stopCluster_confined (P := (· = d)) rfl l t).cluster_eq fun e => hd e.symm) s
  obtain ⟨hst, hend⟩ := stopCluster_cluster (l := l) (s := u) (cl := cl) (by rw [hu, h])
  have heq : (stopLaunch l s).cluster cl = (stopCluster l cl u).cluster cl := hall
  rw [State.sk, heq, ← hu]
  exact ⟨hst, hend⟩

/-- Every core of a mask refuses a replay. -/
theorem refuseReplay_refused {m : BitVec 48} {c : Fin 384} (h : c ∈ maskCores m) (s : State) :
    ((refuseReplay m s).core c).watch.refused = true := by
  obtain ⟨cl, hcl, hc⟩ := List.mem_flatMap.1 h
  obtain ⟨j, hj, rfl⟩ := List.mem_map.1 hc
  have hkeep : ∀ d (t : State), (t.core (coreOf cl j)).watch.refused = true →
      ((t.modCore d fun co => { co with watch := { co.watch with refused := true } }).core (coreOf cl j)).watch.refused = true := by
    intro d t ht
    by_cases hd : d = coreOf cl j
    · rw [← hd, State.modCore_same]
    · rwa [State.modCore_other _ _ _ _ hd]
  refine forAll_establishes (fun t => (t.core (coreOf cl j)).watch.refused = true) _ _ cl s hcl (fun t => ?_) fun d t _ ht => ?_
  · exact forAll_establishes (fun t => (t.core (coreOf cl j)).watch.refused = true) _ _ j t hj
      (fun u => by rw [State.modCore_same]) fun i u _ hu => hkeep (coreOf cl i) u hu
  · exact forAll_keeps (fun t => (t.core (coreOf cl j)).watch.refused = true) _ _ t (fun i _ u hu => hkeep (coreOf d i) u hu) ht

theorem refuseReplay_clusters (m : BitVec 48) (s : State) : (refuseReplay m s).clusters = s.clusters :=
  forAll_leaves State.clusters _ _ _ fun _ _ => forAll_leaves State.clusters _ _ _ fun _ _ => rfl

theorem refuseReplay_launches (m : BitVec 48) (s : State) : (refuseReplay m s).launches = s.launches :=
  forAll_leaves State.launches _ _ _ fun _ _ => forAll_leaves State.launches _ _ _ fun _ _ => rfl

theorem stopLaunch_launches (l : Launch) (s : State) : (stopLaunch l s).launches = s.launches.map fun y =>
    if y.id = l.id then { l with phase := 1, ended := l.ended.map fun x => (x.1, recipeStatus x.2) } else y := by
  have hall : (forAll (maskList l.mask) (stopCluster l) s).launches = s.launches :=
    forAll_leaves State.launches _ _ _ fun cl t => (stopCluster_confined (P := (· = cl)) rfl l t).launches_eq
  rw [stopLaunch_eq, setLaunch, State.setLaunches_launches, hall]

/-! ### TIMEOUT (R149) -/

/-- ABORT to a cluster that still runs a launch. -/
def abortCluster (l : Launch) (cl : Fin 48) (t : State) : State :=
  if (t.cluster cl).launch = some l.id && (t.cluster cl).ending.isNone then skPost cl 7 0 0 0 t else t

theorem abortLaunch_eq (l : Launch) (s : State) : abortLaunch l s = forAll (maskList l.mask) (abortCluster l) s := rfl

theorem abortCluster_same (l : Launch) (cl : Fin 48) (t : State) :
    (abortCluster l cl t).launches = t.launches ∧ (abortCluster l cl t).cores = t.cores
      ∧ ∀ d, d ≠ cl → (abortCluster l cl t).cluster d = t.cluster d := by
  unfold abortCluster
  split
  · exact ⟨rfl, rfl, fun d hd => skPost_cluster_other hd ..⟩
  · exact ⟨rfl, rfl, fun _ _ => rfl⟩

theorem abortLaunch_same (l : Launch) (s : State) : (abortLaunch l s).launches = s.launches ∧ (abortLaunch l s).cores = s.cores := by
  rw [abortLaunch_eq]
  exact ⟨forAll_leaves State.launches _ _ _ fun cl t => (abortCluster_same l cl t).1,
    forAll_leaves State.cores _ _ _ fun cl t => (abortCluster_same l cl t).2.1⟩

theorem abortLaunch_events {l : Launch} {cl : Fin 48} (hcl : cl ∈ maskList l.mask) {s : State} (h : (s.cluster cl).launch = some l.id)
    (he : (s.cluster cl).ending = none) : ((abortLaunch l s).sk cl).events = (s.sk cl).events ++ [7] := by
  obtain ⟨u, hu, hall⟩ := forAll_cluster_once _ (maskList_nodup l.mask) (abortCluster l) hcl
    (fun d t hd => (abortCluster_same l d t).2.2 cl hd.symm) s
  have hpost : abortCluster l cl u = skPost cl 7 0 0 0 u := if_pos (by simp [hu, h, he])
  rw [abortLaunch_eq, State.sk, hall, hpost, State.sk, ← hu]
  exact skPost_events cl 7 0 0 0 u

/-! ### What a launch answers (R172, R266) -/

/-- The highest status of the clusters that have ended, TIMEOUT's among them. -/
def highStatus (l : Launch) : Byte :=
  l.ended.foldl (fun (a : Byte) x => if a < x.2 then x.2 else a) (if l.abortAt.isSome then stTimeout else stOk)

theorem le_foldl_max (xs : List (Nat × Byte)) (a : Byte) : a ≤ xs.foldl (fun (a : Byte) x => if a < x.2 then x.2 else a) a
    ∧ ∀ e ∈ xs, e.2 ≤ xs.foldl (fun (a : Byte) x => if a < x.2 then x.2 else a) a := by
  induction xs generalizing a with
  | nil => exact ⟨BitVec.le_refl a, fun e he => absurd he List.not_mem_nil⟩
  | cons x xs ih =>
    have hstep : a ≤ (if a < x.2 then x.2 else a) ∧ x.2 ≤ (if a < x.2 then x.2 else a) := by
      split <;> constructor <;> bv_omega
    obtain ⟨hfirst, hrest⟩ := ih (if a < x.2 then x.2 else a)
    rw [List.foldl_cons]
    refine ⟨BitVec.le_trans hstep.1 hfirst, fun e he => ?_⟩
    obtain rfl | he := List.mem_cons.1 he
    · exact BitVec.le_trans hstep.2 hfirst
    · exact hrest e he

theorem launchResult_status (l : Launch) :
    (launchResult l).1 = if l.recipe.isSome && highStatus l < stRecipe then stRecipe else highStatus l := rfl

theorem highStatus_le (l : Launch) : highStatus l ≤ (launchResult l).1 := by
  rw [launchResult_status]
  split
  · rename_i h
    simp only [Bool.and_eq_true, decide_eq_true_eq] at h
    exact BitVec.le_of_lt h.2
  · exact BitVec.le_refl _

theorem launchResult_clean {l : Launch} (ha : l.abortAt = none) (hr : l.recipe = none) (he : ∀ e ∈ l.ended, e.2 = 0x00)
    (hf : l.failed = none) : launchResult l = (0x00, 0, 0) := by
  have hhigh : ∀ xs : List (Nat × Byte), (∀ e ∈ xs, e.2 = 0x00) →
      xs.foldl (fun (a : Byte) x => if a < x.2 then x.2 else a) stOk = stOk := by
    intro xs hxs
    induction xs with
    | nil => rfl
    | cons x xs ih =>
      rw [List.foldl_cons, hxs x List.mem_cons_self]
      exact ih fun e he => hxs e (List.mem_cons_of_mem _ he)
  have hmask : ∀ xs : List (Nat × Byte), (∀ e ∈ xs, e.2 = 0x00) →
      xs.foldl (fun (a : Nat) x => if x.2 = stOk then a else a + 2 ^ x.1) 0 = 0 := by
    intro xs hxs
    induction xs with
    | nil => rfl
    | cons x xs ih =>
      rw [List.foldl_cons, hxs x List.mem_cons_self]
      exact ih fun e he => hxs e (List.mem_cons_of_mem _ he)
  simp only [launchResult, ha, hr, hf, Option.isSome_none, Bool.false_eq_true, if_false, hhigh _ he, hmask _ he, Bool.false_and]
  rfl

end Sys2Proof.Machine
end

section
/-! PROOFS. Program loads, launches, their ends and VK1 replay (R146, R148, R149, R176, R177). -/
namespace Sys2Proof.Machine
open Sys2Proof

/-! ### PROGRAM_LOAD (R146) -/

theorem readStatus_eq (k : Nat) : readStatus k = (if k = 0 then stOk else stUncorrected, BitVec.ofNat 16 (min k 0xFFFF)) := by
  unfold readStatus
  split
  · subst k
    rfl
  · rfl

section Load
variable {s : State} {r : Fin 256} {n : Nat}

theorem programLoad_none (h : descAt s r n 0x20 = none) : exec (.programLoad r n) s = .next s := by
  show execProgramLoad r n s = _
  simp only [execProgramLoad, h]

/-- The state in which a PROGRAM_LOAD has presented its reads. -/
def loadAsked (r : Fin 256) (c : DescCtx) (s : State) : State :=
  askDesc r c 0 (acceptAt (.desc r c.idx) 2 false (placeOf s (dQ c.word 0x10)) (dW2 c.word).toNat) s

variable {c : DescCtx} (h : descAt s r n 0x20 = some c)
include h

theorem programLoad_busy (hb : maskBusy s (bits (dQ c.word 0x18) 0 48) = true) : exec (.programLoad r n) s = .next s := by
  show execProgramLoad r n s = _
  simp only [execProgramLoad, h, hb, if_true]

variable (hb : maskBusy s (bits (dQ c.word 0x18) 0 48) = false)
include hb

theorem programLoad_fault {f : Byte × Half} (hf : programFault s c.word = some f) :
    exec (.programLoad r n) s = .next (finishDesc r c.idx f.1 f.2 0 s) := by
  show execProgramLoad r n s = _
  simp only [execProgramLoad, h, hb, hf, Bool.false_eq_true, if_false]

variable (hf : programFault s c.word = none)
include hf

theorem programLoad_waits (ha : asking (loadAsked r c s) (.desc r c.idx) = true) : exec (.programLoad r n) s = .next (loadAsked r c s) := by
  show execProgramLoad r n s = _
  simp only [execProgramLoad, h, hb, hf, Bool.false_eq_true, if_false]
  exact congrArg Host.Outcome.next (if_pos ha)

theorem programLoad_loads (ha : asking (loadAsked r c s) (.desc r c.idx) = false) :
    (let p := placeOf s (dQ c.word 0x10)
    let img := readPlace (loadAsked r c s) p (dW2 c.word).toNat
    let y := readStatus (markedSectors p.off img)
    exec (.programLoad r n) s = .next (finishDesc r c.idx y.1 y.2 0
      (forAll (maskList (bits (dQ c.word 0x18) 0 48)) (loadImage img) (loadAsked r c s)))) := by
  show execProgramLoad r n s = _
  simp only [execProgramLoad, h, hb, hf, Bool.false_eq_true, if_false]
  rw [readStatus_eq]
  exact congrArg Host.Outcome.next (if_neg (Bool.eq_false_iff.1 ha))

end Load

/-! ### LAUNCH (R148) -/

section Launch
variable {s : State} {r : Fin 256} {n : Nat}

theorem launchDesc_none (h : descAt s r n 0x21 = none) : exec (.launchDesc r n) s = .next s := by
  show execLaunchDesc r n s = _
  simp only [execLaunchDesc, h]

/-- Why a LAUNCH is refused. -/
def launchFault (s : State) (w : DescWord) : Option (Byte × Half) :=
  let m : BitVec 48 := bits (dQ w 0x10) 0 48
  worst [maskOut s m, retiredIn s m fun cl => (s.cluster cl).imgCores,
    failIf ((maskList m).any fun cl => !(s.cluster cl).loaded || (s.cluster cl).handle ≠ dW2 w) 0x30 8,
    failIf (!pairsOk s m) 0x30 0x8000]

/-- The launch that a LAUNCH starts. -/
def launchOfDesc (s : State) (r : Fin 256) (c : DescCtx) : Launch :=
  { id := c.order, ring := r, idx := c.idx, handle := dW2 c.word, mask := bits (dQ c.word 0x10) 0 48, seed := dQ c.word 0x18, arg := dW3 c.word,
    timeout := bits (dQ c.word 0x20) 0 16, start := s.ns, ended := [], recipe := none, phase := 0, abortAt := none,
    retaining := retains s (bits (dQ c.word 0x10) 0 48), replayed := false, exposed := false, failed := none }

variable {c : DescCtx} (h : descAt s r n 0x21 = some c)
include h

theorem launchDesc_waits (hb : maskBusy s (bits (dQ c.word 0x10) 0 48) = true ∨ launchWaits s c.order (bits (dQ c.word 0x10) 0 48) = true) :
    exec (.launchDesc r n) s = .next s := by
  show execLaunchDesc r n s = _
  simp only [execLaunchDesc, h]
  exact if_pos (by simpa using hb)

variable (hb : maskBusy s (bits (dQ c.word 0x10) 0 48) = false) (hw : launchWaits s c.order (bits (dQ c.word 0x10) 0 48) = false)
include hb hw

theorem launchDesc_fault {f : Byte × Half} (hf : launchFault s c.word = some f) :
    exec (.launchDesc r n) s = .next (finishDesc r c.idx f.1 f.2 0 s) := by
  unfold launchFault at hf
  show execLaunchDesc r n s = _
  simp only [execLaunchDesc, h, hb, hw, Bool.or_self, Bool.false_eq_true, if_false, stMalformed, hf]

theorem launchDesc_starts (hf : launchFault s c.word = none) :
    (let l := launchOfDesc s r c
    exec (.launchDesc r n) s = .next (startClusters c.order l.mask l.seed l.arg l.retaining false
      (issueDesc r c.idx stOk 0 0 (s.setLaunches (s.launches ++ [l]))))) := by
  unfold launchFault at hf
  show execLaunchDesc r n s = _
  simp only [execLaunchDesc, h, hb, hw, Bool.or_self, Bool.false_eq_true, if_false, stMalformed, hf]
  rfl

end Launch

theorem Cluster.launched_reg (id : Nat) (arg : Word) (cl : Fin 48) (cu : Cluster) :
    (cu.launched id arg cl).sk.reg 1 = BitVec.ofNat 32 cl.val ∧ (cu.launched id arg cl).sk.reg 2 = arg := by
  simp [Cluster.launched, Stallkeeper.reg]

theorem Cluster.launched_gen (id : Nat) (arg : Word) (cl : Fin 48) (cu : Cluster) {x : CrierChan} (h : x ∈ (cu.launched id arg cl).crier) :
    x.gen = 0 := by
  obtain ⟨y, -, rfl⟩ := Vector.mem_map.1 h
  rfl

theorem retains_iff (s : State) (m : BitVec 48) : retains s m = true ↔ ∀ k ∈ maskCores m, (s.core k).watch.action = 2 := by
  simp [retains]

theorem launchResult_aborted {l : Launch} (h : l.abortAt ≠ none) : 0x12 ≤ (launchResult l).1 := by
  have hhigh : stTimeout ≤ highStatus l := by
    unfold highStatus
    rw [if_pos (Option.isSome_iff_ne_none.2 h)]
    exact (le_foldl_max l.ended stTimeout).1
  exact BitVec.le_trans hhigh (highStatus_le l)

theorem launchResult_recipe {l : Launch} (h : l.recipe ≠ none) : 0x40 ≤ (launchResult l).1 := by
  rw [launchResult_status, Option.isSome_iff_ne_none.2 h, Bool.true_and]
  split
  · exact BitVec.le_refl _
  · rename_i hlow
    exact BitVec.not_lt.1 fun hlt => hlow (decide_eq_true hlt)

/-- A cluster that a launch has just started (R148). -/
theorem startClusters_starts (id : Nat) {m : BitVec 48} (seed : Dword) (arg : Word) (ret rep : Bool) (s : State) {cl : Fin 48}
    (hcl : cl ∈ maskList m) :
    (let t := startClusters id m seed arg ret rep s
    (t.cluster cl).launch = some id ∧ (t.cluster cl).ending = none ∧ (t.sk cl).st = .run ∧ (t.sk cl).pc = (s.cluster cl).entry
      ∧ (t.sk cl).events = [] ∧ (t.sk cl).reg 1 = BitVec.ofNat 32 cl.val ∧ (t.sk cl).reg 2 = arg
      ∧ ∀ x ∈ (t.cluster cl).crier, x.gen = 0) := by
  obtain ⟨cu, hentry, hcu⟩ := startClusters_cluster id seed arg ret rep s hcl
  obtain ⟨hreg1, hreg2⟩ := Cluster.launched_reg id arg cl cu
  dsimp only [State.sk]
  rw [hcu, ← hentry]
  exact ⟨rfl, rfl, rfl, rfl, rfl, hreg1, hreg2, fun x => Cluster.launched_gen id arg cl cu⟩

/-! ### The ends of launches (R149, R176) -/

theorem launch_absent {s : State} {l : Nat} (h : s.launches[l]? = none) (cl : Fin 48) : exec (.launchTimeout l) s = .next s
    ∧ exec (.launchForcedEnd l cl) s = .next s ∧ exec (.launchComplete l) s = .next s ∧ exec (.vk1Replay l) s = .next s := by
  refine ⟨?_, ?_, ?_, ?_⟩
  · show execLaunchTimeout l s = _
    simp only [execLaunchTimeout, h]
  · show execLaunchForcedEnd l cl s = _
    simp only [execLaunchForcedEnd, h]
  · show execLaunchComplete l s = _
    simp only [execLaunchComplete, h]
  · show execVk1Replay l s = _
    simp only [execVk1Replay, h]

/-- A state whose retained records have their scales recomputed. -/
def rescaleAll (m : BitVec 48) (s : State) : State :=
  forAll (maskCores m) (fun c t => t.modCore c fun co => co.watch.retained.foldl (fun co y => rescale y co) co) s

section Ends
variable {s : State} {l : Nat} {x : Launch} (h : s.launches[l]? = some x)
include h

theorem launchTimeout_eq : exec (.launchTimeout l) s =
    if x.timeout = 0 ∨ x.abortAt ≠ none ∨ s.ns < x.start + 1000000 * x.timeout.toNat then .next s
    else .next (abortLaunch x (setLaunch { x with abortAt := some s.ns } s)) := by
  show execLaunchTimeout l s = _
  simp only [execLaunchTimeout, h, Bool.or_eq_true, decide_eq_true_eq, Option.isSome_iff_ne_none, or_assoc]

theorem launchForcedEnd_eq {t : Nat} (ht : x.abortAt = some t) (cl : Fin 48) : exec (.launchForcedEnd l cl) s =
    if t + 1000000 ≤ s.ns ∧ (s.cluster cl).launch = some x.id ∧ (s.cluster cl).ending = none then .next (endCluster cl 0x12 s)
    else .next s := by
  show execLaunchForcedEnd l cl s = _
  simp only [execLaunchForcedEnd, h, ht, Bool.and_eq_true, decide_eq_true_eq, Option.isNone_iff_eq_none, and_assoc]
  rfl

theorem launchForcedEnd_unaborted (ht : x.abortAt = none) (cl : Fin 48) : exec (.launchForcedEnd l cl) s = .next s := by
  show execLaunchForcedEnd l cl s = _
  simp only [execLaunchForcedEnd, h, ht]

theorem launchComplete_eq : exec (.launchComplete l) s = if ∀ cl ∈ maskList x.mask, ∃ e ∈ x.ended, e.1 = cl.val then
      .next (finishDesc x.ring x.idx (launchResult x).1 (launchResult x).2.1 (launchResult x).2.2
        (s.setLaunches (s.launches.eraseIdx l)))
    else .next s := by
  show execLaunchComplete l s = _
  simp only [execLaunchComplete, h, List.all_eq_true, List.any_eq_true, decide_eq_true_eq]

theorem vk1Replay_waits (hw : x.phase ≠ 2 ∨ ∃ cl ∈ maskList x.mask, drained s cl = false) : exec (.vk1Replay l) s = .next s := by
  show execVk1Replay l s = _
  simp only [execVk1Replay, h]
  exact if_pos (by simpa using hw)

variable (hp : x.phase = 2) (hd : ∀ cl ∈ maskList x.mask, drained s cl = true)
include hp hd

theorem vk1Replay_replays (hr : mayReplay s x = true) : exec (.vk1Replay l) s =
    .next (replayedEvent x (startClusters x.id x.mask x.seed x.arg false true
      (setLaunch { x with phase := 0, ended := [], recipe := none, retaining := false, replayed := true } (rescaleAll x.mask s)))) := by
  show execVk1Replay l s = _
  simp only [execVk1Replay, h]
  exact (if_neg (by simpa [hp] using hd)).trans (if_pos hr)

theorem vk1Replay_stops (hr : mayReplay s x = false) : exec (.vk1Replay l) s = .next (stopLaunch x (refuseReplay x.mask s)) := by
  show execVk1Replay l s = _
  simp only [execVk1Replay, h]
  exact (if_neg (by simpa [hp] using hd)).trans (if_neg (Bool.eq_false_iff.1 hr))

end Ends

section ClusterEnd
variable {s : State} {cl : Fin 48}

theorem clusterLaunchEnd_waits (h : (s.cluster cl).ending = none ∨ launchOf s cl = none ∨ drained s cl = false
    ∨ (∃ l, launchOf s cl = some l ∧ l.phase = 2)) : exec (.clusterLaunchEnd cl) s = .next s := by
  show execClusterLaunchEnd cl s = _
  unfold execClusterLaunchEnd
  split
  · rename_i x l hx hl
    refine if_pos ?_
    obtain h | h | h | ⟨l', h, hp⟩ := h
    · exact nomatch hx.symm.trans h
    · exact nomatch hl.symm.trans h
    · simp [h]
    · cases hl.symm.trans h
      simp [hp]
  · rfl

/-- The status with which a cluster ends (R171). -/
theorem clusterStatus_eq (x : Byte) : clusterStatus s cl x =
    if (x = 0x00 ∨ x = 0x01) ∧ ∃ j : Fin 8, (s.core (coreOf cl j.val)).watch.trigCnt ≠ 0 then 0x40 else x := by
  have htrig : triggered s cl = true ↔ ∃ j : Fin 8, (s.core (coreOf cl j.val)).watch.trigCnt ≠ 0 := by
    simp [triggered, Fin.exists_iff]
  have hgood : goodStatus x = true ↔ x = 0x00 ∨ x = 0x01 := by
    simp only [goodStatus, Bool.or_eq_true, decide_eq_true_eq]
    rfl
  simp only [clusterStatus, Bool.and_eq_true, htrig, hgood]
  rfl

theorem clusterLaunchEnd_ends {x : Byte} {l : Launch} (hx : (s.cluster cl).ending = some x) (hl : launchOf s cl = some l) (hp : l.phase ≠ 2)
    (hd : drained s cl = true) : exec (.clusterLaunchEnd cl) s =
      (let t := s.modCluster cl fun c => { c with launch := none, ending := none }
      .next (rearm (setLaunch { l with ended := l.ended ++ [(cl.val, clusterStatus s cl x)] }
        (t.setCpwr cl { t.cpwr cl with idleSince := s.ns })))) := by
  show execClusterLaunchEnd cl s = _
  unfold execClusterLaunchEnd
  rw [hx, hl]
  exact if_neg (by simp [hp, hd])

end ClusterEnd

theorem replayedEvent_same (x : Launch) (s : State) :
    (replayedEvent x s).launches = s.launches ∧ (replayedEvent x s).clusters = s.clusters := by
  have h : EventOnly s (replayedEvent x s) := postEvent_eventOnly ..
  rw [h]
  exact ⟨rfl, rfl⟩

theorem rescaleAll_same (m : BitVec 48) (s : State) : (rescaleAll m s).launches = s.launches ∧ (rescaleAll m s).clusters = s.clusters :=
  ⟨forAll_leaves State.launches _ _ _ fun _ _ => rfl, forAll_leaves State.clusters _ _ _ fun _ _ => rfl⟩

theorem stopLaunch_watch (l : Launch) (d : Fin 384) (s : State) : ((stopLaunch l s).core d).watch = (s.core d).watch := by
  rw [stopLaunch_eq]
  exact forAll_leaves (fun t => (t.core d).watch) _ _ _ fun cl t => stopCluster_watch l cl d t

/-- Settles O33: a mask's clusters are loaded, started and ended one by one, each apart from the others. -/
theorem programsAndLaunches : Obligations.ProgramsAndLaunches := by
  refine ⟨fun s r n c => ⟨programLoad_none, launchDesc_none, fun h => ⟨programLoad_busy h, fun hb => ⟨fun f hf => programLoad_fault h hb hf,
      fun f hf => programFault_first hf, fun hf hi => ?_, fun hf hi hl => ?_, fun hf hi hl => ?_, programLoad_waits h hb, fun hf ha => ?_⟩⟩,
      fun h => ⟨launchDesc_waits h, fun f hb hw hf => launchDesc_fault h hb hw hf, fun hb hw hf => ?_⟩⟩,
    fun s => ⟨fun l cl h => launch_absent h cl, fun l x h hx => ?_, fun l cl x h hx => ?_, fun cl h => clusterLaunchEnd_waits h, fun l x h hx => ?_,
      fun l x h hx => vk1Replay_waits h hx, fun l x h ht ha hs => ?_, fun l cl x t h ha hs hl he => ?_, fun cl x l hx hl hp hd => ?_,
      fun l x h hx => ?_, fun x => ?_, fun l x h hp hd => ⟨fun hr => ?_, fun hr => ?_⟩⟩⟩
  · rw [programFault_malformed hf hi]
    simp only [decide_eq_true_eq]
    rfl
  · exact programFault_unsupported hf hi (of_decide_eq_true hl)
  · exact programFault_retired hf hi (of_decide_eq_false hl)
  · obtain ⟨hclusters, hhost, hmem⟩ := askDesc_accept_frame r c 0 (.desc r c.idx) 2 false (placeOf s (dQ c.word 0x10)) (dW2 c.word).toNat s
    have hcl (cl : Fin 48) : (loadAsked r c s).cluster cl = s.cluster cl := congrArg (fun v : Vector Cluster 48 => v[cl]) hclusters
    obtain ⟨hout, hcore, hgddr, hhost', -⟩ := loadImages_confined
      (readPlace (loadAsked r c s) (placeOf s (dQ c.word 0x10)) (dW2 c.word).toNat) (bits (dQ c.word 0x18) 0 48) (loadAsked r c s)
    refine ⟨_, _, programLoad_loads h hb hf ha, rfl, fun cl hm => ?_, fun cl hm => (hout cl hm).trans (hcl cl), hcore, hhost'.trans hhost,
      (congrArg Gddr.mem hgddr).trans hmem⟩
    obtain ⟨hloaded, hhandle, hentry, hlaunch⟩ := loadImages_cluster
      (readPlace (loadAsked r c s) (placeOf s (dQ c.word 0x10)) (dW2 c.word).toNat) hm (loadAsked r c s)
    exact ⟨hloaded, hhandle, hentry, hlaunch.trans ((congrArg Cluster.launch (hcl cl)).trans (maskBusy_false hb hm))⟩
  · obtain ⟨hout, hcore, hgddr, hhost, hlaunches⟩ := startClusters_confined c.order (bits (dQ c.word 0x10) 0 48) (dQ c.word 0x18)
      (dW3 c.word) (launchOfDesc s r c).retaining false (issueDesc r c.idx stOk 0 0 (s.setLaunches (s.launches ++ [launchOfDesc s r c])))
    refine ⟨_, launchOfDesc s r c, launchDesc_starts h hb hw hf, hlaunches, rfl, rfl, rfl, rfl, rfl, rfl, rfl, rfl, rfl, rfl,
      retains_iff s _, fun cl hm => ?_, hout, hcore, hgddr, hhost⟩
    obtain ⟨hl, hend, hst, hpc, hev, hreg1, hreg2, hgen⟩ := startClusters_starts c.order (dQ c.word 0x18) (dW3 c.word)
      (launchOfDesc s r c).retaining false (issueDesc r c.idx stOk 0 0 (s.setLaunches (s.launches ++ [launchOfDesc s r c]))) hm
    refine ⟨hl, hend, hst, hpc, hev, hreg1, hreg2, startClusters_mode _ _ _ _ _ _ hm, hgen, fun j k => ?_⟩
    obtain ⟨hregs, hflags, hfl, hrun, hidle, -⟩ := startClusters_station c.order (dQ c.word 0x18) (dW3 c.word)
      (launchOfDesc s r c).retaining false (issueDesc r c.idx stOk 0 0 (s.setLaunches (s.launches ++ [launchOfDesc s r c]))) hm j k
    exact ⟨hregs, hflags, hfl, hrun, hidle⟩
  · exact (launchTimeout_eq h).trans (if_pos hx)
  · cases ha : x.abortAt with
    | none => exact launchForcedEnd_unaborted h ha cl
    | some t =>
      refine (launchForcedEnd_eq h ha cl).trans (if_neg fun ⟨ht, hl, he⟩ => ?_)
      obtain hx | ⟨t', hx, hlt⟩ | hx | hx := hx
      · exact nomatch ha.symm.trans hx
      · cases ha.symm.trans hx
        omega
      · exact hx hl
      · exact hx he
  · refine (launchComplete_eq h).trans (if_neg fun hall => ?_)
    obtain ⟨cl, hcl, hno⟩ := hx
    obtain ⟨e, he, heq⟩ := hall cl hcl
    exact hno e he heq
  · have hgo : ¬ (x.timeout = 0 ∨ x.abortAt ≠ none ∨ s.ns < x.start + 1000000 * x.timeout.toNat) := by
      rintro (h0 | h0 | h0)
      · exact ht h0
      · exact h0 ha
      · omega
    obtain ⟨hlaunches, hcores⟩ := abortLaunch_same x (setLaunch { x with abortAt := some s.ns } s)
    exact ⟨_, (launchTimeout_eq h).trans (if_neg hgo), hlaunches, fun cl hcl hl he => abortLaunch_events hcl hl he, hcores⟩
  · exact (launchForcedEnd_eq h ha cl).trans (if_pos ⟨hs, hl, he⟩)
  · refine ⟨_, clusterLaunchEnd_ends hx hl hp hd, ?_, ?_, ?_, rfl, ?_⟩
    · show ((s.modCluster cl fun c => { c with launch := none, ending := none }).cluster cl).launch = none
      rw [State.modCluster_same]
    · show ((s.modCluster cl fun c => { c with launch := none, ending := none }).cluster cl).ending = none
      rw [State.modCluster_same]
    · exact congrArg ClusterPower.idleSince (State.setCpwr_cpwr ..)
    · rw [clusterStatus_eq]
      rfl
  · exact (launchComplete_eq h).trans (if_pos hx)
  · refine ⟨fun e he => ?_, launchResult_aborted, launchResult_recipe, launchResult_clean⟩
    obtain ⟨-, hmax⟩ := le_foldl_max x.ended (if x.abortAt.isSome then stTimeout else stOk)
    exact BitVec.le_trans (hmax e he) (highStatus_le x)
  · obtain ⟨hlaunches, hclusters⟩ := replayedEvent_same x (startClusters x.id x.mask x.seed x.arg false true
      (setLaunch { x with phase := 0, ended := [], recipe := none, retaining := false, replayed := true } (rescaleAll x.mask s)))
    refine ⟨_, vk1Replay_replays h hp hd hr, ?_, fun cl hcl => ?_⟩
    · rw [hlaunches, (startClusters_confined ..).launches_eq, setLaunch, State.setLaunches_launches, (rescaleAll_same x.mask s).1]
    · obtain ⟨hl, hend, hst, hpc, -, -, hreg2, -⟩ := startClusters_starts x.id x.seed x.arg false true
        (setLaunch { x with phase := 0, ended := [], recipe := none, retaining := false, replayed := true } (rescaleAll x.mask s)) hcl
      have hentry : ((rescaleAll x.mask s).cluster cl).entry = (s.cluster cl).entry :=
        congrArg (fun v : Vector Cluster 48 => v[cl].entry) (rescaleAll_same x.mask s).2
      have hcluster := congrArg (fun v : Vector Cluster 48 => v[cl]) hclusters
      have hsk := congrArg (fun v : Vector Cluster 48 => v[cl].sk) hclusters
      refine ⟨(congrArg Cluster.launch hcluster).trans hl, (congrArg Stallkeeper.st hsk).trans hst,
        (congrArg Stallkeeper.pc hsk).trans (hpc.trans hentry), (congrArg (fun k => k.reg 2) hsk).trans hreg2,
        (congrArg Cluster.ending hcluster).trans hend⟩
  · have hcl (cl : Fin 48) : (refuseReplay x.mask s).cluster cl = s.cluster cl :=
      congrArg (fun v : Vector Cluster 48 => v[cl]) (refuseReplay_clusters x.mask s)
    refine ⟨_, vk1Replay_stops h hp hd hr, ?_, fun cl hm hl => ?_, fun k hk => ?_, fun y => rfl⟩
    · rw [stopLaunch_launches, refuseReplay_launches]
    · rw [← hcl cl] at hl ⊢
      exact stopLaunch_cluster hm hl
    · rw [stopLaunch_watch]
      exact refuseReplay_refused hk s

end Sys2Proof.Machine
end

section
/-! PROOFS. The porter: commands that start, and the transfers of the running ones (R125, R150 to R153, R224, R225). -/
namespace Sys2Proof.Machine
open Sys2Proof

/-! ### The start of a command (R150, R151, R153) -/

/-- Whether a command cannot run: its OP is undefined, or its token's queue is not the porter's. -/
def cannotRun (s : State) (p : PorterCmd) : Bool := p.xfer.isNone && (!pKnown p.word || (pToken p.word && !tokenBound s p.word))

/-- A command that has taken a tag. -/
def startedRun (s : State) (cl : Fin 48) (q : Fin 4) (p : PorterCmd) : PorterRun :=
  { id := (s.cluster cl).pCount + 1, cmd := p, q := q, txns := 0, moved := cannotRun s p,
    code := if cannotRun s p then some (stMalformed.setWidth 16) else none, stage := [], staged := false, marked := false, asked := 0,
    seen := [], began := false }

/-- A cluster whose porter has taken the head of a queue. -/
def Cluster.dequeued (q : Fin 4) (rest : List PorterCmd) (r : PorterRun) (cu : Cluster) : Cluster :=
  { cu with pq := cu.pq.set q rest, pNext := q + 1, pCount := cu.pCount + 1, pLast := cu.pLast.set q (cu.pCount + 1), prun := cu.prun ++ [r] }

theorem Cluster.dequeued_pq (q q' : Fin 4) (rest : List PorterCmd) (r : PorterRun) (cu : Cluster) :
    (cu.dequeued q rest r).pq[q'] = if q' = q then rest else cu.pq[q'] := by
  simp [Cluster.dequeued, Vector.getElem_set, Fin.ext_iff, eq_comm]

/-- A state whose porter has taken the head of a queue, its token's credit not yet reserved. -/
def dequeue (cl : Fin 48) (q : Fin 4) (p : PorterCmd) (rest : List PorterCmd) (s : State) : State :=
  s.modCluster cl (Cluster.dequeued q rest (startedRun s cl q p))

theorem porterStart_eq (cl : Fin 48) (q : Fin 4) (p : PorterCmd) (rest : List PorterCmd) (s : State) : porterStart cl q p rest s =
    if p.xfer.isNone && pToken p.word && tokenBound s p.word then
      spendCredit (ix 384 (pTokCore p.word)) (pTokQueue p.word) (dequeue cl q p rest s)
    else dequeue cl q p rest s := rfl

theorem porterStart_same (cl : Fin 48) (q : Fin 4) (p : PorterCmd) (rest : List PorterCmd) (s : State) :
    (porterStart cl q p rest s).clusters = (dequeue cl q p rest s).clusters ∧ (porterStart cl q p rest s).gddr = s.gddr
      ∧ (porterStart cl q p rest s).host = s.host := by
  rw [porterStart_eq]
  split <;> exact ⟨rfl, rfl, rfl⟩

theorem porterStart_cluster (cl : Fin 48) (q : Fin 4) (p : PorterCmd) (rest : List PorterCmd) (s : State) :
    (porterStart cl q p rest s).cluster cl = (s.cluster cl).dequeued q rest (startedRun s cl q p) := by
  obtain ⟨h, -⟩ := porterStart_same cl q p rest s
  exact (congrArg (fun v : Vector Cluster 48 => v[cl]) h).trans (State.modCluster_same ..)

theorem porterStart_cluster_other {cl d : Fin 48} (hd : d ≠ cl) (q : Fin 4) (p : PorterCmd) (rest : List PorterCmd) (s : State) :
    (porterStart cl q p rest s).cluster d = s.cluster d := by
  obtain ⟨h, -⟩ := porterStart_same cl q p rest s
  exact (congrArg (fun v : Vector Cluster 48 => v[d]) h).trans (State.modCluster_other _ _ _ _ hd.symm)

section Start
variable {s : State} {cl : Fin 48} {q : Fin 4} {p : PorterCmd}

theorem porterStart_cores (h : p.xfer.isSome = true ∨ pToken p.word = false) (rest : List PorterCmd) :
    (porterStart cl q p rest s).cores = s.cores := by
  rw [porterStart_eq, if_neg]
  · rfl
  · obtain h | h := h
    · simp [Option.ne_none_iff_isSome.2 h]
    · simp [h]

theorem porterStart_credit (hx : p.xfer = none) (ht : pToken p.word = true) (hb : tokenBound s p.word = true) (rest : List PorterCmd) :
    (((porterStart cl q p rest s).core (ix 384 (pTokCore p.word))).queues[pTokQueue p.word]).credits =
      ((s.core (ix 384 (pTokCore p.word))).queues[pTokQueue p.word]).credits - 1 := by
  rw [porterStart_eq, if_pos (by simp [hx, ht, hb]), spendCredit_same]
  rfl

theorem startedRun_runs (h : cannotRun s p = false) : (startedRun s cl q p).code = none ∧ (startedRun s cl q p).moved = false := by
  simp [startedRun, h]

theorem startedRun_fails (h : cannotRun s p = true) : (startedRun s cl q p).code = some 0x30 ∧ (startedRun s cl q p).moved = true := by
  rw [startedRun, h]
  exact ⟨rfl, rfl⟩

theorem cannotRun_xfer (h : p.xfer.isSome = true) : cannotRun s p = false := by
  simp [cannotRun, Option.ne_none_iff_isSome.2 h]

theorem cannotRun_of_op (hx : p.xfer = none) (h : pOp p.word = 0 ∨ 5 < pOp p.word) : cannotRun s p = true := by
  have hk : pKnown p.word = false := by
    rw [pKnown, Bool.and_eq_false_iff, decide_eq_false_iff_not, decide_eq_false_iff_not]
    omega
  simp [cannotRun, hx, hk]

theorem cannotRun_of_token (hx : p.xfer = none) (ht : pToken p.word = true) (hb : tokenBound s p.word = false) : cannotRun s p = true := by
  simp [cannotRun, hx, ht, hb]

theorem cannotRun_false (h1 : 1 ≤ pOp p.word) (h5 : pOp p.word ≤ 5) (h : pToken p.word = false ∨ tokenBound s p.word = true) :
    cannotRun s p = false := by
  obtain h | h := h <;> simp [cannotRun, pKnown, h1, h5, h]

theorem porterCommandStart_starts {rest : List PorterCmd} (ht : tagFree s cl = true) (hh : heldOff s cl = false)
    (hq : pickQueue s cl = some q) (hp : (s.cluster cl).pq[q] = p :: rest) :
    exec (.porterCommandStart cl) s = .next (porterStart cl q p rest s) := by
  show execPorterCommandStart cl s = _
  simp only [execPorterCommandStart, ht, hh, hq, Bool.not_true, Bool.or_self, Bool.false_eq_true, if_false]
  rw [hp]

theorem porterCommandStart_waits (h : tagFree s cl = false ∨ heldOff s cl = true ∨ pickQueue s cl = none) :
    exec (.porterCommandStart cl) s = .next s := by
  show execPorterCommandStart cl s = _
  unfold execPorterCommandStart
  obtain h | h | h := h
  · exact if_pos (by simp [h])
  · exact if_pos (by simp [h])
  · rw [h]
    exact ite_self _

end Start

/-! ### Requests and places of a running command -/

/-- A command presents its k-th batch of requests once (R224). -/
def begun (cl : Fin 48) (r : PorterRun) (k : Nat) (ask : State → State) (u : State) : State :=
  if r.asked ≤ k then ask (modRun cl r.id (fun r => { r with asked := k + 1 }) u) else u

theorem askRun_eq (cl : Fin 48) (r : PorterRun) (k : Nat) (ask : State → State) (u : State) : askRun cl r k ask u = begun cl r k ask u := by
  by_cases h : k < r.asked
  · rw [askRun, if_pos h, begun, if_neg (Nat.not_le.2 h)]
  · rw [askRun, if_neg h, begun, if_pos (Nat.not_lt.1 h)]

theorem onceServed_waits {o : TxnOwner} {s : State} (h : asking s o = true) (go : State → State) : onceServed o go s = s := if_pos h

theorem onceServed_goes {o : TxnOwner} {s : State} (h : asking s o = false) (go : State → State) : onceServed o go s = go s :=
  if_neg (Bool.eq_false_iff.1 h)

theorem fitTxns_of_mach {s t : State} (h : t.mach = s.mach) : fitTxns s t = t := by
  rw [fitTxns, h]
  exact if_pos (le_max_right _ _)

theorem writePlace_ls_get {c : Fin 384} {t : State} (a : Nat) (bs : List MByte) (h : (t.core c).ls.wf = true) {i : Nat} (hi : i < bs.length) :
    ((writePlace (.ls c a) bs t).core c).ls.get (a + i) = bs[i].1 := by
  rw [writePlace_ls_core, if_pos rfl]
  exact (Memory.get_putBytes_same _ _ _ _ h (by simpa using hi)).trans (by simp)

theorem writePlace_ls_get_outside {c : Fin 384} {a b : Nat} {bs : List MByte} (h : b < a ∨ a + bs.length ≤ b) (t : State) :
    ((writePlace (.ls c a) bs t).core c).ls.get b = (t.core c).ls.get b := by
  rw [writePlace_ls_core, if_pos rfl]
  exact Memory.get_putBytes_other _ _ _ _ (by simpa using h)

theorem modRun_prun {cl : Fin 48} {id : Nat} {f : PorterRun → PorterRun} {s : State} {y : PorterRun}
    (h : y ∈ ((modRun cl id f s).cluster cl).prun) (hy : y.id = id) : ∃ r, y = f r := by
  rw [modRun, State.modCluster_same] at h
  obtain ⟨r, -, rfl⟩ := List.mem_map.1 h
  by_cases hr : r.id = id
  · exact ⟨r, if_pos hr⟩
  · rw [if_neg hr] at hy
    exact absurd hy hr

/-! ### Transfers (R151) -/

section Transfers
variable {cl : Fin 48} {r : PorterRun} {moves : List (Place × Place × Dword × Nat)} {s : State}

/-- A command whose transfers' requests have been presented. -/
def movesAsked (cl : Fin 48) (r : PorterRun) (moves : List (Place × Place × Dword × Nat)) (s : State) : State :=
  begun cl r 0 (fun t => moves.foldl (fun t m => askMove (.porter cl r.id) 0 m.1 m.2.1 m.2.2.2 t) t) s

/-- A command's transfers, made of what its reads delivered. -/
def movesMade (cl : Fin 48) (r : PorterRun) (moves : List (Place × Place × Dword × Nat)) (t : State) : State :=
  let v := runTransfers.seenState cl r t
  let bad := moves.any fun m => (readPlace v m.1 m.2.2.2).any Prod.snd
  let x := moves.foldl (fun (a : State × Nat) m =>
    let y := transfer (.porter cl r.id) 0 m.1 m.2.1 m.2.2.1 m.2.2.2 v a.1
    (y.1, a.2 + y.2)) (t, 0)
  fitTxns t (modRun cl r.id (fun r => { r with moved := true, began := true, marked := r.marked || bad, txns := r.txns + x.2 }) x.1)

theorem runTransfers_fails {f : Byte × Half} (h : placesFault s (moves.flatMap fun m => [(m.1, m.2.2.2), (m.2.1, m.2.2.2)]) = some f) :
    runTransfers cl r moves s = failRun cl r.id f.1 s := by
  unfold runTransfers
  rw [h]

variable (h : placesFault s (moves.flatMap fun m => [(m.1, m.2.2.2), (m.2.1, m.2.2.2)]) = none)
include h

theorem runTransfers_blocked (ha : r.asked = 0) (hb : runBlocked s cl r = true) : runTransfers cl r moves s = s := by
  unfold runTransfers
  rw [h]
  exact if_pos (by simp [ha, hb])

variable (hgo : r.asked ≠ 0 ∨ runBlocked s cl r = false)
include hgo

theorem runTransfers_unblocked :
    runTransfers cl r moves s = onceServed (.porter cl r.id) (movesMade cl r moves) (movesAsked cl r moves s) := by
  have hgo' : ¬ (decide (r.asked = 0) && runBlocked s cl r) = true := by
    obtain h | h := hgo <;> simp [h]
  unfold runTransfers
  rw [h]
  simp only [if_neg hgo', askRun_eq]
  rfl

theorem runTransfers_asks (ha : asking (movesAsked cl r moves s) (.porter cl r.id) = true) :
    runTransfers cl r moves s = movesAsked cl r moves s := by
  rw [runTransfers_unblocked h hgo, onceServed_waits ha]

theorem runTransfers_moves (ha : asking (movesAsked cl r moves s) (.porter cl r.id) = false) :
    runTransfers cl r moves s = movesMade cl r moves (movesAsked cl r moves s) := by
  rw [runTransfers_unblocked h hgo, onceServed_goes ha]

end Transfers

/-- A transfer between local stores writes the bytes read at its destination, and its command has made it. -/
theorem runTransfers_ls_eq {cl : Fin 48} {r : PorterRun} {s : State} {c c' : Fin 384} {a a' k : Nat} {d : Dword}
    (h : placesFault s ([(Place.ls c a, Place.ls c' a', d, k)].flatMap fun m => [(m.1, m.2.2.2), (m.2.1, m.2.2.2)]) = none)
    (hgo : r.asked ≠ 0 ∨ runBlocked s cl r = false)
    (ha : asking (movesAsked cl r [(Place.ls c a, Place.ls c' a', d, k)] s) (.porter cl r.id) = false) :
    ∃ f : PorterRun → PorterRun, (∀ y, (f y).moved = true) ∧ runTransfers cl r [(Place.ls c a, Place.ls c' a', d, k)] s =
      (let s1 := movesAsked cl r [(Place.ls c a, Place.ls c' a', d, k)] s
      modRun cl r.id f (writePlace (.ls c' a') (readPlace (runTransfers.seenState cl r s1) (.ls c a) k) s1)) :=
  ⟨_, fun _ => rfl, (runTransfers_moves h hgo ha).trans (fitTxns_of_mach rfl)⟩

theorem runTransfers_ls {cl : Fin 48} {r : PorterRun} {s : State} {c c' : Fin 384} {a a' k : Nat} {d : Dword}
    (h : placesFault s ([(Place.ls c a, Place.ls c' a', d, k)].flatMap fun m => [(m.1, m.2.2.2), (m.2.1, m.2.2.2)]) = none)
    (hgo : r.asked ≠ 0 ∨ runBlocked s cl r = false)
    (ha : asking (movesAsked cl r [(Place.ls c a, Place.ls c' a', d, k)] s) (.porter cl r.id) = false) :
    (let moves := [(Place.ls c a, Place.ls c' a', d, k)]
    let s1 := movesAsked cl r moves s
    let v := runTransfers.seenState cl r s1
    let t := runTransfers cl r moves s
    ((s1.core c').ls.wf = true → ∀ i, i < k → (t.core c').ls.get (a' + i) = (v.core c).ls.get (a + i))
      ∧ (∀ b, b < a' ∨ a' + k ≤ b → (t.core c').ls.get b = (s1.core c').ls.get b) ∧ (∀ x, x ≠ c' → t.core x = s1.core x)
      ∧ (∀ y ∈ (t.cluster cl).prun, y.id = r.id → y.moved = true) ∧ t.gddr = s1.gddr ∧ t.host = s1.host) := by
  obtain ⟨f, hf, hrun⟩ := runTransfers_ls_eq h hgo ha
  dsimp only
  rw [hrun]
  dsimp only
  generalize movesAsked cl r [(Place.ls c a, Place.ls c' a', d, k)] s = s1
  generalize runTransfers.seenState cl r s1 = v
  have hlen := readPlace_ls_length v c a k
  refine ⟨fun hwf i hi => ?_, fun b hb => ?_, fun x hx => ?_, fun y hy hid => ?_, rfl, rfl⟩
  · rw [modRun, State.modCluster_core]
    exact (writePlace_ls_get a' _ hwf (hlen.symm ▸ hi)).trans (by simp [readPlace])
  · rw [modRun, State.modCluster_core]
    exact writePlace_ls_get_outside (by rwa [hlen]) s1
  · rw [modRun, State.modCluster_core, writePlace_ls_core, if_neg hx.symm]
  · obtain ⟨x, rfl⟩ := modRun_prun hy hid
    exact hf x

/-! ### GATHER (R151, R225) -/

/-- Whether a place is at a partner. -/
def Place.far : Place → Bool
  | .remote _ _ => true
  | _ => false

theorem Place.far_of_remote {p : Place} {m : Half} {low : BitVec 44} (h : p = .remote m low) : p.far = true := by
  rw [h]
  rfl

theorem Place.far_of_near {p : Place} (h : ∀ m low, p ≠ .remote m low) : p.far = false := by
  cases p with
  | remote m low => exact absurd rfl (h m low)
  | _ => rfl

section Gather
variable {s : State} {cl : Fin 48} {n : Nat} {r : PorterRun}

/-- Why a GATHER's list or its destination cannot be reached. -/
def gatherFaultOf (s : State) (w : DescWord) : Option (Byte × Half) :=
  (placeFault s (placeOf s (pSrc w)) (8 * pLen w)).orElse fun _ => placeFault s (placeOf s (pDst w)) (32 * pLen w)

variable (h : runAt s cl n 3 = some r)
include h

theorem porterGather_fails {f : Byte × Half} (hf : gatherFaultOf s r.cmd.word = some f) :
    exec (.porterGather cl n) s = .next (failRun cl r.id f.1 s) := by
  unfold gatherFaultOf at hf
  show execPorterGather cl n s = _
  simp only [execPorterGather, h, hf]

variable (hf : gatherFaultOf s r.cmd.word = none)
include hf

theorem porterGather_reaches : exec (.porterGather cl n) s =
    (let lp := placeOf s (pSrc r.cmd.word)
    let blocked : Bool := r.asked < 2 && runBlocked s cl r
    if lp.far && !r.staged && pLen r.cmd.word ≠ 0 then .next (fetchList cl r s)
    else if lp.far then .next (if blocked then s else gatherRun cl r (r.stage.getBytes 0 (8 * pLen r.cmd.word)) s)
    else if blocked then .next s
    else .next (onceServed (.porter cl r.id) (fun t => gatherRun cl r (plain (readPlace t lp (8 * pLen r.cmd.word))) t)
      (askRun cl r 0 (acceptAt (.porter cl r.id) 0 false lp (8 * pLen r.cmd.word)) s))) := by
  unfold gatherFaultOf at hf
  show execPorterGather cl n s = _
  simp only [execPorterGather, h, hf]
  rfl

theorem porterGather_far {m : Half} {low : BitVec 44} (hp : placeOf s (pSrc r.cmd.word) = .remote m low) :
    (r.staged = false → pLen r.cmd.word ≠ 0 → exec (.porterGather cl n) s = .next (fetchList cl r s))
      ∧ (r.staged = true ∨ pLen r.cmd.word = 0 → exec (.porterGather cl n) s =
        .next (if (r.asked < 2 && runBlocked s cl r : Bool) then s else gatherRun cl r (r.stage.getBytes 0 (8 * pLen r.cmd.word)) s)) := by
  rw [porterGather_reaches h hf]
  have hfar := Place.far_of_remote hp
  refine ⟨fun hs hl => if_pos (by simp [hfar, hs, hl]), fun hs => ?_⟩
  have hno : ¬ ((placeOf s (pSrc r.cmd.word)).far && !r.staged && decide (pLen r.cmd.word ≠ 0)) = true := by
    obtain hs | hs := hs <;> simp [hs]
  exact (if_neg hno).trans (if_pos hfar)

/-- A GATHER whose list has been presented to be read. -/
def listAsked (cl : Fin 48) (r : PorterRun) (s : State) : State :=
  begun cl r 0 (acceptAt (.porter cl r.id) 0 false (placeOf s (pSrc r.cmd.word)) (8 * pLen r.cmd.word)) s

variable (hp : ∀ m low, placeOf s (pSrc r.cmd.word) ≠ .remote m low)
include hp

theorem porterGather_blocked (hb : (r.asked < 2 && runBlocked s cl r : Bool) = true) : exec (.porterGather cl n) s = .next s := by
  rw [porterGather_reaches h hf]
  simp only [Place.far_of_near hp, hb, Bool.false_and, Bool.false_eq_true, if_false, if_true]

variable (hb : (r.asked < 2 && runBlocked s cl r : Bool) = false)
include hb

theorem porterGather_asks (ha : asking (listAsked cl r s) (.porter cl r.id) = true) :
    exec (.porterGather cl n) s = .next (listAsked cl r s) := by
  rw [porterGather_reaches h hf]
  simp only [Place.far_of_near hp, hb, Bool.false_and, Bool.false_eq_true, if_false, askRun_eq]
  exact congrArg Host.Outcome.next (onceServed_waits ha _)

theorem porterGather_packs (ha : asking (listAsked cl r s) (.porter cl r.id) = false) : exec (.porterGather cl n) s =
    .next (gatherRun cl r (plain (readPlace (listAsked cl r s) (placeOf s (pSrc r.cmd.word)) (8 * pLen r.cmd.word))) (listAsked cl r s)) := by
  rw [porterGather_reaches h hf]
  simp only [Place.far_of_near hp, hb, Bool.false_and, Bool.false_eq_true, if_false, askRun_eq]
  exact congrArg Host.Outcome.next (onceServed_goes ha _)

end Gather

section Rows
variable {cl : Fin 48} {r : PorterRun} {bs : List Byte} {u : State}

/-- A GATHER whose rows have been presented. -/
def rowsAsked (cl : Fin 48) (r : PorterRun) (bs : List Byte) (u : State) : State :=
  begun cl r 1 (askRows (.porter cl r.id) 0 (gatherList bs) (placeOf u (pDst r.cmd.word))) u

theorem gatherRun_fails {f : Byte × Half} (h : (gatherList bs).findSome? (rowFault u) = some f) :
    gatherRun cl r bs u = failRun cl r.id f.1 u := by
  simp only [gatherRun, h]

variable (h : (gatherList bs).findSome? (rowFault u) = none)
include h

theorem gatherRun_asks (ha : asking (rowsAsked cl r bs u) (.porter cl r.id) = true) : gatherRun cl r bs u = rowsAsked cl r bs u := by
  simp only [gatherRun, h, askRun_eq]
  exact onceServed_waits ha _

theorem gatherRun_packs (ha : asking (rowsAsked cl r bs u) (.porter cl r.id) = false) : gatherRun cl r bs u =
    (let u1 := rowsAsked cl r bs u
    let x := gatherRows (.porter cl r.id) 0 (gatherList bs) (pDst r.cmd.word) u1
    fitTxns u1 (modRun cl r.id (fun r => { r with moved := true, began := true, txns := r.txns + x.2 }) x.1)) := by
  simp only [gatherRun, h, askRun_eq]
  exact onceServed_goes ha _

end Rows

/-! ### FILL (R151) -/

section Fill
variable {s : State} {cl : Fin 48} {n : Nat} {r : PorterRun} (h : runAt s cl n 4 = some r)
include h

theorem porterFill_fails {f : Byte × Half} (hf : placeFault s (placeOf s (pDst r.cmd.word)) (pLen r.cmd.word) = some f) :
    exec (.porterFill cl n) s = .next (failRun cl r.id f.1 s) := by
  show execPorterFill cl n s = _
  simp only [execPorterFill, h, hf]

variable (hf : placeFault s (placeOf s (pDst r.cmd.word)) (pLen r.cmd.word) = none)
include hf

theorem porterFill_far {m : Half} {low : BitVec 44} (hp : placeOf s (pDst r.cmd.word) = .remote m low) :
    (let parts := chunks txnBytes (patternBytes (pSrc r.cmd.word) (pLen r.cmd.word))
    exec (.porterFill cl n) s = .next (fitTxns s (modRun cl r.id (fun r =>
        { r with moved := true, began := true, txns := r.txns + parts.length })
      ((List.range parts.length).foldl (fun t i =>
        startWrite (.porter cl r.id) m (low + BitVec.ofNat 44 (txnBytes * i)) (parts.getD i []) t) s)))) := by
  rw [hp] at hf
  show execPorterFill cl n s = _
  simp only [execPorterFill, h, hp, hf]

/-- A FILL whose writes have been presented. -/
def fillAsked (cl : Fin 48) (r : PorterRun) (s : State) : State :=
  begun cl r 0 (askMove (.porter cl r.id) 0 .bad (placeOf s (pDst r.cmd.word)) (pLen r.cmd.word)) s

/-- What a FILL leaves whose requests have been served. -/
def filled (cl : Fin 48) (r : PorterRun) (p : Place) (s : State) : State :=
  landAt (.porter cl r.id) 0 p (pLen r.cmd.word) (writePlace p (patternBytes (pSrc r.cmd.word) (pLen r.cmd.word))
    (modRun cl r.id (fun r => { r with moved := true }) s))

variable (hp : ∀ m low, placeOf s (pDst r.cmd.word) ≠ .remote m low)
include hp

theorem porterFill_near : exec (.porterFill cl n) s =
    if (r.asked = 0 && runBlocked s cl r : Bool) then .next s
    else .next (onceServed (.porter cl r.id) (filled cl r (placeOf s (pDst r.cmd.word)))
      (askRun cl r 0 (askMove (.porter cl r.id) 0 .bad (placeOf s (pDst r.cmd.word)) (pLen r.cmd.word)) s)) := by
  show execPorterFill cl n s = _
  simp only [execPorterFill, h, hf]
  cases hq : placeOf s (pDst r.cmd.word) with
  | remote m low => exact absurd hq (hp m low)
  | _ => rfl

theorem porterFill_blocked (ha : r.asked = 0) (hb : runBlocked s cl r = true) : exec (.porterFill cl n) s = .next s := by
  rw [porterFill_near h hf hp]
  exact if_pos (by simp [ha, hb])

variable (hgo : r.asked ≠ 0 ∨ runBlocked s cl r = false)
include hgo

theorem porterFill_unblocked : exec (.porterFill cl n) s =
    .next (onceServed (.porter cl r.id) (filled cl r (placeOf s (pDst r.cmd.word))) (fillAsked cl r s)) := by
  rw [porterFill_near h hf hp, askRun_eq]
  refine if_neg ?_
  obtain h | h := hgo <;> simp [h]

theorem porterFill_asks (ha : asking (fillAsked cl r s) (.porter cl r.id) = true) :
    exec (.porterFill cl n) s = .next (fillAsked cl r s) := by
  rw [porterFill_unblocked h hf hp hgo, onceServed_waits ha]

theorem porterFill_fills (ha : asking (fillAsked cl r s) (.porter cl r.id) = false) :
    exec (.porterFill cl n) s = .next (filled cl r (placeOf s (pDst r.cmd.word)) (fillAsked cl r s)) := by
  rw [porterFill_unblocked h hf hp hgo, onceServed_goes ha]

end Fill

theorem filled_ls (cl : Fin 48) (r : PorterRun) (c : Fin 384) (a : Nat) (s : State) :
    ((s.core c).ls.wf = true → ∀ i, i < pLen r.cmd.word →
        ((filled cl r (.ls c a) s).core c).ls.get (a + i) = bits (pSrc r.cmd.word) (8 * (i % 8)) 8)
      ∧ (∀ b, b < a ∨ a + pLen r.cmd.word ≤ b → ((filled cl r (.ls c a) s).core c).ls.get b = (s.core c).ls.get b)
      ∧ ∀ c', c' ≠ c → (filled cl r (.ls c a) s).core c' = s.core c' := by
  have hlen : (patternBytes (pSrc r.cmd.word) (pLen r.cmd.word)).length = pLen r.cmd.word := by simp [patternBytes]
  refine ⟨fun hwf i hi => ?_, fun b hb => writePlace_ls_get_outside (by rwa [hlen]) _, fun c' hc => ?_⟩
  · exact (writePlace_ls_get a _ hwf (hlen.symm ▸ hi)).trans (by simp [patternBytes])
  · exact (writePlace_ls_core c c' a _ _).trans (if_neg hc.symm)

/-! ### MOVE, MOVE_2D and SIGNAL (R125, R151) -/

section Moves
variable {s : State} {cl : Fin 48} {n : Nat} {r : PorterRun}

theorem porterMove_porter (h : runAt s cl n 1 = some r) (hx : r.cmd.xfer = none) : exec (.porterMove cl n) s = .next (runTransfers cl r
    [(placeOf s (pSrc r.cmd.word), placeOf s (pDst r.cmd.word), pDst r.cmd.word, pLen r.cmd.word)] s) := by
  show execPorterMove cl n s = _
  simp only [execPorterMove, h, hx]

theorem porterMove_station (h : runAt s cl n 1 = some r) {x : XferCmd} (hx : r.cmd.xfer = some x) :
    exec (.porterMove cl n) s = .next (runTransfers cl r [((xferPlaces x).1, (xferPlaces x).2.1, 0, (xferPlaces x).2.2)] s) := by
  show execPorterMove cl n s = _
  simp only [execPorterMove, h, hx]

theorem porterMove2d_eq (h : runAt s cl n 2 = some r) :
    (let w := r.cmd.word
    exec (.porterMove2d cl n) s = .next (runTransfers cl r ((List.range (pRows w)).map fun i =>
      (placeOf s (pSrc w + BitVec.ofNat 64 (i * pSrcStride w)), placeOf s (pDst w + BitVec.ofNat 64 (i * pDstStride w)),
        pDst w + BitVec.ofNat 64 (i * pDstStride w), pLen w)) s)) := by
  show execPorterMove2d cl n s = _
  simp only [execPorterMove2d, h]

theorem porterSignal_eq (h : runAt s cl n 5 = some r) :
    exec (.porterSignal cl n) s = .next (modRun cl r.id (fun r => { r with moved := true }) s) := by
  show execPorterSignal cl n s = _
  simp only [execPorterSignal, h]

end Moves

end Sys2Proof.Machine
end

section
/-! PROOFS. Porter commands that complete: their token, their event, their error, their station's instruction (R125, R130, R153). -/
namespace Sys2Proof.Machine
open Sys2Proof

/-! ### The end of a command (R153) -/

/-- Two states agree on their cores, clusters and memories. -/
def SameUnits (s t : State) : Prop := t.cores = s.cores ∧ t.clusters = s.clusters ∧ t.gddr = s.gddr ∧ t.host = s.host

theorem noteExposed_sameUnits (b : Bool) (cl : Fin 48) (s : State) : SameUnits s (if b then noteExposed cl s else s) := by
  unfold noteExposed
  split
  · split <;> exact ⟨rfl, rfl, rfl, rfl⟩
  · exact ⟨rfl, rfl, rfl, rfl⟩

/-- A cluster whose porter has let a command go. -/
def letRunGo (cl : Fin 48) (r : PorterRun) (s : State) : State :=
  s.modCluster cl fun cu => { cu with prun := cu.prun.filter fun x => x.id ≠ r.id }

/-- What a command of the porter's own delivers: its token and its event. -/
def delivered (cl : Fin 48) (w : DescWord) (s : State) : State :=
  let s2 := if pToken w then sendToken (ix 384 (pTokCore w)) (pTokQueue w) (pTokVal w) s else s
  if pEvent w then skPost cl 3 0 0 (pTag w) s2 else s2

/-- What a command of the porter's own leaves that failed: its error, its token's credit given back. -/
def failedRun (cl : Fin 48) (w : DescWord) (code : Half) (s : State) : State :=
  skPost cl 3 0 0 code.toNat (if pToken w && tokenBound s w then returnCredit (ix 384 (pTokCore w)) (pTokQueue w) s else s)

/-- The instruction of a station's transfer as its end leaves it. -/
def endedFlight (r : PorterRun) (x : XferCmd) (f : Inflight) : Inflight :=
  if r.code = none then { f with moved := true, marked := f.marked || r.marked } else { f with remote := some x.peer }

section Done
variable {cl : Fin 48} {r : PorterRun}

theorem porterDone_xfer {x : XferCmd} (h : r.cmd.xfer = some x) (s : State) :
    SameUnits (modInflight x.core x.stn x.uid (endedFlight r x) (letRunGo cl r s)) (porterDone cl r s) := by
  unfold porterDone
  cases hc : r.code with
  | none =>
    have hf : endedFlight r x = fun f => { f with moved := true, marked := f.marked || r.marked } := funext fun f => if_pos hc
    rw [h, hf]
    exact noteExposed_sameUnits ..
  | some code =>
    have hf : endedFlight r x = fun f => { f with remote := some x.peer } := funext fun f => if_neg (by simp [hc])
    rw [h, hf]
    exact noteExposed_sameUnits ..

theorem porterDone_delivers (hx : r.cmd.xfer = none) (hc : r.code = none) (s : State) :
    SameUnits (delivered cl r.cmd.word (letRunGo cl r s)) (porterDone cl r s) := by
  unfold porterDone
  rw [hx, hc]
  exact noteExposed_sameUnits ..

theorem porterDone_fails (hx : r.cmd.xfer = none) {code : Half} (hc : r.code = some code) (s : State) :
    SameUnits (failedRun cl r.cmd.word code (letRunGo cl r s)) (porterDone cl r s) := by
  unfold porterDone
  rw [hx, hc]
  exact noteExposed_sameUnits ..

theorem porterCommandComplete_waits {s : State} {n : Nat} (h : (s.cluster cl).prun[n]? = some r)
    (hw : r.moved = false ∨ r.txns ≠ 0 ∨ asking s (.porter cl r.id) = true) : exec (.porterCommandComplete cl n) s = .next s := by
  show execPorterCommandComplete cl n s = _
  unfold execPorterCommandComplete
  rw [h]
  refine if_neg ?_
  obtain hw | hw | hw := hw <;> simp [hw]

theorem porterCommandComplete_ends {s : State} {n : Nat} (h : (s.cluster cl).prun[n]? = some r) (hm : r.moved = true) (ht : r.txns = 0)
    (ha : asking s (.porter cl r.id) = false) : exec (.porterCommandComplete cl n) s = .next (porterDone cl r s) := by
  show execPorterCommandComplete cl n s = _
  unfold execPorterCommandComplete
  rw [h]
  exact if_pos (by simp [hm, ht, ha])

end Done

theorem letRunGo_cluster (cl : Fin 48) (r : PorterRun) (s : State) : ((letRunGo cl r s).cluster cl).prun = (s.cluster cl).prun.filter (fun x => x.id ≠ r.id)
    ∧ ((letRunGo cl r s).sk cl) = s.sk cl := by
  rw [State.sk, letRunGo, State.modCluster_same]
  exact ⟨rfl, rfl⟩

theorem skPost_prun (cl : Fin 48) (kind core stn code : Nat) (s : State) :
    ((skPost cl kind core stn code s).cluster cl).prun = (s.cluster cl).prun := by simp [skPost]

/-- What a token leaves alone on its way. -/
theorem sendToken_sameBut (c : Fin 384) (q : Fin 32) (v : Word) (s : State) :
    (sendToken c q v s).clusters = s.clusters ∧ (sendToken c q v s).gddr = s.gddr ∧ (sendToken c q v s).host = s.host := by
  unfold sendToken
  dsimp only
  split <;> exact ⟨rfl, rfl, rfl⟩

section Delivered
variable (cl : Fin 48) (w : DescWord) (s : State)

/-- The token of a command that has ended well. -/
def tokenSent : State := if pToken w then sendToken (ix 384 (pTokCore w)) (pTokQueue w) (pTokVal w) s else s

theorem tokenSent_sameBut : (tokenSent w s).clusters = s.clusters ∧ (tokenSent w s).gddr = s.gddr ∧ (tokenSent w s).host = s.host := by
  unfold tokenSent
  split
  · exact sendToken_sameBut ..
  · exact ⟨rfl, rfl, rfl⟩

theorem delivered_eq : delivered cl w s = if pEvent w then skPost cl 3 0 0 (pTag w) (tokenSent w s) else tokenSent w s := rfl

theorem delivered_prun : ((delivered cl w s).cluster cl).prun = (s.cluster cl).prun := by
  obtain ⟨h, -⟩ := tokenSent_sameBut w s
  have hcl := congrArg (fun v : Vector Cluster 48 => v[cl].prun) h
  rw [delivered_eq]
  split
  · exact (skPost_prun ..).trans hcl
  · exact hcl

theorem delivered_events : ((delivered cl w s).sk cl).events =
    (s.sk cl).events ++ (if pEvent w then [BitVec.ofNat 32 (3 + 65536 * pTag w)] else []) := by
  obtain ⟨h, -⟩ := tokenSent_sameBut w s
  have hev : ((tokenSent w s).sk cl).events = (s.sk cl).events := congrArg (fun v : Vector Cluster 48 => v[cl].sk.events) h
  rw [delivered_eq]
  split
  · rw [skPost_events, hev]
  · rw [hev, List.append_nil]

theorem delivered_memories : (delivered cl w s).gddr = s.gddr ∧ (delivered cl w s).host = s.host := by
  obtain ⟨-, h⟩ := tokenSent_sameBut w s
  rw [delivered_eq]
  split <;> exact h

variable {w}

theorem delivered_token (ht : pToken w = true) (hc : ((s.core (ix 384 (pTokCore w))).queues[pTokQueue w]).cons ≠ 0x20) :
    ((delivered cl w s).core (ix 384 (pTokCore w))).queues[pTokQueue w] = { (s.core (ix 384 (pTokCore w))).queues[pTokQueue w] with
      tokens := ((s.core (ix 384 (pTokCore w))).queues[pTokQueue w]).tokens ++ [pTokVal w] } := by
  have hcore : (delivered cl w s).core (ix 384 (pTokCore w)) = (tokenSent w s).core (ix 384 (pTokCore w)) := by
    rw [delivered_eq]
    split <;> rfl
  rw [hcore, tokenSent, if_pos ht, sendToken_here _ _ _ _ hc]

end Delivered

section Failed
variable (cl : Fin 48) (w : DescWord) (code : Half) (s : State)

theorem failedRun_prun : ((failedRun cl w code s).cluster cl).prun = (s.cluster cl).prun := by
  rw [failedRun, skPost_prun]
  split <;> rfl

theorem failedRun_events : ((failedRun cl w code s).sk cl).events = (s.sk cl).events ++ [BitVec.ofNat 32 (3 + 65536 * code.toNat)] := by
  rw [failedRun, skPost_events]
  split <;> rfl

theorem failedRun_memories : (failedRun cl w code s).gddr = s.gddr ∧ (failedRun cl w code s).host = s.host := by
  unfold failedRun
  split <;> exact ⟨rfl, rfl⟩

variable {w}

theorem failedRun_credit (ht : pToken w = true) (hb : tokenBound s w = true) :
    (((failedRun cl w code s).core (ix 384 (pTokCore w))).queues[pTokQueue w]).credits =
      ((s.core (ix 384 (pTokCore w))).queues[pTokQueue w]).credits + 1 := by
  rw [failedRun, if_pos (by simp [ht, hb]), skPost, State.modCluster_core, returnCredit, State.modCore_same]
  simp

end Failed

/-- What every command leaves that ends. -/
theorem porterDone_frame (cl : Fin 48) (r : PorterRun) (s : State) :
    ((porterDone cl r s).cluster cl).prun = (s.cluster cl).prun.filter (fun x => x.id ≠ r.id)
      ∧ (porterDone cl r s).gddr = s.gddr ∧ (porterDone cl r s).host = s.host := by
  obtain ⟨hgone, -⟩ := letRunGo_cluster cl r s
  cases hx : r.cmd.xfer with
  | some x =>
    obtain ⟨-, hcl, hg, hh⟩ := porterDone_xfer (cl := cl) hx s
    exact ⟨(congrArg (fun v : Vector Cluster 48 => v[cl].prun) hcl).trans hgone, hg, hh⟩
  | none =>
    cases hc : r.code with
    | none =>
      obtain ⟨-, hcl, hg, hh⟩ := porterDone_delivers (cl := cl) hx hc s
      obtain ⟨hg', hh'⟩ := delivered_memories cl r.cmd.word (letRunGo cl r s)
      exact ⟨(congrArg (fun v : Vector Cluster 48 => v[cl].prun) hcl).trans ((delivered_prun ..).trans hgone), hg.trans hg', hh.trans hh'⟩
    | some code =>
      obtain ⟨-, hcl, hg, hh⟩ := porterDone_fails (cl := cl) hx hc s
      obtain ⟨hg', hh'⟩ := failedRun_memories cl r.cmd.word code (letRunGo cl r s)
      exact ⟨(congrArg (fun v : Vector Cluster 48 => v[cl].prun) hcl).trans ((failedRun_prun ..).trans hgone), hg.trans hg', hh.trans hh'⟩

theorem porterDone_inflight {cl : Fin 48} {r : PorterRun} {x : XferCmd} (h : r.cmd.xfer = some x) (s : State) :
    ((porterDone cl r s).station x.core x.stn).inflight = (s.station x.core x.stn).inflight.map fun f =>
      if f.uid = x.uid then (if r.code = none then { f with moved := true, marked := f.marked || r.marked }
        else { f with remote := some x.peer }) else f := by
  obtain ⟨hco, -⟩ := porterDone_xfer (cl := cl) h s
  refine (congrArg (fun v : Vector Core 384 => (v[x.core].stns[x.stn]).inflight) hco).trans ?_
  exact congrArg Station.inflight (State.modStation_station ..)

theorem porterDone_events {cl : Fin 48} {r : PorterRun} (hx : r.cmd.xfer = none) (s : State) : ((porterDone cl r s).sk cl).events =
    (s.sk cl).events ++ (match r.code with
      | none => if pEvent r.cmd.word then [BitVec.ofNat 32 (3 + 65536 * pTag r.cmd.word)] else []
      | some code => [BitVec.ofNat 32 (3 + 65536 * code.toNat)]) := by
  obtain ⟨-, hsk⟩ := letRunGo_cluster cl r s
  cases hc : r.code with
  | none =>
    obtain ⟨-, hcl, -⟩ := porterDone_delivers (cl := cl) hx hc s
    exact (congrArg (fun v : Vector Cluster 48 => v[cl].sk.events) hcl).trans ((delivered_events ..).trans (by rw [hsk]))
  | some code =>
    obtain ⟨-, hcl, -⟩ := porterDone_fails (cl := cl) hx hc s
    exact (congrArg (fun v : Vector Cluster 48 => v[cl].sk.events) hcl).trans ((failedRun_events ..).trans (by rw [hsk]))

/-- Settles O25: a command is started, presented, moved and let go by the porter of its cluster alone. -/
theorem porterCommands : Obligations.PorterCommands := by
  refine ⟨fun s cl q p rest ht hh hq hp => ?_, fun s cl => porterCommandStart_waits, fun s cl n r =>
    ⟨fun h => ⟨porterMove_porter h, fun x => porterMove_station h⟩, porterMove2d_eq, fun moves => ⟨fun f => runTransfers_fails,
        fun hf => runTransfers_blocked hf, fun hf hgo => ⟨runTransfers_asks hf hgo, fun ha c a c' a' d k hm => ?_, runTransfers_moves hf hgo⟩⟩,
      fun h => ⟨fun f => porterGather_fails h, fun hf m low => porterGather_far h hf, fun hf hp => ⟨porterGather_blocked h hf hp,
        porterGather_asks h hf hp, porterGather_packs h hf hp⟩⟩,
      fun bs u => ⟨fun f => gatherRun_fails, fun hf => ⟨gatherRun_asks hf, gatherRun_packs hf⟩⟩,
      fun h => ⟨fun f => porterFill_fails h, fun hf m low => porterFill_far h hf, fun hf hp => ⟨porterFill_blocked h hf hp,
        fun hgo => ⟨porterFill_asks h hf hp hgo, fun ha => ⟨porterFill_fills h hf hp hgo ha, fun c a hls => ⟨_, porterFill_fills h hf hp hgo ha, ?_⟩⟩⟩⟩⟩,
      porterSignal_eq⟩,
    fun s cl n r h => ⟨porterCommandComplete_waits h, fun hm ht ha => ?_⟩⟩
  · obtain ⟨-, hg, hh'⟩ := porterStart_same cl q p rest s
    refine ⟨_, porterCommandStart_starts ht hh hq hp, ?_, fun q' hq' => ?_, ?_, fun d hd => porterStart_cluster_other hd q p rest s,
      ⟨startedRun s cl q p, ?_, rfl, rfl, rfl, rfl, fun hx => startedRun_runs (cannotRun_xfer hx),
        fun hx ho => startedRun_fails (cannotRun_of_op hx ho), fun hx ht hb => startedRun_fails (cannotRun_of_token hx ht hb),
        fun _ h1 h5 hb => startedRun_runs (cannotRun_false h1 h5 hb)⟩,
      fun h => porterStart_cores h rest, fun hx ht hb => porterStart_credit hx ht hb rest, hg, hh'⟩
    · rw [porterStart_cluster, Cluster.dequeued_pq, if_pos rfl]
    · rw [porterStart_cluster, Cluster.dequeued_pq, if_neg hq']
    · rw [porterStart_cluster]
      rfl
    · rw [porterStart_cluster]
      rfl
  · subst hm
    exact runTransfers_ls hf hgo ha
  · have hbytes := filled_ls cl r c a (fillAsked cl r s)
    rwa [← hls] at hbytes
  · obtain ⟨hgone, hg, hh⟩ := porterDone_frame cl r s
    refine ⟨_, porterCommandComplete_ends h hm ht ha, hgone, fun hx hc => ?_, fun hx hc htk hcons => ?_, fun hx code hc => ⟨?_, fun htk hb => ?_⟩,
      fun x hx => porterDone_inflight hx s, hg, hh⟩
    · rw [porterDone_events hx, hc]
    · obtain ⟨hco, -⟩ := porterDone_delivers (cl := cl) hx hc s
      exact (congrArg (fun v : Vector Core 384 => (v[ix 384 (pTokCore r.cmd.word)]).queues[pTokQueue r.cmd.word]) hco).trans
        (delivered_token cl (letRunGo cl r s) htk hcons)
    · rw [porterDone_events hx, hc]
    · obtain ⟨hco, -⟩ := porterDone_fails (cl := cl) hx hc s
      exact (congrArg (fun v : Vector Core 384 => ((v[ix 384 (pTokCore r.cmd.word)]).queues[pTokQueue r.cmd.word]).credits) hco).trans
        (failedRun_credit cl code (letRunGo cl r s) htk hb)

end Sys2Proof.Machine
end

section
/-! PROOFS. Norm reductions that start (R385, R386), what an update presents and how it stands among those in progress (R377, R380),
and a published norm that reaches an update (R387). -/
namespace Sys2Proof.Machine
open Sys2Proof

/-! ### NORM_REDUCE reads its tensors (R385) -/

/-- Every gradient that a NORM_REDUCE names is visible. -/
def GradsVisible (s : State) (r : Fin 256) (c : DescCtx) : Prop := ∀ x ∈ normTensors s c,
  pendingScatter s r c.idx x.1 = none ∨ gradReady s r c.idx x.1 0 (x.2.count s.mach.logical) = true

/-- The state in which a NORM_REDUCE has presented its reads. -/
def normAsked (r : Fin 256) (c : DescCtx) (s : State) : State :=
  askDesc r c 0 (askAll (.desc r c.idx) 1 ((normTensors s c).flatMap fun x => x.2.spans true true (x.2.exts s.mach.logical)) []) s

section Read
variable {s : State} {r : Fin 256} {c : DescCtx}

theorem gradsVisible_iff : GradsVisible s r c ↔ ((normTensors s c).all fun x =>
    (pendingScatter s r c.idx x.1).isNone || gradReady s r c.idx x.1 0 (x.2.count s.mach.logical)) = true := by
  simp [GradsVisible]

theorem readNorm_blocked (h : ¬ GradsVisible s r c) : readNorm r c s = s := if_neg fun hall => h (gradsVisible_iff.2 hall)

theorem readNorm_visible (h : GradsVisible s r c) :
    readNorm r c s = onceServed (.desc r c.idx) (beginNorm r c) (normAsked r c s) := if_pos (gradsVisible_iff.1 h)

end Read

/-! ### NORM_IDs (R386) -/

/-- A NORM_ID that is marked has a pending entry. -/
theorem markNorm_pending {id : Word} {s t : State} (h : markNorm id s = some t) : ∃ e ∈ t.coll.norms, e.id = id ∧ e.status = 0 := by
  refine ⟨⟨id, 0, 0, 0, 0⟩, ?_, rfl, rfl⟩
  unfold markNorm at h
  dsimp only at h
  split at h
  · next hown =>
    obtain ⟨x, hx, hid⟩ := List.any_eq_true.1 hown
    cases h
    exact List.mem_map.2 ⟨x, hx, if_pos (of_decide_eq_true hid)⟩
  · split at h
    · cases h
      exact List.mem_append_right _ (List.mem_singleton_self _)
    · obtain ⟨old, -, rfl⟩ := Option.map_eq_some_iff.1 h
      exact List.mem_append_right _ (List.mem_singleton_self _)

/-- A norm looked up is one published under its NORM_ID. -/
theorem find_published {norms : List NormEntry} {id : Word} {e : NormEntry}
    (h : norms.find? (fun e => e.id = id && e.status ≠ 0) = some e) : e ∈ norms ∧ e.id = id ∧ e.status ≠ 0 :=
  ⟨List.mem_of_find?_eq_some h, by simpa using List.find?_some h⟩

/-! ### Updates in progress -/

theorem updOf_owner {s : State} {r : Fin 256} {idx : Nat} {x : UpdateCtx} (h : updOf s r idx = some x) : x.ring = r ∧ x.idx = idx := by
  simpa using List.find?_some h

/-- A change of an update in progress is read back. -/
theorem updOf_setUpd {s : State} {u x : UpdateCtx} (h : updOf s u.ring u.idx = some x) : updOf (setUpd u s) u.ring u.idx = some u := by
  obtain ⟨hring, hidx⟩ := updOf_owner h
  have hmine : (fun v : UpdateCtx => decide (v.ring = u.ring) && decide (v.idx = u.idx))
      ∘ (fun v => if v.ring = u.ring && v.idx = u.idx then u else v) = fun v => v.ring = u.ring && v.idx = u.idx := by
    funext v
    by_cases hv : v.ring = u.ring ∧ v.idx = u.idx <;> simp [hv]
  unfold updOf at h
  rw [updOf, setUpd, State.setColl_coll, List.find?_map, hmine, h]
  simp [hring, hidx]

/-! ### What a run presents (R221, R377, R380) -/

theorem AskOnly.forAll {α : Type} (l : List α) (f : α → State → State) (h : ∀ a t, AskOnly t (f a t)) (s : State) :
    AskOnly s (forAll l f s) :=
  forAll_keeps (AskOnly s) l f s (fun a _ t ht => ht.trans (h a t)) (.refl s)

theorem AskOnly.coll_eq {s t : State} (h : AskOnly s t) : t.coll = s.coll := by rw [h]

theorem engineAsk_askOnly (u : UpdateCtx) (write : Bool) (xs : List (Nat × Nat)) (s : State) : AskOnly s (engineAsk u write xs s) :=
  .forAll _ _ (fun _ _ => gdAccept_askOnly ..) s

theorem narrowAccess_askOnly (o : TxnOwner) (write : Bool) (a n : Nat) (s : State) : AskOnly s (narrowAccess o write a n s) :=
  .forAll _ _ (fun _ _ => gdAccept_askOnly ..) s

theorem askFirst_askOnly (u : UpdateCtx) (s : State) : AskOnly s (askFirst u s) :=
  (engineAsk_askOnly ..).trans (narrowAccess_askOnly ..)

/-- Whether pass 1 is still due (R380). -/
def UpdateCtx.firstDue (u : UpdateCtx) : Bool := 3 ≤ u.rule && u.stats.isNone

/-- The batch of requests that a run presents next: 0 for pass 1, else its own. -/
def UpdateCtx.batch (u : UpdateCtx) (run : Nat) : Nat := if u.firstDue then 0 else run + 1

/-- An update that has presented the requests of a run. -/
def UpdateCtx.noted (u : UpdateCtx) (run : Nat) : UpdateCtx := { u with asked := u.asked ++ [u.batch run] }

/-- The requests of a run, once its update has noted them. -/
def askRunReads (u : UpdateCtx) (run : Nat) (s : State) : State :=
  if u.firstDue then askFirst u (setUpd (u.noted run) s)
  else engineAsk u false (u.sources.flatMap fun t => u.spans t (u.master.exts s.mach.logical) run) (setUpd (u.noted run) s)

/-- The state in which a run has presented its reads, once. -/
def runAsked (u : UpdateCtx) (run : Nat) (s : State) : State := if u.batch run ∈ u.asked then s else askRunReads u run s

theorem askRunReads_askOnly (u : UpdateCtx) (run : Nat) (s : State) : AskOnly (setUpd (u.noted run) s) (askRunReads u run s) := by
  unfold askRunReads
  split
  · exact askFirst_askOnly ..
  · exact engineAsk_askOnly ..

/-- What a run presents leaves its update in progress, but for the note that it has presented it. -/
theorem updOf_runAsked {s : State} {u : UpdateCtx} (h : updOf s u.ring u.idx = some u) (run : Nat) :
    updOf (runAsked u run s) u.ring u.idx = some (if u.batch run ∈ u.asked then u else u.noted run) := by
  unfold runAsked
  split
  · exact h
  · rw [updOf, (askRunReads_askOnly u run s).coll_eq]
    exact updOf_setUpd (u := u.noted run) h

/-- The work of a run whose reads are served: pass 1 where it is due, else the run's own (R377, R380). -/
def servedRun (r : Fin 256) (idx : Nat) (first : Bool) (run : Nat) (s : State) : State :=
  match updOf s r idx with
  | none => s
  | some v => if first then firstPass v s else workRun v run s

theorem servedRun_eq {r : Fin 256} {idx : Nat} {first : Bool} {run : Nat} {s : State} {v : UpdateCtx} (h : updOf s r idx = some v) :
    servedRun r idx first run s = if first then firstPass v s else workRun v run s := by
  rw [servedRun, h]

theorem nextRun_eq (u : UpdateCtx) (run : Nat) (s : State) :
    nextRun u run s = onceServed (.desc u.ring u.idx) (servedRun u.ring u.idx u.firstDue run) (runAsked u run s) := by
  have hasked : (if u.asked.contains (u.batch run) then s
      else (if u.firstDue then askFirst u else engineAsk u false (u.sources.flatMap fun t => u.spans t (u.master.exts s.mach.logical) run))
        (setUpd (u.noted run) s)) = runAsked u run s := by
    unfold runAsked askRunReads
    rw [List.contains_eq_mem, ite_apply]
    simp only [decide_eq_true_eq]
  rw [← hasked]
  rfl

/-! ### A published norm reaches an update (R387) -/

section Give
variable {e : NormEntry} {u : UpdateCtx}

theorem giveNorm_unwanted (h : u.waitNorm = false) (s : State) : giveNorm e u s = s := if_pos (by rw [h]; rfl)

variable (hw : u.waitNorm = true) (hid : u.normId = e.id)
include hw hid

theorem giveNorm_factor (he : e.status = 1) (hp : (vwNum e.factor).isPoison = false) (s : State) :
    giveNorm e u s = s.setColl { s.coll with upds := s.coll.upds.map fun v =>
      if v.ring = u.ring && v.idx = u.idx then { v with waitNorm := false, clip := some e.factor } else v } := by
  simp [giveNorm, hw, hid, he, hp]

theorem giveNorm_ends (he : e.status ≠ 1 ∨ (vwNum e.factor).isPoison = true) (s : State) :
    giveNorm e u s = finishDesc u.ring u.idx e.endStatus e.endDetail 0
      (s.setColl { s.coll with upds := s.coll.upds.filter fun v => !(v.ring = u.ring && v.idx = u.idx) }) := by
  have hbad : (decide (e.status = 1) && !(vwNum e.factor).isPoison) = false := by
    obtain h | h := he <;> simp [h]
  simp [giveNorm, hw, hid, hbad]

end Give

end Sys2Proof.Machine
end

section
/-! PROOFS. Norm reductions and optimiser steps: how they start, wait, read and run (R183, R377, R378, R380, R385 to R387). -/
namespace Sys2Proof.Machine
open Sys2Proof

/-! ### NORM_REDUCE -/

section Reduce
variable {s : State} {r : Fin 256} {n : Nat}

theorem normReduce_none (h : descAt s r n 0x41 = none) : exec (.normReduce r n) s = .next s := by
  show execNormReduce r n s = _
  simp only [execNormReduce, h]

variable {c : DescCtx} (h : descAt s r n 0x41 = some c)
include h

theorem normReduce_fault {f : Byte × Half} (hf : normFault s c = some f) :
    exec (.normReduce r n) s = .next (finishDesc r c.idx f.1 f.2 0 s) := by
  show execNormReduce r n s = _
  simp only [execNormReduce, h, hf]

variable (hf : normFault s c = none)
include hf

theorem normReduce_staged (hs : c.staged = true) : exec (.normReduce r n) s = .next (readNorm r c s) := by
  show execNormReduce r n s = _
  simp only [execNormReduce, h, hf, hs, if_true]

variable (hs : c.staged = false)
include hs

/-- Its NORM_ID is being reduced, or pending already. -/
theorem normReduce_taken (ht : (∃ x ∈ s.coll.runs, x.id = dW3 c.word) ∨ ∃ x ∈ s.coll.norms, x.id = dW3 c.word ∧ x.status = 0) :
    exec (.normReduce r n) s = .next s := by
  show execNormReduce r n s = _
  simp only [execNormReduce, h, hf, hs, Bool.false_eq_true, if_false]
  exact if_pos (by simpa using ht)

/-- No entry serves its NORM_ID. -/
theorem normReduce_unmarked (hm : markNorm (dW3 c.word) s = none) : exec (.normReduce r n) s = .next s := by
  show execNormReduce r n s = _
  simp only [execNormReduce, h, hf, hs, hm, Bool.false_eq_true, if_false, ite_self]

theorem normReduce_marks {t : State} (hruns : ∀ x ∈ s.coll.runs, x.id ≠ dW3 c.word)
    (hnorms : ∀ x ∈ s.coll.norms, x.id = dW3 c.word → x.status ≠ 0) (hm : markNorm (dW3 c.word) s = some t) :
    exec (.normReduce r n) s = .next (readNorm r c (modCtx r c.idx (fun y => { y with staged := true }) t)) := by
  show execNormReduce r n s = _
  simp only [execNormReduce, h, hf, hs, hm, Bool.false_eq_true, if_false]
  exact if_neg (by simpa using ⟨hruns, hnorms⟩)

end Reduce

/-! ### UPDATE_STEP -/

/-- The update that an UPDATE_STEP sets out (R377, R378). -/
def updateOf (s : State) (r : Fin 256) (c : DescCtx) : UpdateCtx where
  ring := r
  idx := c.idx
  rule := (bits (dW2 c.word) 0 3 : BitVec 3).toNat
  decayOn := (dW2 c.word).getLsbD 8
  clip := none
  waitNorm := (dW2 c.word).getLsbD 9
  normId := dW3 c.word
  since := s.ns
  step := bits c.word 448 32
  hyper := readHyper (plain (readPlace s (placeOf s (dQ c.word 0x30)) 64))
  master := c.td s (dQ c.word 0x10)
  stateT := if dQ c.word 0x18 = 0 then none else some (c.td s (dQ c.word 0x18))
  grad := c.td s (dQ c.word 0x20)
  compute := c.td s (dQ c.word 0x28)
  gradTd := dQ c.word 0x20
  runsLeft := List.range (runCount (c.td s (dQ c.word 0x28)) ((c.td s (dQ c.word 0x10)).exts s.mach.logical))
  asked := []
  stats := none
  satCnt := 0
  ufzCnt := 0
  edgeCnt := 0
  blockCnt := 0
  badSectors := []
  skipped := false
  trig := none

/-- The state in which an UPDATE_STEP is under way. -/
def updateStarted (s : State) (r : Fin 256) (c : DescCtx) : State :=
  issueDesc r c.idx 0 0 0 (s.setColl { s.coll with upds := s.coll.upds ++ [updateOf s r c] })

theorem updateStarted_frame (s : State) (r : Fin 256) (c : DescCtx) : (updateStarted s r c).coll.upds = s.coll.upds ++ [updateOf s r c]
    ∧ (updateStarted s r c).gddr = s.gddr ∧ (updateStarted s r c).host = s.host := ⟨rfl, rfl, rfl⟩

section Step
variable {s : State} {r : Fin 256} {n : Nat}

theorem updateStep_none (h : descAt s r n 0x40 = none) : exec (.updateStep r n) s = .next s := by
  show execUpdateStep r n s = _
  simp only [execUpdateStep, h]

variable {c : DescCtx} (h : descAt s r n 0x40 = some c)
include h

theorem updateStep_fault {f : Byte × Half} (hf : updateFault s c = some f) :
    exec (.updateStep r n) s = .next (finishDesc r c.idx f.1 f.2 0 s) := by
  show execUpdateStep r n s = _
  simp only [execUpdateStep, h, hf]

variable (hf : updateFault s c = none)
include hf

/-- An empty shard (R186) has nothing to update. -/
theorem updateStep_empty (he : 0 ∈ (c.td s (dQ c.word 0x10)).exts s.mach.logical) :
    exec (.updateStep r n) s = .next (finishDesc r c.idx 0x00 0 0 s) := by
  show execUpdateStep r n s = _
  simp only [execUpdateStep, h, hf]
  exact if_pos (List.contains_iff_mem.2 he)

variable (he : 0 ∉ (c.td s (dQ c.word 0x10)).exts s.mach.logical)
include he

theorem updateStep_unpublished (hn : s.coll.norms.find? (fun e => e.id = dW3 c.word && e.status ≠ 0) = none) :
    exec (.updateStep r n) s = .next (updateStarted s r c) := by
  show execUpdateStep r n s = _
  simp only [execUpdateStep, h, hf, hn]
  exact if_neg fun hc => he (List.contains_iff_mem.1 hc)

theorem updateStep_published {e : NormEntry} (hn : s.coll.norms.find? (fun e => e.id = dW3 c.word && e.status ≠ 0) = some e) :
    exec (.updateStep r n) s = .next (giveNorm e (updateOf s r c) (updateStarted s r c)) := by
  show execUpdateStep r n s = _
  simp only [execUpdateStep, h, hf, hn]
  exact if_neg fun hc => he (List.contains_iff_mem.1 hc)

/-- An UPDATE_STEP that waits for no norm, or for one that is not published, is under way. -/
theorem updateStep_starts (hw : (dW2 c.word).getLsbD 9 = false ∨ ∀ e ∈ s.coll.norms, e.id = dW3 c.word → e.status = 0) :
    exec (.updateStep r n) s = .next (updateStarted s r c) := by
  cases hn : s.coll.norms.find? fun e => e.id = dW3 c.word && e.status ≠ 0 with
  | none => exact updateStep_unpublished h hf he hn
  | some e =>
    obtain hw | hw := hw
    · rw [updateStep_published h hf he hn, giveNorm_unwanted hw]
    · obtain ⟨hmem, hid, hpub⟩ := find_published hn
      exact absurd (hw e hmem hid) hpub

variable {e : NormEntry} (hw : (dW2 c.word).getLsbD 9 = true)
  (hn : s.coll.norms.find? (fun e => e.id = dW3 c.word && e.status ≠ 0) = some e)
include hw hn

theorem updateStep_factor (h1 : e.status = 1) (hp : (vwNum e.factor).isPoison = false) :
    ∃ t, exec (.updateStep r n) s = .next t ∧ { updateOf s r c with waitNorm := false, clip := some e.factor } ∈ t.coll.upds := by
  obtain ⟨-, hid, -⟩ := find_published hn
  refine ⟨_, updateStep_published h hf he hn, ?_⟩
  rw [giveNorm_factor (u := updateOf s r c) hw hid.symm h1 hp]
  exact List.mem_map.2 ⟨updateOf s r c, List.mem_append_right _ (List.mem_singleton_self _), if_pos (by simp)⟩

theorem updateStep_normFails (h1 : e.status ≠ 1 ∨ (vwNum e.factor).isPoison = true) :
    ∃ t, exec (.updateStep r n) s = .next (finishDesc r c.idx e.endStatus e.endDetail 0 t)
      ∧ t.coll.upds = s.coll.upds.filter fun v => !(v.ring = r && v.idx = c.idx) := by
  obtain ⟨-, hid, -⟩ := find_published hn
  refine ⟨_, (updateStep_published h hf he hn).trans
    (congrArg Host.Outcome.next (giveNorm_ends (u := updateOf s r c) hw hid.symm h1 _)), ?_⟩
  rw [State.setColl_coll, (updateStarted_frame s r c).1]
  simp [updateOf]

end Step

/-! ### NORM_WAIT_TIMEOUT and runs -/

section Run
variable {s : State} {r : Fin 256} {n : Nat}

theorem update_undescribed (h : (s.ring r).started[n]? = none) :
    exec (.normWaitTimeout r n) s = .next s ∧ ∀ i, exec (.updateRun r n i) s = .next s := by
  refine ⟨?_, fun i => ?_⟩
  · show execNormWaitTimeout r n s = _
    simp only [execNormWaitTimeout, h]
  · show execUpdateRun r n i s = _
    simp only [execUpdateRun, h]

variable {c : DescCtx} (h : (s.ring r).started[n]? = some c)
include h

theorem update_absent (hx : updOf s r c.idx = none) :
    exec (.normWaitTimeout r n) s = .next s ∧ ∀ i, exec (.updateRun r n i) s = .next s := by
  refine ⟨?_, fun i => ?_⟩
  · show execNormWaitTimeout r n s = _
    simp only [execNormWaitTimeout, h, hx]
  · show execUpdateRun r n i s = _
    simp only [execUpdateRun, h, hx]

variable {x : UpdateCtx} (hx : updOf s r c.idx = some x)
include hx

theorem normWaitTimeout_ends (hw : x.waitNorm = true) (ht : x.since + 100000000 ≤ s.ns) (hn : ∀ e ∈ s.coll.norms, e.id ≠ x.normId) :
    exec (.normWaitTimeout r n) s = .next (finishDesc r c.idx 0x12 0 0
      (s.setColl { s.coll with upds := s.coll.upds.filter fun v => !(v.ring = x.ring && v.idx = x.idx) })) := by
  show execNormWaitTimeout r n s = _
  simp only [execNormWaitTimeout, h, hx]
  exact if_pos (by simpa [hw, ht] using hn)

theorem normWaitTimeout_early (hw : x.waitNorm = false ∨ s.ns < x.since + 100000000 ∨ ∃ e ∈ s.coll.norms, e.id = x.normId) :
    exec (.normWaitTimeout r n) s = .next s := by
  show execNormWaitTimeout r n s = _
  simp only [execNormWaitTimeout, h, hx]
  refine if_neg fun hall => ?_
  simp only [Bool.and_eq_true, decide_eq_true_eq, Bool.not_eq_true', List.any_eq_false] at hall
  obtain ⟨⟨hwait, htime⟩, hnone⟩ := hall
  obtain hw | hw | ⟨e, he, hid⟩ := hw
  · exact Bool.false_ne_true (hw.symm.trans hwait)
  · omega
  · exact hnone e he hid

theorem updateRun_refused {i : Nat}
    (hi : x.waitNorm = true ∨ i ∉ x.runsLeft ∨ runInTurn x (x.master.exts s.mach.logical) i = false) :
    exec (.updateRun r n i) s = .next s := by
  show execUpdateRun r n i s = _
  simp only [execUpdateRun, h, hx]
  refine if_pos ?_
  obtain hi | hi | hi := hi <;> simp [hi]

theorem updateRun_goes {i : Nat} (hw : x.waitNorm = false) (hi : i ∈ x.runsLeft)
    (ht : runInTurn x (x.master.exts s.mach.logical) i = true) (hp : pendingScatter s r c.idx x.gradTd = none) :
    exec (.updateRun r n i) s = .next (nextRun x i s) := by
  have hready : ∀ e k, gradReady s r c.idx x.gradTd e k = true := fun e k => by simp only [gradReady, hp]
  show execUpdateRun r n i s = _
  simp only [execUpdateRun, h, hx]
  exact if_neg (by simp [hw, hi, ht, hready])

end Run

/-- Settles O37: NORM_REDUCE, UPDATE_STEP, the wait for a norm and the runs of an update, each by its own cases. -/
theorem normsAndUpdatesStart : Obligations.NormsAndUpdatesStart := by
  refine ⟨fun s r n => ⟨normReduce_none, updateStep_none, update_undescribed⟩, fun s r n c => ⟨fun h => ?_, fun h => ?_, fun h => ?_⟩⟩
  · refine ⟨fun f => normReduce_fault h, normReduce_staged h, fun hf hs => ?_, fun t hf hs hruns hnorms hm => ?_,
      fun u => ⟨readNorm_blocked, fun hv ha => ?_, fun hv ha => ?_⟩⟩
    · rintro (hruns | hnorms | hm)
      · exact normReduce_taken h hf hs (.inl hruns)
      · exact normReduce_taken h hf hs (.inr hnorms)
      · exact normReduce_unmarked h hf hs hm
    · obtain ⟨e, he, hpending⟩ := markNorm_pending hm
      exact ⟨⟨e, he, hpending⟩, normReduce_marks h hf hs hruns hnorms hm⟩
    · exact (readNorm_visible hv).trans (onceServed_waits ha _)
    · exact (readNorm_visible hv).trans (onceServed_goes ha _)
  · refine ⟨fun f => updateStep_fault h, updateStep_empty h, fun hf he => ⟨fun hw => ?_, fun e hw hn => ⟨fun h1 hp => ?_,
      updateStep_normFails h hf he hw hn⟩⟩⟩
    · obtain ⟨hupds, hgddr, hhost⟩ := updateStarted_frame s r c
      exact ⟨_, updateOf s r c, updateStep_starts h hf he hw, hupds, rfl, rfl, rfl, rfl, rfl, rfl, rfl, rfl, rfl, rfl, rfl, rfl, rfl, rfl,
        rfl, rfl, rfl, hgddr, hhost⟩
    · obtain ⟨t, ht, hu⟩ := updateStep_factor h hf he hw hn h1 hp
      exact ⟨t, _, ht, hu, rfl, rfl, rfl, rfl⟩
  · refine ⟨update_absent h, fun x hx => ⟨normWaitTimeout_ends h hx, normWaitTimeout_early h hx, fun i =>
      ⟨updateRun_refused h hx, fun hw hi ht hp => ?_⟩⟩⟩
    have hgoes := (updateRun_goes h hx hw hi ht hp).trans (congrArg Host.Outcome.next (nextRun_eq x i s))
    obtain ⟨rfl, hidx⟩ := updOf_owner hx
    rw [hidx] at hgoes
    have hasked := updOf_runAsked (u := x) (by rwa [hidx]) i
    rw [hidx] at hasked
    refine ⟨fun ha => hgoes.trans (congrArg Host.Outcome.next (onceServed_waits ha _)), fun ha v hv => ?_, _, hasked, ?_⟩
    · exact hgoes.trans (congrArg Host.Outcome.next ((onceServed_goes ha _).trans (servedRun_eq hv)))
    · split <;> exact ⟨rfl, rfl, rfl, rfl⟩

end Sys2Proof.Machine
end

section
/-! PROOFS. Local store in the field: scrub reads, what a read finds, repair and retirement (R196 to R203). -/
namespace Sys2Proof.Machine
open Sys2Proof

/-! ### Scrub reads (R198) -/

/-- The request of a slice's scrubber for a line of the slice, at the rank of porter accesses. -/
def scrubReq (t : Fin 4) (line : Nat) : PortReq := ⟨.ext .none, 4, 4 * line + t.val, false, 0, false, false⟩

/-- A core whose slice has presented its next scrub read. -/
def Core.scrubbed (t : Fin 4) (co : Core) : Core :=
  addReqs [scrubReq t co.slices[t].scrubLine]
    { co with slices := co.slices.set t { co.slices[t] with scrubLine := (co.slices[t].scrubLine + 1) % 73728 } }

theorem ix_four_line (n : Nat) (t : Fin 4) : ix 4 (4 * n + t.val) = t := by
  ext
  simp [ix, Nat.mod_eq_of_lt t.isLt]

theorem Core.scrubbed_lports (t : Fin 4) (co : Core) : (co.scrubbed t).lports =
    co.lports.set t { co.lports[t] with reqs := co.lports[t].reqs ++ [scrubReq t co.slices[t].scrubLine] } := by
  simp only [Core.scrubbed, addReqs, List.foldl_cons, List.foldl_nil, scrubReq, ix_four_line]

theorem Core.scrubbed_slice (t : Fin 4) (co : Core) : (co.scrubbed t).slices[t] =
    { co.slices[t] with scrubLine := (co.slices[t].scrubLine + 1) % 73728 } := by
  rw [Core.scrubbed, addReqs_eq]
  simp

theorem Core.scrubbed_ls (t : Fin 4) (co : Core) : (co.scrubbed t).ls = co.ls := by
  rw [Core.scrubbed, addReqs_eq]

theorem lsScrubRead_presents {s : State} {c : Fin 384} (t : Fin 4) (hm : s.pwr.mstate ≠ 2)
    (h : (s.cpwr (clusterOf c)).mode = .run ∨ (s.cpwr (clusterOf c)).mode = .idle) :
    exec (.lsScrubRead c t) s = .next (s.modCore c (Core.scrubbed t)) :=
  if_neg (by obtain h | h := h <;> simpa [h] using hm)

theorem lsScrubRead_rests {s : State} {c : Fin 384} (t : Fin 4)
    (h : s.pwr.mstate = 2 ∨ ((s.cpwr (clusterOf c)).mode ≠ .run ∧ (s.cpwr (clusterOf c)).mode ≠ .idle)) :
    exec (.lsScrubRead c t) s = .next s :=
  if_pos (by simpa using h)

/-! ### What a read finds (R196, R197, R204) -/

theorem mem_insSorted {x a : Nat} {l : List Nat} : x ∈ insSorted a l ↔ x = a ∨ x ∈ l := by
  induction l with
  | nil => simp [insSorted]
  | cons b l ih =>
    unfold insSorted
    split
    · simp
    · split
      · next hab => simp [hab]
      · rw [List.mem_cons, List.mem_cons, ih, or_left_comm]

theorem needRepair_eq (t : Fin 4) (line : Nat) (co : Core) :
    needRepair t line co = { co with slices := (needRepair t line co).slices } := by
  simp only [needRepair]
  split <;> rfl

theorem lsPoisonSector_eq (line : Nat) (x : Fin 16) (co : Core) : lsPoisonSector line x co =
    { co with lsPoison := (lsPoisonSector line x co).lsPoison, lsUe := (lsPoisonSector line x co).lsUe } := by
  simp only [lsPoisonSector]
  split <;> rfl

theorem mem_lsPoisonSector {line n : Nat} {x : Fin 16} {co : Core} :
    n ∈ (lsPoisonSector line x co).lsPoison ↔ n = line * 8 + x.val % 8 ∨ n ∈ co.lsPoison := by
  simp only [lsPoisonSector]
  split
  · next h =>
    have hin : line * 8 + x.val % 8 ∈ co.lsPoison := List.contains_iff_mem.1 h
    exact ⟨Or.inr, fun hn => hn.elim (fun e => e ▸ hin) id⟩
  · exact mem_insSorted

/-- The sectors a read found uncorrectable get their poison bits, one after another. -/
def poisonAll (line : Nat) (bad : List (Fin 16)) (co : Core) : Core := bad.foldl (fun co x => lsPoisonSector line x co) co

theorem poisonAll_eq (line : Nat) (bad : List (Fin 16)) (co : Core) : poisonAll line bad co =
    { co with lsPoison := (poisonAll line bad co).lsPoison, lsUe := (poisonAll line bad co).lsUe } := by
  induction bad generalizing co with
  | nil => rfl
  | cons x bad ih =>
    rw [poisonAll, List.foldl_cons, ← poisonAll, ih, lsPoisonSector_eq]

theorem mem_poisonAll {line n : Nat} {bad : List (Fin 16)} {co : Core} :
    n ∈ (poisonAll line bad co).lsPoison ↔ (∃ x ∈ bad, n = line * 8 + x.val % 8) ∨ n ∈ co.lsPoison := by
  induction bad generalizing co with
  | nil => simp [poisonAll]
  | cons x bad ih =>
    rw [poisonAll, List.foldl_cons, ← poisonAll, ih, mem_lsPoisonSector, List.exists_mem_cons_iff, or_left_comm, or_assoc]

/-- A core with the corrections of a read counted, and the line's row noted for repair where it needs one. -/
def Core.noted (t : Fin 4) (line : Nat) (e : Ecc) (co : Core) : Core :=
  if e.again || !e.bad.isEmpty then needRepair t line { co with lsCe := satAdd co.lsCe e.corrected }
  else { co with lsCe := satAdd co.lsCe e.corrected }

theorem Core.noted_eq (t : Fin 4) (line : Nat) (e : Ecc) (co : Core) :
    co.noted t line e = { co with lsCe := satAdd co.lsCe e.corrected, slices := (co.noted t line e).slices } := by
  unfold Core.noted
  split
  · rw [needRepair_eq]
  · rfl

theorem lsFind_eq_poisonAll (t : Fin 4) (line : Nat) (e : Ecc) (co : Core) :
    lsFind t line e co = poisonAll line e.bad (co.noted t line e) := rfl

theorem lsFind_counts (t : Fin 4) (line : Nat) (e : Ecc) (co : Core) :
    (lsFind t line e co).lsCe = satAdd co.lsCe e.corrected ∧ (lsFind t line e co).ls = co.ls := by
  rw [lsFind_eq_poisonAll, poisonAll_eq, Core.noted_eq]
  exact ⟨rfl, rfl⟩

theorem lsFind_marks {t : Fin 4} {line : Nat} {e : Ecc} {co : Core} {x : Fin 16} (h : x ∈ e.bad) :
    line * 8 + x.val % 8 ∈ (lsFind t line e co).lsPoison := by
  rw [lsFind_eq_poisonAll]
  exact mem_poisonAll.2 (.inl ⟨x, h, rfl⟩)

theorem lsFind_clean {t : Fin 4} {line : Nat} {e : Ecc} {co : Core} (h : e.bad = []) :
    (lsFind t line e co).lsPoison = co.lsPoison ∧ (lsFind t line e co).lsUe = co.lsUe := by
  rw [lsFind_eq_poisonAll, h, Core.noted_eq]
  exact ⟨rfl, rfl⟩

/-! ### Repair (R199 to R203) -/

theorem EventOnly.cores {s t : State} (h : EventOnly s t) : t.cores = s.cores := by rw [h]

theorem EventOnly.core {s t : State} (h : EventOnly s t) (c : Fin 384) : t.core c = s.core c := by
  rw [State.core, h.cores, ← State.core]

theorem EventOnly.cluster {s t : State} (h : EventOnly s t) (cl : Fin 48) : t.cluster cl = s.cluster cl := by
  rw [State.cluster, h.clusters, ← State.cluster]

theorem repairEvent_eventOnly (c : Fin 384) (kind t mat : Nat) (s : State) : EventOnly s (repairEvent c kind t mat s) :=
  (postEvent_eventOnly ..).trans (ledgerAdd_eventOnly ..)

theorem setDegraded_core (s : State) (c : Fin 384) : (setDegraded s).core c = s.core c := (setDegraded_eventOnly s).core c
theorem setDegraded_cluster (s : State) (cl : Fin 48) : (setDegraded s).cluster cl = s.cluster cl := (setDegraded_eventOnly s).cluster cl
theorem setDegraded_degraded (s : State) : (setDegraded s).boot.degraded = true := by rw [(setDegraded_eventOnly s).boot]; rfl

/-- A core with a slice changed. -/
def Core.modSlice (t : Fin 4) (f : TierSlice → TierSlice) (co : Core) : Core := { co with slices := co.slices.set t (f co.slices[t]) }

/-- A core whose slice has repaired a row: one repair more counts. -/
def Core.repaired (t : Fin 4) (f : TierSlice → TierSlice) (co : Core) : Core :=
  { co.modSlice t f with lsRepair := satAdd co.lsRepair 1 }

/-- A core that is to retire, for a row its slice could not repair. -/
def Core.toRetire (t : Fin 4) (f : TierSlice → TierSlice) (co : Core) : Core := { co.modSlice t f with retire := true }

theorem modSlice_modCore (c : Fin 384) (t : Fin 4) (f : TierSlice → TierSlice) (g : Core → Core) (s : State) :
    ((modSlice c t f s).modCore c g).core c = g ((s.core c).modSlice t f) := by
  rw [State.modCore_same, modSlice, State.modCore_same]
  rfl

/-- What a repair that goes through leaves of its core: the slice changed, and one repair more. -/
theorem repairEvent_core (c : Fin 384) (t : Fin 4) (f : TierSlice → TierSlice) (kind mat : Nat) (s : State) :
    (repairEvent c kind t.val mat ((modSlice c t f s).modCore c fun co => { co with lsRepair := satAdd co.lsRepair 1 })).core c =
      (s.core c).repaired t f := by
  rw [(repairEvent_eventOnly ..).core, modSlice_modCore]
  rfl

section Repair
variable {s : State} {c : Fin 384} {t : Fin 4}

theorem repairs_none (h : (s.core c).slices[t].repairs = []) :
    exec (.rowRepair c t) s = .next s ∧ exec (.matReplacement c t) s = .next s := by
  constructor
  · show execRowRepair c t s = _
    simp only [execRowRepair, h]
  · show execMatReplacement c t s = _
    simp only [execMatReplacement, h]

variable {x : Nat × Nat} {rest : List (Nat × Nat)} (h : (s.core c).slices[t].repairs = x :: rest)
include h

theorem rowRepair_moves (hs : 0 < spareRows c t (s.core c) x.1) :
    ∃ u, exec (.rowRepair c t) s = .next u
      ∧ u.core c = (s.core c).repaired t fun sl => { sl with repairs := rest, rowsUsed := sl.rowsUsed ++ [x] } := by
  refine ⟨_, ?_, repairEvent_core c t _ 0 x.1 s⟩
  show execRowRepair c t s = _
  simp only [execRowRepair, h, hs, if_true]

theorem matReplacement_refused (hs : 0 < spareRows c t (s.core c) x.1 ∨ (s.core c).slices[t].matSpent = true) :
    exec (.matReplacement c t) s = .next s := by
  show execMatReplacement c t s = _
  simp only [execMatReplacement, h]
  exact if_pos (by simpa using hs)

variable (hs : spareRows c t (s.core c) x.1 = 0)
include hs

theorem rowRepair_retires (hm : (s.core c).slices[t].matSpent = true) :
    ∃ u, exec (.rowRepair c t) s = .next u
      ∧ u.core c = (s.core c).toRetire t fun sl => { sl with repairs := rest, unrepaired := sl.unrepaired ++ [x] } := by
  refine ⟨_, ?_, modSlice_modCore c t _ (fun co => { co with retire := true }) s⟩
  show execRowRepair c t s = _
  simp only [execRowRepair, h, hs, hm, lt_irrefl, if_false, if_true]

theorem rowRepair_waits (hm : (s.core c).slices[t].matSpent = false) : exec (.rowRepair c t) s = .next s := by
  show execRowRepair c t s = _
  simp only [execRowRepair, h, hs, hm, lt_irrefl, Bool.false_eq_true, if_false]

theorem matReplacement_moves (hm : (s.core c).slices[t].matSpent = false) :
    ∃ u, exec (.matReplacement c t) s = .next u
      ∧ u.core c = (s.core c).repaired t fun sl => { sl with
          repairs := rest, matSpent := true, replacedMat := some x.1, rowsUsed := sl.rowsUsed.filter fun y => y.1 ≠ x.1 } := by
  refine ⟨_, ?_, repairEvent_core c t _ 1 x.1 s⟩
  show execMatReplacement c t s = _
  simp only [execMatReplacement, h, hs, hm, lt_irrefl, decide_false, Bool.or_self, Bool.false_eq_true, if_false]

end Repair

/-! ### Retirement (R203, R473) -/

/-- Whether every core of a cluster is retired. -/
def clusterRetired (s : State) (cl : Fin 48) : Bool := (List.range 8).all fun j => (s.core (coreOf cl j)).retired

theorem clusterOut_core (cl : Fin 48) (cause : Byte) (s : State) (c : Fin 384) : (clusterOut cl cause s).core c = s.core c := by
  unfold clusterOut
  split
  · rfl
  · rw [(postEvent_eventOnly ..).core, setDegraded_core]
    rfl

theorem clusterOut_inService (cl : Fin 48) (cause : Byte) (s : State) : ((clusterOut cl cause s).cluster cl).inService = false := by
  unfold clusterOut
  split
  · simp_all
  · rw [postEvent_cluster, setDegraded_cluster, State.modCluster_same]

theorem clusterOut_degraded {s : State} (h : s.boot.degraded = true) (cl : Fin 48) (cause : Byte) :
    (clusterOut cl cause s).boot.degraded = true := by
  unfold clusterOut
  split
  · exact h
  · rw [postEvent_boot, setDegraded_degraded]

/-- A state in which a core has retired, its cluster not yet looked at. -/
def coreRetired (c : Fin 384) (s : State) : State :=
  setDegraded (postEvent 0x0103 2 (src c.val) [] (s.setCore c { s.core c with retired := true }))

theorem coreRetired_core (c d : Fin 384) (s : State) :
    (coreRetired c s).core d = (s.setCore c { s.core c with retired := true }).core d := by
  rw [coreRetired, setDegraded_core, (postEvent_eventOnly ..).core]

theorem coreRetired_cluster (c : Fin 384) (s : State) (cl : Fin 48) : (coreRetired c s).cluster cl = s.cluster cl := by
  rw [coreRetired, setDegraded_cluster, postEvent_cluster]
  rfl

/-- A state in which a core has retired, and its cluster with it where it was the last. -/
def retiredFrom (c : Fin 384) (s : State) : State :=
  if clusterRetired (coreRetired c s) (clusterOf c) then clusterOut (clusterOf c) 4 (coreRetired c s) else coreRetired c s

theorem retiredFrom_core (c d : Fin 384) (s : State) :
    (retiredFrom c s).core d = (s.setCore c { s.core c with retired := true }).core d := by
  unfold retiredFrom
  split
  · rw [clusterOut_core, coreRetired_core]
  · exact coreRetired_core c d s

theorem retiredFrom_degraded (c : Fin 384) (s : State) : (retiredFrom c s).boot.degraded = true := by
  unfold retiredFrom
  split
  · exact clusterOut_degraded (setDegraded_degraded _) _ _
  · exact setDegraded_degraded _

theorem clusterRetired_retiredFrom (c : Fin 384) (s : State) (cl : Fin 48) :
    clusterRetired (retiredFrom c s) cl = clusterRetired (coreRetired c s) cl := by
  simp only [clusterRetired, retiredFrom_core, coreRetired_core]

theorem retiredFrom_inService (c : Fin 384) (s : State) : ((retiredFrom c s).cluster (clusterOf c)).inService =
    ((s.cluster (clusterOf c)).inService && !clusterRetired (retiredFrom c s) (clusterOf c)) := by
  rw [clusterRetired_retiredFrom, retiredFrom]
  split
  · next h => rw [clusterOut_inService, h, Bool.not_true, Bool.and_false]
  · next h => rw [coreRetired_cluster, Bool.eq_false_iff.2 h, Bool.not_false, Bool.and_true]

theorem coreRetirement_retires {s : State} {c : Fin 384} (hr : (s.core c).retire = true) (hn : (s.core c).retired = false)
    (hl : (s.cluster (clusterOf c)).launch = none) : exec (.coreRetirement c) s = .next (retiredFrom c s) := by
  have hgo : ¬ (!(s.core c).retire || (s.core c).retired || (s.cluster (clusterOf c)).launch.isSome) = true := by simp [hr, hn, hl]
  refine (if_neg hgo).trans ?_
  rw [retiredFrom, apply_ite Host.Outcome.next]
  rfl

theorem coreRetirement_waits {s : State} {c : Fin 384}
    (h : (s.core c).retire = false ∨ (s.core c).retired = true ∨ (s.cluster (clusterOf c)).launch.isSome = true) :
    exec (.coreRetirement c) s = .next s :=
  if_pos (by simpa [or_assoc] using h)

/-- Settles O27: the scrubber, what a read finds, the two repairs and retirement, each by its own cases. -/
theorem localStoreRepairs : Obligations.LocalStoreRepairs := by
  refine ⟨fun s c t => ⟨fun hm hmode => ?_, lsScrubRead_rests t⟩, fun co t line e => ?_, fun s c t => repairs_none,
    fun s c t x rest h hs => ⟨?_, matReplacement_refused h (.inl hs)⟩, fun s c t x rest h hs => ⟨fun hm => ⟨?_, ?_⟩, fun hm => ⟨?_, ?_⟩⟩,
    fun s c => ⟨fun hr hn hl => ?_, coreRetirement_waits⟩⟩
  · refine ⟨_, lsScrubRead_presents t hm hmode, ?_⟩
    simp only [State.modCore_same, Core.scrubbed_slice, Core.scrubbed_lports, Core.scrubbed_ls]
    refine ⟨trivial, by simp [scrubReq], fun t' ht => ?_, trivial, fun c' hc => State.modCore_other _ _ _ _ hc.symm⟩
    exact Vector.getElem_set_ne _ _ fun e => ht (Fin.ext e.symm)
  · obtain ⟨hce, hls⟩ := lsFind_counts t line e co
    exact ⟨hce, hls, fun x hx => lsFind_marks hx, lsFind_clean⟩
  · obtain ⟨u, hu, hcore⟩ := rowRepair_moves h hs
    refine ⟨u, hu, ?_⟩
    simp [hcore, Core.repaired, Core.modSlice]
  · obtain ⟨u, hu, hcore⟩ := rowRepair_retires h hs hm
    refine ⟨u, hu, ?_⟩
    simp [hcore, Core.toRetire, Core.modSlice]
  · exact matReplacement_refused h (.inr hm)
  · obtain ⟨u, hu, hcore⟩ := matReplacement_moves h hs hm
    refine ⟨u, hu, ?_⟩
    simp [hcore, Core.repaired, Core.modSlice]
  · exact rowRepair_waits h hs hm
  · refine ⟨_, coreRetirement_retires hr hn hl, ?_, retiredFrom_degraded c s, retiredFrom_inService c s, fun c' hc => ?_⟩
    · rw [retiredFrom_core, State.setCore_same]
    · rw [retiredFrom_core, State.setCore_other _ _ _ _ hc.symm]

end Sys2Proof.Machine
end

section
/-! PROOFS. Operands of descriptors, read here or at a partner, and the bytes that descriptors leave in host memory (R261, R320). -/
namespace Sys2Proof.Machine
open Sys2Proof

/-! ### Bytes and their marks -/

theorem plain_unmarked (bs : List Byte) : plain (bs.map fun b => (b, false)) = bs := by simp [plain, Function.comp_def]

theorem markedSectors_unmarked (a : Nat) (bs : List Byte) : markedSectors a (bs.map fun b => (b, false)) = 0 := by
  rw [markedSectors, List.length_eq_zero_iff, List.filter_eq_nil_iff]
  intro x _
  simp [← List.map_drop, ← List.map_take]

/-- A part of the bytes written at an address reads back, in a canonical memory. -/
theorem Memory.getBytes_putBytes_part {m : Memory} (h : m.wf = true) (a : Nat) (bs : List Byte) {k n : Nat} (hk : k + n ≤ bs.length) :
    (m.putBytes a bs).getBytes (a + k) n = (bs.drop k).take n := by
  conv_rhs => rw [← m.getBytes_putBytes a bs h]
  rw [Memory.drop_getBytes, Memory.take_getBytes _ _ (by omega)]

/-! ### Requests of a descriptor -/

section Ask
variable {r : Fin 256} {c : DescCtx} {k : Nat} {ask : State → State} {s : State}

theorem askDesc_presented (h : k < c.asked) : askDesc r c k ask s = s := if_pos h

theorem askDesc_host (h : ∀ t, AskOnly t (ask t)) : (askDesc r c k ask s).host = s.host := by
  unfold askDesc
  split
  · rfl
  · rw [h (modCtx r c.idx _ s)]
    rfl

end Ask

/-! ### Reading an operand (R320) -/

section Operand
variable {s : State} {r : Fin 256} {c : DescCtx} {k cls n : Nat} {d : Dword} {go : List MByte → State → State}

/-- The state in which a descriptor has presented the read of an operand. -/
def operandAsked (r : Fin 256) (c : DescCtx) (k cls n : Nat) (p : Place) (s : State) : State :=
  askDesc r c k (acceptAt (.desc r c.idx) cls false p n) s

theorem withOperand_near (hp : ∀ m low, placeOf s d ≠ .remote m low) : withOperand r c k cls d n go s =
    onceServed (.desc r c.idx) (fun t => go (readPlace t (placeOf s d) n) t) (operandAsked r c k cls n (placeOf s d) s) := by
  unfold withOperand
  cases hq : placeOf s d with
  | remote m low => exact absurd hq (hp m low)
  | _ => rfl

theorem withOperand_far {m : Half} {low : BitVec 44} (hp : placeOf s d = .remote m low) : withOperand r c k cls d n go s =
    if c.staged then go ((c.stage.getBytes 0 n).map fun b => (b, decide (c.status = 0x10))) s else fetchOperand r c d n s := by
  unfold withOperand
  rw [hp]
  rfl

theorem fetchOperand_waits (h : descWaits s r c.idx = true) : fetchOperand r c d n s = s := if_pos (by simp [h])

theorem fetchOperand_starts (hs : c.staged = false) (h : descWaits s r c.idx = false) :
    fetchOperand r c d n s = fitTxns s (transfer (.desc r c.idx) 2 (placeOf s d) .bad stageAddr n s s).1 :=
  if_neg (by simp [hs, h])

/-- An operand in host memory whose read has been presented and served. -/
theorem withOperand_host {a : Nat} (hp : placeOf s d = .host a) (hk : k < c.asked) (ha : asking s (.desc r c.idx) = false) :
    withOperand r c k cls d n go s = go ((s.host.getBytes a n).map fun b => (b, false)) s := by
  rw [withOperand_near (by simp [hp]), operandAsked, askDesc_presented hk, onceServed_goes ha, hp]
  rfl

end Operand

/-! ### Ending with what was written (R261) -/

theorem endOrWait_eq (r : Fin 256) (idx : Nat) (status : Byte) (detail : Half) (result : Dword) (s : State) :
    endOrWait r idx status detail result s = { s with rings := (endOrWait r idx status detail result s).rings } := by
  unfold endOrWait
  split
  · exact issueDesc_eq ..
  · exact finishDesc_eq ..

/-- A descriptor that has written host memory and opened no transaction ends, and nothing else changes. -/
theorem ended_setHost (r : Fin 256) (idx : Nat) (status : Byte) (detail : Half) (result : Dword) (m : Memory) (s : State) :
    (let t := fitTxns s (endOrWait r idx status detail result (s.setHost m))
    t.host = m ∧ t.gddr = s.gddr ∧ t.cores = s.cores) := by
  have hmach : (endOrWait r idx status detail result (s.setHost m)).mach = s.mach := by
    rw [endOrWait_eq]
    rfl
  rw [fitTxns_of_mach hmach, endOrWait_eq]
  exact ⟨rfl, rfl, rfl⟩

theorem writeOut_host {s : State} {d : Dword} {a : Nat} (hp : placeOf s d = .host a) (o : TxnOwner) (cls : Nat) (bs : List MByte) :
    writeOut o cls d bs s = s.setHost (s.host.putBytes a (plain bs)) := by
  unfold writeOut
  rw [hp]
  rfl

/-- A descriptor that answers with bytes at an address of host memory writes them and nothing else. -/
theorem answered_host {s : State} {d : Dword} {a : Nat} (hp : placeOf s d = .host a) (r : Fin 256) (idx cls : Nat) (status : Byte)
    (detail : Half) (result : Dword) (o : TxnOwner) (bs : List Byte) :
    (let t := fitTxns s (endOrWait r idx status detail result (writeOut o cls d (bs.map fun b => (b, false)) s))
    t.host = s.host.putBytes a bs ∧ t.gddr = s.gddr ∧ t.cores = s.cores) := by
  rw [writeOut_host hp, plain_unmarked]
  exact ended_setHost ..

end Sys2Proof.Machine
end

section
/-! PROOFS. GATHER, COPY in tensor mode, STATE and DIAG of counter blocks (R225, R261, R262, R265, R493). -/
namespace Sys2Proof.Machine
open Sys2Proof

/-! ### Rows of a GATHER (R225) -/

/-- A search finds the value at the first member of a list that has one. -/
theorem findSome?_first {α β : Type} {f : α → Option β} {l : List α} {m : Nat} {x : α} {y : β} (hx : l[m]? = some x) (hf : f x = some y)
    (hb : ∀ k z, k < m → l[k]? = some z → f z = none) : l.findSome? f = some y := by
  induction l generalizing m with
  | nil => simp at hx
  | cons a l ih =>
    cases m with
    | zero =>
      obtain rfl : a = x := by simpa using hx
      rw [List.findSome?_cons, hf]
    | succ m =>
      rw [List.findSome?_cons, hb 0 a (by omega) rfl]
      exact ih (by simpa using hx) fun k z hk hz => hb (k + 1) z (by omega) (by simpa using hz)

/-- Lists of one length, one after another: how long they are, and the one in place i. -/
theorem flatMap_length_const {α β : Type} {f : α → List β} {l : List α} {k : Nat} (h : ∀ x ∈ l, (f x).length = k) :
    (l.flatMap f).length = k * l.length := by
  rw [List.length_flatMap, List.map_congr_left h, List.map_const', List.sum_replicate, smul_eq_mul, Nat.mul_comm]

theorem flatMap_drop_take {α β : Type} {f : α → List β} {l : List α} {k i : Nat} {x : α} (h : ∀ x ∈ l, (f x).length = k)
    (hi : l[i]? = some x) : ((l.flatMap f).drop (k * i)).take k = f x := by
  induction l generalizing i with
  | nil => simp at hi
  | cons a l ih =>
    have ha : (f a).length = k := h a List.mem_cons_self
    cases i with
    | zero =>
      obtain rfl : a = x := by simpa using hi
      simp [← ha]
    | succ i =>
      rw [List.flatMap_cons, Nat.mul_succ, Nat.add_comm, ← List.drop_drop, ← ha, List.drop_left, ha]
      exact ih (fun x hx => h x (List.mem_cons_of_mem a hx)) (by simpa using hi)

/-- The rows that a list of 8-byte addresses in a memory names. -/
theorem gatherList_getBytes (m : Memory) (a count : Nat) : gatherList (m.getBytes a (8 * count)) =
    (List.range count).map fun i => BitVec.ofNat 64 (m.getLE (a + 8 * i) 8) := by
  have hlen : ((m.getBytes a (8 * count)).length + 8 - 1) / 8 = count := by
    rw [Memory.getBytes, List.length_map, List.length_range]
    omega
  rw [gatherList, chunks, hlen, List.map_map]
  refine List.map_congr_left fun i hi => ?_
  have hi' : i < count := List.mem_range.1 hi
  exact congrArg (BitVec.ofNat 64) (Memory.leNat_getBytes_part m a (8 * i) (by omega))

/-- A row that is not refused lies in GDDR7. -/
theorem rowFault_none {s : State} {d : Dword} (h : rowFault s d = none) : ∃ p, placeOf s d = .gddr p := by
  unfold rowFault at h
  split at h
  · next p hp => exact ⟨p, hp⟩
  · cases h

theorem plain_readPlace_gddr (s : State) (p n : Nat) : plain (readPlace s (.gddr p) n) = s.gddr.mem.getBytes p n := by
  simp [plain, readPlace, Memory.getBytes]

theorem plain_readPlace_host (s : State) (a n : Nat) : plain (readPlace s (.host a) n) = s.host.getBytes a n :=
  plain_unmarked _

/-- The bytes of the rows that a list names. -/
def rowBytes (s : State) (rows : List Dword) : List Byte := rows.flatMap fun d => plain (readPlace s (placeOf s d) 32)

theorem rowBytes_parts {s : State} {rows : List Dword} (h : ∀ d ∈ rows, rowFault s d = none) :
    ∀ d ∈ rows, (plain (readPlace s (placeOf s d) 32)).length = 32 := by
  intro d hd
  obtain ⟨p, hp⟩ := rowFault_none (h d hd)
  rw [hp, plain_readPlace_gddr, Memory.getBytes, List.length_map, List.length_range]

theorem gatherRows_host {s : State} {d : Dword} {a : Nat} (hp : placeOf s d = .host a) (o : TxnOwner) (cls : Nat) (rows : List Dword) :
    (gatherRows o cls rows d s).1 = s.setHost (s.host.putBytes a (rowBytes s rows)) := by
  have hbytes : plain (rows.flatMap fun d => readPlace s (placeOf s d) 32) = rowBytes s rows := List.map_flatMap ..
  unfold gatherRows
  rw [hp, ← hbytes]
  rfl

/-- Rows packed at an address of host memory: each stands at its own 32 bytes, in a canonical memory. -/
theorem rowBytes_packed {s : State} {rows : List Dword} (h : ∀ d ∈ rows, rowFault s d = none) (hwf : s.host.wf = true) (a : Nat) {i : Nat}
    {d : Dword} (hi : rows[i]? = some d) {p : Nat} (hp : placeOf s d = .gddr p) :
    (s.host.putBytes a (rowBytes s rows)).getBytes (a + 32 * i) 32 = s.gddr.mem.getBytes p 32 := by
  obtain ⟨hlt, -⟩ := List.getElem?_eq_some_iff.1 hi
  rw [Memory.getBytes_putBytes_part hwf a _ (by rw [rowBytes, flatMap_length_const (rowBytes_parts h)]; omega), rowBytes,
    flatMap_drop_take (rowBytes_parts h) hi, hp, plain_readPlace_gddr]

/-! ### GATHER (R225, R261) -/

/-- What a GATHER is refused with for one of its rows (R265). -/
def rowRefusal (f : Byte × Half) : Byte × Half := if f.1 = stMalformed then (f.1, 0x8000) else f

theorem rowRefusal_eq (f : Byte × Half) : rowRefusal f = (f.1, if f.1 = 0x30 then 0x8000 else f.2) := by
  by_cases h : f.1 = 0x30
  · exact (if_pos h).trans (by rw [if_pos h])
  · exact (if_neg h).trans (by rw [if_neg h])

section Rows
variable {r : Fin 256} {c : DescCtx} {lb : List MByte} {u : State}

/-- The state in which a GATHER has presented its rows. -/
def gatherAsked (r : Fin 256) (c : DescCtx) (lb : List MByte) (u : State) : State :=
  askDesc r c 1 (askRows (.desc r c.idx) 2 (gatherList (plain lb)) (placeOf u (dQ c.word 0x18))) u

/-- A GATHER whose rows have been served packs them and ends. -/
def gatherNow (r : Fin 256) (c : DescCtx) (lb : List MByte) (t : State) : State :=
  let rows := gatherList (plain lb)
  let y := readStatus (markedSectors (placeOf t (dQ c.word 0x10)).off lb
    + (rows.map fun d => markedSectors (placeOf t d).off (readPlace t (placeOf t d) 32)).foldl (· + ·) 0)
  fitTxns t (endOrWait r c.idx y.1 y.2 0 (gatherRows (.desc r c.idx) 2 rows (dQ c.word 0x18) t).1)

theorem gatherDesc_refused {m : Nat} {x : Dword} {f : Byte × Half} (hx : (gatherList (plain lb))[m]? = some x) (hf : rowFault u x = some f)
    (hb : ∀ (k : Nat) (z : Dword), k < m → (gatherList (plain lb))[k]? = some z → rowFault u z = none) :
    gatherDesc r c lb u = finishDesc r c.idx f.1 (if f.1 = 0x30 then 0x8000 else f.2) 0 u := by
  simp only [gatherDesc]
  rw [findSome?_first hx (y := rowRefusal f), rowRefusal_eq]
  · rw [hf]
    rfl
  · intro k z hk hz
    rw [hb k z hk hz]

theorem gatherDesc_reaches (h : ∀ x ∈ gatherList (plain lb), rowFault u x = none) :
    gatherDesc r c lb u = onceServed (.desc r c.idx) (gatherNow r c lb) (gatherAsked r c lb u) := by
  simp only [gatherDesc]
  rw [List.findSome?_eq_none_iff.2]
  · rfl
  · intro x hx
    rw [h x hx]

end Rows

section Gather
variable {s : State} {r : Fin 256} {n : Nat}

theorem gather_none (h : descAt s r n 0x11 = none) : exec (.gatherDesc r n) s = .next s := by
  show execGatherDesc r n s = _
  simp only [execGatherDesc, h]

variable {c : DescCtx} (h : descAt s r n 0x11 = some c)
include h

theorem gather_fault {f : Byte × Half} (hf : gatherFault s c.word = some f) :
    exec (.gatherDesc r n) s = .next (finishDesc r c.idx f.1 f.2 0 s) := by
  show execGatherDesc r n s = _
  simp only [execGatherDesc, h, hf]

variable (hf : gatherFault s c.word = none)
include hf

theorem gather_reads : exec (.gatherDesc r n) s =
    .next (withOperand r c 0 2 (dQ c.word 0x10) (8 * (dW2 c.word).toNat) (gatherDesc r c) s) := by
  show execGatherDesc r n s = _
  simp only [execGatherDesc, h, hf]

/-- A GATHER between addresses of host memory whose reads have been served packs its rows. -/
theorem gather_host {a d : Nat} (hk : c.asked = 2) (ha : asking s (.desc r c.idx) = false) (hsrc : placeOf s (dQ c.word 0x10) = .host a)
    (hdst : placeOf s (dQ c.word 0x18) = .host d)
    (hrows : ∀ x ∈ gatherList (s.host.getBytes a (8 * (dW2 c.word).toNat)), rowFault s x = none) :
    ∃ t, exec (.gatherDesc r n) s = .next t
      ∧ t.host = s.host.putBytes d (rowBytes s (gatherList (s.host.getBytes a (8 * (dW2 c.word).toNat))))
      ∧ t.gddr = s.gddr ∧ t.cores = s.cores := by
  rw [← plain_unmarked (s.host.getBytes a _)] at hrows
  refine ⟨_, gather_reads h hf, ?_⟩
  rw [withOperand_host hsrc (by omega) ha, gatherDesc_reaches hrows, gatherAsked, askDesc_presented (by omega), onceServed_goes ha]
  dsimp only [gatherNow]
  rw [gatherRows_host hdst, plain_unmarked]
  exact ended_setHost ..

end Gather

/-! ### COPY in tensor mode (R493) -/

/-- What no step of a fold changes, the fold leaves. -/
theorem foldl_leaves {α β γ : Type} (g : β → γ) (f : β → α → β) (h : ∀ b a, g (f b a) = g b) (l : List α) (b : β) :
    g (l.foldl f b) = g b := by
  induction l generalizing b with
  | nil => rfl
  | cons a l ih => exact (ih _).trans (h b a)

theorem writePlace_gddr_host (a : Nat) (bs : List MByte) (s : State) : (writePlace (.gddr a) bs s).host = s.host := by
  simp only [writePlace]
  split
  · rfl
  · exact forAll_leaves State.host _ _ _ fun i t => by split <;> rfl

/-- Tensors lie in local stores and in GDDR7 (R179): what is stored to one leaves host memory alone. -/
theorem Tensor.put_host (t : Tensor) (core a : Nat) (bs : List Byte) (s : State) : (t.put core a bs s).host = s.host := by
  simp only [Tensor.put, Tensor.place]
  split
  · rfl
  · exact writePlace_gddr_host ..

theorem Tensor.putCodes_host (t : Tensor) (ext : List Nat) (l0 : Nat) (tl cs : List Nat) (s : State) :
    (t.putCodes ext l0 tl cs s).host = s.host := t.put_host ..

theorem Tensor.putScale_host (t : Tensor) (ext : List Nat) (l0 : Nat) (tl : List Nat) (sc : Byte) (s : State) :
    (t.putScale ext l0 tl sc s).host = s.host := by
  simp only [Tensor.putScale]
  split
  · exact t.put_host ..
  · rfl

theorem Tensor.storeSeg_host (t : Tensor) (ext : List Nat) (mode : Nat) (sr : Bool) (rnd : Nat → Nat) (at_ : Nat) (tl : List Nat)
    (xs : List FNum) (s : State) : (t.storeSeg ext mode sr rnd at_ tl xs s).1.host = s.host := by
  refine foldl_leaves (fun x : State × Ev => x.1.host) _ (fun x b => ?_) _ (s, Ev.none)
  dsimp only
  split
  · rw [t.putScale_host, t.putCodes_host]
  · rw [t.putCodes_host]

theorem copyRowCodes_host (a b : Tensor) (ea eb tl : List Nat) (v : State) (x : State × Ev) :
    (copyRowCodes a b ea eb tl v x).1.host = x.1.host :=
  foldl_leaves State.host _ (fun _ _ => b.putCodes_host ..) _ x.1

theorem tensorCopy_host (a b : Tensor) (mode : Nat) (sr xpose : Bool) (seed : Word) (s : State) :
    (tensorCopy a b mode sr xpose seed s).1.host = s.host := by
  simp only [tensorCopy]
  split
  · exact foldl_leaves (fun x : State × Ev => x.1.host) _ (fun x tl => copyRowCodes_host ..) _ (s, Ev.none)
  · refine foldl_leaves (fun x : State × Ev => x.1.host) _ (fun x row => ?_) _ (s, Ev.none)
    dsimp only
    rw [b.storeSeg_host]

theorem landAt_eq (o : TxnOwner) (cls : Nat) (p : Place) (n : Nat) (s : State) :
    landAt o cls p n s = s.setGddr { s.gddr with chans := (landAt o cls p n s).gddr.chans } := by
  simp only [landAt]
  split
  · exact gdAccept_eq ..
  · rfl

/-- What writes present as they take effect changes the channels alone. -/
theorem landAll_eq (o : TxnOwner) (cls : Nat) (writes : List (Place × Nat)) (s : State) :
    landAll o cls writes s = s.setGddr { s.gddr with chans := (landAll o cls writes s).gddr.chans } := by
  rw [landAll]
  induction writes generalizing s with
  | nil => rfl
  | cons x writes ih =>
    rw [List.foldl_cons, ih, landAt_eq]
    rfl

/-- A tensor copy that moves its data leaves memories as the movement does. -/
theorem copyTensorNow_frame (r : Fin 256) (c : DescCtx) (a b : Tensor) (s : State) :
    (let z := (tensorCopy a b (bits (dW2 c.word) 2 2 : BitVec 2).toNat ((dW2 c.word).getLsbD 1) ((dW2 c.word).getLsbD 4) (dW3 c.word) s).1
    (copyTensorNow r c a b s).gddr.mem = z.gddr.mem ∧ (copyTensorNow r c a b s).gddr.poison = z.gddr.poison
      ∧ (copyTensorNow r c a b s).cores = z.cores ∧ (copyTensorNow r c a b s).host = s.host) := by
  dsimp only [copyTensorNow]
  rw [endOrWait_eq, landAll_eq]
  exact ⟨rfl, rfl, rfl, tensorCopy_host ..⟩

/-- Why a tensor-mode COPY is refused by its operands, its tensors' shapes aside. -/
def copyOperandFault (s : State) (c : DescCtx) : Option (Byte × Half) :=
  worst [failIf ((bits (dW2 c.word) 2 2 : BitVec 2).toNat = 3) 0x30 8,
    tensorFaultOf s (c.td s (dQ c.word 0x10)) (dQ c.word 0x10) 0x10 false ((dW2 c.word).getLsbD 4),
    tensorFaultOf s (c.td s (dQ c.word 0x18)) (dQ c.word 0x18) 0x18 true ((dW2 c.word).getLsbD 4), failIf (dQ c.word 0x20 ≠ 0) 0x30 0x20]

theorem copyTensorFault_operand {s : State} {c : DescCtx} {f : Byte × Half} (h : copyOperandFault s c = some f) :
    copyTensorFault s c = some f := by
  have hf : copyTensorFault s c = (copyOperandFault s c).orElse fun _ => _ := rfl
  rw [hf, h, Option.orElse_some]

section Shapes
variable {s : State} {c : DescCtx} (h : copyOperandFault s c = none)
include h

/-- Two tensors of accepted operands must have one shape, the transposed one where the COPY transposes (R493). -/
theorem copyTensorFault_shape :
    (let eb := (c.td s (dQ c.word 0x18)).exts s.mach.logical
    copyTensorFault s c = failIf ((c.td s (dQ c.word 0x10)).exts s.mach.logical ≠ if (dW2 c.word).getLsbD 4 then swap2 eb else eb)
      0x30 0x8000) := by
  have hf : copyTensorFault s c = (copyOperandFault s c).orElse fun _ => _ := rfl
  rw [hf, h, Option.orElse_none]
  rfl

theorem copyTensorFault_misshapen
    (hne : (c.td s (dQ c.word 0x10)).exts s.mach.logical ≠ if (dW2 c.word).getLsbD 4
      then swap2 ((c.td s (dQ c.word 0x18)).exts s.mach.logical) else (c.td s (dQ c.word 0x18)).exts s.mach.logical) :
    copyTensorFault s c = some (0x30, 0x8000) :=
  (copyTensorFault_shape h).trans (if_pos (decide_eq_true hne))

theorem copyTensorFault_shapely
    (he : (c.td s (dQ c.word 0x10)).exts s.mach.logical = if (dW2 c.word).getLsbD 4
      then swap2 ((c.td s (dQ c.word 0x18)).exts s.mach.logical) else (c.td s (dQ c.word 0x18)).exts s.mach.logical) :
    copyTensorFault s c = none :=
  (copyTensorFault_shape h).trans (if_neg (by simpa using he))

end Shapes

section Copy
variable {s : State} {r : Fin 256} {n : Nat}

theorem copyTensor_none (h : descAt s r n 0x10 = none) : exec (.copyTensorMode r n) s = .next s := by
  show execCopyTensorMode r n s = _
  simp only [execCopyTensorMode, h]

variable {c : DescCtx} (h : descAt s r n 0x10 = some c)
include h

theorem copyTensor_byteMode (hb : (dW2 c.word).getLsbD 0 = false) : exec (.copyTensorMode r n) s = .next s := by
  show execCopyTensorMode r n s = _
  simp only [execCopyTensorMode, h, hb, Bool.not_false, if_true]

variable (hb : (dW2 c.word).getLsbD 0 = true)
include hb

theorem copyTensor_fault {f : Byte × Half} (hf : copyTensorFault s c = some f) :
    exec (.copyTensorMode r n) s = .next (finishDesc r c.idx f.1 f.2 0 s) := by
  show execCopyTensorMode r n s = _
  simp only [execCopyTensorMode, h, hb, hf, Bool.not_true, Bool.false_eq_true, if_false]

variable (hf : copyTensorFault s c = none)
include hf

/-- An empty shard (R186) has nothing to copy. -/
theorem copyTensor_empty (he : ((c.td s (dQ c.word 0x18)).exts s.mach.logical).contains 0 = true) :
    exec (.copyTensorMode r n) s = .next (finishDesc r c.idx 0x00 0 0 s) := by
  show execCopyTensorMode r n s = _
  simp only [execCopyTensorMode, h, hb, hf, he, Bool.not_true, Bool.false_eq_true, if_false, if_true]
  rfl

/-- The state in which a tensor-mode COPY has presented its requests. -/
def copyAsked (r : Fin 256) (c : DescCtx) (s : State) : State :=
  let a := c.td s (dQ c.word 0x10)
  let b := c.td s (dQ c.word 0x18)
  let mode := (bits (dW2 c.word) 2 2 : BitVec 2).toNat
  let ea := a.exts s.mach.logical
  let eb := b.exts s.mach.logical
  askDesc r c 0 (askAll (.desc r c.idx) 2 (a.spans true true ea ++ b.spans false (mode = 1) eb) (b.spans true (mode ≠ 1) eb)) s

theorem copyTensor_goes (he : ((c.td s (dQ c.word 0x18)).exts s.mach.logical).contains 0 = false) : exec (.copyTensorMode r n) s =
    .next (onceServed (.desc r c.idx) (copyTensorNow r c (c.td s (dQ c.word 0x10)) (c.td s (dQ c.word 0x18))) (copyAsked r c s)) := by
  show execCopyTensorMode r n s = _
  simp only [execCopyTensorMode, h, hb, hf, he, Bool.not_true, Bool.false_eq_true, if_false]
  rfl

theorem copyTensor_asks (he : ((c.td s (dQ c.word 0x18)).exts s.mach.logical).contains 0 = false)
    (ha : asking (copyAsked r c s) (.desc r c.idx) = true) : exec (.copyTensorMode r n) s = .next (copyAsked r c s) := by
  rw [copyTensor_goes h hb hf he, onceServed_waits ha]

theorem copyTensor_moves (he : ((c.td s (dQ c.word 0x18)).exts s.mach.logical).contains 0 = false)
    (ha : asking (copyAsked r c s) (.desc r c.idx) = false) : exec (.copyTensorMode r n) s =
    .next (copyTensorNow r c (c.td s (dQ c.word 0x10)) (c.td s (dQ c.word 0x18)) (copyAsked r c s)) := by
  rw [copyTensor_goes h hb hf he, onceServed_goes ha]

end Copy

theorem copyAsked_host (r : Fin 256) (c : DescCtx) (s : State) : (copyAsked r c s).host = s.host :=
  askDesc_host fun _ => askAll_askOnly ..

/-! ### STATE (R262) -/

section State
variable {s : State} {r : Fin 256} {n : Nat}

theorem stateReq_none (h : descAt s r n 0x51 = none) : exec (.stateReq r n) s = .next s := by
  show execStateReq r n s = _
  simp only [execStateReq, h]

variable {c : DescCtx} (h : descAt s r n 0x51 = some c)
include h

theorem stateReq_fault {f : Byte × Half} (hf : stateFault s c.word = some f) :
    exec (.stateReq r n) s = .next (finishDesc r c.idx f.1 f.2 0 s) := by
  show execStateReq r n s = _
  simp only [execStateReq, h, hf]

/-- The record that a STATE_REQ writes: the one its start took. -/
def stateBytes (s : State) (c : DescCtx) : List Byte :=
  if c.snap = [] then stateRecord s (bits (dW2 c.word) 0 8 : Byte).toNat (dW3 c.word).toNat else c.snap

theorem stateReq_writes (hf : stateFault s c.word = none) : exec (.stateReq r n) s =
    .next (fitTxns s (endOrWait r c.idx 0x00 0 0
      (writeOut (.desc r c.idx) 2 (dQ c.word 0x10) ((stateBytes s c).map fun b => (b, false)) s))) := by
  show execStateReq r n s = _
  simp only [execStateReq, h, hf, List.isEmpty_iff]
  rfl

end State

/-! ### DIAG of counter blocks (R104, R261) -/

section Diag
variable {s : State} {r : Fin 256} {n : Nat}

theorem diag_none (h : descAt s r n 0x70 = none) :
    exec (.diagReadCounters r n) s = .next s ∧ exec (.diagWriteCounters r n) s = .next s := by
  constructor
  · show execDiagReadCounters r n s = _
    simp only [execDiagReadCounters, h]
  · show execDiagWriteCounters r n s = _
    simp only [execDiagWriteCounters, h]

variable {c : DescCtx} (h : descAt s r n 0x70 = some c)
include h

theorem diagRead_otherForm (hk : bits (dW2 c.word) 0 8 ≠ (0 : Byte)) : exec (.diagReadCounters r n) s = .next s := by
  show execDiagReadCounters r n s = _
  simp only [execDiagReadCounters, h]
  exact if_pos hk

theorem diagWrite_otherForm (hk : bits (dW2 c.word) 0 8 ≠ (1 : Byte)) : exec (.diagWriteCounters r n) s = .next s := by
  show execDiagWriteCounters r n s = _
  simp only [execDiagWriteCounters, h]
  exact if_pos hk

theorem diagRead_fault {f : Byte × Half} (hf : diagFault s c.word = some f) (hk : bits (dW2 c.word) 0 8 = (0 : Byte)) :
    exec (.diagReadCounters r n) s = .next (finishDesc r c.idx f.1 f.2 0 s) := by
  show execDiagReadCounters r n s = _
  simp only [execDiagReadCounters, h, hf]
  exact if_neg (not_not.2 hk)

theorem diagWrite_fault {f : Byte × Half} (hf : diagFault s c.word = some f) (hk : bits (dW2 c.word) 0 8 = (1 : Byte)) :
    exec (.diagWriteCounters r n) s = .next (finishDesc r c.idx f.1 f.2 0 s) := by
  show execDiagWriteCounters r n s = _
  simp only [execDiagWriteCounters, h, hf]
  exact if_neg (not_not.2 hk)

variable (hf : diagFault s c.word = none)
include hf

/-- The bytes of the counter block that a DIAG reads. -/
def diagBytes (s : State) (w : DescWord) : List Byte :=
  ((ctrBytes (ix 384 (dW3 w).toNat) (s.core (ix 384 (dW3 w).toNat))).drop (bits (dQ w 0x18) 0 32 : Word).toNat).take
    (bits (dQ w 0x18) 32 32 : Word).toNat

theorem diagRead_writesOut (hk : bits (dW2 c.word) 0 8 = (0 : Byte)) : exec (.diagReadCounters r n) s =
    .next (fitTxns s (endOrWait r c.idx 0x00 0 0
      (writeOut (.desc r c.idx) 2 (dQ c.word 0x10) ((diagBytes s c.word).map fun b => (b, false)) s))) := by
  show execDiagReadCounters r n s = _
  simp only [execDiagReadCounters, h, hf]
  exact if_neg (not_not.2 hk)

/-- A DIAG that writes a counter block, at the bytes of its operand. -/
def diagPut (r : Fin 256) (c : DescCtx) (bs : List MByte) (t : State) : State :=
  let y := readStatus (markedSectors (placeOf t (dQ c.word 0x10)).off bs)
  finishDesc r c.idx y.1 y.2 0
    (diagWrite (ix 384 (dW3 c.word).toNat) (bits (dQ c.word 0x18) 0 32 : Word).toNat (plain bs) t)

theorem diagWrite_reads (hk : bits (dW2 c.word) 0 8 = (1 : Byte)) : exec (.diagWriteCounters r n) s =
    .next (withOperand r c 0 2 (dQ c.word 0x10) (bits (dQ c.word 0x18) 32 32 : Word).toNat (diagPut r c) s) := by
  show execDiagWriteCounters r n s = _
  simp only [execDiagWriteCounters, h, hf]
  exact if_neg (not_not.2 hk)

end Diag

theorem diagPut_unmarked (r : Fin 256) (c : DescCtx) (bs : List Byte) (t : State) : diagPut r c (bs.map fun b => (b, false)) t =
    finishDesc r c.idx 0x00 0 0 (diagWrite (ix 384 (dW3 c.word).toNat) (bits (dQ c.word 0x18) 0 32 : Word).toNat bs t) := by
  simp only [diagPut, markedSectors_unmarked, plain_unmarked]
  rfl

/-- Settles O34: GATHER, COPY in tensor mode, STATE, DIAG, and the operand that a descriptor reads, each by its own cases. -/
theorem gatherTensorStateAndDiag : Obligations.GatherTensorStateAndDiag := by
  refine ⟨fun s r n c => ⟨fun h => ⟨fun f => gather_fault h, gather_reads h, fun lb u => ⟨fun m x f => gatherDesc_refused, fun hrows => ?_⟩,
      fun a d hf hk ha hsrc hdst hrows => ?_⟩, copyTensor_byteMode, fun h hb => ?_,
      fun h => ⟨fun f => stateReq_fault h, stateReq_writes h, fun d hf hp => ⟨_, stateReq_writes h hf, answered_host hp ..⟩⟩,
      fun h => ⟨diagRead_otherForm h, diagWrite_otherForm h, fun f hf => ⟨diagRead_fault h hf, diagWrite_fault h hf⟩,
        fun hf => ⟨diagRead_writesOut h hf, diagWrite_reads h hf⟩, fun d hf hp => ⟨fun hk => ?_, fun hk hasked ha => ?_⟩⟩⟩,
    fun s r c k cls n d go => ⟨fun hp => ?_, fun m low hp => ⟨fun hs => ?_, fun hs hw => ?_, fun hs hw => ?_⟩⟩, fun s r n k hk hnone => ?_⟩
  · exact ⟨fun ha => (gatherDesc_reaches hrows).trans (onceServed_waits ha _),
      fun ha => (gatherDesc_reaches hrows).trans (onceServed_goes ha _)⟩
  · have hlist := gatherList_getBytes s.host a (dW2 c.word).toNat
    have hall : ∀ x ∈ gatherList (s.host.getBytes a (8 * (dW2 c.word).toNat)), rowFault s x = none := by
      intro x hx
      rw [hlist] at hx
      obtain ⟨i, hi, rfl⟩ := List.mem_map.1 hx
      exact hrows i (List.mem_range.1 hi)
    obtain ⟨t, ht, hhost, hgddr, hcores⟩ := gather_host h hf hk ha hsrc hdst hall
    refine ⟨t, ht, fun hwf i hi p hp => ?_, fun b hout => ?_, by rw [hgddr], hcores⟩
    · rw [hhost]
      exact rowBytes_packed hall hwf d (i := i) (by simp [hlist, hi]) hp
    · rw [hhost]
      refine Memory.get_putBytes_other _ _ _ _ ?_
      rwa [rowBytes, flatMap_length_const (rowBytes_parts hall), hlist, List.length_map, List.length_range]
  · refine ⟨fun y hf => copyTensor_fault h hb (copyTensorFault_operand hf),
      fun hf hne => copyTensor_fault (f := (0x30, 0x8000)) h hb (copyTensorFault_misshapen hf hne),
      fun hf he => copyTensor_empty h hb (copyTensorFault_shapely hf he), fun hf he h0 => ?_⟩
    have hnone := copyTensorFault_shapely hf he
    refine ⟨copyTensor_asks h hb hnone h0, fun ha => ?_⟩
    obtain ⟨hmem, hpoison, hcores, hhost⟩ := copyTensorNow_frame r c (c.td s (dQ c.word 0x10)) (c.td s (dQ c.word 0x18)) (copyAsked r c s)
    exact ⟨_, copyTensor_moves h hb hnone h0 ha, hmem, hpoison, hcores,
      hhost.trans (copyAsked_host r c s)⟩
  · exact ⟨_, diagRead_writesOut h hf hk, answered_host hp ..⟩
  · rw [diagWrite_reads h hf hk, withOperand_host hp (by omega) ha, diagPut_unmarked]
  · rw [withOperand_near hp]
    exact ⟨fun ha => onceServed_waits ha _, fun ha => onceServed_goes ha _⟩
  · rw [withOperand_far hp, if_pos hs]
  · rw [withOperand_far hp, hs, if_neg Bool.false_ne_true, fetchOperand_waits hw]
  · rw [withOperand_far hp, hs, if_neg Bool.false_ne_true, fetchOperand_starts hs hw, hp]
  · simp only [List.mem_cons, List.not_mem_nil, or_false] at hk
    obtain rfl | rfl | rfl | rfl | rfl := hk
    · exact gather_none hnone
    · exact copyTensor_none hnone
    · exact stateReq_none hnone
    · exact (diag_none hnone).1
    · exact (diag_none hnone).2

end Sys2Proof.Machine
end

section
/-! PROOFS. Channels of GDDR7 as a part of a state: requests taken in, what a read finds, answers to partners (R208, R220, R235). -/
namespace Sys2Proof.Machine
open Sys2Proof

/-! ### Channels of a state -/

theorem State.setChan_other (s : State) {i j : Fin 50} (x : Channel) (h : j ≠ i) : (s.setChan i x).chan j = s.chan j := by
  have h' : i.val ≠ j.val := fun e => h (Fin.ext e.symm)
  simp [State.setChan, State.chan, h']

theorem State.setChan_self (s : State) (ch : Fin 50) : s.setChan ch (s.chan ch) = s := by
  simp [State.setChan, State.setGddr, State.chan]

theorem State.setChan_setChan (s : State) (ch : Fin 50) (x y : Channel) : (s.setChan ch x).setChan ch y = s.setChan ch y := by
  simp [State.setChan, State.setGddr]

theorem modChan_setChan (ch : Fin 50) (f : Channel → Channel) (x : Channel) (s : State) :
    modChan ch f (s.setChan ch x) = s.setChan ch (f x) := by
  rw [modChan, State.setChan_setChan, State.setChan_chan]

/-- What a channel is, in a state of equal GDDR7. -/
theorem chan_of_gddr {s t : State} (h : t.gddr = s.gddr) (ch : Fin 50) : t.chan ch = s.chan ch := by
  rw [State.chan, h, ← State.chan]

theorem EventOnly.gddr {s t : State} (h : EventOnly s t) : t.gddr = s.gddr := by rw [h]

theorem setDegraded_gddr (s : State) : (setDegraded s).gddr = s.gddr := (setDegraded_eventOnly s).gddr

/-! ### Requests taken in (R220) -/

/-- A request that waits before a channel is accepted where its queue has room. -/
def Channel.takeOne (now : Nat) (c : Channel) (x : Bool × GReq) : Channel :=
  let r : GReq := { x.2 with at_ := now, seq := c.accepted }
  if !c.room x.1 then { c with waiting := c.waiting ++ [x] }
  else if x.1 then { c with narrow := c.narrow ++ [r], accepted := c.accepted + 1 }
  else { c with burst := c.burst ++ [r], accepted := c.accepted + 1 }

theorem Channel.takeIn_eq_foldl (now : Nat) (c : Channel) :
    c.takeIn now = c.waiting.foldl (Channel.takeOne now) { c with waiting := [] } := rfl

/-- A channel with its queues changed. -/
def Channel.requeued (c d : Channel) : Channel :=
  { c with burst := d.burst, narrow := d.narrow, waiting := d.waiting, accepted := d.accepted }

theorem Channel.takeOne_requeued (now : Nat) (c : Channel) (x : Bool × GReq) : c.takeOne now x = c.requeued (c.takeOne now x) := by
  simp only [Channel.takeOne]
  split
  · rfl
  · split <;> rfl

theorem Channel.takeAll_requeued (now : Nat) (l : List (Bool × GReq)) (c : Channel) :
    l.foldl (Channel.takeOne now) c = c.requeued (l.foldl (Channel.takeOne now) c) := by
  induction l generalizing c with
  | nil => rfl
  | cons x l ih =>
    rw [List.foldl_cons, ih, c.takeOne_requeued now x]
    rfl

/-- What is taken in changes a channel's queues alone. -/
theorem Channel.takeIn_requeued (now : Nat) (c : Channel) : c.takeIn now = c.requeued (c.takeIn now) := by
  rw [c.takeIn_eq_foldl, Channel.takeAll_requeued]
  rfl

theorem Channel.takeIn_none (now : Nat) {c : Channel} (h : c.waiting = []) : c.takeIn now = c := by
  rw [c.takeIn_eq_foldl, h, List.foldl_nil, ← h]

/-- A full burst queue takes nothing in. -/
theorem Channel.takeAll_full (now : Nat) (l : List (Bool × GReq)) {c : Channel} (h : 512 ≤ c.burst.length) :
    (l.foldl (Channel.takeOne now) c).burst = c.burst := by
  have one : ∀ (d : Channel) (x : Bool × GReq), 512 ≤ d.burst.length → (d.takeOne now x).burst = d.burst := by
    intro d x hd
    simp only [Channel.takeOne]
    split
    · rfl
    · next hroom =>
      split
      · rfl
      · next hburst =>
        simp only [Channel.room, hburst, Bool.false_eq_true, if_false, Bool.not_eq_true', decide_eq_false_iff_not] at hroom
        omega
  induction l generalizing c with
  | nil => rfl
  | cons x l ih => exact (ih (by rwa [one c x h])).trans (one c x h)

theorem Channel.present_full (now : Nat) (nar : Bool) (r : GReq) {c : Channel} (h : 512 ≤ c.burst.length) :
    (c.present now nar r).burst = c.burst := Channel.takeAll_full now _ h

/-- A burst request that finds nothing waiting and room in its queue is accepted at once. -/
theorem Channel.present_room (now : Nat) (r : GReq) {c : Channel} (hw : c.waiting = []) (h : c.burst.length < 512) :
    (c.present now false r).burst = c.burst ++ [{ r with at_ := now, seq := c.accepted }] := by
  rw [Channel.present, Channel.takeIn_eq_foldl, hw]
  simp [Channel.takeOne, Channel.room, h]

/-- A channel whose request has left its queue for the device. -/
def Channel.issued (x : Bool × GReq) (c : Channel) : Channel :=
  { c with
    burst := c.burst.filter fun r => r.seq ≠ x.2.seq, narrow := c.narrow.filter fun r => r.seq ≠ x.2.seq,
    lastNarrow := x.1, openRow := some x.2.group }

theorem takeReq_eq (now : Nat) (x : Bool × GReq) (c : Channel) : takeReq now x c = (c.issued x).takeIn now := rfl

theorem takeReq_requeued (now : Nat) (x : Bool × GReq) (c : Channel) : takeReq now x c = (c.issued x).requeued (takeReq now x c) := by
  rw [takeReq_eq, ← Channel.takeIn_requeued]

/-! ### The request that goes first (R222, R224) -/

theorem mem_chanReqs {c : Channel} {a : Bool × GReq} (h : a ∈ chanReqs c) : (a.1 = false ∧ a.2 ∈ c.burst) ∨ (a.1 = true ∧ a.2 ∈ c.narrow) := by
  obtain h | h := List.mem_append.1 h <;> obtain ⟨x, hx, rfl⟩ := List.mem_map.1 h
  · exact .inl ⟨rfl, hx⟩
  · exact .inr ⟨rfl, hx⟩

theorem gdSettle_mem {xs : List (Bool × GReq)} (n : Nat) {a : Bool × GReq} (h : a ∈ xs) : gdSettle xs n a ∈ xs := by
  induction n generalizing a with
  | zero => exact h
  | succ n ih =>
    rw [gdSettle]
    split
    · next b hb => exact ih (List.mem_of_find?_eq_some hb)
    · exact h

theorem pickGd_mem {c : Channel} {a : Bool × GReq} (h : pickGd c = some a) : a ∈ chanReqs c := by
  obtain ⟨b, hb, rfl⟩ := Option.map_eq_some_iff.1 h
  exact gdSettle_mem _ (List.mem_of_find?_eq_some hb)

/-! ### What a read finds (R208, R235) -/

theorem satAdd_zero {w : Nat} (x : BitVec w) : satAdd x 0 = x := by
  rw [satAdd, Nat.add_zero, if_pos x.isLt, BitVec.ofNat_toNat, BitVec.setWidth_eq]

theorem countCorrected_gddr (ch : Fin 50) (k : Nat) (s : State) : (countCorrected ch k s).gddr =
    (s.setChan ch { s.chan ch with corrected := satAdd (s.chan ch).corrected k }).gddr := by
  simp only [countCorrected]
  split
  · exact (postEvent_eventOnly ..).gddr
  · rfl

/-- A state in which the corrections that a request found are counted. -/
def gdCounted (ch : Fin 50) (r : GReq) (e : Ecc) (s : State) : State :=
  if e.corrected = 0 then s else countCorrected ch (min e.corrected r.reads.length) s

theorem gdCounted_gddr (ch : Fin 50) (r : GReq) (e : Ecc) (s : State) : (gdCounted ch r e s).gddr =
    (s.setChan ch { s.chan ch with corrected := satAdd (s.chan ch).corrected (min e.corrected r.reads.length) }).gddr := by
  unfold gdCounted
  split
  · next h => rw [h, Nat.zero_min, satAdd_zero, State.setChan_self]
  · exact countCorrected_gddr ..

/-- A state in which the sectors that a request found uncorrectable have their poison bits besides. -/
def gdPoisoned (ch : Fin 50) (r : GReq) (e : Ecc) (s : State) : State :=
  let t := gdCounted ch r e s
  if (s.chan ch).mapped then
    t.setGddr { t.gddr with poison := (gdBad s ch r e).foldl (fun m x => insSorted (sectorKey s ch r.group x) m) t.gddr.poison }
  else t

theorem gdPoisoned_gddr (ch : Fin 50) (r : GReq) (e : Ecc) (s : State) :
    (gdPoisoned ch r e s).gddr.chans = (gdCounted ch r e s).gddr.chans ∧ (gdPoisoned ch r e s).gddr.mem = (gdCounted ch r e s).gddr.mem := by
  simp only [gdPoisoned]
  split <;> exact ⟨rfl, rfl⟩

theorem gdFind_eq (ch : Fin 50) (r : GReq) (e : Ecc) (s : State) :
    ∃ k, gdFind ch r e s = modChan ch (fun c => { c with uncorrected := satAdd c.uncorrected k }) (gdPoisoned ch r e s) := ⟨_, rfl⟩

/-- What a read finds changes the counts of its own channel, the corrected one by what it corrects, and poison bits. -/
theorem gdFind_frame (ch : Fin 50) (r : GReq) (e : Ecc) (s : State) :
    (∃ u, (gdFind ch r e s).chan ch =
        { s.chan ch with corrected := satAdd (s.chan ch).corrected (min e.corrected r.reads.length), uncorrected := u })
      ∧ (∀ d, d ≠ ch → (gdFind ch r e s).chan d = s.chan d) ∧ (gdFind ch r e s).gddr.mem = s.gddr.mem := by
  obtain ⟨k, hk⟩ := gdFind_eq ch r e s
  obtain ⟨hchans, hmem⟩ := gdPoisoned_gddr ch r e s
  have hchan : ∀ d, (gdPoisoned ch r e s).chan d =
      (s.setChan ch { s.chan ch with corrected := satAdd (s.chan ch).corrected (min e.corrected r.reads.length) }).chan d := by
    intro d
    rw [State.chan, hchans, gdCounted_gddr, ← State.chan]
  rw [hk, modChan]
  refine ⟨⟨satAdd (s.chan ch).uncorrected k, ?_⟩, fun d hd => ?_, ?_⟩
  · rw [State.setChan_chan, hchan ch, State.setChan_chan]
  · rw [State.setChan_other _ _ hd, hchan d, State.setChan_other _ _ hd]
  · exact hmem.trans (by rw [gdCounted_gddr]; rfl)

/-! ### Notes for descriptors, answers to partners -/

theorem noteRead_gddr (o : TxnOwner) (n space : Nat) (bad : List Nat) (s : State) : (noteRead o n space bad s).gddr = s.gddr := by
  unfold noteRead
  split <;> rfl

theorem servePeers_gddr (s : State) : (servePeers s).gddr = s.gddr := by
  refine forAll_leaves State.gddr _ _ _ fun f t => ?_
  split
  · rfl
  · exact forAll_leaves State.gddr _ _ _ fun _ _ => rfl

end Sys2Proof.Machine
end

section
/-! PROOFS. GDDR7 channels in service: issue, urgency, retries, scrub, data rate, counts (R208, R216 to R224, R231, R235). -/
namespace Sys2Proof.Machine
open Sys2Proof

/-! ### Command issue (R222) -/

section Issue
variable {s : State} {ch : Fin 50}

theorem gddr7CommandIssue_rests (e : Ecc) (h : chanServes s ch = false ∨ pickGd (s.chan ch) = none) :
    exec (.gddr7CommandIssue ch e) s = .next s := by
  show execGddr7CommandIssue ch e s = _
  obtain h | h := h
  · simp only [execGddr7CommandIssue, h, Bool.not_false, if_true]
  · simp only [execGddr7CommandIssue, h, ite_self]

variable {x : Bool × GReq} (hs : chanServes s ch = true) (hx : pickGd (s.chan ch) = some x)
include hs hx

theorem gddr7CommandIssue_gen (e : Ecc) (ho : x.2.owner = .gen) :
    exec (.gddr7CommandIssue ch e) s = .next (tgServe ch x.2 e (s.setChan ch (takeReq s.ns x (s.chan ch)))) := by
  show execGddr7CommandIssue ch e s = _
  simp only [execGddr7CommandIssue, hs, hx, ho, Bool.not_true, Bool.false_eq_true, if_false, if_true]

variable (ho : x.2.owner ≠ .gen)
include ho

theorem gddr7CommandIssue_finds (e : Ecc) (h4 : (s.chan ch).state ≠ 4) : ∃ t, exec (.gddr7CommandIssue ch e) s = .next t
    ∧ t.gddr = (gdFind ch x.2 e (s.setChan ch (takeReq s.ns x (s.chan ch)))).gddr := by
  refine ⟨?t, ?run, ?gddr⟩
  case run =>
    show execGddr7CommandIssue ch e s = _
    simp only [execGddr7CommandIssue, hs, hx, ho, h4, Bool.not_true, Bool.false_eq_true, if_false]
    rfl
  case gddr => exact (servePeers_gddr _).trans (noteRead_gddr ..)

theorem gddr7CommandIssue_failed (e : Ecc) (h4 : (s.chan ch).state = 4) : ∃ t, exec (.gddr7CommandIssue ch e) s = .next t
    ∧ t.gddr = (modChan ch (fun c => { c with uncorrected := satAdd c.uncorrected (if x.2.write then 0 else x.2.cnt) })
        (s.setChan ch (takeReq s.ns x (s.chan ch)))).gddr := by
  refine ⟨?t, ?run, ?gddr⟩
  case run =>
    show execGddr7CommandIssue ch e s = _
    simp only [execGddr7CommandIssue, hs, hx, ho, h4, Bool.not_true, Bool.false_eq_true, if_false, if_true]
    rfl
  case gddr => exact (servePeers_gddr _).trans (noteRead_gddr ..)

/-- A channel that issues a request of another owner than its generator: its queues, its counts, the other channels and memory. -/
theorem gddr7CommandIssue_serves (e : Ecc) : ∃ t cor unc, exec (.gddr7CommandIssue ch e) s = .next t
    ∧ t.chan ch = { takeReq s.ns x (s.chan ch) with corrected := cor, uncorrected := unc }
    ∧ ((s.chan ch).state ≠ 4 → cor = satAdd (s.chan ch).corrected (min e.corrected x.2.reads.length))
    ∧ ((s.chan ch).state = 4 → unc = satAdd (s.chan ch).uncorrected (if x.2.write then 0 else x.2.cnt))
    ∧ t.gddr.mem = s.gddr.mem ∧ ∀ d : Fin 50, d ≠ ch → t.chan d = s.chan d := by
  have hkept := takeReq_requeued s.ns x (s.chan ch)
  by_cases h4 : (s.chan ch).state = 4
  · obtain ⟨t, ht, hg⟩ := gddr7CommandIssue_failed hs hx ho e h4
    rw [modChan_setChan] at hg
    refine ⟨t, _, _, ht, (chan_of_gddr hg ch).trans (State.setChan_chan ..), fun h => absurd h4 h, fun _ => ?_, by rw [hg]; rfl, fun d hd => ?_⟩
    · rw [hkept]
      rfl
    · rw [chan_of_gddr hg, State.setChan_other _ _ hd]
  · obtain ⟨t, ht, hg⟩ := gddr7CommandIssue_finds hs hx ho e h4
    obtain ⟨⟨u, hown⟩, hother, hmem⟩ := gdFind_frame ch x.2 e (s.setChan ch (takeReq s.ns x (s.chan ch)))
    rw [State.setChan_chan] at hown
    refine ⟨t, _, u, ht, (chan_of_gddr hg ch).trans hown, fun _ => ?_, fun h => absurd h h4, (by rw [hg, hmem]; rfl), fun d hd => ?_⟩
    · rw [hkept]
      rfl
    · rw [chan_of_gddr hg, hother d hd, State.setChan_other _ _ hd]

end Issue

/-! ### Urgency (R222) -/

/-- A request that has become urgent by a time, when it is of class 1 to 3. -/
def GReq.aged (now : Nat) (x : GReq) : GReq := if 1 ≤ x.cls && x.at_ + 4096 ≤ now then { x with urgent := true } else x

theorem GReq.aged_urgent {now : Nat} {x : GReq} (hc : 1 ≤ x.cls) (ht : x.at_ + 4096 ≤ now) : x.aged now = { x with urgent := true } :=
  if_pos (by simp [hc, ht])

theorem GReq.aged_early {now : Nat} {x : GReq} (h : x.cls = 0 ∨ now < x.at_ + 4096) : x.aged now = x :=
  if_neg (by simp; omega)

theorem modify_eq_set {α : Type} {l : List α} {n : Nat} {x : α} (h : l[n]? = some x) (f : α → α) : l.modify n f = l.set n (f x) := by
  rw [List.modify_eq_set_getElem?, h]
  rfl

theorem modify_fixed {α : Type} {l : List α} {n : Nat} {x : α} (h : l[n]? = some x) {f : α → α} (hf : f x = x) : l.modify n f = l := by
  obtain ⟨hn, rfl⟩ := List.getElem?_eq_some_iff.1 h
  rw [modify_eq_set h, hf, List.set_getElem_self]

section Aged
variable {l : List GReq} {n now : Nat} {x : GReq} (h : l[n]? = some x)
include h

theorem modify_aged_urgent (hc : 1 ≤ x.cls) (ht : x.at_ + 4096 ≤ now) : l.modify n (GReq.aged now) = l.set n { x with urgent := true } := by
  rw [modify_eq_set h, GReq.aged_urgent hc ht]

theorem modify_aged_early (hn : x.cls = 0 ∨ now < x.at_ + 4096) : l.modify n (GReq.aged now) = l :=
  modify_fixed h (GReq.aged_early hn)

end Aged

section Urgent
variable {s : State} {ch : Fin 50} {n : Nat} {x : GReq}

theorem requestUrgent_burst (h : (s.chan ch).burst[n]? = some x) : exec (.gddr7RequestUrgent ch n) s =
    .next (s.setChan ch { s.chan ch with burst := (s.chan ch).burst.modify n (GReq.aged s.ns) }) := by
  obtain ⟨hn, -⟩ := List.getElem?_eq_some_iff.1 h
  exact if_pos hn

theorem requestUrgent_narrow : exec (.gddr7RequestUrgent ch ((s.chan ch).burst.length + n)) s =
    .next (s.setChan ch { s.chan ch with narrow := (s.chan ch).narrow.modify n (GReq.aged s.ns) }) := by
  refine (if_neg (by simp)).trans ?_
  rw [Nat.add_sub_cancel_left]
  rfl

theorem requestUrgent_burst_early (h : (s.chan ch).burst[n]? = some x) (hn : x.cls = 0 ∨ s.ns < x.at_ + 4096) :
    exec (.gddr7RequestUrgent ch n) s = .next s := by
  rw [requestUrgent_burst h, modify_aged_early h hn]
  exact congrArg Host.Outcome.next (s.setChan_self ch)

theorem requestUrgent_narrow_early (h : (s.chan ch).narrow[n]? = some x) (hn : x.cls = 0 ∨ s.ns < x.at_ + 4096) :
    exec (.gddr7RequestUrgent ch ((s.chan ch).burst.length + n)) s = .next s := by
  rw [requestUrgent_narrow, modify_aged_early h hn]
  exact congrArg Host.Outcome.next (s.setChan_self ch)

end Urgent

/-! ### Retries (R216, R233) -/

/-- A channel with one retry more of the request it is serving. -/
def Channel.retried (x : Bool × GReq) (c : Channel) : Channel :=
  { c with
    retries := satAdd c.retries 1, burst := c.burst.map (addTry x.2.seq), narrow := c.narrow.map (addTry x.2.seq),
    tg := { c.tg with edcSeen := c.tg.edcSeen || c.tg.state = 1 } }

theorem edcSeen_eq (t : TrafficGen) :
    (if t.state = 1 then { t with edcSeen := true } else t) = { t with edcSeen := t.edcSeen || t.state = 1 } := by
  by_cases h : t.state = 1
  · rw [if_pos h, decide_eq_true h, Bool.or_true]
  · rw [if_neg h, decide_eq_false h, Bool.or_false]

section Retry
variable {s : State} {ch : Fin 50} {ok : Bool}

theorem edcRetry_rests (h : (s.chan ch).state = 0 ∨ chanServes s ch = false ∨ pickGd (s.chan ch) = none) :
    exec (.gddr7EdcRetry ch ok) s = .next s := by
  show execGddr7EdcRetry ch ok s = _
  obtain h | h | h := h <;> simp [execGddr7EdcRetry, h]

variable {x : Bool × GReq} (hs : chanServes s ch = true) (hx : pickGd (s.chan ch) = some x)
include hs hx

theorem edcRetry_exhausted (ht : edcLimit (s.chan ch) ≤ x.2.tries) : exec (.gddr7EdcRetry ch ok) s = .next s := by
  show execGddr7EdcRetry ch ok s = _
  simp [execGddr7EdcRetry, hs, hx, ht]

variable (h0 : (s.chan ch).state ≠ 0)
include h0

theorem edcRetry_counts (ht : x.2.tries < edcLimit (s.chan ch))
    (h : ok = true ∨ (s.chan ch).state ≠ 1 ∨ x.2.tries + 1 < edcLimit (s.chan ch)) :
    exec (.gddr7EdcRetry ch ok) s = .next (s.setChan ch ((s.chan ch).retried x)) := by
  show execGddr7EdcRetry ch ok s = _
  simp only [execGddr7EdcRetry, h0, hs, hx, Nat.not_le.2 ht, edcSeen_eq, decide_false, Bool.not_true, Bool.or_self, Bool.false_eq_true,
    if_false]
  exact if_pos (by simpa [or_assoc] using h)

/-- A channel in service whose last retry fails leaves it (R216). -/
theorem edcRetry_fails (h1 : (s.chan ch).state = 1) (ht : x.2.tries + 1 = edcLimit (s.chan ch)) :
    ∃ t, exec (.gddr7EdcRetry ch false) s = .next t ∧ t.boot.degraded = true
      ∧ t.gddr = { (s.setChan ch { (s.chan ch).retried x with state := 4, cause := 7 }).gddr with failedCh := s.gddr.failedCh + 1 } := by
  have hlim : ¬ edcLimit (s.chan ch) ≤ x.2.tries := by omega
  have hlast : ¬ (false || decide ((s.chan ch).state ≠ 1) || decide (x.2.tries + 1 < edcLimit (s.chan ch))) = true := by
    simp [h1, ht]
  refine ⟨?t, ?run, ?degraded, ?gddr⟩
  case run =>
    show execGddr7EdcRetry ch false s = _
    simp only [execGddr7EdcRetry, h0, hs, hx, hlim, edcSeen_eq, decide_false, Bool.not_true, Bool.or_self, Bool.false_eq_true, if_false]
    exact if_neg hlast
  case degraded => exact setDegraded_degraded _
  case gddr => exact (setDegraded_gddr _).trans (postEvent_eventOnly ..).gddr

end Retry

/-! ### Scrub (R219, R221) -/

/-- A channel whose scrubber has presented its next read. -/
def Channel.scrubbed (now : Nat) (c : Channel) : Channel :=
  { c with scrubGroup := (c.scrubGroup + 1) % 2 ^ 22 }.present now false (groupReq .none 3 false c.scrubGroup 0 960)

theorem Channel.scrubbed_group (now : Nat) (c : Channel) : (c.scrubbed now).scrubGroup = (c.scrubGroup + 1) % 2 ^ 22 := by
  rw [Channel.scrubbed, Channel.present, Channel.takeIn_requeued]
  rfl

theorem Channel.scrubbed_room (now : Nat) {c : Channel} (hw : c.waiting = []) (h : c.burst.length < 512) :
    (c.scrubbed now).burst = c.burst ++ [{ groupReq .none 3 false c.scrubGroup 0 960 with at_ := now, seq := c.accepted }] := by
  rw [Channel.scrubbed]
  exact Channel.present_room now _ hw h

theorem Channel.scrubbed_full (now : Nat) {c : Channel} (h : 512 ≤ c.burst.length) : (c.scrubbed now).burst = c.burst := by
  rw [Channel.scrubbed]
  exact Channel.present_full now false _ h

section Scrub
variable {s : State} {ch : Fin 50}

theorem gddr7ScrubRead_presents (he : s.gddr.scrubEn = true) (h1 : (s.chan ch).state = 1) (hm : (s.chan ch).mapped = true)
    (hr : s.gddr.selfRefresh = false) (hp : s.pwr.mstate ≠ 2) :
    exec (.gddr7ScrubRead ch) s = .next (s.setChan ch ((s.chan ch).scrubbed s.ns)) := by
  have hgo : ¬ (!s.gddr.scrubEn || decide ((s.chan ch).state ≠ 1) || !(s.chan ch).mapped || s.gddr.selfRefresh
      || decide (s.pwr.mstate = 2)) = true := by
    rw [decide_eq_false hp]
    simp [he, h1, hm, hr]
  exact if_neg hgo

theorem gddr7ScrubRead_rests (h : s.gddr.scrubEn = false ∨ (s.chan ch).state ≠ 1 ∨ (s.chan ch).mapped = false
    ∨ s.gddr.selfRefresh = true ∨ s.pwr.mstate = 2) : exec (.gddr7ScrubRead ch) s = .next s :=
  if_pos (by simpa [or_assoc] using h)

end Scrub

/-! ### Data rate and counts (R218, R231) -/

theorem gddr7RateChange_relocks {s : State} {x : BitVec 2} (h : s.gddr.rateTarget = some x) (hr : s.gddr.selfRefresh = false) :
    exec .gddr7RateChange s = .next { s with
      gddr := { s.gddr with rate := x, rateTarget := none }, time := { s.time with fifoPhy := Vector.replicate 50 4 } } := by
  show execGddr7RateChange s = _
  simp only [execGddr7RateChange, h, hr, Bool.false_eq_true, if_false]
  rfl

theorem gddr7RateChange_waits {s : State} (h : s.gddr.rateTarget = none ∨ s.gddr.selfRefresh = true) :
    exec .gddr7RateChange s = .next s := by
  show execGddr7RateChange s = _
  unfold execGddr7RateChange
  obtain h | h := h
  · rw [h]
  · split
    · rfl
    · exact if_pos h

theorem memCntClear_writes {s : State} {w : Word} (hw : w.getLsbD 3 = true) (hr : s.boot.recovery = false) :
    exec (.memCntClear w) s = .next (memCtrlWrite w s) :=
  congrArg Host.Outcome.next (if_pos (by simp [hw, hr]))

theorem memCntClear_ignored {s : State} {w : Word} (h : w.getLsbD 3 = false ∨ s.boot.recovery = true) :
    exec (.memCntClear w) s = .next s :=
  congrArg Host.Outcome.next (if_neg (by
    rw [Bool.and_eq_true, Bool.not_eq_true', not_and_or, Bool.not_eq_true, Bool.not_eq_false]
    exact h))

theorem memCtrlWrite_clears (s : State) {w : Word} (hw : w.getLsbD 3 = true) (ch : Fin 50) :
    (memCtrlWrite w s).chan ch = { s.chan ch with corrected := 0, uncorrected := 0, retries := 0 } := by
  have hchans : (memCtrlWrite w s).gddr.chans = s.gddr.chans.map fun c => { c with corrected := 0, uncorrected := 0, retries := 0 } :=
    if_pos hw
  rw [State.chan, hchans]
  exact Vector.getElem_map ..

end Sys2Proof.Machine
end

section
/-! PROOFS. Traffic generators (R215, R226, R228, R238, R241). -/
namespace Sys2Proof.Machine
open Sys2Proof

/-! ### A write of TG_CTRL (R226, R238) -/

/-- A generator with the fields of TG_CTRL. -/
def TrafficGen.withFields (t : TrafficGen) (w : Word) : TrafficGen :=
  { t with mode := bits w 0 3, raw := w.getLsbD 3, walk := bits w 4 2, loop := w.getLsbD 6, laneSel := bits w 10 6 }

/-- A generator that runs keeps its fields at a write. -/
def TrafficGen.written (t : TrafficGen) (w : Word) : TrafficGen := if t.state = 1 then t else t.withFields w

/-- A channel whose generator has taken the fields and CLEAR of a write of TG_CTRL. -/
def Channel.tgWritten (w : Word) (c : Channel) : Channel :=
  { c with tg := if w.getLsbD 9 then tgWipe (c.tg.written w) else c.tg.written w }

/-- A channel whose generator, where it runs, is to stop. -/
def Channel.tgAskStop (c : Channel) : Channel := if c.tg.state = 1 then { c with tg := { c.tg with stopAsked := true } } else c

/-- The state after the fields, CLEAR and START of a write of TG_CTRL. -/
def tgStarted (ch : Fin 50) (w : Word) (s : State) : State :=
  if w.getLsbD 7 && ((s.chan ch).tgWritten w).tg.state ≠ 1 then tgNext ch (s.setChan ch (tgBegin s ((s.chan ch).tgWritten w)))
  else s.setChan ch ((s.chan ch).tgWritten w)

theorem tgCtrlWrite_ignored {s : State} (h : s.sec.dbgActive = false) (ch : Fin 50) (w : Word) : tgCtrlWrite ch w s = s :=
  if_pos (by simp [h])

section Control
variable {s : State} {ch : Fin 50} {w : Word}

theorem tgWritten_running (h1 : (s.chan ch).tg.state = 1) (h9 : w.getLsbD 9 = false) : (s.chan ch).tgWritten w = s.chan ch := by
  rw [Channel.tgWritten, h9, TrafficGen.written, if_pos h1]
  rfl

theorem tgStarted_noStart (h : w.getLsbD 7 = false ∨ ((s.chan ch).tgWritten w).tg.state = 1) :
    tgStarted ch w s = s.setChan ch ((s.chan ch).tgWritten w) := by
  refine if_neg ?_
  rw [Bool.and_eq_true, decide_eq_true_eq, not_and_or, not_not, Bool.not_eq_true]
  exact h

theorem tgNext_rests {u : State} (h : (u.chan ch).tg.state ≠ 1) : tgNext ch u = u :=
  if_pos (by simp only [decide_eq_true h, Bool.true_or])

/-- START of an allowed run: a spare channel wakes with it (R215). -/
theorem tgBegin_allowed {c : Channel} (h1 : c.tg.state ≠ 1) (hr : tgRefused s c = false) : tgBegin s c = { c with
    state := if c.state = 2 then 5 else c.state, sr := c.sr && c.state ≠ 2,
    tg := { c.tg with state := 1, passes := 0, edcSeen := false, stopAsked := false, visited := [] } } := by
  simp only [tgBegin, if_neg h1, hr, Bool.false_eq_true, if_false]
  by_cases h2 : c.state = 2
  · simp only [if_pos h2, decide_eq_false (not_not.2 h2), Bool.and_false]
  · simp only [if_neg h2, decide_eq_true h2, Bool.and_true]

theorem tgBegin_refused {c : Channel} (h1 : c.tg.state ≠ 1) (hr : tgRefused s c = true) :
    tgBegin s c = { c with tg := { c.tg with state := 3 } } := by
  simp only [tgBegin, if_neg h1, hr, if_true]

variable (hd : s.sec.dbgActive = true) (hr : s.boot.recovery = false)
include hd hr

theorem tgCtrlWrite_eq :
    tgCtrlWrite ch w s = if w.getLsbD 8 then modChan ch Channel.tgAskStop (tgStarted ch w s) else tgStarted ch w s :=
  if_neg (by simp [hd, hr])

theorem tgCtrlWrite_start (h7 : w.getLsbD 7 = true) (h8 : w.getLsbD 8 = false) (h9 : w.getLsbD 9 = false) (h1 : (s.chan ch).tg.state ≠ 1) :
    tgCtrlWrite ch w s = tgNext ch (s.setChan ch (tgBegin s { s.chan ch with tg := (s.chan ch).tg.withFields w })) := by
  have hw : (s.chan ch).tgWritten w = { s.chan ch with tg := (s.chan ch).tg.withFields w } := by
    rw [Channel.tgWritten, h9, TrafficGen.written, if_neg h1]
    rfl
  rw [tgCtrlWrite_eq hd hr, h8, if_neg Bool.false_ne_true, tgStarted, hw, h7]
  exact if_pos (decide_eq_true h1)

/-- START of an allowed run: the generator runs, a spare channel wakes, the first group is presented. -/
theorem tgStart_allowed (h7 : w.getLsbD 7 = true) (h8 : w.getLsbD 8 = false) (h9 : w.getLsbD 9 = false) (h1 : (s.chan ch).tg.state ≠ 1)
    (hok : tgRefused s { s.chan ch with tg := (s.chan ch).tg.withFields w } = false) :
    exec (.tgStart ch w) s = .next (tgNext ch (s.setChan ch { s.chan ch with
      state := if (s.chan ch).state = 2 then 5 else (s.chan ch).state, sr := (s.chan ch).sr && (s.chan ch).state ≠ 2,
      tg := { (s.chan ch).tg.withFields w with state := 1, passes := 0, edcSeen := false, stopAsked := false, visited := [] } })) := by
  have hwrite := tgCtrlWrite_start hd hr h7 h8 h9 h1
  rw [tgBegin_allowed (c := { s.chan ch with tg := (s.chan ch).tg.withFields w }) h1 hok] at hwrite
  exact congrArg Host.Outcome.next ((if_pos h7).trans hwrite)

theorem tgStart_refused (h7 : w.getLsbD 7 = true) (h8 : w.getLsbD 8 = false) (h9 : w.getLsbD 9 = false) (h1 : (s.chan ch).tg.state ≠ 1)
    (hno : tgRefused s { s.chan ch with tg := (s.chan ch).tg.withFields w } = true) :
    exec (.tgStart ch w) s = .next (s.setChan ch { s.chan ch with tg := { (s.chan ch).tg.withFields w with state := 3 } }) := by
  have hwrite := tgCtrlWrite_start hd hr h7 h8 h9 h1
  rw [tgBegin_refused (c := { s.chan ch with tg := (s.chan ch).tg.withFields w }) h1 hno, tgNext_rests (by rw [State.setChan_chan]; exact show ¬ (3 : BitVec 2) = 1 by decide)] at hwrite
  exact congrArg Host.Outcome.next ((if_pos h7).trans hwrite)

theorem tgCtrlWrite_stop (h8 : w.getLsbD 8 = true) (h9 : w.getLsbD 9 = false) (h1 : (s.chan ch).tg.state = 1) :
    tgCtrlWrite ch w s = s.setChan ch { s.chan ch with tg := { (s.chan ch).tg with stopAsked := true } } := by
  have hw := tgWritten_running h1 h9
  rw [tgCtrlWrite_eq hd hr, h8, if_pos rfl, tgStarted_noStart (.inr (by rw [hw, h1])), hw, modChan_setChan, Channel.tgAskStop, if_pos h1]

/-- CLEAR at a generator that does not run. -/
theorem tgCtrlWrite_clear (h9 : w.getLsbD 9 = true) (h7 : w.getLsbD 7 = false) (h1 : (s.chan ch).tg.state ≠ 1) :
    tgCtrlWrite ch w s = s.setChan ch { s.chan ch with tg := { (s.chan ch).tg.withFields w with
      state := 0, mismatch := false, edcSeen := false, passes := 0, counts := List.replicate 34 0 } } := by
  have hw : (s.chan ch).tgWritten w = { s.chan ch with tg := { (s.chan ch).tg.withFields w with
      state := 0, mismatch := false, edcSeen := false, passes := 0, counts := List.replicate 34 0 } } := by
    rw [Channel.tgWritten, h9, TrafficGen.written, if_neg h1, if_pos rfl, tgWipe, if_neg (show ¬ ((s.chan ch).tg.withFields w).state = 1 from h1)]
  have hstop : Channel.tgAskStop ((s.chan ch).tgWritten w) = (s.chan ch).tgWritten w := by
    rw [hw]
    exact if_neg (show ¬ (0 : BitVec 2) = 1 by decide)
  rw [tgCtrlWrite_eq hd hr, tgStarted_noStart (.inl h7), modChan_setChan, hstop, ite_self, hw]

/-- CLEAR during a run leaves it running (log 25). -/
theorem tgCtrlWrite_clearRunning (h9 : w.getLsbD 9 = true) (h8 : w.getLsbD 8 = false) (h1 : (s.chan ch).tg.state = 1) :
    tgCtrlWrite ch w s = s.setChan ch { s.chan ch with tg := { (s.chan ch).tg with
      mismatch := false, edcSeen := false, passes := 0, counts := List.replicate 34 0 } } := by
  have hw : (s.chan ch).tgWritten w = { s.chan ch with tg := { (s.chan ch).tg with
      mismatch := false, edcSeen := false, passes := 0, counts := List.replicate 34 0 } } := by
    rw [Channel.tgWritten, h9, TrafficGen.written, if_pos h1, if_pos rfl, tgWipe, if_pos h1, ← h1]
  rw [tgCtrlWrite_eq hd hr, h8, if_neg Bool.false_ne_true, tgStarted_noStart (.inr (by rw [hw]; exact h1)), hw]

end Control

/-! ### The end of a pass (R228, R241) -/

section Done
variable {s : State} {ch : Fin 50} {lanes : List Nat}

/-- Whether a channel holds or awaits a request of its generator. -/
def Channel.tgBusy (c : Channel) : Bool := (c.burst ++ c.waiting.map Prod.snd).any fun r => r.owner = .gen

/-- Whether a generator's pass has taken all its groups. -/
def TrafficGen.whole (t : TrafficGen) : Bool := tgCountOf t ≤ t.visited.length || !(tgWrites t || tgReads t)

/-- A generator whose pass has ended, its results counted. -/
def TrafficGen.passed (t : TrafficGen) (lanes : List Nat) : TrafficGen :=
  { tgCount t lanes 0 with passes := if t.whole then satAdd t.passes 1 else t.passes, stopAsked := false, visited := [] }

/-- A channel whose generator has ended a pass and, unless it goes on, the run: a spare channel returns to self refresh (R215). -/
def Channel.tgEnded (again : Bool) (t1 : TrafficGen) (c : Channel) : Channel :=
  if again || c.state ≠ 5 then { c with tg := t1 } else { c with tg := t1, state := 2, sr := true }

theorem Channel.tgEnded_again (t1 : TrafficGen) (c : Channel) : c.tgEnded true t1 = { c with tg := t1 } := rfl

theorem Channel.tgEnded_over (t1 : TrafficGen) (c : Channel) : c.tgEnded false t1 =
    { c with tg := t1, state := if c.state = 5 then 2 else c.state, sr := c.sr || c.state = 5 } := by
  rw [Channel.tgEnded, Bool.false_or]
  by_cases h5 : c.state = 5
  · rw [if_pos h5, decide_eq_true h5, Bool.or_true]
    exact if_neg (by simp only [h5, ne_eq, not_true, decide_false, Bool.false_eq_true, not_false_eq_true])
  · rw [if_neg h5, decide_eq_false h5, Bool.or_false]
    exact if_pos (decide_eq_true h5)

theorem tgRunDone_rests (h : (s.chan ch).tg.state ≠ 1 ∨ (s.chan ch).tgBusy = true ∨ s.gddr.rateTarget.isSome = true
    ∨ ((s.chan ch).tg.whole = false ∧ (s.chan ch).tg.stopAsked = false)) : exec (.tgRunDone ch lanes) s = .next s := by
  refine if_pos (?_ : (decide ((s.chan ch).tg.state ≠ 1) || (s.chan ch).tgBusy || s.gddr.rateTarget.isSome
    || !((s.chan ch).tg.whole || (s.chan ch).tg.stopAsked)) = true)
  simpa [or_assoc] using h

variable (h1 : (s.chan ch).tg.state = 1) (hb : (s.chan ch).tgBusy = false) (hr : s.gddr.rateTarget = none)
  (hw : (s.chan ch).tg.whole = true ∨ (s.chan ch).tg.stopAsked = true)
include h1 hb hr hw

theorem tgRunDone_ends : exec (.tgRunDone ch lanes) s =
    (let again := (s.chan ch).tg.loop && !(s.chan ch).tg.stopAsked
    let t1 : TrafficGen := { (s.chan ch).tg.passed lanes with state := if again then 1 else 2 }
    .next (tgNext ch (s.setChan ch ((s.chan ch).tgEnded again t1)))) := by
  refine if_neg (?_ : ¬ (decide ((s.chan ch).tg.state ≠ 1) || (s.chan ch).tgBusy || s.gddr.rateTarget.isSome
    || !((s.chan ch).tg.whole || (s.chan ch).tg.stopAsked)) = true)
  obtain hw | hw := hw <;> simp [h1, hb, hr, hw]

theorem tgRunDone_again (hl : (s.chan ch).tg.loop = true) (hs : (s.chan ch).tg.stopAsked = false) : exec (.tgRunDone ch lanes) s =
    .next (tgNext ch (s.setChan ch { s.chan ch with tg := { (s.chan ch).tg.passed lanes with state := 1 } })) := by
  rw [tgRunDone_ends h1 hb hr hw, hl, hs]
  rfl

theorem tgRunDone_over (h : (s.chan ch).tg.loop = false ∨ (s.chan ch).tg.stopAsked = true) : exec (.tgRunDone ch lanes) s =
    .next (s.setChan ch { s.chan ch with
      tg := { (s.chan ch).tg.passed lanes with state := 2 },
      state := if (s.chan ch).state = 5 then 2 else (s.chan ch).state, sr := (s.chan ch).sr || (s.chan ch).state = 5 }) := by
  have hagain : ((s.chan ch).tg.loop && !(s.chan ch).tg.stopAsked) = false := by obtain h | h := h <;> simp [h]
  rw [tgRunDone_ends h1 hb hr hw, hagain]
  dsimp only
  rw [Channel.tgEnded_over, tgNext_rests]
  · rfl
  · rw [State.setChan_chan]
    exact show ¬ (2 : BitVec 2) = 1 by decide

end Done

theorem tgCount_lane (t : TrafficGen) (lanes : List Nat) {i : Nat} (hi : i < 32) : (tgCount t lanes 0).counts.getD i 0 =
    min (t.counts.getD i 0 + if t.mode = 2 ∨ t.mode = 3 then lanes.getD i 0 else 0) (2 ^ 32 - 1) := by
  have h34 : i < 34 := by omega
  simp [tgCount, hi, h34]

theorem tgCount_mismatch (t : TrafficGen) (lanes : List Nat) : (tgCount t lanes 0).mismatch = true ↔
    t.mismatch = true ∨ ((t.mode = 2 ∨ t.mode = 3) ∧ ∃ x ∈ lanes, x ≠ 0) := by
  simp [tgCount]

/-- Settles O28: issue, urgency, retries, scrub, rate, counts and the traffic generators, each by its own cases. -/
theorem gddr7Channels : Obligations.Gddr7Channels := by
  refine ⟨⟨fun s ch e => ⟨gddr7CommandIssue_rests e, fun x hs hx => ⟨fun hw => ?_, gddr7CommandIssue_gen hs hx e, fun ho => ?_⟩⟩,
      fun c a ha => mem_chanReqs (pickGd_mem ha), fun s ch n x h => ?_, fun s ch n x h => ?_⟩,
    ⟨fun s ch ok => ⟨edcRetry_rests, fun x h0 hs hx => ⟨edcRetry_exhausted hs hx, edcRetry_counts hs hx h0, fun h1 ht => ?_⟩⟩,
      fun s ch => ⟨fun he h1 hm hr hp => ?_, gddr7ScrubRead_rests⟩, fun s x => gddr7RateChange_relocks, fun s => gddr7RateChange_waits,
      fun s w => ⟨fun hw hr => ?_, memCntClear_ignored⟩⟩,
    fun s ch w => ⟨⟨rfl, rfl, rfl⟩, fun hd => ?_, fun hd hr => ⟨fun h7 h8 h9 h1 => ⟨fun hok => ?_, fun hno => ?_⟩, fun h8 h9 h1 => ?_,
      fun h9 h7 h1 => ?_, fun h9 h8 h1 => ?_⟩, fun lanes => ⟨tgRunDone_rests, fun h1 hb ht hw => ⟨tgRunDone_again h1 hb ht hw,
        tgRunDone_over h1 hb ht hw⟩, fun i => tgCount_lane _ lanes, tgCount_mismatch _ lanes⟩⟩⟩
  · rw [takeReq_eq, Channel.takeIn_none _ (show ((s.chan ch).issued x).waiting = [] from hw)]
    exact ⟨rfl, rfl⟩
  · obtain ⟨t, cor, unc, ht, hown, hcor, hunc, hmem, hother⟩ := gddr7CommandIssue_serves hs hx ho e
    have hkept := takeReq_requeued s.ns x (s.chan ch)
    refine ⟨t, ht, ?_, ?_, ?_, ?_, ?_, hmem, fun h => ?_, fun h => ?_, hother⟩
    · rw [hown]
    · rw [hown]
    · rw [hown]
    · rw [hown, hkept]
      rfl
    · rw [hown, hkept]
      rfl
    · rw [hown, hcor h]
    · rw [hown, hunc h]
  · exact ⟨fun hc ht => by rw [requestUrgent_burst h, modify_aged_urgent h hc ht], requestUrgent_burst_early h⟩
  · exact ⟨fun hc ht => by rw [requestUrgent_narrow, modify_aged_urgent h hc ht], requestUrgent_narrow_early h⟩
  · obtain ⟨t, hrun, hdeg, hg⟩ := edcRetry_fails hs hx h0 h1 ht
    exact ⟨t, hrun, (congrArg (fun g : Gddr => g.chans[ch]) hg).trans (s.setChan_chan ch _), by rw [hg], hdeg, by rw [hg]; rfl⟩
  · refine ⟨_, gddr7ScrubRead_presents he h1 hm hr hp, ?_⟩
    rw [State.setChan_chan]
    exact ⟨rfl, Channel.scrubbed_group .., Channel.scrubbed_room s.ns, Channel.scrubbed_full s.ns⟩
  · exact ⟨_, memCntClear_writes hw hr, rfl, rfl, rfl, rfl, rfl, memCtrlWrite_clears s hw⟩
  · have hoff : ∀ b : Bool, Host.Outcome.next (if b then tgCtrlWrite ch w s else s) = (.next s : Res) := fun b => by
      rw [tgCtrlWrite_ignored hd, ite_self]
    exact ⟨hoff _, hoff _, hoff _⟩
  · exact tgStart_allowed hd hr h7 h8 h9 h1 hok
  · exact tgStart_refused hd hr h7 h8 h9 h1 hno
  · exact congrArg Host.Outcome.next ((if_pos h8).trans (tgCtrlWrite_stop hd hr h8 h9 h1))
  · exact congrArg Host.Outcome.next ((if_pos h9).trans (tgCtrlWrite_clear hd hr h9 h7 h1))
  · exact congrArg Host.Outcome.next ((if_pos h9).trans (tgCtrlWrite_clearRunning hd hr h9 h8 h1))

end Sys2Proof.Machine
end

section
/-! PROOFS. NOP, FENCE, TIME_MARK, COPY in byte mode and FILL (R261, R265, R270, R414, R493). -/
namespace Sys2Proof.Machine
open Sys2Proof

/-! ### Descriptors without an engine (R261, R270, R414) -/

section Plain
variable {s : State} {r : Fin 256} {n : Nat} {c : DescCtx}

theorem nop_none (h : descAt s r n 0x01 = none) : exec (.nopDesc r n) s = .next s := by
  show execNopDesc r n s = _
  simp only [execNopDesc, h]

theorem nop_ends (h : descAt s r n 0x01 = some c) : exec (.nopDesc r n) s = .next (finishDesc r c.idx 0x00 0 0 s) := by
  show execNopDesc r n s = _
  simp only [execNopDesc, h]
  rfl

theorem timeMark_none (h : descAt s r n 0x71 = none) : exec (.timeMark r n) s = .next s := by
  show execTimeMark r n s = _
  simp only [execTimeMark, h]

theorem timeMark_ends (h : descAt s r n 0x71 = some c) : exec (.timeMark r n) s =
    .next (finishDesc r c.idx 0x00 (BitVec.ofNat 16 (b2n c.hold + 256 * c.era.toNat)) c.time s) := by
  show execTimeMark r n s = _
  simp only [execTimeMark, h]
  rfl

theorem fence_none (h : descAt s r n 0x02 = none) : exec (.fenceDesc r n) s = .next s := by
  show execFenceDesc r n s = _
  simp only [execFenceDesc, h]

/-- What a FENCE does (R261, R270). -/
theorem fence_eq (h : descAt s r n 0x02 = some c) : exec (.fenceDesc r n) s =
    if (bits (dW2 c.word) 0 2 : BitVec 2) = 3 then .next (finishDesc r c.idx 0x30 8 0 s)
    else if fenceWaits s r c = true then .next s
    else if dCont c.word = true ∧ (s.ring r).state = .halted then
      .next (finishDesc r c.idx 0x00 0 (BitVec.ofNat 64 ((s.ring r).haltSeq.toNat + 65536)) (s.setRing r { s.ring r with state := .bound }))
    else .next (finishDesc r c.idx 0x00 0 0 s) := by
  show execFenceDesc r n s = _
  simp only [execFenceDesc, h, Bool.and_eq_true, decide_eq_true_eq]
  rfl

end Plain

/-! ### Frames of moves -/

/-- Where an address points depends on the module's place in its machine alone. -/
theorem placeOf_of_mach {s t : State} (h : t.mach = s.mach) (d : Dword) : placeOf t d = placeOf s d := by
  unfold placeOf
  rw [h]

/-- A descriptor that presents requests leaves the memories, the machine and the channels' failures as they are. -/
theorem askDesc_frame {ask : State → State} (h : ∀ t, AskOnly t (ask t)) (r : Fin 256) (c : DescCtx) (k : Nat) (s : State) :
    (askDesc r c k ask s).host = s.host ∧ (askDesc r c k ask s).mach = s.mach ∧ (askDesc r c k ask s).gddr.mem = s.gddr.mem
      ∧ (askDesc r c k ask s).gddr.failedCh = s.gddr.failedCh := by
  unfold askDesc
  split
  · exact ⟨rfl, rfl, rfl, rfl⟩
  · rw [h (modCtx r c.idx _ s)]
    exact ⟨rfl, rfl, rfl, rfl⟩

theorem askDesc_cores {ask : State → State} (h : ∀ t, (ask t).cores = t.cores) (r : Fin 256) (c : DescCtx) (k : Nat) (s : State) :
    (askDesc r c k ask s).cores = s.cores := by
  unfold askDesc
  split
  · rfl
  · exact h _

theorem gdAccept_cores (o : TxnOwner) (cls : Nat) (narrow write : Bool) (a n : Nat) (s : State) :
    (gdAccept o cls narrow write a n s).cores = s.cores := by rw [gdAccept_eq]; rfl

/-- A descriptor that has moved its bytes and opened no transaction ends: the memories stay as moved. -/
theorem ended_landAt {s u : State} (h : u.mach = s.mach) (r : Fin 256) (idx : Nat) (status : Byte) (detail : Half) (result : Dword)
    (o : TxnOwner) (cls : Nat) (p : Place) (n : Nat) :
    (let t := fitTxns s (endOrWait r idx status detail result (landAt o cls p n u))
    t.gddr.mem = u.gddr.mem ∧ t.host = u.host ∧ t.cores = u.cores) := by
  have hmach : (endOrWait r idx status detail result (landAt o cls p n u)).mach = s.mach := by
    rw [endOrWait_eq, landAt_eq]
    exact h
  rw [fitTxns_of_mach hmach, endOrWait_eq, landAt_eq]
  exact ⟨rfl, rfl, rfl⟩

/-! ### COPY in byte mode (R493) -/

theorem copyByteFault_source {s : State} {w : DescWord} {f : Byte × Half} (hm : bits (dW2 w) 1 4 = (0 : BitVec 4))
    (hs : opFault s (dQ w 0x10) (dQ w 0x20).toNat 0x10 = some f) (hd : opFault s (dQ w 0x18) (dQ w 0x20).toNat 0x18 = none) :
    copyByteFault s w = some f := by
  rw [copyByteFault, hm, hs, hd]
  rfl

section CopyByte
variable {s : State} {r : Fin 256} {n : Nat}

theorem copyByte_none (h : descAt s r n 0x10 = none) : exec (.copyByteMode r n) s = .next s := by
  show execCopyByteMode r n s = _
  simp only [execCopyByteMode, h]

variable {c : DescCtx} (h : descAt s r n 0x10 = some c)
include h

theorem copyByte_tensorMode (hb : (dW2 c.word).getLsbD 0 = true) : exec (.copyByteMode r n) s = .next s := by
  show execCopyByteMode r n s = _
  simp only [execCopyByteMode, h, hb, if_true]

variable (hb : (dW2 c.word).getLsbD 0 = false)
include hb

theorem copyByte_fault {f : Byte × Half} (hf : copyByteFault s c.word = some f) :
    exec (.copyByteMode r n) s = .next (finishDesc r c.idx f.1 f.2 0 s) := by
  show execCopyByteMode r n s = _
  simp only [execCopyByteMode, h, hb, hf, Bool.false_eq_true, if_false]

/-- The state in which a byte-mode COPY has presented its requests. -/
def copyByteAsked (r : Fin 256) (c : DescCtx) (s : State) : State :=
  askDesc r c 0 (askMove (.desc r c.idx) 2 (placeOf s (dQ c.word 0x10)) (placeOf s (dQ c.word 0x18)) (dQ c.word 0x20).toNat) s

/-- A byte-mode COPY between two places whose requests have been served moves its bytes and ends. -/
def copyByteNow (r : Fin 256) (c : DescCtx) (p q : Place) (t : State) : State :=
  let len := (dQ c.word 0x20).toNat
  let y := readStatus (markedSectors p.off (readPlace t p len))
  fitTxns t (endOrWait r c.idx y.1 y.2 0 (transfer (.desc r c.idx) 2 p q (dQ c.word 0x18) len t t).1)

variable (hf : copyByteFault s c.word = none)
include hf

theorem copyByte_goes : exec (.copyByteMode r n) s = .next
    (onceServed (.desc r c.idx) (copyByteNow r c (placeOf s (dQ c.word 0x10)) (placeOf s (dQ c.word 0x18))) (copyByteAsked r c s)) := by
  show execCopyByteMode r n s = _
  simp only [execCopyByteMode, h, hb, hf, Bool.false_eq_true, if_false]
  rfl

theorem copyByte_asks (ha : asking (copyByteAsked r c s) (.desc r c.idx) = true) :
    exec (.copyByteMode r n) s = .next (copyByteAsked r c s) := by
  rw [copyByte_goes h hb hf, onceServed_waits ha]

theorem copyByte_moves (ha : asking (copyByteAsked r c s) (.desc r c.idx) = false) : exec (.copyByteMode r n) s =
    .next (copyByteNow r c (placeOf s (dQ c.word 0x10)) (placeOf s (dQ c.word 0x18)) (copyByteAsked r c s)) := by
  rw [copyByte_goes h hb hf, onceServed_goes ha]

end CopyByte

theorem copyByteAsked_frame (r : Fin 256) (c : DescCtx) (s : State) : (copyByteAsked r c s).host = s.host ∧ (copyByteAsked r c s).mach = s.mach
    ∧ (copyByteAsked r c s).gddr.mem = s.gddr.mem ∧ (copyByteAsked r c s).gddr.failedCh = s.gddr.failedCh :=
  askDesc_frame (fun _ => askMove_askOnly ..) r c 0 s

/-- Only a local store's requests lie in a core: a move between host memory and GDDR7 presents none there. -/
theorem copyByteAsked_cores {r : Fin 256} {c : DescCtx} {s : State} (hp : ∀ k a, placeOf s (dQ c.word 0x10) ≠ .ls k a)
    (hq : ∀ k a, placeOf s (dQ c.word 0x18) ≠ .ls k a) : (copyByteAsked r c s).cores = s.cores := by
  refine askDesc_cores (fun t => ?_) r c 0 s
  generalize placeOf s (dQ c.word 0x10) = p at hp ⊢
  generalize placeOf s (dQ c.word 0x18) = q at hq ⊢
  have hread : (acceptAt (.desc r c.idx) 2 false p (dQ c.word 0x20).toNat t).cores = t.cores := by
    cases p with
    | ls k a => exact absurd rfl (hp k a)
    | gddr a => exact gdAccept_cores ..
    | _ => rfl
  cases q with
  | ls k a => exact absurd rfl (hq k a)
  | _ => exact hread

/-- A COPY between places of this module and its host leaves the memories as its write does. -/
theorem copyByteNow_frame {p q : Place} (hp : ∀ m low, p ≠ .remote m low) (hq : ∀ m low, q ≠ .remote m low) (r : Fin 256) (c : DescCtx)
    (s : State) :
    (let t := copyByteNow r c p q s
    let u := writePlace q (readPlace s p (dQ c.word 0x20).toNat) s
    t.gddr.mem = u.gddr.mem ∧ t.host = u.host ∧ t.cores = u.cores) := by
  have htransfer : (transfer (.desc r c.idx) 2 p q (dQ c.word 0x18) (dQ c.word 0x20).toNat s s).1 =
      landAt (.desc r c.idx) 2 q (dQ c.word 0x20).toNat (writePlace q (readPlace s p (dQ c.word 0x20).toNat) s) := by
    cases p with
    | remote m low => exact absurd rfl (hp m low)
    | _ =>
      cases q with
      | remote m low => exact absurd rfl (hq m low)
      | _ => rfl
  dsimp only [copyByteNow]
  rw [htransfer]
  exact ended_landAt (by rw [writePlace_eq]) ..

/-- Where no channel has failed, a write to GDDR7 puts its bytes there and changes no other memory. -/
theorem writePlace_gddr_frame {s : State} (h : s.gddr.failedCh = 0) (a : Nat) (bs : List MByte) :
    (writePlace (.gddr a) bs s).gddr.mem = s.gddr.mem.putBytes a (plain bs) ∧ (writePlace (.gddr a) bs s).cores = s.cores := by
  rw [show writePlace (.gddr a) bs s = _ from if_pos h]
  exact ⟨rfl, rfl⟩

/-- A COPY from host memory to GDDR7 writes the bytes it read, and nothing else. -/
theorem copyByteNow_host_gddr {s : State} (h0 : s.gddr.failedCh = 0) (r : Fin 256) (c : DescCtx) (a d : Nat) :
    (let t := copyByteNow r c (.host a) (.gddr d) s
    t.gddr.mem = s.gddr.mem.putBytes d (s.host.getBytes a (dQ c.word 0x20).toNat) ∧ t.host = s.host ∧ t.cores = s.cores) := by
  obtain ⟨hmem, hhost, hcores⟩ := copyByteNow_frame (p := .host a) (q := .gddr d) (by simp) (by simp) r c s
  obtain ⟨hput, hkeep⟩ := writePlace_gddr_frame h0 d (readPlace s (.host a) (dQ c.word 0x20).toNat)
  rw [plain_readPlace_host] at hput
  exact ⟨hmem.trans hput, hhost.trans (writePlace_gddr_host ..), hcores.trans hkeep⟩

/-- A COPY from GDDR7 to host memory writes the bytes it read, and nothing else. -/
theorem copyByteNow_gddr_host (r : Fin 256) (c : DescCtx) (d a : Nat) (s : State) :
    (let t := copyByteNow r c (.gddr d) (.host a) s
    t.host = s.host.putBytes a (s.gddr.mem.getBytes d (dQ c.word 0x20).toNat) ∧ t.gddr.mem = s.gddr.mem ∧ t.cores = s.cores) := by
  obtain ⟨hmem, hhost, hcores⟩ := copyByteNow_frame (p := .gddr d) (q := .host a) (by simp) (by simp) r c s
  rw [← plain_readPlace_gddr]
  exact ⟨hhost, hmem, hcores⟩

theorem Memory.getBytes_length (m : Memory) (a n : Nat) : (m.getBytes a n).length = n := by simp [Memory.getBytes]

/-- Bytes of one memory put into another, canonical one read there as they did here. -/
theorem Memory.get_putBytes_getBytes {m : Memory} (h : m.wf = true) (k : Memory) (a d : Nat) {n i : Nat} (hi : i < n) :
    (m.putBytes d (k.getBytes a n)).get (d + i) = k.get (a + i) := by
  rw [Memory.get_putBytes_same _ _ _ _ h (by rwa [Memory.getBytes_length])]
  simp [Memory.getBytes]

theorem Memory.get_putBytes_getBytes_outside (m k : Memory) {a d n b : Nat} (hb : b < d ∨ d + n ≤ b) :
    (m.putBytes d (k.getBytes a n)).get b = m.get b :=
  Memory.get_putBytes_other _ _ _ _ (by rwa [Memory.getBytes_length])

/-! ### FILL (R261) -/

theorem fillFault_length {s : State} {w : DescWord} (ho : opFault s (dQ w 0x10) (dQ w 0x20).toNat 0x10 = none)
    (hl : (dQ w 0x20).toNat % 8 ≠ 0) : fillFault s w = some (0x30, 0x20) := by
  rw [fillFault, ho, failIf, if_pos (decide_eq_true hl)]
  rfl

section Fill
variable {s : State} {r : Fin 256} {n : Nat}

theorem fill_none (h : descAt s r n 0x12 = none) : exec (.fillDesc r n) s = .next s := by
  show execFillDesc r n s = _
  simp only [execFillDesc, h]

variable {c : DescCtx} (h : descAt s r n 0x12 = some c)
include h

theorem fill_fault {f : Byte × Half} (hf : fillFault s c.word = some f) :
    exec (.fillDesc r n) s = .next (finishDesc r c.idx f.1 f.2 0 s) := by
  show execFillDesc r n s = _
  simp only [execFillDesc, h, hf]

theorem fill_writes (hf : fillFault s c.word = none) : exec (.fillDesc r n) s = .next (fitTxns s (endOrWait r c.idx 0x00 0 0
    (writeOut (.desc r c.idx) 2 (dQ c.word 0x10) (patternBytes (dQ c.word 0x18) (dQ c.word 0x20).toNat) s))) := by
  show execFillDesc r n s = _
  simp only [execFillDesc, h, hf]
  rfl

end Fill

theorem plain_patternBytes (pat : Dword) (n : Nat) :
    plain (patternBytes pat n) = (List.range n).map fun i => (bits pat (8 * (i % 8)) 8 : Byte) := by
  simp [plain, patternBytes]

/-- Settles O32: each descriptor has a lemma per answer; a COPY and a FILL end with the memory they wrote. -/
theorem nopFenceTimeMarkCopyAndFill : Obligations.NopFenceTimeMarkCopyAndFill := by
  refine ⟨fun s r n c => ⟨nop_ends, timeMark_ends, fun h => ⟨fun h3 => ?_, fun h3 hw => ?_, fun h3 hw hc hs => ?_, fun h3 hw hc => ?_⟩⟩,
    fun s r n c => ⟨fun h hb => ⟨fun f => copyByte_fault h hb, fun f => copyByteFault_source, copyByte_asks h hb, copyByte_moves h hb,
      fun a d hf ha hp hq h0 => ?_, fun a d hf ha hp hq => ?_⟩, copyByte_tensorMode,
      fun h => ⟨fun f => fill_fault h, fillFault_length, fill_writes h, fun a hf hp => ?_⟩⟩,
    fun s r n k hk hnone => ?_⟩
  · rw [fence_eq h, if_pos h3]
  · rw [fence_eq h, if_neg h3, if_pos hw]
  · rw [fence_eq h, if_neg h3, if_neg (by simp [hw]), if_pos ⟨hc, hs⟩]
  · rw [fence_eq h, if_neg h3, if_neg (by simp [hw]), if_neg (by simpa [imp_iff_not_or] using hc)]
  · obtain ⟨hhost, -, hmem, hfailed⟩ := copyByteAsked_frame r c s
    have hcores : (copyByteAsked r c s).cores = s.cores := copyByteAsked_cores (by simp [hp]) (by simp [hq])
    obtain ⟨htm, hth, htc⟩ := copyByteNow_host_gddr (hfailed.trans h0) r c a d
    rw [hmem, hhost] at htm
    refine ⟨_, copyByte_moves h hb hf ha, ?_⟩
    rw [hp, hq, htm, hth, htc]
    exact ⟨fun hwf i hi => Memory.get_putBytes_getBytes hwf _ a d hi, fun b => Memory.get_putBytes_getBytes_outside _ _, hhost, hcores⟩
  · obtain ⟨hhost, -, hmem, -⟩ := copyByteAsked_frame r c s
    have hcores : (copyByteAsked r c s).cores = s.cores := copyByteAsked_cores (by simp [hp]) (by simp [hq])
    obtain ⟨hth, htm, htc⟩ := copyByteNow_gddr_host r c d a (copyByteAsked r c s)
    rw [hmem, hhost] at hth
    refine ⟨_, copyByte_moves h hb hf ha, ?_⟩
    rw [hp, hq, hth, htm, htc]
    exact ⟨fun hwf i hi => Memory.get_putBytes_getBytes hwf _ d a hi, fun b => Memory.get_putBytes_getBytes_outside _ _, hmem, hcores⟩
  · have hwrite := writeOut_host hp (.desc r c.idx) 2 (patternBytes (dQ c.word 0x18) (dQ c.word 0x20).toNat)
    rw [plain_patternBytes] at hwrite
    refine ⟨_, fill_writes h hf, ?_⟩
    rw [hwrite]
    obtain ⟨hth, htg, htc⟩ := ended_setHost r c.idx 0x00 0 0 (s.host.putBytes a
      ((List.range (dQ c.word 0x20).toNat).map fun i => (bits (dQ c.word 0x18) (8 * (i % 8)) 8 : Byte))) s
    rw [hth]
    refine ⟨fun hwf i hi => ?_, fun b hb => Memory.get_putBytes_other _ _ _ _ (by simpa using hb), htg, htc⟩
    rw [Memory.get_putBytes_same _ _ _ _ hwf (by simpa using hi)]
    simp
  · simp only [List.mem_cons, List.not_mem_nil, or_false] at hk
    obtain rfl | rfl | rfl | rfl | rfl := hk
    · exact nop_none hnone
    · exact fence_none hnone
    · exact timeMark_none hnone
    · exact copyByte_none hnone
    · exact fill_none hnone

end Sys2Proof.Machine
end

section
/-! PROOFS. DIGEST, EXPORT_SHARD and IMPORT_SHARD of shards (R272, R388 to R390, R392 to R394). -/
namespace Sys2Proof.Machine
open Sys2Proof

/-! ### The stream as its start took it (R272) -/

/-- Where a start took the stream's values, the input of the digest is those values. -/
theorem digestInput_snap {c : DescCtx} {t : Tensor} {ext : List Nat} (h : c.snap.length = (streamAll t ext).length) (u : State) :
    plain (digestInput c t ext u) = c.snap := by
  rw [digestInput, if_pos h, plain, List.map_map]
  exact List.map_fst_zip h.le

/-- The state in which a DIGEST or an EXPORT_SHARD has presented the reads of its tensor. -/
def shardAsked (r : Fin 256) (c : DescCtx) (s : State) : State :=
  let t := c.td s (dQ c.word 0x10)
  askDesc r c 0 (askAll (.desc r c.idx) 2 (t.spans true true (t.exts s.mach.logical)) []) s

theorem shardAsked_frame (r : Fin 256) (c : DescCtx) (s : State) : (shardAsked r c s).host = s.host ∧ (shardAsked r c s).mach = s.mach
    ∧ (shardAsked r c s).gddr.mem = s.gddr.mem ∧ (shardAsked r c s).gddr.failedCh = s.gddr.failedCh :=
  askDesc_frame (fun _ => askAll_askOnly ..) r c 0 s

/-! ### DIGEST (R390) -/

theorem digestFault_tensor {s : State} {c : DescCtx} {f : Byte × Half}
    (h : tensorFaultOf s (c.td s (dQ c.word 0x10)) (dQ c.word 0x10) 0x10 false false = some f) : digestFault s c = some f := by
  simp only [digestFault, h, Option.orElse_some]

section Digest
variable {s : State} {r : Fin 256} {n : Nat}

theorem digest_none (h : descAt s r n 0x42 = none) : exec (.digestDesc r n) s = .next s := by
  show execDigestDesc r n s = _
  simp only [execDigestDesc, h]

variable {c : DescCtx} (h : descAt s r n 0x42 = some c)
include h

theorem digest_fault {f : Byte × Half} (hf : digestFault s c = some f) :
    exec (.digestDesc r n) s = .next (finishDesc r c.idx f.1 f.2 0 s) := by
  show execDigestDesc r n s = _
  simp only [execDigestDesc, h, hf]

variable (hf : digestFault s c = none)
include hf

theorem digest_goes : exec (.digestDesc r n) s = .next (onceServed (.desc r c.idx)
    (fun u => fitTxns u (digestNow r c (c.td s (dQ c.word 0x10)) u)) (shardAsked r c s)) := by
  show execDigestDesc r n s = _
  simp only [execDigestDesc, h, hf]
  rfl

theorem digest_asks (ha : asking (shardAsked r c s) (.desc r c.idx) = true) :
    exec (.digestDesc r n) s = .next (shardAsked r c s) := by
  rw [digest_goes h hf, onceServed_waits ha]

theorem digest_ends (ha : asking (shardAsked r c s) (.desc r c.idx) = false) : exec (.digestDesc r n) s =
    .next (fitTxns (shardAsked r c s) (digestNow r c (c.td s (dQ c.word 0x10)) (shardAsked r c s))) := by
  rw [digest_goes h hf, onceServed_goes ha]

end Digest

/-- A DIGEST into host memory writes the digest, and those of the sub-blocks where it asks for them, and nothing else. -/
theorem digestNow_host {s : State} {r : Fin 256} {c0 c : DescCtx} (hc : (ctxOf s r c0.idx).getD c0 = c) {d : Nat}
    (hp : placeOf s (dQ c.word 0x18) = .host d) (t : Tensor) :
    (let bs := digestInput c t (t.exts s.mach.logical) s
    let u := fitTxns s (digestNow r c0 t s)
    u.host = s.host.putBytes d (if (dW2 c.word).getLsbD 0 then shardDigest bs ++ (subDigests bs).flatten else shardDigest bs)
      ∧ u.gddr = s.gddr ∧ u.cores = s.cores) := by
  simp only [digestNow, hc]
  exact answered_host hp ..

/-! ### EXPORT_SHARD (R392, R393) -/

theorem exportFault_tensor {s : State} {c : DescCtx} {f : Byte × Half}
    (h : tensorFaultOf s (c.td s (dQ c.word 0x10)) (dQ c.word 0x10) 0x10 false false = some f) : exportFault s c = some f := by
  simp only [exportFault, h, Option.orElse_some]

theorem opFault_host {s : State} {d : Dword} {a : Nat} (hp : placeOf s d = .host a) (n off : Nat) : opFault s d n off = none := by
  rw [opFault, hp]
  rfl

/-- A record that does not fit where it is to go is refused for its LENGTH (R393). -/
theorem exportFault_capacity {s : State} {c : DescCtx} {d : Nat}
    (h : tensorFaultOf s (c.td s (dQ c.word 0x10)) (dQ c.word 0x10) 0x10 false false = none) (hp : placeOf s (dQ c.word 0x18) = .host d)
    (hl : (dQ c.word 0x20).toNat < 64 + 32 * (c.td s (dQ c.word 0x10)).dims.length
      + (streamAll (c.td s (dQ c.word 0x10)) ((c.td s (dQ c.word 0x10)).exts s.mach.logical)).length) :
    exportFault s c = some (0x30, 0x20) := by
  simp only [exportFault, h, Option.orElse_none, opFault_host hp, failIf, decide_eq_true hl, if_true]
  rfl

section ExportShard
variable {s : State} {r : Fin 256} {n : Nat}

theorem exportShard_none (h : descAt s r n 0x43 = none) : exec (.exportShard r n) s = .next s := by
  show execExportShard r n s = _
  simp only [execExportShard, h]

variable {c : DescCtx} (h : descAt s r n 0x43 = some c)
include h

theorem exportShard_fault {f : Byte × Half} (hf : exportFault s c = some f) :
    exec (.exportShard r n) s = .next (finishDesc r c.idx f.1 f.2 0 s) := by
  show execExportShard r n s = _
  simp only [execExportShard, h, hf]

variable (hf : exportFault s c = none)
include hf

theorem exportShard_goes : exec (.exportShard r n) s = .next (onceServed (.desc r c.idx)
    (fun u => fitTxns u (exportNow r c (c.td s (dQ c.word 0x10)) u)) (shardAsked r c s)) := by
  show execExportShard r n s = _
  simp only [execExportShard, h, hf]
  rfl

theorem exportShard_asks (ha : asking (shardAsked r c s) (.desc r c.idx) = true) :
    exec (.exportShard r n) s = .next (shardAsked r c s) := by
  rw [exportShard_goes h hf, onceServed_waits ha]

theorem exportShard_ends (ha : asking (shardAsked r c s) (.desc r c.idx) = false) : exec (.exportShard r n) s =
    .next (fitTxns (shardAsked r c s) (exportNow r c (c.td s (dQ c.word 0x10)) (shardAsked r c s))) := by
  rw [exportShard_goes h hf, onceServed_goes ha]

end ExportShard

theorem plain_unmarked_append (bs : List Byte) (cs : List MByte) : plain (bs.map (fun b => (b, false)) ++ cs) = bs ++ plain cs :=
  List.map_append.trans (congrArg (· ++ plain cs) (plain_unmarked bs))

/-- An EXPORT_SHARD into host memory writes the record's header and the stream, and nothing else. -/
theorem exportNow_host {s : State} {r : Fin 256} {c0 c : DescCtx} (hc : (ctxOf s r c0.idx).getD c0 = c) {d : Nat}
    (hp : placeOf s (dQ c.word 0x18) = .host d) (t : Tensor) :
    (let ext := t.exts s.mach.logical
    let bs := digestInput c t ext s
    let u := fitTxns s (exportNow r c0 t s)
    u.host = s.host.putBytes d
        (recordHead t s.mach.logical (streamData t ext).length (streamScales t ext).length (shardDigest bs) ++ plain bs)
      ∧ u.gddr = s.gddr ∧ u.cores = s.cores) := by
  simp only [exportNow, hc, writeOut_host hp, plain_unmarked_append]
  exact ended_setHost ..

/-! ### IMPORT_SHARD (R394) -/

section ImportShard
variable {s : State} {r : Fin 256} {n : Nat}

theorem importShard_none (h : descAt s r n 0x44 = none) : exec (.importShard r n) s = .next s := by
  show execImportShard r n s = _
  simp only [execImportShard, h]

variable {c : DescCtx} (h : descAt s r n 0x44 = some c)
include h

theorem importShard_fault {f : Byte × Half} (hf : importFault s c = some f) :
    exec (.importShard r n) s = .next (finishDesc r c.idx f.1 f.2 0 s) := by
  show execImportShard r n s = _
  simp only [execImportShard, h, hf]

theorem importShard_reads (hf : importFault s c = none) : exec (.importShard r n) s =
    .next (withOperand r c 0 2 (dQ c.word 0x10) (dQ c.word 0x20).toNat (importNow r c (c.td s (dQ c.word 0x18))) s) := by
  show execImportShard r n s = _
  simp only [execImportShard, h, hf]

end ImportShard

section Record
variable {r : Fin 256} {c : DescCtx} {t : Tensor} {bytes : List MByte} {u : State}

theorem importNow_refused (h : recordOk bytes t u.mach.logical = false) : importNow r c t bytes u = finishDesc r c.idx 0x30 0x8000 0 u := by
  simp only [importNow, h, Bool.not_false, if_true]
  rfl

/-- The state in which an IMPORT_SHARD has presented the stores of its tensor. -/
def importAsked (r : Fin 256) (c : DescCtx) (t : Tensor) (u : State) : State :=
  askDesc r c 1 (askAll (.desc r c.idx) 2 [] (t.spans true true (t.exts u.mach.logical))) u

/-- A record whose stores have been granted is stored, and its descriptor ends with the status of the record's read. -/
def recordStored (r : Fin 256) (c : DescCtx) (t : Tensor) (bytes : List MByte) (u v : State) : State :=
  let ext := t.exts u.mach.logical
  let body := (plain bytes).drop (64 + 32 * t.dims.length)
  let data := fieldAt (plain bytes) 0x20 8
  let y := readStatus (markedSectors (placeOf u (dQ c.word 0x10)).off bytes)
  landAll (.desc r c.idx) 2 (t.spans true true ext)
    (finishDesc r c.idx y.1 y.2 0 (importRows t ext (body.take data) (body.drop data) v))

theorem importNow_goes (h : recordOk bytes t u.mach.logical = true) : importNow r c t bytes u =
    onceServed (.desc r c.idx) (recordStored r c t bytes u) (importAsked r c t u) := by
  simp only [importNow, h, Bool.not_true, Bool.false_eq_true, if_false]
  rfl

end Record

/-- Settles O35: DIGEST, EXPORT_SHARD and IMPORT_SHARD each by the cases of its answer. -/
theorem shardsAreDigestedExportedAndImported : Obligations.ShardsAreDigestedExportedAndImported := by
  refine ⟨fun s r n k hk hnone => ?_, fun s r n c => ⟨
    fun h => ⟨fun f => digest_fault h, fun f => digestFault_tensor, digest_asks h, digest_ends h, fun d hf ha hp => ?_⟩,
    fun h => ⟨fun f => exportShard_fault h, fun f => exportFault_tensor, fun ht ⟨d, hp⟩ => exportFault_capacity ht hp, exportShard_asks h,
      exportShard_ends h, fun d hf ha hp => ?_⟩,
    fun u x hx => digestInput_snap hx u,
    fun h => ⟨fun f => importShard_fault h, importShard_reads h, fun bytes u => ⟨importNow_refused, fun hok ha => ?_, fun hok ha => ?_⟩⟩⟩⟩
  · simp only [List.mem_cons, List.not_mem_nil, or_false] at hk
    obtain rfl | rfl | rfl := hk
    · exact digest_none hnone
    · exact exportShard_none hnone
    · exact importShard_none hnone
  · obtain ⟨hhost, hmach, hmem, -⟩ := shardAsked_frame r c s
    obtain ⟨huh, hug, huc⟩ := digestNow_host (s := shardAsked r c s) rfl ((placeOf_of_mach hmach _).trans hp) (c.td s (dQ c.word 0x10))
    rw [hmach, hhost] at huh
    exact ⟨_, digest_ends h hf ha, huh, (congrArg Gddr.mem hug).trans hmem, huc⟩
  · obtain ⟨hhost, hmach, hmem, -⟩ := shardAsked_frame r c s
    obtain ⟨huh, hug, huc⟩ := exportNow_host (s := shardAsked r c s) rfl ((placeOf_of_mach hmach _).trans hp) (c.td s (dQ c.word 0x10))
    rw [hmach, hhost] at huh
    exact ⟨_, exportShard_ends h hf ha, huh, (congrArg Gddr.mem hug).trans hmem, huc⟩
  · exact (importNow_goes hok).trans (onceServed_waits ha _)
  · exact (importNow_goes hok).trans (onceServed_goes ha _)

end Sys2Proof.Machine
end

section
/-! PROOFS. Rings as a part of a state: what the end of a binding, a reset and a message leave of a ring, of the others and of the
rest of the module (R264, R267, R271, R299, R490). -/
namespace Sys2Proof.Machine
open Sys2Proof

/-! ### One ring among the others -/

theorem State.setRing_setRing (s : State) (r : Fin 256) (x y : Ring) : (s.setRing r x).setRing r y = s.setRing r y := by
  simp [State.setRing]

theorem State.setRing_modRing (s : State) (r : Fin 256) (x : Ring) (f : Ring → Ring) :
    (s.setRing r x).modRing r f = s.setRing r (f x) := by
  rw [State.modRing, State.setRing_same, State.setRing_setRing]

theorem State.ring_of_rings {s t : State} (h : t.rings = s.rings) (r : Fin 256) : t.ring r = s.ring r := by
  rw [State.ring, h, ← State.ring]

theorem EventOnly.rings {s t : State} (h : EventOnly s t) : t.rings = s.rings := by rw [h]

theorem EventOnly.ring {s t : State} (h : EventOnly s t) (r : Fin 256) : t.ring r = s.ring r := State.ring_of_rings h.rings r

/-- Noting since when a ring's next descriptor may start changes that time alone. -/
theorem noteAble_ring (r : Fin 256) (s : State) : ∃ a, (noteAble r s).ring r = { s.ring r with ableSince := a } :=
  ⟨_, State.modRing_same ..⟩

theorem noteAble_ring_other {r q : Fin 256} (h : q ≠ r) (s : State) : (noteAble r s).ring q = s.ring q :=
  State.modRing_other _ _ _ _ h.symm

/-- Each member's action turns its own condition into its result, and leaves the conditions and results of others. -/
theorem forAll_turns {α : Type} [DecidableEq α] {P Q : State → Prop} {l : List α} (hl : l.Nodup) {f : α → State → State} {a : α}
    (ha : a ∈ l) (turns : ∀ t, P t → Q (f a t)) (before : ∀ b t, b ≠ a → P t → P (f b t)) (after : ∀ b t, b ≠ a → Q t → Q (f b t)) {s : State}
    (hs : P s) : Q (forAll l f s) := by
  induction l generalizing s with
  | nil => exact absurd ha List.not_mem_nil
  | cons b l ih =>
    obtain ⟨hb, hl'⟩ := List.nodup_cons.1 hl
    by_cases h : b = a
    · subst h
      exact forAll_keeps Q l f (f b s) (fun c hc t => after c t fun e => hb (e ▸ hc)) (turns s hs)
    · exact ih hl' ((List.mem_cons.1 ha).resolve_left (Ne.symm h)) (before b s h hs)

/-! ### Events leave the event ring on or off (R275) -/

theorem ledgerAdd_evt (kind : Half) (sev : Nat) (source : Half) (data : List Byte) (s : State) :
    (ledgerAdd kind sev source data s).evt = s.evt := by
  rw [ledgerAdd_eq]
  rfl

theorem sendMsi_evt (v : Nat) (s : State) : (sendMsi v s).evt = s.evt := by
  rw [sendMsi_eq]

/-- A record written counts one more. -/
theorem evtWrite_evt (kind : Half) (sev : Nat) (source : Word) (data : List Byte) (s : State) :
    (evtWrite kind sev source data s).evt = { s.evt with w := s.evt.w + 1 } := by
  simp only [evtWrite]
  split
  · rw [sendMsi_evt]
    rfl
  · rfl

/-- A ring with room is not full. -/
theorem evtCheckFull_room {s : State} (h : s.evt.w - s.evt.c < 2 ^ s.evt.log2.toNat) : evtCheckFull s = s := by
  simp only [evtCheckFull]
  split
  · rfl
  · next hfull => exact absurd h hfull

/-- The look whether the ring is full takes the consumed count, or finds the ring full. -/
theorem evtCheckFull_cases (s : State) : evtCheckFull s = s ∨ (∃ c, evtCheckFull s = s.setEvt { s.evt with c := c })
    ∨ evtCheckFull s = s.setEvt { s.evt with full := true, lastRead := s.ns, spell := 0 } := by
  simp only [evtCheckFull]
  split
  · exact .inl rfl
  · split
    · exact .inr (.inl ⟨_, rfl⟩)
    · exact .inr (.inr rfl)

theorem evtCheckFull_enable (s : State) : (evtCheckFull s).evt.enable = s.evt.enable := by
  obtain h | ⟨c, h⟩ | h := evtCheckFull_cases s <;> rw [h] <;> rfl

theorem postEvent_enable (kind : Half) (sev : Nat) (source : Word) (data : List Byte) (s : State) :
    (postEvent kind sev source data s).evt.enable = s.evt.enable := by
  have key : ∀ s1 : State, s1.evt = s.evt → (if !s1.evt.enable || sev < s1.evt.minSev.toNat then s1
      else if s1.evt.full then s1.setEvt { s1.evt with lost := satAdd s1.evt.lost 1, spell := s1.evt.spell + 1 }
      else evtCheckFull (evtWrite kind sev source data s1)).evt.enable = s.evt.enable := by
    intro s1 h1
    rw [← h1]
    split
    · rfl
    · split
      · rfl
      · rw [evtCheckFull_enable, evtWrite_evt]
  simp only [postEvent]
  split
  · exact key _ (ledgerAdd_evt ..)
  · exact key s rfl

/-! ### What rings' resets leave of the module (R245, R271) -/

/-- The cores, GDDR7, the boot state, the key slots, and whether the event ring is on. -/
def unreset (s : State) : Vector Core 384 × Gddr × Boot × Vector KeySlot 8 × Bool := (s.cores, s.gddr, s.boot, s.sec.slots, s.evt.enable)

theorem unreset_postEvent (kind : Half) (sev : Nat) (source : Word) (data : List Byte) (s : State) :
    unreset (postEvent kind sev source data s) = unreset s := by
  have h := postEvent_eventOnly kind sev source data s
  simp only [unreset, h.cores, h.gddr, h.boot, h.sec, postEvent_enable]

theorem endDebug_slots (cause : Byte) (s : State) : (endDebug cause s).sec.slots = s.sec.slots := by
  simp only [endDebug]
  split
  · rw [cutAccess_eq, ledgerAdd_eq]
    rfl
  · rfl

theorem endSession_slots (tag : Half) (s : State) : (endSession tag s).sec.slots = s.sec.slots := by
  simp only [endSession]
  split
  · rw [endDebug_slots]
    rfl
  · rfl

theorem unreset_endSession (tag : Half) (s : State) : unreset (endSession tag s) = unreset s := by
  simp only [unreset, endSession_slots]
  rw [endSession_eq]

theorem endSession_ring (tag : Half) (s : State) (r : Fin 256) : (endSession tag s).ring r = s.ring r := by
  rw [endSession_eq]
  rfl

/-! ### The end of a binding (R267, R299) -/

/-- A ring whose binding ends is unbound, where it was bound or halted. -/
def Ring.unbind (g : Ring) : Ring := { g with tag := none, state := if g.state = .bound || g.state = .halted then .unbound else g.state }

/-- What the end of a binding is made of: the ring's part, an event, and the session's end where no ring of it is left. -/
theorem endBinding_keeps {β : Type} (g : State → β) (r : Fin 256) (cause : Nat) (s : State)
    (hevent : ∀ kind sev source data t, g (postEvent kind sev source data t) = g t) (hsession : ∀ tag t, g (endSession tag t) = g t) :
    g (endBinding r cause s) = if (s.ring r).tag = none then g s else g (s.modRing r Ring.unbind) := by
  unfold endBinding
  cases (s.ring r).tag with
  | none => exact (if_pos rfl).symm
  | some t =>
    refine Eq.trans ?_ (if_neg (by simp)).symm
    dsimp only
    split
    · exact hevent ..
    · exact (hsession ..).trans (hevent ..)

theorem unreset_endBinding (r : Fin 256) (cause : Nat) (s : State) : unreset (endBinding r cause s) = unreset s :=
  (endBinding_keeps unreset r cause s unreset_postEvent unreset_endSession).trans (ite_self _)

/-- The end of a binding changes the ring's binding and its STATE. -/
theorem endBinding_ring (r : Fin 256) (cause : Nat) (s : State) :
    ∃ st, (endBinding r cause s).ring r = { s.ring r with tag := none, state := st } := by
  have h := endBinding_keeps (fun t => t.ring r) r cause s (fun _ _ _ _ t => (postEvent_eventOnly ..).ring r)
    fun tag t => endSession_ring tag t r
  by_cases ht : (s.ring r).tag = none
  · exact ⟨(s.ring r).state, by rw [h, if_pos ht, ← ht]⟩
  · exact ⟨_, by rw [h, if_neg ht, State.modRing_same]; rfl⟩

theorem endBinding_ring_other {r q : Fin 256} (h : q ≠ r) (cause : Nat) (s : State) : (endBinding r cause s).ring q = s.ring q := by
  rw [endBinding_keeps (fun t => t.ring q) r cause s (fun _ _ _ _ t => (postEvent_eventOnly ..).ring q) fun tag t => endSession_ring tag t q,
    State.modRing_other _ _ _ _ h.symm, ite_self]

/-! ### A ring's reset (R271) -/

/-- ABORT changes stallkeepers alone. -/
theorem abortLaunch_clusters (l : Launch) (s : State) : abortLaunch l s = { s with clusters := (abortLaunch l s).clusters } :=
  forAll_keeps (fun t => t = { s with clusters := t.clusters }) _ _ s (fun cl _ t ht => by
    split
    · rw [ht]
      rfl
    · exact ht) rfl

theorem abortLaunches_clusters (l : List Launch) (s : State) :
    forAll l abortLaunch s = { s with clusters := (forAll l abortLaunch s).clusters } :=
  forAll_keeps (fun t => t = { s with clusters := t.clusters }) _ _ s (fun x _ t ht => by rw [abortLaunch_clusters, ht]) rfl

/-- A ring that starts to reset, its binding aside: fetched descriptors are dropped, and of the started ones those that run stay. -/
def Ring.resets (cause : Nat) (again : Bool) (g : Ring) : Ring :=
  { g with
    fetched := [], started := g.started.filter fun c => c.run, resetCause := BitVec.ofNat 8 cause,
    dropped := g.fetched.length + (g.started.filter fun c => !c.ran).length, reEnable := again, urgent := false, ableSince := none,
    mirrors := [], irqHeld := false }

theorem ringReset_notLive {r : Fin 256} {s : State} (h : (s.ring r).live = false) (cause bindCause : Nat) (again : Bool) :
    ringReset r cause bindCause again s = s := if_pos (by simp [h])

section Reset
variable {r : Fin 256} {s : State} (h : (s.ring r).live = true) (cause bindCause : Nat) (again : Bool)
include h

/-- A live ring's reset but for its event: launches are aborted, the binding ends, the ring is RESETTING. -/
theorem ringReset_eventOnly :
    (let s1 := s.setRing r ((s.ring r).resets cause again)
    EventOnly ((endBinding r bindCause (forAll (s1.launches.filter fun l => l.ring = r) abortLaunch s1)).modRing r
      fun g => { g with state := .resetting }) (ringReset r cause bindCause again s)) := by
  simp only [ringReset, h, Bool.not_true, Bool.false_eq_true, if_false]
  exact postEvent_eventOnly ..

theorem ringReset_ring : (ringReset r cause bindCause again s).ring r =
    { (s.ring r).resets cause again with tag := none, state := .resetting } := by
  have hreset := (ringReset_eventOnly h cause bindCause again).ring r
  obtain ⟨st, hbinding⟩ := endBinding_ring r bindCause (forAll (s.launches.filter fun l => l.ring = r) abortLaunch
    (s.setRing r ((s.ring r).resets cause again)))
  rw [hreset, State.modRing_same]
  dsimp only [State.setRing_launches]
  rw [hbinding, abortLaunches_clusters]
  exact congrArg (fun g : Ring => { g with tag := none, state := .resetting }) (State.setRing_same s r _)

end Reset

theorem ringReset_ring_other {r q : Fin 256} (hq : q ≠ r) (cause bindCause : Nat) (again : Bool) (s : State) :
    (ringReset r cause bindCause again s).ring q = s.ring q := by
  cases h : (s.ring r).live with
  | false => rw [ringReset_notLive h]
  | true =>
    rw [(ringReset_eventOnly h cause bindCause again).ring q, State.modRing_other _ _ _ _ hq.symm, endBinding_ring_other hq,
      abortLaunches_clusters]
    exact State.setRing_other s r q _ hq.symm

theorem unreset_ringReset (r : Fin 256) (cause bindCause : Nat) (again : Bool) (s : State) :
    unreset (ringReset r cause bindCause again s) = unreset s := by
  cases h : (s.ring r).live with
  | false => rw [ringReset_notLive h]
  | true =>
    simp only [ringReset, h, Bool.not_true, Bool.false_eq_true, if_false]
    rw [unreset_postEvent]
    refine (unreset_endBinding ..).trans ?_
    rw [abortLaunches_clusters]
    rfl

/-! ### Messages (R490) -/

section Msi
variable {s : State} {v : Fin 512} {n : Nat} (hn : v.val = n)
include hn

theorem ix_vector : ix 512 n = v := Fin.ext (by rw [← hn]; exact Nat.mod_eq_of_lt v.isLt)

theorem sendMsi_sends (hm : s.pcie.entries[v].mask = false) (hf : s.pcie.funcMask = false) : sendMsi n s =
    s.setOut { s.out with msix := s.out.msix ++ [(BitVec.ofNat 64 (4 * s.pcie.entries[v].addr.toNat), s.pcie.entries[v].data)] } := by
  simp only [sendMsi, ix_vector hn, hm, hf, Bool.or_self, Bool.false_eq_true, if_false]

theorem sendMsi_holds (hm : s.pcie.entries[v].mask = true) : sendMsi n s =
    s.setPcie { s.pcie with entries := s.pcie.entries.set v { s.pcie.entries[v] with pend := true } } := by
  simp only [sendMsi, ix_vector hn, hm, Bool.true_or, if_true]

end Msi

theorem sendMsi_ring (n : Nat) (s : State) (r : Fin 256) : (sendMsi n s).ring r = s.ring r := (sendMsi_eventOnly n s).ring r

end Sys2Proof.Machine
end

section
/-! PROOFS. Doorbells and mirror writes (R254 to R257), fetches (R258), and the start of descriptors (R179, R262, R265, R268 to R270). -/
namespace Sys2Proof.Machine
open Sys2Proof

/-! ### Reads of doorbell lines (R256) -/

/-- A ring whose line is being read. -/
def Ring.reads (ns : Nat) (g : Ring) : Ring :=
  { g with lastRead := ns, outstanding := g.outstanding + 1, interval := nextInterval g ns }

theorem mem_lineRings {s : State} {r : Fin 256} (h : (s.ring r).live = true) : r ∈ lineRings s r := by
  simp [lineRings, h]

/-- A ring's read changes the ring once, whatever other rings share the line. -/
theorem issueRead_ring {s : State} {r : Fin 256} (h : (s.ring r).live = true) : (issueRead r s).ring r = (s.ring r).reads s.ns :=
  forAll_turns (P := fun t => t.ring r = s.ring r ∧ t.ns = s.ns) (Q := fun t => t.ring r = (s.ring r).reads s.ns)
    ((List.nodup_finRange 256).filter _) (mem_lineRings h)
    (fun t ⟨hr, hn⟩ => by rw [State.modRing_same, hr, hn]; rfl)
    (fun q t hq ⟨hr, hn⟩ => ⟨(State.modRing_other _ _ _ _ hq).trans hr, hn⟩)
    (fun q t hq hr => (State.modRing_other _ _ _ _ hq).trans hr) ⟨rfl, rfl⟩

theorem issueRead_host (r : Fin 256) (s : State) : (issueRead r s).host = s.host := forAll_leaves State.host _ _ s fun _ _ => rfl

section Watch
variable {s : State} {r : Fin 256}

/-- The shortest interval of the rings that share a ring's line. -/
def lineInterval (s : State) (r : Fin 256) : Nat := (lineRings s r).foldl (fun a x => min a (s.ring x).interval) (s.ring r).interval

theorem doorbellWatch_eq : exec (.doorbellWatchTimer r) s =
    if (s.ring r).live = true ∧ s.pwr.mstate = 0 ∧ (s.ring r).lastRead + lineInterval s r ≤ s.ns
        ∧ ((s.ring r).outstanding = 0 ∨ (lineInterval s r = 200 ∧ (s.ring r).outstanding < 8))
      then .next (issueRead r s) else .next s := by
  show execDoorbellWatchTimer r s = _
  simp only [execDoorbellWatchTimer, Bool.and_eq_true, Bool.or_eq_true, decide_eq_true_eq, and_assoc]
  rfl

theorem mirrorTail_ignored {off size : Nat} (h : off ≠ 0 ∨ size ≠ 4 ∨ (s.ring r).live = false) (w : Word) :
    exec (.mirrorTailWrite r off size w) s = .next s := if_pos (by simpa [or_assoc] using h)

theorem mirrorTail_reads (h : (s.ring r).live = true) (w : Word) : exec (.mirrorTailWrite r 0 4 w) s =
    .next ((issueRead r s).modRing r fun g => { g with mirrors := g.mirrors ++ [(w, (s.ring r).outstanding)], interval := 200 }) :=
  if_neg (by simp [h])

end Watch

/-! ### What a doorbell read returns (R255, R257) -/

section Tail
variable {r : Fin 256} {tail : Word} {t : State}

/-- A tail within the ring's size is taken. -/
theorem takeTail_taken (h : (tail - (t.ring r).head).toNat ≤ (t.ring r).size) : takeTail r tail t =
    if tail = (t.ring r).tail then t else t.setRing r { t.ring r with tail := tail, tailAt := t.ns, interval := 200 } :=
  if_neg (Nat.not_lt.2 h)

/-- A tail beyond the ring's size sets DB_INVALID, and is noted as refused. -/
theorem takeTail_refused (h : (t.ring r).size < (tail - (t.ring r).head).toNat) :
    ∃ l, EventOnly (t.setRing r { t.ring r with dbInvalid := true, refused := l }) (takeTail r tail t) := by
  rw [takeTail, if_pos h]
  split
  · exact ⟨_, .refl _⟩
  · exact ⟨_, postEvent_eventOnly ..⟩

theorem takeTail_ring_other {q : Fin 256} (hq : q ≠ r) : (takeTail r tail t).ring q = t.ring q := by
  obtain h | h := Nat.lt_or_ge (t.ring r).size (tail - (t.ring r).head).toNat
  · obtain ⟨l, hl⟩ := takeTail_refused h
    exact (hl.ring q).trans (State.setRing_other _ _ _ _ hq.symm)
  · rw [takeTail_taken h]
    split
    · rfl
    · exact State.setRing_other _ _ _ _ hq.symm

end Tail

section Return
variable {s : State} {r : Fin 256} {w : Dword}

theorem doorbellReturn_ignored (h : (s.ring r).live = false ∨ (s.ring r).outstanding = 0) : exec (.doorbellReadReturn r w) s = .next s :=
  if_pos (by simpa using h)

/-- A ring whose oldest read has returned a tail: a mirror write that prompted the read is held against it. -/
def Ring.returned (tail : Word) (g : Ring) : Ring :=
  { g with
    outstanding := g.outstanding - 1, mirrors := (g.mirrors.filter fun x => x.2 ≠ 0).map fun x => (x.1, x.2 - 1),
    mirrorMismatch := g.mirrorMismatch || g.mirrors.any fun x => x.2 = 0 && x.1 ≠ tail }

variable (hl : (s.ring r).live = true) (ho : (s.ring r).outstanding ≠ 0)
include hl ho

theorem doorbellReturn_eq : exec (.doorbellReadReturn r w) s =
    (let s1 := s.setRing r ((s.ring r).returned (bits w 0 32))
    if (s.ring r).epochTaken = false then
      .next (takeTail r (bits w 0 32) (s1.modRing r fun g => { g with epochTaken := true, epoch := bits w 32 16 }))
    else if (bits w 32 16 : Half) ≠ (s.ring r).epoch then .next (ringReset r 1 1 true s1)
    else .next (takeTail r (bits w 0 32) s1)) := by
  show execDoorbellReadReturn r w s = _
  simp only [execDoorbellReadReturn, hl, ho, Bool.not_true, decide_false, Bool.or_self, Bool.false_eq_true, if_false, Bool.not_eq_true']
  rfl

theorem doorbellReturn_first (he : (s.ring r).epochTaken = false) : exec (.doorbellReadReturn r w) s = .next (takeTail r (bits w 0 32)
    (s.setRing r { (s.ring r).returned (bits w 0 32) with epochTaken := true, epoch := bits w 32 16 })) := by
  rw [doorbellReturn_eq hl ho]
  dsimp only
  rw [if_pos he, State.setRing_modRing]

variable (he : (s.ring r).epochTaken = true)
include he

theorem doorbellReturn_newEpoch (hn : (bits w 32 16 : Half) ≠ (s.ring r).epoch) : exec (.doorbellReadReturn r w) s =
    .next (ringReset r 1 1 true (s.setRing r ((s.ring r).returned (bits w 0 32)))) := by
  rw [doorbellReturn_eq hl ho]
  dsimp only
  rw [if_neg (by simp [he]), if_pos hn]

theorem doorbellReturn_tail (hn : (bits w 32 16 : Half) = (s.ring r).epoch) : exec (.doorbellReadReturn r w) s =
    .next (takeTail r (bits w 0 32) (s.setRing r ((s.ring r).returned (bits w 0 32)))) := by
  rw [doorbellReturn_eq hl ho]
  dsimp only
  rw [if_neg (by simp [he]), if_neg (not_not.2 hn)]

end Return

/-! ### Fetches (R258) -/

section Fetch
variable {s : State} {r : Fin 256} {slots : List DescWord}

/-- How many slots a fetch brings: at most 16, none past the tail or the ring's end. -/
def fetchCount (g : Ring) (slots : List DescWord) : Nat :=
  min (min 16 slots.length) (min (g.tail - BitVec.ofNat 32 g.fetchIdx).toNat (g.size - g.fetchIdx % g.size))

theorem fetchReturn_ignored (h : (s.ring r).live = false ∨ fetchCount (s.ring r) slots = 0) :
    exec (.descriptorFetchReturn r slots) s = .next s := if_pos (by simpa [fetchCount] using h)

theorem fetchReturn_fetches (hl : (s.ring r).live = true) (hn : fetchCount (s.ring r) slots ≠ 0) :
    exec (.descriptorFetchReturn r slots) s = .next (noteAble r (s.setRing r { s.ring r with
      fetched := (s.ring r).fetched ++ slots.take (fetchCount (s.ring r) slots), fetchIdx := (s.ring r).fetchIdx + fetchCount (s.ring r) slots,
      activeAt := s.ns, interval := 200 })) := if_neg (by simpa [hl, fetchCount] using hn)

end Fetch

/-! ### What a descriptor takes as it starts (R179, R262) -/

/-- A start takes the tensor descriptors, and what its opcode takes besides. -/
theorem startTakes_eq (s : State) (c : DescCtx) : ∃ snap bad, startTakes s c =
    { c with tds := (namedTensors s c.word).map fun a => (a, tdOf s a), snap := snap, bad := bad } := by
  simp only [startTakes]
  split <;> exact ⟨_, _, rfl⟩

theorem startTakes_record {c : DescCtx} (h : dOp c.word = 0x51) (s : State) :
    (startTakes s c).snap = stateRecord s (bits (dW2 c.word) 0 8 : Byte).toNat (dW3 c.word).toNat := by
  simp only [startTakes, h]

theorem startTakes_lockout {c : DescCtx} (h : dOp c.word = 0x08) (s : State) :
    (startTakes s c).snap = if lockedOut s then [1] else [] := by
  simp only [startTakes, h]

/-- A ring whose next descriptor has left the fetched ones with a context. -/
theorem takeNext_ring (r : Fin 256) (w : DescWord) (fault : Option (Byte × Half)) (ran : Bool) (s : State) :
    ∃ a, (takeNext r w fault ran s).ring r = { s.ring r with
      fetched := (s.ring r).fetched.tail, startIdx := (s.ring r).startIdx + 1,
      started := (s.ring r).started ++ [newCtx s (s.ring r) w fault ran], urgent := false, ableSince := a } := by
  obtain ⟨a, ha⟩ := noteAble_ring r ((s.setRing r { s.ring r with
    fetched := (s.ring r).fetched.tail, startIdx := (s.ring r).startIdx + 1,
    started := (s.ring r).started ++ [newCtx s (s.ring r) w fault ran], urgent := false, ableSince := none }).setPcie
      { s.pcie with starts := s.pcie.starts + 1, rr := s.pcie.rr.set (ix 4 (s.ring r).prio.toNat) r })
  refine ⟨a, ha.trans ?_⟩
  rw [State.setPcie_ring, State.setRing_same]

/-- A started descriptor's ring: the descriptor's context, at the end, has taken what its start takes. -/
theorem started_ring (r : Fin 256) (w : DescWord) (s : State) :
    (let t := modCtx r (s.ring r).startIdx (startTakes s) (takeNext r w none true s)
    (t.ring r).fetched = (s.ring r).fetched.tail ∧ (t.ring r).startIdx = (s.ring r).startIdx + 1
      ∧ (t.ring r).started = ((s.ring r).started.map fun c => if c.idx = (s.ring r).startIdx then startTakes s c else c)
        ++ [startTakes s (newCtx s (s.ring r) w none true)]) := by
  obtain ⟨a, ha⟩ := takeNext_ring r w none true s
  dsimp only [modCtx]
  rw [State.modRing_same, ha]
  exact ⟨rfl, rfl, List.map_append.trans (congrArg (_ ++ [·]) (if_pos rfl))⟩

/-! ### The engine's choice (R268 to R270) -/

/-- A descriptor that the engine has chosen: it ends without a start where a check fails, and starts otherwise. -/
def startChosen (r : Fin 256) (w : DescWord) (s : State) : State :=
  (startFault s r w).elim (modCtx r (s.ring r).startIdx (startTakes s) (takeNext r w none true s)) fun f => takeNext r w (some f) false s

section Start
variable {s : State} {r : Fin 256}

/-- What a start does on a ring of a fetched descriptor. -/
theorem descriptorStart_eq {w : DescWord} {rest : List DescWord} (hf : (s.ring r).fetched = w :: rest) : exec (.descriptorStart r) s =
    if engineOpen s = false ∨ (s.ring r).live = false ∨ (s.boot.recovery = true ∧ r ≠ 0) then .next s
    else if (s.ring r).state = .halted ∧ dCont w = false then
      if clearing (s.ring r) = true then .next s else .next (takeNext r w (some (0xFF, (s.ring r).haltSeq)) false s)
    else if pickRing s ≠ some r ∨ 1024 ≤ contextsUsed s then .next s
    else .next (startChosen r w s) := by
  show execDescriptorStart r s = _
  simp only [execDescriptorStart, hf, Bool.or_eq_true, Bool.and_eq_true, Bool.not_eq_true', decide_eq_true_eq, or_assoc, startChosen]
  cases startFault s r w <;> rfl

theorem descriptorStart_closed
    (h : (s.ring r).fetched = [] ∨ engineOpen s = false ∨ (s.ring r).live = false ∨ (s.boot.recovery = true ∧ r ≠ 0)) :
    exec (.descriptorStart r) s = .next s := by
  cases hf : (s.ring r).fetched with
  | nil =>
    show execDescriptorStart r s = _
    simp only [execDescriptorStart, hf]
  | cons w rest => rw [descriptorStart_eq hf, if_pos (h.resolve_left (by simp [hf]))]

variable {w : DescWord} {rest : List DescWord} (hf : (s.ring r).fetched = w :: rest)
include hf

theorem descriptorStart_notChosen (hgo : (s.ring r).state ≠ .halted ∨ dCont w = true) (h : pickRing s ≠ some r ∨ 1024 ≤ contextsUsed s) :
    exec (.descriptorStart r) s = .next s := by
  have hrun : ¬ ((s.ring r).state = .halted ∧ dCont w = false) := by
    rw [not_and_or, Bool.not_eq_false]
    exact hgo
  rw [descriptorStart_eq hf, if_neg hrun, if_pos h, ite_self]

variable (ho : engineOpen s = true) (hl : (s.ring r).live = true) (hrec : s.boot.recovery = false ∨ r = 0)
include ho hl hrec

theorem descriptorStart_open : exec (.descriptorStart r) s =
    if (s.ring r).state = .halted ∧ dCont w = false then
      if clearing (s.ring r) = true then .next s else .next (takeNext r w (some (0xFF, (s.ring r).haltSeq)) false s)
    else if pickRing s ≠ some r ∨ 1024 ≤ contextsUsed s then .next s
    else .next (startChosen r w s) := by
  refine (descriptorStart_eq hf).trans (if_neg ?_)
  rintro (h | h | ⟨h, hr⟩)
  · simp [ho] at h
  · simp [hl] at h
  · exact hrec.elim (by simp [h]) hr

theorem descriptorStart_halted (hs : (s.ring r).state = .halted) (hc : dCont w = false) : exec (.descriptorStart r) s =
    if clearing (s.ring r) = true then .next s else .next (takeNext r w (some (0xFF, (s.ring r).haltSeq)) false s) := by
  rw [descriptorStart_open hf ho hl hrec, if_pos ⟨hs, hc⟩]

theorem descriptorStart_chosen (hgo : (s.ring r).state ≠ .halted ∨ dCont w = true) (hp : pickRing s = some r) (hu : contextsUsed s < 1024) :
    exec (.descriptorStart r) s = .next (startChosen r w s) := by
  have hrun : ¬ ((s.ring r).state = .halted ∧ dCont w = false) := by
    rw [not_and_or, Bool.not_eq_false]
    exact hgo
  have hfree : ¬ (pickRing s ≠ some r ∨ 1024 ≤ contextsUsed s) := by
    rw [not_or, not_not, Nat.not_le]
    exact ⟨hp, hu⟩
  rw [descriptorStart_open hf ho hl hrec, if_neg hrun, if_neg hfree]

end Start

/-! ### Urgency (R269) -/

theorem ringUrgent_unable {s : State} {r : Fin 256} (h : (s.ring r).ableSince = none) : exec (.ringUrgent r) s = .next s := by
  show execRingUrgent r s = _
  simp only [execRingUrgent, h]

theorem ringUrgent_able {s : State} {r : Fin 256} {t : Nat} (h : (s.ring r).ableSince = some t) : exec (.ringUrgent r) s =
    .next (if s.rings.toList.foldl (fun a g => max a g.freedAt) t + 50000 ≤ s.ns ∧ contextsUsed s < 1024
      then s.modRing r fun g => { g with urgent := true } else s) := by
  show execRingUrgent r s = _
  simp only [execRingUrgent, h, Bool.and_eq_true, decide_eq_true_eq]

/-- Settles O30: reads and returns change their ring by one equation each; a start is followed through its checks in order. -/
theorem doorbellsAndDescriptorStarts : Obligations.DoorbellsAndDescriptorStarts := by
  refine ⟨fun s r => ⟨fun hl hm ho hi => ?_, fun h => ?_, fun w hl => ?_, fun off size w h => mirrorTail_ignored h w,
      fun w => doorbellReturn_ignored, fun w hl ho => ⟨doorbellReturn_first hl ho, fun he hn => ?_, doorbellReturn_tail hl ho,
        fun t => ⟨fun h => ?_, fun h => ?_, fun q => takeTail_ring_other⟩⟩⟩,
    fun s r => ⟨fun slots => ⟨fun hl hn => ?_, fetchReturn_ignored⟩,
      fun w rest hf ho hl hrec hgo hp hu => ⟨fun hnone => ?_, fun f hsome => ?_⟩,
      fun w rest hf ho hrec hs hc => ?_, descriptorStart_closed, fun w rest => descriptorStart_notChosen, ringUrgent_unable,
      fun t ht => ⟨fun h hu => ?_, fun h => ?_⟩⟩⟩
  · refine ⟨_, doorbellWatch_eq.trans (if_pos ⟨hl, hm, hi, ho⟩), ?_⟩
    rw [issueRead_ring hl, issueRead_host]
    exact ⟨rfl, rfl, rfl, rfl⟩
  · refine doorbellWatch_eq.trans (if_neg fun ⟨hl, hm, hi, ho⟩ => ?_)
    obtain h | h | ⟨h0, h⟩ | h := h
    · simp [h] at hl
    · exact h hm
    · obtain ho | ⟨hiv, ho⟩ := ho
      · exact h0 ho
      · exact h.elim (absurd hiv) fun h8 => Nat.not_lt.2 h8 ho
    · exact Nat.not_lt.2 hi h
  · refine ⟨_, mirrorTail_reads hl w, ?_⟩
    rw [State.modRing_same, issueRead_ring hl]
    exact ⟨rfl, rfl, rfl, rfl⟩
  · refine ⟨_, doorbellReturn_newEpoch hl ho he hn, ?_⟩
    rw [ringReset_ring (by rw [State.setRing_same]; exact hl)]
    exact ⟨rfl, rfl, rfl, rfl, rfl⟩
  · rw [takeTail_taken h]
    split
    · next heq => exact ⟨heq.symm, rfl⟩
    · rw [State.setRing_same]
      exact ⟨rfl, rfl⟩
  · obtain ⟨l, hl⟩ := takeTail_refused h
    rw [hl.ring r, State.setRing_same]
    exact ⟨rfl, rfl⟩
  · obtain ⟨a, ha⟩ := noteAble_ring r (s.setRing r { s.ring r with
      fetched := (s.ring r).fetched ++ slots.take (fetchCount (s.ring r) slots), fetchIdx := (s.ring r).fetchIdx + fetchCount (s.ring r) slots,
      activeAt := s.ns, interval := 200 })
    refine ⟨_, fetchReturn_fetches hl hn, ?_⟩
    rw [ha, State.setRing_same]
    exact ⟨rfl, rfl, rfl, fun q hq => (noteAble_ring_other hq _).trans (State.setRing_other _ _ _ _ hq.symm)⟩
  · obtain ⟨hfetched, hidx, hstarted⟩ := started_ring r w s
    obtain ⟨snap, bad, hc⟩ := startTakes_eq s (newCtx s (s.ring r) w none true)
    refine ⟨_, startTakes s (newCtx s (s.ring r) w none true), ?_, hfetched.trans (by rw [hf]; rfl), hidx, ?_, ?_, fun n d hd hne => ?_, ?_⟩
    · rw [descriptorStart_chosen hf ho hl hrec hgo hp hu, startChosen, hnone]
      rfl
    · rw [hstarted]
      simp
    · rw [hstarted]
      simp
    · obtain ⟨hn, -⟩ := List.getElem?_eq_some_iff.1 hd
      rw [hstarted, List.getElem?_append_left (by simpa using hn), List.getElem?_map, hd]
      exact congrArg some (if_neg hne)
    · refine ⟨?_, ?_, ?_, ?_, ?_, ?_, ?_, ?_, ?_, fun h => startTakes_record h s, fun h => startTakes_lockout h s, rfl, rfl, rfl⟩
      all_goals rw [hc]; rfl
  · obtain ⟨a, ha⟩ := takeNext_ring r w (some f) false s
    refine ⟨takeNext r w (some f) false s, newCtx s (s.ring r) w (some f) false, ?_, ?_⟩
    · rw [descriptorStart_chosen hf ho hl hrec hgo hp hu, startChosen, hsome]
      rfl
    · rw [ha, hf]
      exact ⟨rfl, rfl, rfl, rfl, rfl, rfl, rfl, rfl, rfl, rfl, rfl, rfl, rfl⟩
  · have hhalted := descriptorStart_halted hf ho (by rw [Ring.live, hs]; rfl) hrec hs hc
    refine ⟨fun hclear => hhalted.trans (if_pos hclear), fun hclear => ?_⟩
    obtain ⟨a, ha⟩ := takeNext_ring r w (some (0xFF, (s.ring r).haltSeq)) false s
    refine ⟨_, newCtx s (s.ring r) w (some (0xFF, (s.ring r).haltSeq)) false, hhalted.trans (if_neg (by simp [hclear])), ?_⟩
    rw [ha, hf]
    exact ⟨rfl, rfl, rfl, rfl, rfl, rfl⟩
  · exact (ringUrgent_able ht).trans (congrArg Host.Outcome.next (if_pos ⟨h, hu⟩))
  · rw [ringUrgent_able ht, if_neg fun hc => h.elim (Nat.not_lt.2 hc.1) (Nat.not_le.2 hc.2)]

end Sys2Proof.Machine
end

section
/-! PROOFS. RING_CFG (R250, R267, R271), resets of the host interface (R245), interrupts (R264, R490) and the event ring (R275, R278). -/
namespace Sys2Proof.Machine
open Sys2Proof

/-! ### RING_CFG (R250) -/

section Config
variable {s : State} {r : Fin 256} {w : Word}

/-- A ring whose size and priority RING_CFG has written: the size of a disabled ring alone. -/
def Ring.configured (w : Word) (g : Ring) : Ring :=
  { g with log2 := if g.state = .disabled then bits w 2 5 else g.log2, prio := bits w 7 2 }

theorem Ring.configured_disabled {g : Ring} (h : g.state = .disabled) :
    g.configured w = { g with log2 := bits w 2 5, prio := bits w 7 2 } := by
  rw [Ring.configured, if_pos h]

theorem Ring.configured_enabled {g : Ring} (h : g.state ≠ .disabled) : g.configured w = { g with prio := bits w 7 2 } := by
  rw [Ring.configured, if_neg h]

section Steady
variable (h1 : w.getLsbD 1 = false)
include h1

/-- A write of RING_CFG without RESET. -/
theorem ringCfgWrite_steady : ringCfgWrite r w s =
    (let g := (s.ring r).configured w
    if w.getLsbD 0 = false then s.setRing r { g with enable := false }
    else if (s.ring r).state ≠ .disabled then s.setRing r { g with enable := true }
    else if s.boot.recovery = true ∧ r ≠ 0 then s.setRing r g
    else if 4 ≤ g.log2.toNat ∧ g.log2.toNat ≤ 16 then s.setRing r { g.restart with enable := true, activeAt := s.ns }
    else s.setRing r { g with cfgErr := true }) := by
  have hset : (s.modRing r fun g => { g with log2 := if (s.ring r).state = .disabled then bits w 2 5 else g.log2, prio := bits w 7 2 })
      = s.setRing r ((s.ring r).configured w) := rfl
  simp only [ringCfgWrite, h1, Bool.false_eq_true, if_false, hset, State.setRing_same, State.setRing_setRing, Bool.not_eq_true',
    Bool.and_eq_true, decide_eq_true_eq, decide_eq_false_iff_not, ne_eq]

theorem ringCfgWrite_disables (h0 : w.getLsbD 0 = false) :
    ringCfgWrite r w s = s.setRing r { (s.ring r).configured w with enable := false } := by
  rw [ringCfgWrite_steady h1]
  exact if_pos h0

variable (h0 : w.getLsbD 0 = true)
include h0

theorem ringCfgWrite_keepsEnabled (hs : (s.ring r).state ≠ .disabled) :
    ringCfgWrite r w s = s.setRing r { s.ring r with prio := bits w 7 2, enable := true } := by
  rw [ringCfgWrite_steady h1]
  dsimp only
  rw [if_neg (by simp [h0]), if_pos hs, Ring.configured_enabled hs]

variable (hs : (s.ring r).state = .disabled)
include hs

theorem ringCfgWrite_recovery (hb : s.boot.recovery = true) (hr : r ≠ 0) :
    ringCfgWrite r w s = s.setRing r { s.ring r with log2 := bits w 2 5, prio := bits w 7 2 } := by
  rw [ringCfgWrite_steady h1]
  dsimp only
  rw [if_neg (by simp [h0]), if_neg (not_not.2 hs), if_pos ⟨hb, hr⟩, Ring.configured_disabled hs]

/-- A disabled ring that may be enabled starts at 0 with an allowed size, or has CFG_ERR. -/
theorem ringCfgWrite_enables (hr : s.boot.recovery = false ∨ r = 0) : ringCfgWrite r w s =
    (let g : Ring := { s.ring r with log2 := bits w 2 5, prio := bits w 7 2 }
    if 4 ≤ g.log2.toNat ∧ g.log2.toNat ≤ 16 then s.setRing r { g.restart with enable := true, activeAt := s.ns }
    else s.setRing r { g with cfgErr := true }) := by
  have hallowed : ¬ (s.boot.recovery = true ∧ r ≠ 0) := fun ⟨hb, h⟩ => hr.elim (by simp [hb]) h
  rw [ringCfgWrite_steady h1]
  dsimp only
  rw [if_neg (by simp [h0]), if_neg (not_not.2 hs), if_neg hallowed, Ring.configured_disabled hs]

end Steady

/-- A write of RING_CFG with RESET resets a live ring, and ENABLE is as written. -/
theorem ringCfgWrite_resets (h1 : w.getLsbD 1 = true) (hl : (s.ring r).live = true) : ringCfgWrite r w s =
    (ringReset r 0 1 false (s.setRing r { s.ring r with prio := bits w 7 2 })).modRing r fun g => { g with enable := w.getLsbD 0 } := by
  have hs : (s.ring r).state ≠ .disabled := fun h => by simp [Ring.live, h] at hl
  simp only [ringCfgWrite, h1, if_true, hs, State.modRing]
  cases w.getLsbD 0 <;> rfl

end Config

/-! ### The ends of a disable and of a reset (R267, R271) -/

section Ends
variable {s : State} {r : Fin 256}

theorem ringIdleDisable_eq : exec (.ringIdleDisable r) s =
    if (s.ring r).live = true ∧ (s.ring r).enable = false ∧ (s.ring r).fetched = [] ∧ (s.ring r).started = []
        ∧ (s.ring r).tail = BitVec.ofNat 32 (s.ring r).fetchIdx
      then .next ((endBinding r 5 s).modRing r fun g => { g with state := .disabled }) else .next s := by
  show execRingIdleDisable r s = _
  simp only [execRingIdleDisable, Bool.and_eq_true, Bool.not_eq_true', List.isEmpty_iff, decide_eq_true_eq, and_assoc]

theorem ringResetComplete_waits (h : (s.ring r).state ≠ .resetting ∨ (s.ring r).started ≠ []) :
    exec (.ringResetComplete r) s = .next s := if_pos (by simpa using h)

theorem ringResetComplete_ends (h : (s.ring r).state = .resetting) (hs : (s.ring r).started = []) : exec (.ringResetComplete r) s =
    if (s.ring r).reEnable = true then .next (s.setRing r { (s.ring r).restart with reEnable := false, activeAt := s.ns })
    else .next (s.setRing r { s.ring r with state := .disabled, enable := false }) := if_neg (by simp [h, hs])

end Ends

/-! ### Resets of the host interface (R245) -/

/-- Every ring in turn resets, the event ring being off. -/
def ringsReset (s : State) : State :=
  forAll (List.finRange 256) (fun r => ringReset r 2 4 false) (s.setEvt { s.evt with enable := false })

theorem hostReset_eq (s : State) : hostReset s = (ringsReset s).setPcie { (ringsReset s).pcie with
    entries := (ringsReset s).pcie.entries.map fun e => { e with mask := true } } := by
  simp only [hostReset, ringsReset]

theorem unreset_ringsReset (s : State) : unreset (ringsReset s) = (s.cores, s.gddr, s.boot, s.sec.slots, false) := by
  unfold ringsReset
  rw [forAll_leaves unreset _ _ _ fun r t => unreset_ringReset r 2 4 false t]
  rfl

theorem ringsReset_live {s : State} {r : Fin 256} (h : (s.ring r).live = true) :
    (ringsReset s).ring r = { (s.ring r).resets 2 false with tag := none, state := .resetting } := by
  unfold ringsReset
  refine forAll_turns (P := fun t => t.ring r = s.ring r) (Q := fun t => t.ring r =
    { (s.ring r).resets 2 false with tag := none, state := .resetting }) (List.nodup_finRange 256) (List.mem_finRange r)
    (fun t ht => ?_) (fun q t hq ht => (ringReset_ring_other hq.symm ..).trans ht) (fun q t hq ht => (ringReset_ring_other hq.symm ..).trans ht)
    (State.setEvt_ring ..)
  rw [ringReset_ring (by rw [ht]; exact h), ht]

theorem ringsReset_notLive {s : State} {r : Fin 256} (h : (s.ring r).live = false) : (ringsReset s).ring r = s.ring r := by
  unfold ringsReset
  refine forAll_keeps (fun t => t.ring r = s.ring r) _ _ _ (fun q _ t ht => ?_) (State.setEvt_ring ..)
  by_cases hq : r = q
  · subst hq
    rw [ringReset_notLive (by rw [ht]; exact h), ht]
  · exact (ringReset_ring_other hq ..).trans ht

/-- A reset of the host interface masks the vectors, and does otherwise what the rings' resets do. -/
theorem hostReset_ring (s : State) (r : Fin 256) : (hostReset s).ring r = (ringsReset s).ring r := by
  rw [hostReset_eq, State.setPcie_ring]

theorem unreset_hostReset (s : State) : unreset (hostReset s) = (s.cores, s.gddr, s.boot, s.sec.slots, false) := by
  rw [hostReset_eq, ← unreset_ringsReset]
  generalize ringsReset s = t
  rfl

theorem hostReset_masks (s : State) (v : Fin 512) : (hostReset s).pcie.entries[v].mask = true := by
  rw [hostReset_eq]
  simp

/-! ### Interrupts (R264, R490) -/

section Msi
variable {s : State}

theorem moderation_waits {r : Fin 256}
    (h : (s.ring r).irqHeld = false ∨ s.ns < (s.ring r).lastIrq.getD 0 + 1000 * (s.ring r).mod_.toNat) :
    exec (.msixModerationExpiry r) s = .next s :=
  if_neg fun hc => by
    rw [Bool.and_eq_true, decide_eq_true_eq] at hc
    exact h.elim (by simp [hc.1]) (Nat.not_lt.2 hc.2)

/-- A ring that sends its interrupt. -/
def Ring.interrupts (ns : Nat) (g : Ring) : Ring := { g with irqHeld := false, lastIrq := some ns }

theorem moderation_sends {r : Fin 256} (h : (s.ring r).irqHeld = true)
    (hm : (s.ring r).lastIrq.getD 0 + 1000 * (s.ring r).mod_.toNat ≤ s.ns) : exec (.msixModerationExpiry r) s =
    .next (sendMsi (s.ring r).vector.toNat (s.setRing r ((s.ring r).interrupts s.ns))) :=
  if_pos (by simp [h, hm])

variable {v : Fin 512}

/-- A vector's entry, unmasked: its held message stays held while the function is masked. -/
def State.unmask (s : State) (v : Fin 512) : State :=
  s.setPcie { s.pcie with
    entries := s.pcie.entries.set v { s.pcie.entries[v] with mask := false, pend := s.pcie.entries[v].pend && s.pcie.funcMask } }

theorem State.unmask_entry (s : State) (v : Fin 512) : (s.unmask v).pcie.entries[v] =
    { s.pcie.entries[v] with mask := false, pend := s.pcie.entries[v].pend && s.pcie.funcMask } := by
  simp [State.unmask]

theorem msixUnmask_eq : exec (.msixUnmask v) s =
    .next (if s.pcie.entries[v].pend = true ∧ s.pcie.funcMask = false then sendMsi v.val (s.unmask v) else s.unmask v) := by
  show execMsixUnmask v s = _
  simp only [execMsixUnmask, unmaskVector, Bool.and_eq_true, Bool.not_eq_true']
  rfl

/-- Unmasking sends the one message held. -/
theorem msixUnmask_sends (hp : s.pcie.entries[v].pend = true) (hf : s.pcie.funcMask = false) : exec (.msixUnmask v) s =
    .next ((s.unmask v).setOut { s.out with
      msix := s.out.msix ++ [(BitVec.ofNat 64 (4 * s.pcie.entries[v].addr.toNat), s.pcie.entries[v].data)] }) := by
  have hmask : (s.unmask v).pcie.entries[v].mask = false := by rw [State.unmask_entry]
  rw [msixUnmask_eq, if_pos ⟨hp, hf⟩, sendMsi_sends rfl hmask hf, State.unmask_entry]
  rfl

end Msi

/-! ### The event ring (R275, R278) -/

section Event
variable {s : State}

theorem eventRingEnable_ignored {w : Word} (h : s.evt.enable = true ∨ w.getLsbD 0 = false) :
    exec (.eventRingEnable w) s = .next s := by
  show Host.Outcome.next (if w.getLsbD 0 then evtCfgWrite w s else s) = _
  cases h0 : w.getLsbD 0 with
  | false => rfl
  | true =>
    have he : s.evt.enable = true := h.resolve_right (by simp [h0])
    simp only [if_true, evtCfgWrite, he, h0]
    rw [← he]
    rfl

theorem eventRingEnable_writes {w : Word} (he : s.evt.enable = false) (h0 : w.getLsbD 0 = true) : exec (.eventRingEnable w) s =
    .next (if 6 ≤ (bits w 1 5 : BitVec 5).toNat ∧ (bits w 1 5 : BitVec 5).toNat ≤ 16 then s.setEvt
        { s.evt with enable := true, log2 := bits w 1 5, w := 0, c := 0, lost := 0, spell := 0, full := false }
      else s.setEvt { s.evt with log2 := bits w 1 5 }) := by
  show Host.Outcome.next (if w.getLsbD 0 then evtCfgWrite w s else s) = _
  simp only [evtCfgWrite, he, h0, if_true, Bool.false_eq_true, if_false, Bool.true_and, Bool.and_eq_true, decide_eq_true_eq]

variable {x : Word}

theorem evtFullPoll_ignored (h : s.evt.enable = false ∨ s.evt.full = false ∨ s.ns < s.evt.lastRead + 20000) :
    exec (.evtFullPoll x) s = .next s := if_pos (by simpa [or_assoc] using h)

/-- The consumed count that a read returns. -/
def EventRing.consumed (e : EventRing) (x : Word) : Nat := e.c + (x - BitVec.ofNat 32 e.c).toNat

/-- The state in which the full event ring's count has been read. -/
def State.countRead (s : State) (x : Word) : State := s.setHost (s.host.putLE (s.evt.dbAddr.toNat * 8) 4 x.toNat)

/-- The OVERFLOW's data: how many events were lost in the spell that ends (R278). -/
def EventRing.overflow (e : EventRing) : List Byte := leBytes (min e.spell (2 ^ 32 - 1)) 4

/-- The event ring with room again. -/
def State.evtRoom (s : State) (x : Word) : State :=
  (s.countRead x).setEvt { s.evt with c := s.evt.consumed x, full := false, spell := 0, lastRead := s.ns }

variable (he : s.evt.enable = true) (hf : s.evt.full = true) (hn : s.evt.lastRead + 20000 ≤ s.ns)
include he hf hn

theorem evtFullPoll_eq : exec (.evtFullPoll x) s =
    if 2 ^ s.evt.log2.toNat ≤ s.evt.w - s.evt.consumed x then .next ((s.countRead x).setEvt { s.evt with lastRead := s.ns })
    else .next (evtCheckFull (evtWrite 0x0201 1 0 s.evt.overflow (ledgerAdd 0x0201 1 0 s.evt.overflow (s.evtRoom x)))) :=
  if_neg (by simpa [he, hf] using hn)

theorem evtFullPoll_full (h : 2 ^ s.evt.log2.toNat ≤ s.evt.w - s.evt.consumed x) :
    exec (.evtFullPoll x) s = .next ((s.countRead x).setEvt { s.evt with lastRead := s.ns }) := by
  rw [evtFullPoll_eq he hf hn, if_pos h]

theorem evtFullPoll_room (h : s.evt.w - s.evt.consumed x < 2 ^ s.evt.log2.toNat) : exec (.evtFullPoll x) s =
    .next (evtCheckFull (evtWrite 0x0201 1 0 s.evt.overflow (ledgerAdd 0x0201 1 0 s.evt.overflow (s.evtRoom x)))) := by
  rw [evtFullPoll_eq he hf hn, if_neg (Nat.not_le.2 h)]

end Event

/-- The OVERFLOW is one record more, and with room beyond it the ring stays as it is. -/
theorem overflow_evt {s : State} {x : Word} (h : s.evt.w - s.evt.consumed x + 1 < 2 ^ s.evt.log2.toNat) (data : List Byte) :
    (evtCheckFull (evtWrite 0x0201 1 0 data (ledgerAdd 0x0201 1 0 data (s.evtRoom x)))).evt =
      { s.evt with c := s.evt.consumed x, full := false, spell := 0, lastRead := s.ns, w := s.evt.w + 1 } := by
  have hevt : (evtWrite 0x0201 1 0 data (ledgerAdd 0x0201 1 0 data (s.evtRoom x))).evt =
      { s.evt with c := s.evt.consumed x, full := false, spell := 0, lastRead := s.ns, w := s.evt.w + 1 } := by
    rw [evtWrite_evt, ledgerAdd_evt]
    rfl
  rw [evtCheckFull_room, hevt]
  rw [hevt]
  dsimp only
  omega

/-- Settles O29: each write of RING_CFG has an equation, a reset of the interface resets the rings one by one, a message follows its masks, and
the event ring its room. -/
theorem ringsAndHostInterface : Obligations.RingsAndHostInterface := by
  refine ⟨fun s r w => ⟨⟨rfl, rfl, rfl⟩, fun h0 h1 hs => ?_, fun h0 h1 hs hb hr => ?_, fun h0 h1 hs hr => ?_,
      fun h0 h1 => ⟨fun hs => ?_, fun hs => ?_⟩, fun hl he hf hst ht => ?_, fun h => ?_, fun h1 hl => ?_, ringResetComplete_waits, fun h hst => ⟨fun hre => ?_, fun hre => ?_⟩⟩,
    fun s c hc => ?_,
    fun s => ⟨fun r hh hm => ?_, fun v hp hf => ?_, fun r => moderation_waits, fun v hp hf => ?_, fun v hp => ?_,
      fun w he h0 => ⟨fun h6 h16 => ?_, fun h => ?_⟩, fun w => eventRingEnable_ignored, fun x => evtFullPoll_ignored,
      fun x he hf hn h => evtFullPoll_room he hf hn h, fun x he hf hn => ⟨fun h => ?_, fun h => ?_⟩⟩⟩
  · exact congrArg Host.Outcome.next ((if_pos h0).trans (ringCfgWrite_keepsEnabled h1 h0 hs))
  · exact congrArg Host.Outcome.next ((if_pos h0).trans (ringCfgWrite_recovery h1 h0 hs hb hr))
  · refine ⟨_, congrArg Host.Outcome.next ((if_pos h0).trans (ringCfgWrite_enables h1 h0 hs hr)), fun q hq => ?_, fun h4 h16 => ?_,
      fun h => ?_⟩
    · dsimp only
      split <;> exact State.setRing_other _ _ _ _ hq.symm
    · dsimp only
      rw [if_pos ⟨h4, h16⟩, State.setRing_same]
      exact ⟨rfl, rfl, rfl, rfl, rfl, rfl, rfl, rfl, rfl, rfl⟩
    · dsimp only
      rw [if_neg fun hc => h.elim (Nat.not_lt.2 hc.1) (Nat.not_lt.2 hc.2), State.setRing_same]
      exact ⟨rfl, hs⟩
  · refine congrArg Host.Outcome.next ((if_neg (Bool.eq_false_iff.1 h0)).trans ((ringCfgWrite_disables h1 h0).trans ?_))
    rw [Ring.configured_enabled hs]
  · refine congrArg Host.Outcome.next ((if_neg (Bool.eq_false_iff.1 h0)).trans ((ringCfgWrite_disables h1 h0).trans ?_))
    rw [Ring.configured_disabled hs]
  · obtain ⟨st, hring⟩ := endBinding_ring r 5 s
    refine ⟨_, ringIdleDisable_eq.trans (if_pos ⟨hl, he, hf, hst, ht⟩), ?_⟩
    rw [State.modRing_same, hring]
    exact ⟨rfl, rfl, fun q hq => (State.modRing_other _ _ _ _ hq.symm).trans (endBinding_ring_other hq 5 s)⟩
  · refine ringIdleDisable_eq.trans (if_neg fun ⟨hl, he, hf, hst, ht⟩ => ?_)
    obtain h | h | h | h | h := h
    · simp [h] at hl
    · simp [h] at he
    · exact h hf
    · exact h hst
    · exact h ht
  · have hreset := ringReset_ring (s := s.setRing r { s.ring r with prio := bits w 7 2 }) (r := r)
      (by rw [State.setRing_same]; exact hl) 0 1 false
    have hframe := unreset_ringReset r 0 1 false (s.setRing r { s.ring r with prio := bits w 7 2 })
    refine ⟨_, congrArg Host.Outcome.next ((if_pos h1).trans (ringCfgWrite_resets h1 hl)), ?_⟩
    rw [State.modRing_same, hreset, State.setRing_same]
    exact ⟨rfl, rfl, rfl, rfl, rfl, rfl, congrArg (fun x => x.2.1) hframe, congrArg Prod.fst hframe⟩
  · exact (ringResetComplete_ends h hst).trans (if_neg (by simp [hre]))
  · refine ⟨_, (ringResetComplete_ends h hst).trans (if_pos hre), ?_⟩
    rw [State.setRing_same]
    exact ⟨rfl, rfl, rfl, fun q hq => State.setRing_other _ _ _ _ hq.symm⟩
  · have hexec : exec c s = .next (hostReset s) := by obtain rfl | rfl | rfl := hc <;> rfl
    have hframe := unreset_hostReset s
    simp only [unreset, Prod.mk.injEq] at hframe
    obtain ⟨hcores, hgddr, hboot, hslots, hevt⟩ := hframe
    refine ⟨_, hexec, hevt, fun r hl => ?_, fun r hl => ?_, hostReset_masks s, hcores, hgddr, hslots, hboot⟩
    · rw [hostReset_ring, ringsReset_live hl]
      exact ⟨rfl, rfl, rfl⟩
    · rw [hostReset_ring, ringsReset_notLive hl]
  · refine ⟨_, moderation_sends hh hm, ?_⟩
    rw [sendMsi_ring, State.setRing_same]
    refine ⟨rfl, rfl, fun v hv hmask hfunc => ?_, fun v hv hmask => ?_⟩
    · rw [sendMsi_sends (s := s.setRing r ((s.ring r).interrupts s.ns)) hv hmask hfunc]
      rfl
    · rw [sendMsi_holds (s := s.setRing r ((s.ring r).interrupts s.ns)) hv hmask]
      exact ⟨congrArg MsixEntry.pend (Vector.getElem_set_self ..), rfl⟩
  · refine ⟨_, msixUnmask_sends hp hf, ?_⟩
    rw [State.setOut_pcie, State.unmask_entry, hf]
    exact ⟨rfl, Bool.and_false _, rfl⟩
  · refine ⟨_, msixUnmask_eq.trans (congrArg Host.Outcome.next (if_neg (by simp [hf]))), ?_⟩
    rw [State.unmask_entry, hf, hp]
    exact ⟨rfl, rfl, rfl⟩
  · refine ⟨_, msixUnmask_eq.trans (congrArg Host.Outcome.next (if_neg fun hc => Bool.false_ne_true (hp.symm.trans hc.1))), ?_⟩
    rw [State.unmask_entry, hp]
    exact ⟨rfl, rfl, rfl⟩
  · exact (eventRingEnable_writes he h0).trans (congrArg Host.Outcome.next (if_pos ⟨h6, h16⟩))
  · exact (eventRingEnable_writes he h0).trans (congrArg Host.Outcome.next
      (if_neg fun hc => h.elim (Nat.not_lt.2 hc.1) (Nat.not_lt.2 hc.2)))
  · exact ⟨_, evtFullPoll_full he hf hn h, rfl, rfl⟩
  · exact ⟨_, evtFullPoll_room he hf hn (Nat.lt_of_succ_lt h), overflow_evt h _⟩

end Sys2Proof.Machine
end

section
/-! PROOFS. Host accesses of registers (R247, R257, R453, R485, R486). -/
namespace Sys2Proof.Machine
open Sys2Proof

/-! ### The link as a wake source (R453, R454) -/

theorem wakeUp_awake (src : BitVec 3) (s : State) : (wakeUp src s).pwr.mstate = 0 :=
  forAll_leaves (fun t => t.pwr.mstate) _ _ _ fun _ _ => rfl

section Wake
variable {s : State} (f : State → State)

theorem hostAccess_lost (h2 : s.pwr.mstate = 2) (he : s.pwr.pcieEn = false) : hostAccess f s = s :=
  if_pos (by rw [linkWake, if_neg (by simp [he]), h2])

/-- An access that the link's wake leaves outside Sleep is made there. -/
theorem hostAccess_made {t : State} (h : linkWake s = t) (ht : t.pwr.mstate ≠ 2) : hostAccess f s = f t := by
  rw [hostAccess, h, if_neg ht]

theorem hostAccess_asleep (h2 : s.pwr.mstate = 2) (he : s.pwr.pcieEn = true) : hostAccess f s = f (wakeUp 2 s) := by
  refine hostAccess_made f ?_ (by rw [wakeUp_awake]; decide)
  rw [linkWake, if_pos he, wakeFrom, if_pos h2]

theorem hostAccess_entering (h1 : s.pwr.mstate = 1) (he : s.pwr.pcieEn = true) :
    hostAccess f s = f (s.setPwr { s.pwr with wakes := s.pwr.wakes ||| 2 }) := by
  refine hostAccess_made f ?_ (show s.pwr.mstate ≠ 2 by rw [h1]; decide)
  rw [linkWake, if_pos he, wakeFrom, if_neg (by rw [h1]; decide), if_pos h1]

theorem hostAccess_awake (h2 : s.pwr.mstate ≠ 2) (h : s.pwr.mstate ≠ 1 ∨ s.pwr.pcieEn = false) : hostAccess f s = f s := by
  refine hostAccess_made f ?_ h2
  unfold linkWake
  split
  · next he => rw [wakeFrom, if_neg h2, if_neg (h.resolve_right (by simp [he]))]
  · rfl

end Wake

/-! ### Writes (R247, R485) -/

section Write
variable {o : Nat} {s : State}

theorem hostWrite_ignored {size : Nat} (h : o % size ≠ 0 ∨ (size ≠ 2 ∧ size ≠ 4 ∧ size ≠ 8)) (v : Dword) :
    hostWrite o size v s = s := by
  unfold hostWrite
  obtain h | ⟨h2, h4, h8⟩ := h
  · rw [if_pos h]
  · rw [if_neg h2, if_neg h4, if_neg h8, ite_self]

theorem hostWrite_two (h : o % 2 = 0) (v : Dword) : hostWrite o 2 v s = write2 o (bits v 0 16) s := by simp [hostWrite, h]

theorem hostWrite_four (h : o % 4 = 0) (v : Dword) : hostWrite o 4 v s = write4 o (bits v 0 32) s := by simp [hostWrite, h]

theorem write2_register {x : Reg} (hx : regAt o = some (x, o)) (hw : x.width = 2) (v : Half) : write2 o v s = x.write (v.setWidth 64) s := by
  simp [write2, hx, hw]

theorem write2_ignored (h : regAt o = none ∨ ∃ x b, regAt o = some (x, b) ∧ (x.width ≠ 2 ∨ b ≠ o)) (v : Half) : write2 o v s = s := by
  obtain h | ⟨x, b, hx, hwb⟩ := h
  · simp only [write2, h]
  · simp only [write2, hx, Bool.and_eq_true, decide_eq_true_eq]
    exact if_neg fun hc => hwb.elim (absurd hc.1) (absurd hc.2)

theorem write4_reserved (h : regAt o = none) (v : Word) : write4 o v s = s := by simp only [write4, h]

section Register
variable {x : Reg} {b : Nat} (hx : regAt o = some (x, b))
include hx

theorem write4_register (hw : x.width = 4) (v : Word) : write4 o v s = x.write (v.setWidth 64) s := by
  simp [write4, hx, hw]

/-- The high half of a 64-bit register joins its low half, held or as it stands, and the register is written whole. -/
theorem write4_high (hw : x.width = 8) (hb : b ≠ o) (v : Word) : write4 o v s =
    x.write (v ++ ((s.pcie.staged.find? fun y => y.1 = b).map Prod.snd).getD (bits (x.value s) 0 32)) (unstage b s) := by
  simp only [write4, hx, hw, if_neg hb.symm]
  cases s.pcie.staged.find? fun y => y.1 = b <;> rfl

theorem hostWrite_whole (h : o % 8 = 0) (hw : x.width = 8) (v : Dword) : hostWrite o 8 v s = x.write v (unstage b s) := by
  simp [hostWrite, h, hx, hw]

theorem hostWrite_words {y : Reg} {c : Nat} (h : o % 8 = 0) (hw : x.width = 4) (hy : regAt (o + 4) = some (y, c)) (hwy : y.width = 4)
    (v : Dword) : hostWrite o 8 v s = y.write ((bits v 32 32 : Word).setWidth 64) (x.write ((bits v 0 32 : Word).setWidth 64) s) := by
  rw [← write4_register hx hw, ← write4_register hy hwy]
  simp [hostWrite, h, hx, hw]

end Register

theorem write4_halves {x y : Reg} (hx : regAt o = some (x, o)) (hw : x.width = 2) (hy : regAt (o + 2) = some (y, o + 2)) (hwy : y.width = 2)
    (v : Word) : write4 o v s = y.write ((bits v 16 16 : Half).setWidth 64) (x.write ((bits v 0 16 : Half).setWidth 64) s) := by
  rw [← write2_register hx hw, ← write2_register hy hwy]
  simp [write4, hx, hw]

/-- A low half is held, before every half held already. -/
theorem write4_low {x : Reg} (hx : regAt o = some (x, o)) (hw : x.width = 8) (v : Word) :
    write4 o v s = s.setPcie { s.pcie with staged := (o, v) :: s.pcie.staged.filter fun y => y.1 ≠ o } := by
  simp [write4, hx, hw, unstage, State.setPcie]

theorem hostWrite_reserved (h : o % 8 = 0) (hx : regAt o = none) (hy : regAt (o + 4) = none) (v : Dword) : hostWrite o 8 v s = s := by
  simp [hostWrite, h, hx, write4_reserved hy]

end Write

/-! ### Reads (R247, R257, R486) -/

/-- The value that a read answers. -/
def readAnswered (x : Dword) (t : State) : State := t.setOut { t.out with read := x }

section Read
variable {o : Nat} {s : State}

theorem hostRead_bar2 (size : Nat) : hostRead true o size s = readAnswered 0 s := rfl

theorem hostRead_zero {size : Nat} (h : o % max 1 size ≠ 0 ∨ (size ≠ 2 ∧ size ≠ 4 ∧ size ≠ 8)) :
    hostRead false o size s = readAnswered 0 s := by
  obtain h | ⟨h2, h4, h8⟩ := h
  · simp [hostRead, h, readAnswered]
  · simp [hostRead, h2, h4, h8, readAnswered]

theorem hostRead_eight (h : o % 8 = 0) : hostRead false o 8 s = readAnswered (peek4 s (o + 4) ++ peek4 s o) s := by
  simp [hostRead, h, readAnswered, peek8]

theorem hostRead_four (h : o % 4 = 0) : hostRead false o 4 s = readAnswered ((read4 o s).1.setWidth 64) (read4 o s).2 := by
  simp [hostRead, h, readAnswered]

theorem hostRead_two (h : o % 2 = 0) : hostRead false o 2 s = readAnswered ((peek2 s o).setWidth 64) s := by
  simp [hostRead, h, readAnswered]

theorem read4_low (h : latches o = true) : read4 o s =
    (peek4 s o, s.setPcie { s.pcie with latched := (o + 4, peek4 s (o + 4)) :: s.pcie.latched.filter fun x => x.1 ≠ o + 4 }) := if_pos h

theorem read4_latched (h : latches o = false) {y : Nat × Word} (hy : s.pcie.latched.find? (fun y => y.1 = o) = some y) :
    read4 o s = (y.2, s.setPcie { s.pcie with latched := s.pcie.latched.filter fun x => x.1 ≠ o }) := by
  simp only [read4, h, hy, Bool.false_eq_true, if_false]

theorem read4_plain (h : latches o = false) (hy : ∀ y ∈ s.pcie.latched, y.1 ≠ o) : read4 o s = (peek4 s o, s) := by
  have hnone : s.pcie.latched.find? (fun y => y.1 = o) = none := List.find?_eq_none.2 fun y hm => by simpa using hy y hm
  simp only [read4, h, hnone, Bool.false_eq_true, if_false]

theorem peek2_register {x : Reg} (hx : regAt o = some (x, o)) (hw : x.width = 2) : peek2 s o = bits (x.value s) 0 16 := by
  simp [peek2, hx, hw]

theorem peek2_zero (h : regAt o = none ∨ ∃ x b, regAt o = some (x, b) ∧ (x.width ≠ 2 ∨ b ≠ o)) : peek2 s o = 0 := by
  obtain h | ⟨x, b, hx, hwb⟩ := h
  · simp only [peek2, h]
  · simp only [peek2, hx, Bool.and_eq_true, decide_eq_true_eq]
    exact if_neg fun hc => hwb.elim (absurd hc.1) (absurd hc.2)

theorem peek4_reserved (h : regAt o = none) : peek4 s o = 0 := by simp only [peek4, h]

section Register
variable {x : Reg} {b : Nat} (hx : regAt o = some (x, b))
include hx

theorem peek4_halves {y : Reg} {c : Nat} (hw : x.width = 2) (hy : regAt (o + 2) = some (y, c)) :
    peek4 s o = (bits (y.value s) 0 16 : Half) ++ (bits (x.value s) 0 16 : Half) := by
  simp [peek4, hx, hw, hy]

theorem peek4_low (h : x.width = 4 ∨ (x.width = 8 ∧ o = b)) : peek4 s o = bits (x.value s) 0 32 := by
  obtain hw | ⟨hw, rfl⟩ := h <;> simp [peek4, hx, hw]

theorem peek4_high (hw : x.width = 8) (hb : o ≠ b) : peek4 s o = bits (x.value s) 32 32 := by simp [peek4, hx, hw, hb]

end Register
end Read

/-- Settles O43: where an access is made, and then writes and reads by the registers that lie at their offset. -/
theorem hostRegisterAccesses : Obligations.HostRegisterAccesses := by
  refine ⟨fun s off size v bar2 => ⟨fun h2 he => ?_, fun h2 he => ?_, fun h1 he => ?_, fun h2 h => ?_⟩,
    fun s off v => ⟨fun size h => hostWrite_ignored h v, fun ho => ?_, fun ho => ?_, fun ho => ?_⟩,
    fun s off => ⟨hostRead_bar2, fun size => hostRead_zero, hostRead_eight, fun ho => ?_, fun ho => ?_, peek4_reserved,
      fun x y b c hx => peek4_halves hx, fun x b => peek4_low, fun x b => peek4_high⟩⟩
  · exact ⟨congrArg Host.Outcome.next (hostAccess_lost _ h2 he), congrArg Host.Outcome.next (hostAccess_lost _ h2 he)⟩
  · exact ⟨congrArg Host.Outcome.next (hostAccess_asleep _ h2 he), congrArg Host.Outcome.next (hostAccess_asleep _ h2 he)⟩
  · exact ⟨congrArg Host.Outcome.next (hostAccess_entering _ h1 he), congrArg Host.Outcome.next (hostAccess_entering _ h1 he)⟩
  · exact ⟨congrArg Host.Outcome.next (hostAccess_awake _ h2 h), congrArg Host.Outcome.next (hostAccess_awake _ h2 h)⟩
  · rw [hostWrite_two ho]
    exact ⟨fun x hx hw => write2_register hx hw _, fun h => write2_ignored h _⟩
  · rw [hostWrite_four ho]
    exact ⟨fun hx => write4_reserved hx _, fun x b hx hw => write4_register hx hw _,
      fun x y hx hw hy hwy => write4_halves hx hw hy hwy _, fun x hx hw => ⟨_, write4_low hx hw _, rfl, rfl⟩,
      fun x b hx hb hw => write4_high hx hw hb _⟩
  · exact ⟨fun x b hx hw => hostWrite_whole hx ho hw v, fun x y b c hx hw hy hwy => hostWrite_words hx ho hw hy hwy v,
      fun hx hy => hostWrite_reserved ho hx hy v⟩
  · rw [hostRead_four ho]
    refine ⟨fun hl => ?_, fun hl hy => ?_, fun y hl hy => ?_⟩
    · rw [read4_low hl]
      exact ⟨_, rfl, rfl, rfl⟩
    · rw [read4_plain hl hy]
      rfl
    · rw [read4_latched hl hy]
      rfl
  · rw [hostRead_two ho]
    refine ⟨fun x hx hw => ?_, fun h => ?_⟩
    · rw [peek2_register hx hw]
      rfl
    · rw [peek2_zero h]
      rfl

end Sys2Proof.Machine
end

section
/-! PROOFS. Nonces, sessions and the lockout (R295 to R300): what SESSION_OPEN answers and binds, and how bindings and sessions end. -/
namespace Sys2Proof.Machine
open Sys2Proof

/-! ### What the end of a descriptor leaves of bindings and of the security state -/

@[simp] theorem finishDesc_sec (r : Fin 256) (idx : Nat) (status : Byte) (detail : Half) (result : Dword) (s : State) :
    (finishDesc r idx status detail result s).sec = s.sec := by rw [finishDesc_eq]

/-- Ending a descriptor moves no ring's binding and no ring's STATE. -/
theorem finishDesc_binding (r q : Fin 256) (idx : Nat) (status : Byte) (detail : Half) (result : Dword) (s : State) :
    ((finishDesc r idx status detail result s).ring q).tag = (s.ring q).tag
      ∧ ((finishDesc r idx status detail result s).ring q).state = (s.ring q).state := by
  by_cases h : q = r
  · subst h
    unfold finishDesc
    split
    · rw [State.modRing_same]
      exact ⟨rfl, rfl⟩
    · rw [noteAble, State.modRing_same, State.modRing_same, modCtx, State.modRing_same]
      exact ⟨rfl, rfl⟩
  · rw [finishDesc_ring_other r q idx status detail result s h]
    exact ⟨rfl, rfl⟩

/-! ### The end of debug, of a session and of a binding (R299, R307) -/

/-- The end of debug changes one bit of the security state. -/
theorem endDebug_sec (cause : Byte) (s : State) : (endDebug cause s).sec = { s.sec with dbgActive := false } := by
  unfold endDebug
  split
  · rw [cutAccess_eq, ledgerAdd_sec]
    rfl
  · next h => rw [← Bool.eq_false_iff.2 h]

/-- A session that ends is no longer among the live ones. -/
theorem endSession_sessions (tag : Half) (s : State) :
    (endSession tag s).sec.sessions = s.sec.sessions.filter fun y => y.tag ≠ tag := by
  unfold endSession
  extract_lets s1
  split
  · rw [endDebug_sec]
    rfl
  · rfl

/-- The end of a binding before its session's end: the ring unbound and the event posted. -/
def unbound (r : Fin 256) (cause : Nat) (s : State) : State :=
  postEvent 0x0205 0 (src r.val) [BitVec.ofNat 8 cause] (s.modRing r Ring.unbind)

theorem unbound_sec (r : Fin 256) (cause : Nat) (s : State) : (unbound r cause s).sec = s.sec := postEvent_sec ..

theorem unbound_tag_other {r q : Fin 256} (h : q ≠ r) (cause : Nat) (s : State) : ((unbound r cause s).ring q).tag = (s.ring q).tag := by
  rw [unbound, (postEvent_eventOnly ..).ring, State.modRing_other _ _ _ _ h.symm]

theorem unbound_tag (r : Fin 256) (cause : Nat) (s : State) : ((unbound r cause s).ring r).tag = none := by
  rw [unbound, (postEvent_eventOnly ..).ring, State.modRing_same]
  rfl

theorem anyRing_iff (s : State) (p : Ring → Bool) : s.rings.toList.any p = true ↔ ∃ q : Fin 256, p (s.ring q) = true := by
  rw [List.any_eq_true]
  constructor
  · rintro ⟨g, hg, hp⟩
    obtain ⟨i, hi, rfl⟩ := List.mem_iff_getElem.1 hg
    exact ⟨⟨i, by simpa using hi⟩, by simpa [State.ring] using hp⟩
  · rintro ⟨q, hq⟩
    exact ⟨_, by simp [State.ring], hq⟩

section EndBinding
variable {r : Fin 256} {tag : Half} {s : State} (h : (s.ring r).tag = some tag) (cause : Nat)
include h

/-- The end of a ring's binding ends the session where no other ring is bound to it (R299). -/
theorem endBinding_last (hlast : ∀ q, q ≠ r → (s.ring q).tag ≠ some tag) : endBinding r cause s = endSession tag (unbound r cause s) := by
  have hnone : ((unbound r cause s).rings.toList.any fun g => g.tag = some tag) = false := by
    rw [Bool.eq_false_iff, Ne, anyRing_iff]
    rintro ⟨q, hq⟩
    by_cases e : q = r
    · subst e
      simp [unbound_tag] at hq
    · rw [unbound_tag_other e] at hq
      exact hlast q e (of_decide_eq_true hq)
  unfold endBinding
  rw [h]
  exact if_neg (Bool.eq_false_iff.1 hnone)

theorem endBinding_shared {q : Fin 256} (hq : q ≠ r) (htag : (s.ring q).tag = some tag) : endBinding r cause s = unbound r cause s := by
  have hany : ((unbound r cause s).rings.toList.any fun g => g.tag = some tag) = true :=
    (anyRing_iff ..).2 ⟨q, decide_eq_true ((unbound_tag_other hq cause s).trans htag)⟩
  unfold endBinding
  rw [h]
  exact if_pos hany

theorem endBinding_last_sessions (hlast : ∀ q, q ≠ r → (s.ring q).tag ≠ some tag) :
    ∀ y ∈ (endBinding r cause s).sec.sessions, y.tag ≠ tag := by
  rw [endBinding_last h cause hlast, endSession_sessions]
  exact fun y hy => of_decide_eq_true (List.mem_filter.1 hy).2

theorem endBinding_shared_sessions {q : Fin 256} (hq : q ≠ r) (htag : (s.ring q).tag = some tag) :
    (endBinding r cause s).sec.sessions = s.sec.sessions := by
  rw [endBinding_shared h cause hq htag, unbound_sec]

/-- A bound ring whose binding ends is unbound. -/
theorem endBinding_bound_ring : (endBinding r cause s).ring r = (s.ring r).unbind := by
  rw [endBinding_keeps (fun t => t.ring r) r cause s (fun _ _ _ _ t => (postEvent_eventOnly ..).ring r) fun tag t => endSession_ring tag t r,
    if_neg (by simp [h]), State.modRing_same]

end EndBinding

/-! ### Nonces (R295) -/

/-- The tag of a module's d-th draw. -/
def nonceTag (d : Nat) : Half := BitVec.ofNat 16 (d % 4096 * 16 + d % 16)

/-- The state after a draw. -/
def nonceDrawn (s : State) : State :=
  let t := s.fresh.2.setSec { s.sec with
    draws := s.sec.draws + 1
    nonces := s.sec.nonces.set (ix 16 s.sec.draws) ⟨Config.freeWord s.free, nonceTag s.sec.draws, true, s.ns⟩ }
  t.setOut { t.out with read := (nonceTag s.sec.draws).setWidth 64 }

theorem nonceDraw_draws {size : Nat} (h : size = 4 ∨ size = 8) (s : State) : exec (.nonceDraw size) s = .next (nonceDrawn s) := by
  obtain rfl | rfl := h <;> rfl

theorem nonceDraw_zero {size : Nat} (h4 : size ≠ 4) (h8 : size ≠ 8) (s : State) :
    exec (.nonceDraw size) s = .next (s.setOut { s.out with read := 0 }) := if_pos (by simp [h4, h8])

theorem nonceDrawn_window (s : State) : (nonceDrawn s).sec.nonces[ix 16 s.sec.draws] =
    ⟨Config.freeWord s.free, nonceTag s.sec.draws, true, s.ns⟩ := Vector.getElem_set_self ..

theorem nonceDrawn_window_other {s : State} {i : Fin 16} (h : i ≠ ix 16 s.sec.draws) : (nonceDrawn s).sec.nonces[i] = s.sec.nonces[i] :=
  Vector.getElem_set_ne (ix 16 s.sec.draws).isLt i.isLt fun e => h (Fin.ext e.symm)

theorem nonceExpiry_waits {s : State} {i : Fin 16} (h : s.sec.nonces[i].live = false ∨ s.ns < s.sec.nonces[i].at_ + 10000000000) :
    exec (.nonceExpiry i) s = .next s := by
  refine if_neg ?_
  rw [Bool.and_eq_true, decide_eq_true_eq]
  rintro ⟨hl, ht⟩
  exact h.elim (ne_false_of_eq_true hl) (Nat.not_lt.2 ht)

theorem nonceExpiry_expires {s : State} {i : Fin 16} (hl : s.sec.nonces[i].live = true) (ht : s.sec.nonces[i].at_ + 10000000000 ≤ s.ns) :
    exec (.nonceExpiry i) s =
      .next (s.setSec { s.sec with nonces := s.sec.nonces.set i { s.sec.nonces[i] with live := false } }) :=
  if_pos (Bool.and_eq_true_iff.2 ⟨hl, decide_eq_true ht⟩)

/-! ### SESSION_OPEN (R297, R298) -/

/-- The nonce windows with those of a tag used. -/
def nonceUsed (tag : Half) (s : State) : State :=
  s.setSec { s.sec with nonces := s.sec.nonces.map fun x => if x.tag = tag then { x with live := false } else x }

theorem nonceUsed_dead (tag : Half) (s : State) (i : Fin 16) (h : (nonceUsed tag s).sec.nonces[i].tag = tag) :
    (nonceUsed tag s).sec.nonces[i].live = false := by
  simp only [nonceUsed, State.setSec_sec, Fin.getElem_fin, Vector.getElem_map] at h ⊢
  split at h
  · next ht => rw [if_pos ht]
  · next ht => exact absurd h ht

/-- The key slot a SESSION_OPEN names. -/
def DescCtx.openSlot (c : DescCtx) : Fin 8 := ix 8 (bits (dW2 c.word) 0 3 : BitVec 3).toNat

/-- The nonce tag a SESSION_OPEN names. -/
def DescCtx.openTag (c : DescCtx) : Half := bits (dW3 c.word) 0 16

/-- The live window a SESSION_OPEN names. -/
def openWindow (c : DescCtx) (s : State) : Option NonceWin := s.sec.nonces.toList.find? fun x => nonceLive s x && x.tag = c.openTag

/-- The proof a SESSION_OPEN carries is the one of its nonce under its slot's key (R296). -/
def proofHolds (r : Fin 256) (c : DescCtx) (x : NonceWin) (s : State) : Prop :=
  hmac384 s.sec.slots[c.openSlot].key (proofMessage x.val c.openTag r (s.ring r).epoch c.openSlot.val)
    = leBytes (bits c.word 128 384 : BitVec 384).toNat 48

/-- A SESSION_OPEN refused for a reason: its nonce is used and a failure counted. -/
def openRefused (r : Fin 256) (c : DescCtx) (reason : Half) (s : State) : State :=
  finishDesc r c.idx 0x21 reason 0 (countFail r (nonceUsed c.openTag s))

/-- A SESSION_OPEN that binds its ring: its nonce is used. -/
def opened (r : Fin 256) (c : DescCtx) (s : State) : State :=
  let y := bindSession r c.openSlot (nonceUsed c.openTag s)
  finishDesc r c.idx 0x00 0 (BitVec.ofNat 64 (y.1.toNat + 65536 * y.2.1.toNat)) y.2.2

section Open
variable {s : State} {r : Fin 256} {n : Nat}

theorem sessionOpen_none (h : descAt s r n 0x08 = none) : exec (.sessionOpen r n) s = .next s := by
  show execSessionOpen r n s = _
  simp only [execSessionOpen, h]

variable {c : DescCtx} (h : descAt s r n 0x08 = some c)
include h

theorem sessionOpen_inTurn (he : earlierRuns s [0x08] c = true) : exec (.sessionOpen r n) s = .next s := by
  show execSessionOpen r n s = _
  simp only [execSessionOpen, h, he, if_true]

variable (he : earlierRuns s [0x08] c = false)
include he

theorem sessionOpen_locked (hl : lockedOut s = true ∨ c.snap = [1]) : exec (.sessionOpen r n) s = .next (finishDesc r c.idx 0x21 1 0 s) := by
  have hc : (lockedOut s || decide (c.snap = [1])) = true := by simpa using hl
  show execSessionOpen r n s = _
  simp only [execSessionOpen, h, he, hc, Bool.false_eq_true, if_false, if_true]
  rfl

variable (hl : lockedOut s = false) (hs : c.snap ≠ [1])
include hl hs

theorem sessionOpen_noKey (hk : s.sec.slots[c.openSlot].valid = false) : exec (.sessionOpen r n) s = .next (openRefused r c 3 s) := by
  have hc : (lockedOut s || decide (c.snap = [1])) = false := Bool.or_eq_false_iff.2 ⟨hl, decide_eq_false hs⟩
  unfold DescCtx.openSlot at hk
  show execSessionOpen r n s = _
  simp only [execSessionOpen, h, he, hc, hk, Bool.false_eq_true, if_false, Bool.not_false, if_true]
  rfl

variable (hk : s.sec.slots[c.openSlot].valid = true)
include hk

/-- With a valid key, the nonce is looked for and the proof is then checked. -/
theorem sessionOpen_checks : exec (.sessionOpen r n) s = .next (
    match openWindow c s with
    | none => openRefused r c 2 s
    | some x =>
      if hmac384 s.sec.slots[c.openSlot].key (proofMessage x.val c.openTag r (s.ring r).epoch c.openSlot.val)
        = leBytes (bits c.word 128 384 : BitVec 384).toNat 48 then opened r c s else openRefused r c 0 s) := by
  have hc : (lockedOut s || decide (c.snap = [1])) = false := Bool.or_eq_false_iff.2 ⟨hl, decide_eq_false hs⟩
  have hkey := hk
  unfold DescCtx.openSlot at hkey
  show execSessionOpen r n s = _
  simp only [execSessionOpen, h, he, hc, hkey, Bool.false_eq_true, if_false, Bool.not_true, ne_eq, ite_not]
  unfold openWindow DescCtx.openTag
  cases s.sec.nonces.toList.find? fun x => nonceLive s x && x.tag = bits (dW3 c.word) 0 16 with
  | none => rfl
  | some x => exact (apply_ite Host.Outcome.next ..).symm

theorem sessionOpen_noNonce (hx : openWindow c s = none) : exec (.sessionOpen r n) s = .next (openRefused r c 2 s) := by
  rw [sessionOpen_checks h he hl hs hk, hx]

theorem sessionOpen_wrongProof {x : NonceWin} (hx : openWindow c s = some x) (hp : ¬ proofHolds r c x s) :
    exec (.sessionOpen r n) s = .next (openRefused r c 0 s) := by
  rw [sessionOpen_checks h he hl hs hk, hx]
  exact congrArg Host.Outcome.next (if_neg hp)

theorem sessionOpen_opens {x : NonceWin} (hx : openWindow c s = some x) (hp : proofHolds r c x s) :
    exec (.sessionOpen r n) s = .next (opened r c s) := by
  rw [sessionOpen_checks h he hl hs hk, hx]
  exact congrArg Host.Outcome.next (if_pos hp)

end Open

/-! ### A session bound (R298) -/

/-- A ring bound to a session. -/
def Ring.bind (tag : Half) (ns : Nat) (g : Ring) : Ring := { g with tag := some tag, state := .bound, activeAt := ns }

/-- The state in which a session was opened: some live session of the slot, its ring bound to it, and no failure counted. -/
theorem bindSession_binds (r : Fin 256) (slot : Fin 8) (s : State) :
    ∃ y u, (bindSession r slot s).2.2 = State.modRing u r (Ring.bind y.tag s.ns) ∧ y ∈ u.sec.sessions ∧ y.slot = slot
      ∧ u.sec.fails = 0 ∧ u.sec.level = 0 ∧ u.sec.nonces = s.sec.nonces ∧ u.rings = s.rings := by
  unfold bindSession
  cases hfind : s.sec.sessions.find? fun y => y.slot = slot with
  | none =>
    exact ⟨⟨slot, liveTag s.sec.sessions (s.sec.sessions.length + 1) (bits (Config.freeWord s.free) 0 16), s.sec.slots[slot].rights⟩, _, rfl,
      List.mem_append_right _ (List.mem_singleton_self _), rfl, rfl, rfl, rfl, rfl⟩
  | some y => exact ⟨y, _, rfl, List.mem_of_find?_eq_some hfind, of_decide_eq_true (List.find?_some hfind :), rfl, rfl, rfl, rfl⟩

/-- A ring opened is bound to a session of its slot, its nonce is used, and no other ring has changed. -/
theorem opened_state (r : Fin 256) (c : DescCtx) (s : State) :
    (let t := opened r c s
    ∃ y, y ∈ t.sec.sessions ∧ y.slot = c.openSlot ∧ (t.ring r).tag = some y.tag ∧ (t.ring r).state = .bound ∧ t.sec.fails = 0
      ∧ t.sec.level = 0 ∧ (∀ i : Fin 16, t.sec.nonces[i].tag = c.openTag → t.sec.nonces[i].live = false)
      ∧ ∀ q, q ≠ r → t.ring q = s.ring q) := by
  obtain ⟨y, u, hbind, hmem, hslot, hfails, hlevel, hnonces, hrings⟩ := bindSession_binds r c.openSlot (nonceUsed c.openTag s)
  have hopened : opened r c s = finishDesc r c.idx 0x00 0 _ (State.modRing u r (Ring.bind y.tag s.ns)) :=
    congrArg (finishDesc r c.idx 0x00 0 _) hbind
  have hsec : (opened r c s).sec = u.sec := by rw [hopened, finishDesc_sec, State.modRing_sec]
  obtain ⟨htag, hstate⟩ := finishDesc_binding r r c.idx 0x00 0 _ (State.modRing u r (Ring.bind y.tag s.ns))
  rw [← hopened, State.modRing_same] at htag hstate
  dsimp only
  rw [hsec]
  refine ⟨y, hmem, hslot, htag, hstate, hfails, hlevel, fun i => ?_, fun q hq => ?_⟩
  · rw [hnonces]
    exact nonceUsed_dead c.openTag s i
  · rw [hopened, finishDesc_ring_other _ _ _ _ _ _ _ hq, State.modRing_other _ _ _ _ hq.symm]
    exact State.ring_of_rings hrings q

/-! ### SESSION_CLOSE, idle sessions and the lockout's end (R299, R300) -/

section Close
variable {s : State} {r : Fin 256} {n : Nat}

theorem sessionClose_none (h : descAt s r n 0x09 = none) : exec (.sessionClose r n) s = .next s := by
  show execSessionClose r n s = _
  simp only [execSessionClose, h]

theorem sessionClose_ends {c : DescCtx} (h : descAt s r n 0x09 = some c) :
    exec (.sessionClose r n) s = .next (endBinding r 0 (finishDesc r c.idx 0x00 0 0 s)) := by
  show execSessionClose r n s = _
  simp only [execSessionClose, h]
  rfl

end Close

theorem sessionIdle_eq (r : Fin 256) (s : State) : exec (.sessionIdleTimeout r) s =
    if (s.ring r).tag.isSome = true ∧ (s.ring r).fetched = [] ∧ (s.ring r).started = [] ∧ (s.ring r).activeAt + 10000000000 ≤ s.ns
      ∧ s.pwr.mstate = 0 then .next (endBinding r 2 s) else .next s := by
  show execSessionIdleTimeout r s = _
  simp only [execSessionIdleTimeout, Bool.and_eq_true, decide_eq_true_eq, List.isEmpty_iff, and_assoc]

theorem lockoutExpiry_waits {s : State} (h : s.sec.lockUntil = none ∨ ∃ t, s.sec.lockUntil = some t ∧ s.ns < t) :
    exec .lockoutExpiry s = .next s := by
  show execLockoutExpiry s = _
  obtain h | ⟨t, h, ht⟩ := h
  · simp only [execLockoutExpiry, h]
  · simp only [execLockoutExpiry, h, if_neg (Nat.not_le.2 ht)]

theorem lockoutExpiry_ends {s : State} {t : Nat} (h : s.sec.lockUntil = some t) (ht : t ≤ s.ns) :
    exec .lockoutExpiry s = .next (s.setSec { s.sec with lockUntil := none }) := by
  show execLockoutExpiry s = _
  simp only [execLockoutExpiry, h, if_pos ht]

/-- Settles O38: nonces, the answers of SESSION_OPEN in the order of its checks, the ends of bindings, and the lockout's end. -/
theorem sessionsOpenAndClose : Obligations.SessionsOpenAndClose := by
  refine fun s => ⟨fun size h => ?_, fun size h4 h8 => nonceDraw_zero h4 h8 s, fun i => nonceExpiry_waits,
    fun r n => ⟨sessionOpen_none, sessionClose_none, fun c => sessionOpen_inTurn⟩, fun i => nonceExpiry_expires, fun r n c h he => ?_,
    fun r n c h => ?_, fun r htag hf hst ha hm => ?_, fun r h => ?_, lockoutExpiry_waits, fun t => lockoutExpiry_ends⟩
  · exact ⟨_, nonceDraw_draws h s, rfl, rfl, nonceDrawn_window s, fun i => nonceDrawn_window_other, rfl⟩
  · refine ⟨sessionOpen_locked h he, sessionOpen_noKey h he, sessionOpen_noNonce h he,
      fun x hl hs hk hx => ⟨sessionOpen_wrongProof h he hl hs hk hx, fun hp => ?_⟩⟩
    obtain ⟨y, hy⟩ := opened_state r c s
    exact ⟨_, y, sessionOpen_opens h he hl hs hk hx hp, hy⟩
  · have htags (q : Fin 256) : ((finishDesc r c.idx 0x00 0 0 s).ring q).tag = (s.ring q).tag := (finishDesc_binding ..).1
    refine ⟨_, sessionClose_ends h, ?_, fun q hq => ?_, fun tag ht hlast => ?_, fun tag q ht hq hshared => ?_⟩
    · obtain ⟨st, hring⟩ := endBinding_ring r 0 (finishDesc r c.idx 0x00 0 0 s)
      rw [hring]
    · rw [endBinding_ring_other hq, finishDesc_ring_other _ _ _ _ _ _ _ hq]
    · exact endBinding_last_sessions ((htags r).trans ht) 0 fun q hq => (htags q).symm ▸ hlast q hq
    · rw [endBinding_shared_sessions ((htags r).trans ht) 0 hq ((htags q).trans hshared), finishDesc_sec]
  · obtain ⟨tag, ht⟩ := Option.isSome_iff_exists.1 htag
    refine ⟨_, (sessionIdle_eq r s).trans (if_pos ⟨htag, hf, hst, ha, hm⟩), ?_⟩
    rw [endBinding_bound_ring ht]
    exact ⟨rfl, by simp [Ring.unbind]⟩
  · refine (sessionIdle_eq r s).trans (if_neg ?_)
    rintro ⟨htag, hf, hst, ha, hm⟩
    obtain h | h | h | h | h := h
    · simp [h] at htag
    · exact h hf
    · exact h hst
    · exact Nat.not_lt.2 ha h
    · exact h hm

end Sys2Proof.Machine
end

section
/-! PROOFS. DEBUG_CTRL (R306, R307) and the firmware descriptors (R283, R285, R302, R303): the boot record, the flash slots, and what each
descriptor does in its states. -/
namespace Sys2Proof.Machine
open Sys2Proof

/-! ### DEBUG_CTRL (R306, R307) -/

section Debug
variable {w : Word} {s : State}

theorem debugEnable_writes (h : w.getLsbD 16 = true) : exec (.debugEnable w) s = .next (debugCtrlWrite w s) :=
  congrArg Host.Outcome.next (if_pos h)

theorem debugEnable_other (h : w.getLsbD 16 = false) : exec (.debugEnable w) s = .next s :=
  congrArg Host.Outcome.next (if_neg (Bool.eq_false_iff.1 h))

theorem debugDisable_writes (h : w.getLsbD 16 = false) : exec (.debugDisable w) s = .next (debugCtrlWrite w s) :=
  congrArg Host.Outcome.next (if_neg (Bool.eq_false_iff.1 h))

theorem debugDisable_other (h : w.getLsbD 16 = true) : exec (.debugDisable w) s = .next s :=
  congrArg Host.Outcome.next (if_pos h)

/-- The live session that a write of DEBUG_CTRL names and that has the right to debug. -/
def debugSession (w : Word) (s : State) : Option Session := s.sec.sessions.find? fun y => y.tag = (bits w 0 16 : Half) && y.rights.getLsbD 3

theorem debugCtrl_grants (h : w.getLsbD 16 = true) {y : Session} (hy : debugSession w s = some y) (hl : s.sec.debugLock = false) :
    (debugCtrlWrite w s).sec = { s.sec with
      dbgDenied := s.sec.dbgDenied && !w.getLsbD 18, dbgActive := true, dbgTag := bits w 0 16, dbgSlot := y.slot } := by
  unfold debugSession at hy
  simp only [debugCtrlWrite, h, hy, hl, Bool.not_true, Bool.false_eq_true, if_false]
  split
  · rfl
  · rw [ledgerAdd_sec]
    rfl

theorem debugCtrl_denies (h : w.getLsbD 16 = true) (hd : debugSession w s = none ∨ s.sec.debugLock = true) :
    debugCtrlWrite w s = s.setSec { s.sec with dbgDenied := true } := by
  unfold debugSession at hd
  simp only [debugCtrlWrite, h, Bool.not_true, Bool.false_eq_true, if_false]
  split
  · rfl
  · next y hy => exact if_pos (hd.resolve_left fun hn => Option.some_ne_none y (hy.symm.trans hn))

theorem debugCtrl_ends (h : w.getLsbD 16 = false) : (debugCtrlWrite w s).sec = { s.sec with
    dbgDenied := s.sec.dbgDenied && !w.getLsbD 18, dbgActive := false, dbgTag := bits w 0 16 } := by
  simp only [debugCtrlWrite, h, Bool.not_false, if_true, State.setSec_sec, endDebug_sec]

end Debug

/-! ### The boot record and the flash slots (R283) -/

theorem standing_second {x : Security} (h : secondStands x = true) : standing x = x.recB := if_pos h

theorem standing_first {x : Security} (h : secondStands x = false) : standing x = x.recA := if_neg (Bool.eq_false_iff.1 h)

/-- The record written is the one that stands, with the next sequence number. -/
theorem standing_writeRec (b : BootRec) (x : Security) :
    standing (writeRec b x) = { b with valid := true, seqNo := (standing x).seqNo + 1 } := by
  unfold writeRec
  split
  · next h =>
    rw [standing_second h]
    exact standing_first (by simp [secondStands])
  · next h =>
    rw [standing_first (Bool.eq_false_iff.2 h)]
    exact standing_second (by simp [secondStands])

theorem flashOf_writeRec (b : BootRec) (x : Security) (slot : Bool) : flashOf (writeRec b x) slot = flashOf x slot := by
  unfold writeRec
  split <;> rfl

theorem writeRec_arbFused (b : BootRec) (x : Security) : (writeRec b x).arbFused = x.arbFused := by
  unfold writeRec
  split <;> rfl

theorem flashOf_setFlash (slot : Bool) (m : Memory) (x : Security) : flashOf (setFlash slot m x) slot = m := by
  cases slot <;> rfl

theorem flashOf_setFlash_other (slot : Bool) (m : Memory) (x : Security) : flashOf (setFlash slot m x) (!slot) = flashOf x (!slot) := by
  cases slot <;> rfl

theorem standing_setFlash (slot : Bool) (m : Memory) (x : Security) : standing (setFlash slot m x) = standing x := by
  cases slot <;> rfl

/-! ### A slot's marks cleared (R303) -/

theorem unmark_pending (slot : Bool) (b : BootRec) : (unmark slot b).pending ≠ some slot := by
  simp only [unmark]
  split
  · exact (Option.some_ne_none slot).symm
  · assumption

theorem unmark_verified (slot : Bool) (b : BootRec) : (unmark slot b).verified ≠ some slot := by
  simp only [unmark]
  split
  · exact (Option.some_ne_none slot).symm
  · assumption

/-- The security state without marks on a slot: the boot record is written where it has any. -/
def unmarked (slot : Bool) (x : Security) : Security :=
  if unmark slot (standing x) = standing x then x else writeRec (unmark slot (standing x)) x

theorem flashOf_unmarked (slot q : Bool) (x : Security) : flashOf (unmarked slot x) q = flashOf x q := by
  unfold unmarked
  split
  · rfl
  · exact flashOf_writeRec ..

/-- The record that stands without marks on a slot names the same active slot. -/
theorem standing_unmarked (slot : Bool) (x : Security) : (standing (unmarked slot x)).active = (standing x).active
    ∧ (standing (unmarked slot x)).pending ≠ some slot ∧ (standing (unmarked slot x)).verified ≠ some slot := by
  unfold unmarked
  split
  · next h => exact ⟨rfl, h ▸ unmark_pending slot _, h ▸ unmark_verified slot _⟩
  · rw [standing_writeRec]
    exact ⟨rfl, unmark_pending slot _, unmark_verified slot _⟩

theorem programChunk_sec (r : Fin 256) (c : DescCtx) (bs : List MByte) (u : State) :
    (programChunk r c bs u).sec = { setFlash (fwSlot u) ((flashOf u.sec (fwSlot u)).putBytes (dW2 c.word).toNat (plain bs))
      (unmarked (fwSlot u) u.sec) with fwState := 1 } := by
  rw [← flashOf_unmarked (fwSlot u)]
  exact finishDesc_sec ..

/-- Bytes are programmed into the slot that firmware descriptors act on; the other slot stays, and no mark is left on the first. -/
theorem programChunk_programs (r : Fin 256) (c : DescCtx) (bs : List MByte) (u : State) :
    (let x := (programChunk r c bs u).sec
    x.fwState = 1 ∧ flashOf x (fwSlot u) = (flashOf u.sec (fwSlot u)).putBytes (dW2 c.word).toNat (plain bs)
      ∧ flashOf x (!fwSlot u) = flashOf u.sec (!fwSlot u) ∧ (standing x).active = (standing u.sec).active
      ∧ (standing x).pending ≠ some (fwSlot u) ∧ (standing x).verified ≠ some (fwSlot u)) := by
  have hstand := standing_unmarked (fwSlot u) u.sec
  rw [← standing_setFlash (fwSlot u) ((flashOf u.sec (fwSlot u)).putBytes (dW2 c.word).toNat (plain bs))] at hstand
  rw [programChunk_sec]
  refine ⟨rfl, flashOf_setFlash .., ?_, hstand⟩
  exact (flashOf_setFlash_other ..).trans (flashOf_unmarked ..)

/-! ### The worst of several failures (R265) -/

/-- Of two failures the one with the higher status, of equals the first. -/
def worse : Option (Byte × Half) → Option (Byte × Half) → Option (Byte × Half)
  | some x, some y => if x.1 < y.1 then some y else some x
  | none, y => y
  | some x, none => some x

theorem worse_none (a : Option (Byte × Half)) : worse a none = a := by cases a <;> rfl

theorem worse_assoc (a b c : Option (Byte × Half)) : worse (worse a b) c = worse a (worse b c) := by
  cases a with
  | none => rfl
  | some x => cases b with
    | none => rfl
    | some y => cases c with
      | none => rw [worse_none, worse_none]
      | some z =>
        simp only [worse]
        by_cases hxy : x.1 < y.1
        · by_cases hyz : y.1 < z.1
          · simp [hxy, hyz, BitVec.lt_trans hxy hyz]
          · simp [hxy, hyz]
        · by_cases hyz : y.1 < z.1
          · simp [hxy, hyz]
          · simp [hxy, hyz, BitVec.not_lt.2 (BitVec.le_trans (BitVec.not_lt.1 hyz) (BitVec.not_lt.1 hxy))]

theorem worst_eq_foldl (l : List (Option (Byte × Half))) : worst l = l.foldl worse none := by
  unfold worst
  congr 1
  funext a f
  cases a <;> cases f <;> rfl

theorem worst_cons (a : Option (Byte × Half)) (l : List (Option (Byte × Half))) : worst (a :: l) = worse a (worst l) := by
  have assoc : Std.Associative worse := ⟨worse_assoc⟩
  rw [worst_eq_foldl, worst_eq_foldl]
  exact (congrArg (fun b => l.foldl worse b) (worse_none a).symm).trans List.foldl_assoc

/-- The worst of a part of the failures stands for that part. -/
theorem worst_worst (a : Option (Byte × Half)) (l : List (Option (Byte × Half))) : worst [a, worst l] = worst (a :: l) := by
  rw [worst_cons, worst_cons, worst_cons]
  exact congrArg (worse a) (worse_none _)

/-! ### Firmware descriptors in their turn (R302) -/

/-- A firmware descriptor does its work once it is there and no earlier one runs. -/
def inFwTurn (r : Fin 256) (n op : Nat) (s : State) (go : DescCtx → State) : Res :=
  match descAt s r n op with
  | none => .next s
  | some c => .next (if earlierRuns s fwOps c then s else go c)

section Turn
variable {r : Fin 256} {n op : Nat} {s : State} {go : DescCtx → State}

theorem inFwTurn_none (h : descAt s r n op = none) : inFwTurn r n op s go = .next s := by simp only [inFwTurn, h]

variable {c : DescCtx} (h : descAt s r n op = some c)
include h

theorem inFwTurn_waits (he : earlierRuns s fwOps c = true) : inFwTurn r n op s go = .next s := by simp only [inFwTurn, h, if_pos he]

theorem inFwTurn_goes (he : earlierRuns s fwOps c = false) : inFwTurn r n op s go = .next (go c) := by
  simp only [inFwTurn, h, he, Bool.false_eq_true, if_false]

end Turn

/-- Why an FW_CHUNK is refused by its state or its operands. -/
def fwChunkFault (s : State) (c : DescCtx) : Option (Byte × Half) :=
  worst [failIf (s.sec.fwState = 4 && !s.boot.recovery) 0x30 0,
    failIf ((dW2 c.word).toNat % 4096 ≠ 0 || 2 ^ 26 < (dW2 c.word).toNat + (dW3 c.word).toNat) 0x30 8,
    failIf ((dW3 c.word).toNat % 4096 ≠ 0 || 2 ^ 24 < (dW3 c.word).toNat) 0x30 0x0C, opFault s (dQ c.word 0x10) (dW3 c.word).toNat 0x10]

/-- FW_CHUNK in its turn (R303). -/
def fwChunkDone (r : Fin 256) (s : State) (c : DescCtx) : State :=
  match fwChunkFault s c with
  | some x => finishDesc r c.idx x.1 x.2 0 s
  | none => withOperand r c 0 2 (dQ c.word 0x10) (dW3 c.word).toNat (programChunk r c) s

theorem fwChunk_eq (r : Fin 256) (n : Nat) (s : State) : exec (.fwChunk r n) s = inFwTurn r n 0x60 s (fwChunkDone r s) := by
  have hfault (c : DescCtx) : worst [failIf (s.sec.fwState = 4 && !s.boot.recovery) stMalformed 0, chunkFault s c.word] = fwChunkFault s c :=
    worst_worst ..
  show execFwChunk r n s = _
  simp only [execFwChunk, inFwTurn, fwChunkDone, hfault]
  cases descAt s r n 0x60 with
  | none => rfl
  | some c =>
    dsimp only
    cases earlierRuns s fwOps c with
    | true => rfl
    | false => cases fwChunkFault s c <;> rfl

/-- An FW_CHUNK without a fault, whose bytes lie in host memory and have been read, programs them. -/
theorem fwChunkDone_host {r : Fin 256} {s : State} {c : DescCtx} (hf : fwChunkFault s c = none) {a : Nat}
    (hp : placeOf s (dQ c.word 0x10) = .host a) (hk : c.asked = 1) (ha : asking s (.desc r c.idx) = false) :
    fwChunkDone r s c = programChunk r c ((s.host.getBytes a (dW3 c.word).toNat).map fun b => (b, false)) s := by
  rw [fwChunkDone, hf]
  exact withOperand_host hp (by rw [hk]; exact Nat.one_pos) ha

/-! ### FW_VERIFY (R285, R303) -/

/-- Why an image does not verify: its shape, then its feature level before its signature (R265). -/
theorem verifyFault_eq (x : Security) (m : Memory) :
    worst [failIf (!fwShapeOk m) stMalformed 0x8000, failIf (fwShapeOk m && !fwSigned x m) stAuth 0,
        failIf (fwShapeOk m && !Config.featureAccepted (BitVec.ofNat 32 (fwField m 0x10))) stUnsupported 1] =
      if fwShapeOk m = false then some (0x30, 0x8000)
      else if Config.featureAccepted (BitVec.ofNat 32 (fwField m 0x10)) = false then some (0x31, 1)
      else if fwSigned x m = false then some (0x21, 0) else none := by
  cases fwShapeOk m with
  | false => rfl
  | true => cases Config.featureAccepted (BitVec.ofNat 32 (fwField m 0x10)) <;> cases fwSigned x m <;> rfl

/-- The result of an FW_VERIFY: the image's version and its ARB, where it has the magic number. -/
def fwResult (m : Memory) : Dword := if fwField m 0 = 0x46574B56 then BitVec.ofNat 64 (fwField m 4 + 2 ^ 32 * fwField m 8) else 0

/-- FW_VERIFY in its turn (R303). -/
def fwVerifyDone (r : Fin 256) (s : State) (c : DescCtx) : State :=
  let m := flashOf s.sec (fwSlot s)
  if 3 ≤ s.sec.fwState.toNat then finishDesc r c.idx 0x30 0 0 s
  else if fwShapeOk m = false then finishDesc r c.idx 0x30 0x8000 (fwResult m) s
  else if Config.featureAccepted (BitVec.ofNat 32 (fwField m 0x10)) = false then finishDesc r c.idx 0x31 1 (fwResult m) s
  else if fwSigned s.sec m = false then finishDesc r c.idx 0x21 0 (fwResult m) s
  else finishDesc r c.idx 0x00 0 (fwResult m) (s.setSec
    { writeRec { standing s.sec with verified := some (fwSlot s) } s.sec with fwState := 2 })

theorem fwVerify_eq (r : Fin 256) (n : Nat) (s : State) : exec (.fwVerify r n) s = inFwTurn r n 0x61 s (fwVerifyDone r s) := by
  show execFwVerify r n s = _
  simp only [execFwVerify, inFwTurn, fwVerifyDone, verifyFault_eq]
  cases descAt s r n 0x61 with
  | none => rfl
  | some c =>
    dsimp only
    cases earlierRuns s fwOps c with
    | true => rfl
    | false =>
      simp only [Bool.false_eq_true, if_false]
      split
      · rfl
      · cases fwShapeOk (flashOf s.sec (fwSlot s)) with
        | false => rfl
        | true =>
          cases Config.featureAccepted (BitVec.ofNat 32 (fwField (flashOf s.sec (fwSlot s)) 0x10)) with
          | false => rfl
          | true => cases fwSigned s.sec (flashOf s.sec (fwSlot s)) <;> rfl

/-! ### FW_ACTIVATE and FW_CONFIRM (R303) -/

/-- FW_ACTIVATE in its turn. -/
def fwActivateDone (r : Fin 256) (s : State) (c : DescCtx) : State :=
  if s.sec.fwState = 3 then finishDesc r c.idx 0x00 0 0 s
  else if s.sec.fwState ≠ 2 then finishDesc r c.idx 0x30 0 0 s
  else finishDesc r c.idx 0x00 0 0 (s.setSec
    { writeRec { standing s.sec with pending := some (fwSlot s), tries := 0 } s.sec with fwState := 3 })

theorem fwActivate_eq (r : Fin 256) (n : Nat) (s : State) : exec (.fwActivate r n) s = inFwTurn r n 0x62 s (fwActivateDone r s) := by
  show execFwActivate r n s = _
  simp only [execFwActivate, inFwTurn, fwActivateDone]
  cases descAt s r n 0x62 with
  | none => rfl
  | some c =>
    simp only [apply_ite Host.Outcome.next]
    rfl

theorem fwActivateDone_pending {r : Fin 256} {s : State} {c : DescCtx} (h : s.sec.fwState = 2) :
    (let x := (fwActivateDone r s c).sec
    x.fwState = 3 ∧ (standing x).pending = some (fwSlot s) ∧ (standing x).tries = 0 ∧ (standing x).active = (standing s.sec).active) := by
  have hstand := standing_writeRec { standing s.sec with pending := some (fwSlot s), tries := 0 } s.sec
  have hdone : (fwActivateDone r s c).sec =
      { writeRec { standing s.sec with pending := some (fwSlot s), tries := 0 } s.sec with fwState := 3 } := by
    rw [fwActivateDone, if_neg (by simp [h]), if_neg (not_not.2 h), finishDesc_sec, State.setSec_sec]
  rw [hdone]
  exact ⟨rfl, congrArg BootRec.pending hstand, congrArg BootRec.tries hstand, (congrArg BootRec.active hstand :)⟩

/-- The security state after an FW_CONFIRM: the record names the booted slot, and the fuses stand at the image's ARB at least. -/
def fwConfirmed (x : Security) : Security :=
  let y := writeRec { standing x with active := x.bootSlot, pending := none, verified := none } x
  { y with fwState := 0, arbFused := max y.arbFused (min 64 (fwField (flashOf y y.bootSlot) 8)) }

/-- FW_CONFIRM in its turn. -/
def fwConfirmDone (r : Fin 256) (s : State) (c : DescCtx) : State :=
  if s.sec.fwState ≠ 4 then finishDesc r c.idx 0x30 0 0 s else finishDesc r c.idx 0x00 0 0 (s.setSec (fwConfirmed s.sec))

theorem fwConfirm_eq (r : Fin 256) (n : Nat) (s : State) : exec (.fwConfirm r n) s = inFwTurn r n 0x63 s (fwConfirmDone r s) := by
  show execFwConfirm r n s = _
  simp only [execFwConfirm, inFwTurn, fwConfirmDone, fwConfirmed]
  cases descAt s r n 0x63 with
  | none => rfl
  | some c =>
    simp only [apply_ite Host.Outcome.next]
    rfl

theorem fwConfirmed_active (x : Security) : (fwConfirmed x).fwState = 0 ∧ (standing (fwConfirmed x)).active = x.bootSlot
    ∧ (standing (fwConfirmed x)).pending = none ∧ (standing (fwConfirmed x)).verified = none ∧ x.arbFused ≤ (fwConfirmed x).arbFused := by
  have hstand := standing_writeRec { standing x with active := x.bootSlot, pending := none, verified := none } x
  refine ⟨rfl, congrArg BootRec.active hstand, congrArg BootRec.pending hstand, congrArg BootRec.verified hstand, ?_⟩
  exact (writeRec_arbFused _ x).ge.trans (le_max_left ..)

/-- Settles O39: writes of DEBUG_CTRL, then the turn of firmware descriptors and the work of each. -/
theorem debugAndFirmware : Obligations.DebugAndFirmware := by
  refine fun s => ⟨fun w hb => ⟨fun y hy hl => ⟨_, debugEnable_writes hb, ?_⟩, fun hd => ⟨_, debugEnable_writes hb, ?_⟩⟩,
    fun w hb => ⟨_, debugDisable_writes hb, ?_⟩, fun w => ⟨debugEnable_other, debugDisable_other⟩, fun r n => ?_, fun r n c h he => ?_,
    fun r n c h he => ?_, fun r n c h he => ?_, fun r n c h he => ?_⟩
  · rw [debugCtrl_grants hb hy hl]
    exact ⟨rfl, rfl, rfl⟩
  · rw [debugCtrl_denies hb hd]
    exact ⟨rfl, rfl⟩
  · rw [debugCtrl_ends hb]
    exact ⟨rfl, rfl⟩
  · have turn {i : Instr} {op : Nat} {go : DescCtx → State} (hi : exec i s = inFwTurn r n op s go) :
        (descAt s r n op = none → exec i s = .next s)
          ∧ ∀ c, descAt s r n op = some c → earlierRuns s fwOps c = true → exec i s = .next s :=
      ⟨fun h => hi.trans (inFwTurn_none h), fun c h he => hi.trans (inFwTurn_waits h he)⟩
    simp only [List.forall_mem_cons]
    exact ⟨turn (fwChunk_eq r n s), turn (fwVerify_eq r n s), turn (fwActivate_eq r n s), turn (fwConfirm_eq r n s),
      fun _ hk => absurd hk List.not_mem_nil⟩
  · have hgo := (fwChunk_eq r n s).trans (inFwTurn_goes h he)
    refine ⟨fun x hf => ?_, fun hf => ?_, fun bs u => ⟨_, rfl, programChunk_programs r c bs u⟩, fun a hf hp hk ha => ?_⟩
    · rw [hgo, fwChunkDone, show fwChunkFault s c = some x from hf]
    · rw [hgo, fwChunkDone, show fwChunkFault s c = none from hf]
    · obtain ⟨hstate, hflash, -⟩ := programChunk_programs r c ((s.host.getBytes a (dW3 c.word).toNat).map fun b => (b, false)) s
      rw [plain_unmarked] at hflash
      exact ⟨_, hgo.trans (congrArg Host.Outcome.next (fwChunkDone_host hf hp hk ha)), hstate, hflash⟩
  · rw [fwVerify_eq, inFwTurn_goes h he]
    refine ⟨fun h3 => congrArg Host.Outcome.next (if_pos h3), fun h3 hshape => congrArg Host.Outcome.next ?_,
      fun h3 hshape => congrArg Host.Outcome.next ?_⟩
    · exact (if_neg (Nat.not_le.2 h3)).trans (if_pos hshape)
    · exact (if_neg (Nat.not_le.2 h3)).trans (if_neg (ne_false_of_eq_true hshape))
  · rw [fwActivate_eq, inFwTurn_goes h he]
    refine ⟨fun h3 => congrArg Host.Outcome.next (if_pos h3), fun h2 => ⟨_, rfl, fwActivateDone_pending h2⟩,
      fun h2 h3 => congrArg Host.Outcome.next ?_⟩
    exact (if_neg h3).trans (if_pos h2)
  · rw [fwConfirm_eq, inFwTurn_goes h he]
    refine ⟨fun h4 => ⟨_, congrArg Host.Outcome.next (if_neg (not_not.2 h4)), ?_⟩, fun h4 => congrArg Host.Outcome.next (if_pos h4)⟩
    rw [finishDesc_sec]
    exact fwConfirmed_active s.sec

end Sys2Proof.Machine
end

section
/-! PROOFS. The mailbox (R291) and provisioning objects (R292 to R294): the order of their checks, and what each operation stores. -/
namespace Sys2Proof.Machine
open Sys2Proof

/-! ### Whether the mailbox serves -/

section Mailbox
variable {s : State} {α : Type} {x y : α}

theorem mailbox_closed (h : doeServes s = false) : (if !doeServes s then x else y) = x := if_pos (by simp [h])

theorem mailbox_serves (h : doeServes s = true) : (if !doeServes s then x else y) = y := if_neg (by simp [h])

end Mailbox

/-! ### The ends of slots' sessions (R294, R299) -/

theorem endBinding_slots (r : Fin 256) (cause : Nat) (s : State) : (endBinding r cause s).sec.slots = s.sec.slots :=
  congrArg (fun x => x.2.2.2.1) (unreset_endBinding r cause s)

/-- Ending the sessions of slots leaves the slots' keys. -/
theorem endSlots_slots (p : Fin 8 → Bool) (s : State) : (endSlots p s).sec.slots = s.sec.slots :=
  forAll_leaves (fun t => t.sec.slots) _ _ s fun _ t => forAll_leaves (fun t => t.sec.slots) _ _ t fun r t => endBinding_slots r 3 t

theorem setKey_slots (i : Fin 8) (k : KeySlot) (o : ProvObject) (p : Fin 8 → Bool) (s : State) :
    (setKey i k o (endSlots p s)).sec.slots = s.sec.slots.set i k :=
  congrArg (fun v : Vector KeySlot 8 => v.set i k) (endSlots_slots p s)

/-! ### CLAIM (R294) -/

/-- The key that a CLAIM brings. -/
def claimKey (o : ProvObject) : Option (List Byte) :=
  Config.aesUnwrap (hkdf384 (Config.ecdhModule o.ephemeral) (ascii "VK2CLAIM") 32) o.wrapped

/-- A CLAIM whose checks have passed. -/
def claimed (o : ProvObject) (s : State) : State :=
  match claimKey o with
  | none => doeAnswer [4] s
  | some k => doeAnswer [0] ((setKey 0 ⟨true, fit 32 k, 0x1F⟩ o s).setSec { (setKey 0 ⟨true, fit 32 k, 0x1F⟩ o s).sec with owned := true })

section Claim
variable {s : State} {o : ProvObject} (hd : doeServes s = true)
include hd

theorem claimKeys_eq : exec (.claimKeys o) s =
    if o.op ≠ 1 ∨ 7 < o.slot.toNat ∨ 7 < o.authSlot.toNat ∨ allZero o.auth = false then .next (doeAnswer [4] s)
    else if s.sec.owned = true then .next (doeAnswer [3] s)
    else if o.counter ≤ s.sec.counter then .next (doeAnswer [2] s)
    else .next (claimed o s) := by
  refine (mailbox_serves hd).trans ?_
  simp only [Bool.or_eq_true, decide_eq_true_eq, Bool.not_eq_true', or_assoc]
  unfold claimed claimKey
  cases Config.aesUnwrap (hkdf384 (Config.ecdhModule o.ephemeral) (ascii "VK2CLAIM") 32) o.wrapped <;> rfl

theorem claimKeys_malformed (h : o.op ≠ 1 ∨ 7 < o.slot.toNat ∨ 7 < o.authSlot.toNat ∨ allZero o.auth = false) :
    exec (.claimKeys o) s = .next (doeAnswer [4] s) := (claimKeys_eq hd).trans (if_pos h)

variable (h1 : o.op = 1) (hs : o.slot.toNat ≤ 7) (ha : o.authSlot.toNat ≤ 7) (hz : allZero o.auth = true)
include h1 hs ha hz

theorem claimKeys_wellFormed : exec (.claimKeys o) s =
    if s.sec.owned = true then .next (doeAnswer [3] s)
    else if o.counter ≤ s.sec.counter then .next (doeAnswer [2] s)
    else .next (claimed o s) := by
  refine (claimKeys_eq hd).trans (if_neg ?_)
  rintro (h | h | h | h)
  · exact h h1
  · exact Nat.not_lt.2 hs h
  · exact Nat.not_lt.2 ha h
  · exact ne_false_of_eq_true hz h

end Claim

/-! ### The other operations (R293, R294) -/

/-- An operation other than CLAIM: a fault of the object is answered, and otherwise the object is taken. -/
def provAnswer (s : State) (status : Byte) (taken : State) : Res :=
  if !doeServes s then .next s else if status ≠ 0 then .next (doeAnswer [status] s) else .next taken

section Provision
variable {s taken : State} {status : Byte} (hd : doeServes s = true)
include hd

theorem provAnswer_refused (h : status ≠ 0) : provAnswer s status taken = .next (doeAnswer [status] s) :=
  (mailbox_serves hd).trans (if_pos h)

theorem provAnswer_taken (h : status = 0) : provAnswer s status taken = .next taken :=
  (mailbox_serves hd).trans (if_neg (not_not.2 h))

end Provision

/-- The key that a SET_SLOT brings. -/
def wrappedKey (o : ProvObject) (s : State) : Option (List Byte) :=
  Config.aesUnwrap (hkdf384 (authKey s o).key (ascii "VK2WRAP" ++ leBytes o.counter.toNat 4) 32) o.wrapped

/-- The slot that an object names put to a key, its sessions ended. -/
def slotPut (k : KeySlot) (o : ProvObject) (s : State) : State :=
  doeAnswer [0] (setKey (ix 8 o.slot.toNat) k o (endSlots (fun x => x = ix 8 o.slot.toNat) s))

theorem slotPut_sec (k : KeySlot) (o : ProvObject) (s : State) : (slotPut k o s).out.doe = [0] ∧ (slotPut k o s).sec.counter = o.counter
    ∧ (slotPut k o s).sec.slots = s.sec.slots.set (ix 8 o.slot.toNat) k := ⟨rfl, rfl, setKey_slots ..⟩

/-- A SET_SLOT that is taken. -/
def slotSet (o : ProvObject) (s : State) : State :=
  match wrappedKey o s with
  | none => doeAnswer [4] s
  | some k => slotPut ⟨true, fit 32 k, bits o.rights 0 5⟩ o s

/-- Whether an owner's key would be left without the slot that an object names. -/
def ownerLeft (o : ProvObject) (s : State) : Bool :=
  (List.finRange 8).any fun k => k ≠ ix 8 o.slot.toNat && s.sec.slots[k].valid && s.sec.slots[k].rights.getLsbD 4

theorem ownerLeft_iff (o : ProvObject) (s : State) : ownerLeft o s = true ↔
    ∃ k : Fin 8, k ≠ ix 8 o.slot.toNat ∧ s.sec.slots[k].valid = true ∧ s.sec.slots[k].rights.getLsbD 4 = true := by
  simp only [ownerLeft, List.any_eq_true, List.mem_finRange, true_and, Bool.and_eq_true, decide_eq_true_eq, and_assoc]

/-- A CLEAR_SLOT that is taken. -/
def slotCleared (o : ProvObject) (s : State) : State := if ownerLeft o s then slotPut ⟨false, [], 0⟩ o s else doeAnswer [3] s

/-- A RELEASE that is taken. -/
def released (o : ProvObject) (s : State) : State :=
  doeAnswer [0] ((endSlots (fun _ => true) s).setSec { (endSlots (fun _ => true) s).sec with
    slots := Vector.replicate 8 ⟨false, [], 0⟩, debugLock := false, owned := false, counter := o.counter })

theorem setSlot_eq (o : ProvObject) (s : State) : exec (.setSlot o) s = provAnswer s (provStatus s o 2 true) (slotSet o s) := by
  show execSetSlot o s = _
  unfold execSetSlot provAnswer slotSet wrappedKey
  cases Config.aesUnwrap (hkdf384 (authKey s o).key (ascii "VK2WRAP" ++ leBytes o.counter.toNat 4) 32) o.wrapped <;> rfl

theorem clearSlot_eq (o : ProvObject) (s : State) :
    exec (.clearSlot o) s = provAnswer s (provStatus s o 3 (allZero o.wrapped)) (slotCleared o s) := by
  have hleft : (if !ownerLeft o s then Host.Outcome.next (doeAnswer [3] s) else .next (slotPut ⟨false, [], 0⟩ o s))
      = (.next (slotCleared o s) : Res) := by
    unfold slotCleared
    cases ownerLeft o s <;> rfl
  rw [provAnswer, ← hleft]
  rfl

theorem setPolicy_eq (o : ProvObject) (s : State) : exec (.setPolicy o) s = provAnswer s (provStatus s o 4 (allZero o.wrapped))
    (doeAnswer [0] (s.setSec { s.sec with debugLock := o.policy.getLsbD 0, counter := o.counter })) := rfl

theorem releaseKeys_eq (o : ProvObject) (s : State) :
    exec (.releaseKeys o) s = provAnswer s (provStatus s o 5 (allZero o.wrapped)) (released o s) := rfl

/-- Settles O40: an object that is not served, CLAIM in the order of its checks, then the other operations by their status. -/
theorem provisioningObjects : Obligations.ProvisioningObjects := by
  refine ⟨fun s o h => ?_, fun s o hd => ⟨claimKeys_malformed hd, fun h1 hs ha hz => ?_, fun st hst => ?_, fun h => ?_, fun h => ?_,
    fun h => ?_, fun h => ?_⟩⟩
  · simp only [List.forall_mem_cons]
    exact ⟨mailbox_closed h, mailbox_closed h, mailbox_closed h, mailbox_closed h, mailbox_closed h,
      fun _ hi => absurd hi List.not_mem_nil⟩
  · rw [claimKeys_wellFormed hd h1 hs ha hz]
    refine ⟨fun ho => if_pos ho, fun ho hc => (if_neg (by simp [ho])).trans (if_pos hc),
      fun ho hc => ⟨_, (if_neg (by simp [ho])).trans (if_neg (BitVec.not_le.2 hc)), ?_⟩⟩
    unfold claimed claimKey
    cases Config.aesUnwrap (hkdf384 (Config.ecdhModule o.ephemeral) (ascii "VK2CLAIM") 32) o.wrapped with
    | none => rfl
    | some k => exact ⟨rfl, rfl, rfl, rfl⟩
  · rw [setSlot_eq, clearSlot_eq, setPolicy_eq, releaseKeys_eq]
    exact ⟨fun h => h ▸ provAnswer_refused hd (h ▸ hst), fun h => h ▸ provAnswer_refused hd (h ▸ hst),
      fun h => h ▸ provAnswer_refused hd (h ▸ hst), fun h => h ▸ provAnswer_refused hd (h ▸ hst)⟩
  · refine ⟨_, (setSlot_eq o s).trans (provAnswer_taken hd h), ?_⟩
    unfold slotSet wrappedKey
    cases Config.aesUnwrap (hkdf384 (authKey s o).key (ascii "VK2WRAP" ++ leBytes o.counter.toNat 4) 32) o.wrapped with
    | none => rfl
    | some k => exact slotPut_sec ..
  · rw [clearSlot_eq, provAnswer_taken hd h, slotCleared]
    refine ⟨fun hleft => ⟨_, rfl, ?_⟩, fun hnone => ?_⟩
    · rw [if_pos ((ownerLeft_iff o s).2 hleft)]
      obtain ⟨hdoe, hcounter, hslots⟩ := slotPut_sec ⟨false, [], 0⟩ o s
      exact ⟨hdoe, hslots, hcounter⟩
    · refine congrArg Host.Outcome.next (if_neg fun hleft => ?_)
      obtain ⟨k, hk, hvalid, howner⟩ := (ownerLeft_iff o s).1 hleft
      exact ne_false_of_eq_true howner (hnone k hk hvalid)
  · exact (setPolicy_eq o s).trans (provAnswer_taken hd h)
  · exact ⟨_, (releaseKeys_eq o s).trans (provAnswer_taken hd h), rfl, rfl, rfl, rfl, rfl⟩

end Sys2Proof.Machine
end

section
/-! PROOFS. SPDM requests in their order (R290, R291). -/
namespace Sys2Proof.Machine
open Sys2Proof

/-! ### Requests in their order (R291) -/

/-- A request whose predecessor has not been answered is answered with error 4. -/
def spdmInOrder (s : State) (ready : Bool) (answer : State) : Res :=
  if !doeServes s then .next s else if !ready then .next (spdmError 4 0 s) else .next answer

section Order
variable {s answer : State} {ready : Bool} (hd : doeServes s = true)
include hd

theorem spdmInOrder_early (h : ready = false) : spdmInOrder s ready answer = .next (spdmError 4 0 s) :=
  (mailbox_serves hd).trans (if_pos (by simp [h]))

theorem spdmInOrder_ready (h : ready = true) : spdmInOrder s ready answer = .next answer :=
  (mailbox_serves hd).trans (if_neg (by simp [h]))

end Order

/-- The answer of GET_CAPABILITIES. -/
def capabilities (s : State) : State :=
  spdmAnswer (spdmMsg 0xE1 0 0 []) (spdmMsg 0x61 0 0 ([0, 0, 0, 0] ++ leBytes 0x16 4)) (s.setSec { s.sec with spdmCaps := true })

theorem getCapabilities_eq (s : State) : exec .getCapabilities s = spdmInOrder s s.sec.spdmVersion (capabilities s) := rfl

/-- The answer of NEGOTIATE_ALGORITHMS: ECDSA P-384 and SHA-384, where both are offered. -/
def algorithms (asym hash : Word) (s : State) : State :=
  if asym.getLsbD 7 = false ∨ hash.getLsbD 1 = false then spdmError 1 0 s
  else spdmAnswer (spdmMsg 0xE3 0 0 (leBytes asym.toNat 4 ++ leBytes hash.toNat 4)) (spdmMsg 0x63 0 0 (leBytes 0x80 4 ++ leBytes 0x02 4))
    (s.setSec { s.sec with spdmAlgs := true })

theorem negotiateAlgorithms_eq (asym hash : Word) (s : State) :
    exec (.negotiateAlgorithms asym hash) s = spdmInOrder s s.sec.spdmCaps (algorithms asym hash s) := by
  show execNegotiateAlgorithms asym hash s = _
  simp only [execNegotiateAlgorithms, spdmInOrder, algorithms, Bool.or_eq_true, Bool.not_eq_true', apply_ite Host.Outcome.next]

/-- The bits of the slots that have a chain. -/
def slotMask (x : Security) : Nat := (spdmSlots x).foldl (fun a i => a + 2 ^ i) 0

theorem slotMask_eq (x : Security) : slotMask x = if x.standbyCert then 0x0F else 0x07 := by
  unfold slotMask spdmSlots
  cases x.standbyCert <;> rfl

/-- The answer of GET_DIGESTS. -/
def digests (s : State) : State :=
  spdmAnswer (spdmMsg 0x81 0 0 []) (spdmMsg 0x01 0 (slotMask s.sec) ((spdmSlots s.sec).flatMap fun i => sha384 (certChain i))) s

theorem getDigests_eq (s : State) : exec .getDigests s = spdmInOrder s s.sec.spdmAlgs (digests s) := rfl

/-- The answer of GET_CERTIFICATE: a portion of the slot's chain. -/
def certificatePart (slot : Fin 8) (off len : Half) (s : State) : State :=
  if (spdmSlots s.sec).contains slot.val = false ∨ (certChain slot.val).length < off.toNat then spdmError 1 0 s
  else
    let part := ((certChain slot.val).drop off.toNat).take len.toNat
    spdmAnswer (spdmMsg 0x82 slot.val 0 (leBytes off.toNat 2 ++ leBytes len.toNat 2))
      (spdmMsg 0x02 slot.val 0 (leBytes part.length 2 ++ leBytes ((certChain slot.val).length - off.toNat - part.length) 2 ++ part)) s

theorem getCertificate_eq (slot : Fin 8) (off len : Half) (s : State) :
    exec (.getCertificate slot off len) s = spdmInOrder s s.sec.spdmAlgs (certificatePart slot off len s) := by
  show execGetCertificate slot off len s = _
  simp only [execGetCertificate, spdmInOrder, certificatePart, Bool.or_eq_true, Bool.not_eq_true', decide_eq_true_eq,
    apply_ite Host.Outcome.next]

/-- The answer of CHALLENGE, signed. -/
def challenged (slot : Fin 8) (nonce : List Byte) (s : State) : State :=
  if (spdmSlots s.sec).contains slot.val = false then spdmError 1 0 s
  else signedAnswer slot.val (spdmMsg 0x83 slot.val 0 nonce) (spdmMsg 0x03 slot.val (2 ^ slot.val) (sha384 (certChain slot.val))) [0, 0] s

theorem spdmChallenge_eq (slot : Fin 8) (nonce : List Byte) (s : State) :
    exec (.spdmChallenge slot nonce) s = spdmInOrder s s.sec.spdmAlgs (challenged slot nonce s) := by
  show execSpdmChallenge slot nonce s = _
  simp only [execSpdmChallenge, spdmInOrder, challenged, Bool.not_eq_true', apply_ite Host.Outcome.next]

/-! ### GET_MEASUREMENTS (R291) -/

/-- The measurement blocks that an operation asks for. -/
def measured (op : Byte) : List Nat := if op = 0 then [] else if op = 0xFF then [1, 2, 3] else [op.toNat]

/-- The head of an answer with measurements: their count where none is asked for, the blocks otherwise. -/
def measHead (op : Byte) (x : Security) : List Byte :=
  let b := (measured op).flatMap (measBlock x)
  spdmMsg 0x60 (if op = 0 then 3 else 0) 0 ([BitVec.ofNat 8 (measured op).length] ++ leBytes b.length 3 ++ b)

theorem measHead_count (x : Security) : measHead 0 x = [0x12, 0x60, 3, 0, 0, 0, 0, 0] := by
  simp [measHead, measured, spdmMsg, leBytes]

/-- The answer of GET_MEASUREMENTS without a signature, with a fresh nonce. -/
def measUnsigned (op : Byte) (nonce : List Byte) (s : State) : State :=
  spdmAnswer (spdmMsg 0xE0 0 op.toNat nonce) (measHead op s.sec ++ leBytes (Config.freeWord s.free).toNat 32 ++ [0, 0]) s.fresh.2

/-- The answer of GET_MEASUREMENTS. -/
def measurements (op : Byte) (sign : Bool) (nonce : List Byte) (s : State) : State :=
  if 3 < op.toNat ∧ op ≠ 0xFF then spdmError 1 0 s
  else if sign then signedAnswer 0 (spdmMsg 0xE0 1 op.toNat nonce) (measHead op s.sec) [0, 0] s
  else measUnsigned op nonce s

theorem getMeasurements_eq (op : Byte) (sign : Bool) (nonce : List Byte) (s : State) :
    exec (.getMeasurements op sign nonce) s = spdmInOrder s s.sec.spdmAlgs (measurements op sign nonce s) := by
  show execGetMeasurements op sign nonce s = _
  simp only [execGetMeasurements, spdmInOrder, measurements, Bool.and_eq_true, decide_eq_true_eq, apply_ite Host.Outcome.next]
  cases sign <;> rfl

theorem measurements_known {op : Byte} (h : op.toNat ≤ 3 ∨ op = 0xFF) (sign : Bool) (nonce : List Byte) (s : State) :
    measurements op sign nonce s =
      if sign then signedAnswer 0 (spdmMsg 0xE0 1 op.toNat nonce) (measHead op s.sec) [0, 0] s else measUnsigned op nonce s :=
  if_neg fun hc => h.elim (Nat.not_le.2 hc.1) hc.2

theorem measUnsigned_answers (op : Byte) (nonce : List Byte) (s : State) :
    (let t := measUnsigned op nonce s
    t.sec.transcript = s.sec.transcript ++ spdmMsg 0xE0 0 op.toNat nonce ++ t.out.doe
      ∧ t.out.doe = measHead op s.sec ++ leBytes (Config.freeWord s.free).toNat 32 ++ [0, 0] ∧ t.free = s.free + 1) := ⟨rfl, rfl, rfl⟩

theorem unsupported_answers {s : State} (hd : doeServes s = true) (code : Byte) :
    exec (.spdmUnsupportedRequest code) s = .next (s.setOut { s.out with doe := [0x12, 0x7F, 0x07, code] }) := by
  have herror : spdmError 7 code.toNat s = s.setOut { s.out with doe := [0x12, 0x7F, 0x07, code] } := by
    simp [spdmError, spdmMsg, doeAnswer]
  exact (mailbox_serves hd).trans (congrArg Host.Outcome.next herror)

/-- Settles O41: requests that are not served, then each request early and in its order. -/
theorem spdmAnswers : Obligations.SpdmAnswers := by
  refine ⟨fun s h slot off len asym hash op code sign nonce => ?_, fun s hd => ⟨⟨_, mailbox_serves hd, rfl, rfl, rfl, rfl, rfl⟩,
    spdmInOrder_early hd, fun hv => ⟨_, spdmInOrder_ready hd hv, rfl, rfl, rfl⟩, fun hc asym hash => ?_, fun hc asym hash => ?_,
    fun ha => ⟨?_, fun slot off len => ?_, fun slot nonce => ?_, fun op sign nonce => ?_⟩, fun ha => ⟨?_, fun slot off len => ?_,
      fun slot nonce hs => ?_, fun slot nonce hs => ?_, fun op sign nonce h3 hf => ?_, fun nonce => ?_, fun op nonce hop => ?_⟩,
    unsupported_answers hd⟩⟩
  · simp only [List.forall_mem_cons]
    exact ⟨mailbox_closed h, mailbox_closed h, mailbox_closed h, mailbox_closed h, mailbox_closed h, mailbox_closed h, mailbox_closed h,
      mailbox_closed h, fun _ hi => absurd hi List.not_mem_nil⟩
  · exact (negotiateAlgorithms_eq asym hash s).trans (spdmInOrder_early hd hc)
  · rw [negotiateAlgorithms_eq, spdmInOrder_ready hd hc, algorithms]
    refine ⟨fun h7 h1 => ⟨_, rfl, ?_⟩, fun h => congrArg Host.Outcome.next (if_pos h)⟩
    rw [if_neg (by simp [h7, h1])]
    exact ⟨rfl, rfl⟩
  · exact (getDigests_eq s).trans (spdmInOrder_early hd ha)
  · exact (getCertificate_eq slot off len s).trans (spdmInOrder_early hd ha)
  · exact (spdmChallenge_eq slot nonce s).trans (spdmInOrder_early hd ha)
  · exact (getMeasurements_eq op sign nonce s).trans (spdmInOrder_early hd ha)
  · refine ⟨_, (getDigests_eq s).trans (spdmInOrder_ready hd ha), ?_⟩
    show spdmMsg 0x01 0 (slotMask s.sec) _ = _
    rw [slotMask_eq, spdmSlots]
    cases s.sec.standbyCert <;> rfl
  · exact (getCertificate_eq slot off len s).trans (spdmInOrder_ready hd ha)
  · rw [spdmChallenge_eq, spdmInOrder_ready hd ha]
    exact congrArg Host.Outcome.next (if_neg (ne_false_of_eq_true hs))
  · rw [spdmChallenge_eq, spdmInOrder_ready hd ha]
    exact congrArg Host.Outcome.next (if_pos hs)
  · rw [getMeasurements_eq, spdmInOrder_ready hd ha]
    exact congrArg Host.Outcome.next (if_pos ⟨h3, hf⟩)
  · rw [getMeasurements_eq, spdmInOrder_ready hd ha, measurements_known (op := 0) (.inl (by decide))]
    exact ⟨_, rfl, congrArg (· ++ leBytes (Config.freeWord s.free).toNat 32 ++ [0, 0]) (measHead_count s.sec)⟩
  · rw [getMeasurements_eq, getMeasurements_eq, spdmInOrder_ready hd ha, spdmInOrder_ready hd ha, measurements_known hop,
      measurements_known hop]
    exact ⟨rfl, _, rfl, measUnsigned_answers op nonce s⟩

end Sys2Proof.Machine
end

section
/-! PROOFS. What a received frame does by its SEQ and its content (R311 to R313, R336), and what each message does (R317, R320). -/
namespace Sys2Proof.Machine
open Sys2Proof

/-! ### Ports and the SEQ they expect (R313, R324) -/

theorem Port.expects_haggling {p : Port} (h : p.haggling = true) : p.expects = p.hgRx := if_pos h

theorem Port.expects_not_haggling {p : Port} (h : p.haggling = false) : p.expects = p.rxNext := if_neg (ne_true_of_eq_false h)

theorem Port.haggling_eq_false_of_up {p : Port} (h : p.state = 3) : p.haggling = false := by simp [Port.haggling, h]

/-- R313: a frame is accepted exactly under the SEQ that is expected. -/
theorem seqAct_accept_iff (e q : BitVec 12) : seqAct e q = .accept ↔ q = e := by
  have hzero : (q - e).toNat = 0 ↔ q = e := by bv_omega
  unfold seqAct
  dsimp only
  split
  · next h => simpa using hzero.1 h
  · next h =>
    refine ⟨fun hacc => ?_, fun he => absurd (hzero.2 he) h⟩
    repeat' split at hacc
    all_goals exact absurd hacc (by decide)

/-! ### Sequenced frames (R313, R336) -/

section Sequenced
variable {pt : Fin 16} {f : Frame} {eff : State → State} {s : State}

theorem recvSequenced_lost (h : seqAct (s.port pt).expects f.seq = .lost) :
    recvSequenced pt f eff s = answered pt s (linkFields pt f (s.setPort pt { s.port pt with nak := true })) := by
  simp only [recvSequenced, h]

theorem recvSequenced_duplicate (h : seqAct (s.port pt).expects f.seq = .duplicate) :
    recvSequenced pt f eff s = answered pt s (linkFields pt f s) := by simp only [recvSequenced, h]

theorem recvSequenced_outside (h : seqAct (s.port pt).expects f.seq = .outside) :
    recvSequenced pt f eff s = answered pt s (violation pt 2 true f (heard pt s)) := by simp only [recvSequenced, h]

theorem recvSequenced_accepts (h : seqAct (s.port pt).expects f.seq = .accept) (hf : frameFault (s.port pt) f = none) :
    recvSequenced pt f eff s = answered pt s (eff (linkFields pt f (s.setPort pt (s.port pt).accepted))) := by
  simp only [recvSequenced, h, hf]

theorem recvSequenced_refuses {code : Nat} (h : seqAct (s.port pt).expects f.seq = .accept) (hf : frameFault (s.port pt) f = some code) :
    recvSequenced pt f eff s = answered pt s (violation pt code true f (heard pt
      (if f.typ = 1 ∧ f.vc.toNat < 4 then freeBuffer pt (poolOf f) (s.setPort pt (s.port pt).accepted)
        else s.setPort pt (s.port pt).accepted))) := by
  simp only [recvSequenced, h, hf, Bool.and_eq_true, decide_eq_true_eq]

end Sequenced

end Sys2Proof.Machine
end

section
/-! PROOFS. Messages (R317, R320, R336, R343): received at an UP port, they take effect here or are held for the router. -/
namespace Sys2Proof.Machine
open Sys2Proof

/-! ### The rows of messages -/

/-- A row that stands for a message, with the VC and the OP it names. -/
def MessageRow (pt : Fin 16) (f : Frame) (m : Nat × Nat × Instr) : Prop :=
  m ∈ [(0, 0x01, Instr.writeMsg pt f), (0, 0x02, .readMsg pt f), (1, 0x11, .writeDone pt f), (1, 0x12, .readData pt f),
    (1, 0x13, .rejectMsg pt f), (3, 0x30, .restartNotice pt f), (3, 0x31, .sweepReq pt f), (3, 0x32, .sweepResult pt f),
    (2, 0x20, .stepOpen pt f), (2, 0x21, .rsData pt f), (2, 0x22, .agData pt f), (2, 0x23, .bcData pt f),
    (2, 0x24, .pipeReady pt f), (2, 0x25, .pipeData pt f), (2, 0x26, .arriveMsg pt f), (2, 0x27, .normPart pt f),
    (3, 0x38, .timeSync pt f)]

/-- What a row's message does when it is for this module: TIME_SYNC sets the time base, every other what its VC and OP say. -/
def rowEffect (pt : Fin 16) (f : Frame) (op : Nat) : State → State × Bool :=
  if op = 0x38 then fun t => (onSync pt f t, true) else effectOf pt f

theorem MessageRow.exec_eq (pt : Fin 16) (f : Frame) (s : State) :
    ∀ m, MessageRow pt f m → exec m.2.2 s = .next (recvMsg pt f m.1 m.2.1 (rowEffect pt f m.2.1) s) := by
  simp only [MessageRow, List.forall_mem_cons]
  exact ⟨rfl, rfl, rfl, rfl, rfl, rfl, rfl, rfl, rfl, rfl, rfl, rfl, rfl, rfl, rfl, rfl, rfl, fun _ h => absurd h List.not_mem_nil⟩

/-- Only a RESTART_NOTICE has OP 0x30, and its VC is 3. -/
theorem MessageRow.notice (pt : Fin 16) (f : Frame) : ∀ m, MessageRow pt f m → m.2.1 = 0x30 → m.1 = 3 := by
  simp [MessageRow]

/-! ### Reception (R315, R317, R336) -/

section Receive
variable {pt : Fin 16} {f : Frame} {vc op : Nat} {eff : State → State × Bool} {s : State}

theorem recvMsg_ignores (h : (s.port pt).receives = false ∨ (s.port pt).state ≠ 3 ∨ f.typ ≠ 1
    ∨ (¬ (f.vc.toNat = vc ∧ f.op.toNat = op) ∧ frameFault (s.port pt) f = none)) : recvMsg pt f vc op eff s = s := by
  refine if_pos ?_
  simp only [Bool.or_eq_true, Bool.not_eq_true', decide_eq_true_eq, Bool.or_eq_false_iff, Bool.and_eq_false_iff, decide_eq_false_iff_not,
    Option.isSome_eq_false_iff, Option.isNone_iff_eq_none]
  tauto

theorem recvMsg_receives (hr : (s.port pt).receives = true) (hs : (s.port pt).state = 3) (ht : f.typ = 1)
    (h : (f.vc.toNat = vc ∧ f.op.toNat = op) ∨ frameFault (s.port pt) f ≠ none) :
    recvMsg pt f vc op eff s = recvSequenced pt f (acceptMsg pt f eff) s := by
  refine if_neg ?_
  obtain ⟨hv, ho⟩ | hf := h
  · simp [hr, hs, ht, hv, ho]
  · simp [hr, hs, ht, Option.isSome_iff_ne_none.2 hf]

theorem acceptMsg_full (h : (s.port pt).pools[poolOf f].granted ≤ (s.port pt).pools[poolOf f].held.length + waitingIn s pt (poolOf f)) :
    acceptMsg pt f eff s = violation pt 3 true f s := if_pos h

variable (hg : (s.port pt).pools[poolOf f].held.length + waitingIn s pt (poolOf f) < (s.port pt).pools[poolOf f].granted)
include hg

theorem acceptMsg_here (h : f.dest = s.mach.logical ∨ (f.vc = 3 ∧ f.op = 0x30)) :
    acceptMsg pt f eff s = if (eff s).2 then freeBuffer pt (poolOf f) (eff s).1 else (eff s).1 :=
  (if_neg (Nat.not_le.2 hg)).trans (if_pos (by simpa using h))

theorem acceptMsg_holds (h : f.dest ≠ s.mach.logical) (hn : ¬ (f.vc = 3 ∧ f.op = 0x30)) :
    acceptMsg pt f eff s = s.setPort pt { s.port pt with
      pools := (s.port pt).pools.set (poolOf f)
        { (s.port pt).pools[poolOf f] with held := (s.port pt).pools[poolOf f].held ++ [⟨f, none, false⟩] } } :=
  (if_neg (Nat.not_le.2 hg)).trans (if_neg (by simpa [h] using hn))

end Receive

/-! ### What each message does (R320, R344) -/

section Effect
variable (pt : Fin 16) {f : Frame} (s : State)

theorem effectOf_request (h : f.vc = 0) : effectOf pt f s = (if f.op = 0x01 then onWrite f s else onRead f s, true) := by
  simp [effectOf, h]

theorem effectOf_response (h : f.vc = 1) : effectOf pt f s = (if f.op = 0x11 then onWriteDone f (noteEpoch f s)
    else if f.op = 0x12 then onReadData f (noteEpoch f s) else onReject f (noteEpoch f s), true) := by simp [effectOf, h]

theorem effectOf_collective (h : f.vc = 2) :
    effectOf pt f s = if staleEpoch s f then (refuseStale f s, true) else collArrive pt f s := if_pos h

theorem effectOf_control (h : f.vc = 3) : effectOf pt f s = (if f.op = 0x30 then onNotice (some pt) f s
    else if f.op = 0x31 then onSweepReq f s else if f.op = 0x32 then onSweepResult f s else s, true) := by simp [effectOf, h]

end Effect

/-! ### The statement -/

theorem effectOf_cases (s : State) (pt : Fin 16) (f : Frame) :
    (f.vc = 0 → f.op = 0x01 → effectOf pt f s = (onWrite f s, true)) ∧ (f.vc = 0 → f.op ≠ 0x01 → effectOf pt f s = (onRead f s, true))
    ∧ (f.vc = 1 → f.op = 0x11 → effectOf pt f s = (onWriteDone f (noteEpoch f s), true))
    ∧ (f.vc = 1 → f.op = 0x12 → effectOf pt f s = (onReadData f (noteEpoch f s), true))
    ∧ (f.vc = 1 → f.op = 0x13 → effectOf pt f s = (onReject f (noteEpoch f s), true))
    ∧ (f.vc = 2 → staleEpoch s f = true → effectOf pt f s = (refuseStale f s, true))
    ∧ (f.vc = 2 → staleEpoch s f = false → effectOf pt f s = collArrive pt f s)
    ∧ (f.vc = 3 → f.op = 0x30 → effectOf pt f s = (onNotice (some pt) f s, true))
    ∧ (f.vc = 3 → f.op = 0x31 → effectOf pt f s = (onSweepReq f s, true))
    ∧ (f.vc = 3 → f.op = 0x32 → effectOf pt f s = (onSweepResult f s, true)) := by
  refine ⟨fun hv ho => ?_, fun hv ho => ?_, fun hv ho => ?_, fun hv ho => ?_, fun hv ho => ?_,
    fun hv hs => (effectOf_collective pt s hv).trans (if_pos hs),
    fun hv hs => (effectOf_collective pt s hv).trans (if_neg (ne_true_of_eq_false hs)), fun hv ho => ?_, fun hv ho => ?_, fun hv ho => ?_⟩
  · rw [effectOf_request pt s hv, if_pos ho]
  · rw [effectOf_request pt s hv, if_neg ho]
  iterate 3 · rw [effectOf_response pt s hv, ho]; rfl
  iterate 3 · rw [effectOf_control pt s hv, ho]; rfl

/-- Settles O46: a message comes in by its SEQ and its content, and then by its pool and its destination. -/
theorem messagesTakeEffectHere : Obligations.MessagesTakeEffectHere := by
  refine ⟨fun s pt f m hm => ?_, effectOf_cases⟩
  have hnotice := MessageRow.notice pt f m hm
  rw [MessageRow.exec_eq pt f s m hm]
  refine ⟨fun h => congrArg _ (recvMsg_ignores h), fun hr hs ht => ?_⟩
  have hexp : (s.port pt).expects = (s.port pt).rxNext := Port.expects_not_haggling (Port.haggling_eq_false_of_up hs)
  refine ⟨fun h hq => ?_, fun h hq => ?_, fun h hq => ?_, fun code hf hq => ?_, fun hn hf hq => ?_⟩
  · rw [recvMsg_receives hr hs ht h, recvSequenced_lost (hexp ▸ hq)]
  · rw [recvMsg_receives hr hs ht h, recvSequenced_duplicate (hexp ▸ hq)]
  · rw [recvMsg_receives hr hs ht h, recvSequenced_outside (hexp ▸ hq)]
  · rw [recvMsg_receives hr hs ht (.inr (by simp [hf])), recvSequenced_refuses ((seqAct_accept_iff _ _).2 (hq.trans hexp.symm)) hf]
    simp only [ht, true_and]
  · rw [recvMsg_receives hr hs ht (.inl hn), recvSequenced_accepts ((seqAct_accept_iff _ _).2 (hq.trans hexp.symm)) hf]
    refine ⟨fun hfull => by rw [acceptMsg_full hfull], fun hg => ⟨fun hhere => ?_, fun hd h30 => ?_⟩⟩
    · have hwhere : f.dest = (linkFields pt f (s.setPort pt (s.port pt).accepted)).mach.logical ∨ (f.vc = 3 ∧ f.op = 0x30) :=
        hhere.imp_right fun h => ⟨BitVec.eq_of_toNat_eq (hn.1.trans (hnotice h)), BitVec.eq_of_toNat_eq (hn.2.trans h)⟩
      rw [acceptMsg_here hg hwhere]
      exact ⟨fun h => by rw [rowEffect, if_neg h], fun h => by rw [rowEffect, if_pos h]⟩
    · rw [acceptMsg_holds hg hd fun h => h30 (hn.2.symm.trans (congrArg BitVec.toNat h.2))]

end Sys2Proof.Machine
end

section
/-! PROOFS. The router (R318, R322, R323, R334, R475): what becomes of the frame at the head of a queue. -/
namespace Sys2Proof.Machine
open Sys2Proof

/-! ### What a pop and a frame sent leave of the machine -/

theorem popQueue_logical (fr : Fin 17) (q : Fin 16) (s : State) : (popQueue fr q s).mach.logical = s.mach.logical := by
  simp only [popQueue, setPool]
  split <;> rfl

/-- A MESSAGE frame goes out under the next SEQ, with its route, its source and its operation as they are. -/
theorem emitMessage_sends (pt : Fin 16) (f : Frame) (s : State) :
    ∃ g, ((emitMessage pt f s).port pt).sent = (s.port pt).sent ++ [g] ∧ g.hops = f.hops ∧ g.cls = f.cls ∧ g.dest = f.dest
      ∧ g.src = f.src ∧ g.op = f.op ∧ ((emitMessage pt f s).port pt).txSeq = (s.port pt).txSeq + 1 :=
  ⟨(s.port pt).dress { f with typ := 1, seq := (s.port pt).txSeq }, by simp [emitMessage], rfl, rfl, rfl, rfl, rfl, by simp [emitMessage]⟩

/-- A frame as it goes out: one hop more, in the class of its way, a TIME_SYNC with its time. -/
def onward (s : State) (f : Frame) (c : BitVec 2) : Frame := { stampSync s f with cls := c, hops := f.hops + 1 }

/-- A frame sent on keeps where it goes, where it comes from and what it asks. -/
theorem onward_header (s : State) (f : Frame) (c : BitVec 2) :
    (onward s f c).hops = f.hops + 1 ∧ (onward s f c).cls = c ∧ (onward s f c).dest = f.dest ∧ (onward s f c).src = f.src
      ∧ (onward s f c).op = f.op := by
  unfold onward stampSync
  split <;> exact ⟨rfl, rfl, rfl, rfl, rfl⟩

/-! ### A transaction's 200 ms run from its first frame (R323) -/

@[simp] theorem noteSent_port (f : Frame) (s : State) (p : Fin 16) : (noteSent f s).port p = s.port p := by
  unfold noteSent
  split <;> rfl

theorem noteSent_sent {f : Frame} {s : State} (hv : f.vc = 0) (hsrc : f.src = s.mach.logical) :
    ∀ y ∈ (noteSent f s).mach.txns, y.tag = f.tag → y.dest = f.dest → y.sent = true := by
  intro y hy htag hdest
  have hown : (decide (f.vc = 0) && decide (f.src = s.mach.logical)) = true := by rw [hv, hsrc]; simp
  unfold noteSent at hy
  rw [if_pos hown, State.setMach_mach] at hy
  obtain ⟨t, -, rfl⟩ := List.mem_map.1 hy
  split
  · rfl
  · next hnot =>
    rw [if_neg hnot] at htag hdest
    simpa [htag, hdest] using hnot

/-! ### FRAME_FORWARD and ROUTER_FRAME_URGENT -/

/-- The head's turn has come: its pool is the last one its output served, and it leaves the pool. -/
def turnTaken (fr : Fin 17) (q p : Fin 16) (s : State) : State := popQueue fr q (s.setPort p { s.port p with rrPool := q })

theorem turnTaken_logical (fr : Fin 17) (q p : Fin 16) (s : State) : (turnTaken fr q p s).mach.logical = s.mach.logical :=
  popQueue_logical ..

section Head
variable {s0 : State} {fr : Fin 17} {q : Fin 16} {x : QFrame} {l : List QFrame} (hq : poolQueue (noteHeads s0) fr q = x :: l)
include hq

theorem frameForward_here (h : x.frame.dest = (noteHeads s0).mach.logical) :
    exec (.frameForward fr q) s0 = .next (effectOf 0 x.frame (popQueue fr q (noteHeads s0))).1 := by
  show execFrameForward fr q s0 = _
  simp only [execFrameForward, hq, if_pos h]

section Routed
variable (hd : x.frame.dest ≠ (noteHeads s0).mach.logical)
include hd

theorem frameForward_waits (h : hopOf (noteHeads s0) x.frame = .wait) : exec (.frameForward fr q) s0 = .next (noteHeads s0) := by
  show execFrameForward fr q s0 = _
  simp only [execFrameForward, hq, if_neg hd, h]

theorem frameForward_drops {p : Fin 16} (h : hopOf (noteHeads s0) x.frame = .drop p) :
    exec (.frameForward fr q) s0 = .next (dropFrame x.frame p (popQueue fr q (noteHeads s0))) := by
  show execFrameForward fr q s0 = _
  simp only [execFrameForward, hq, if_neg hd, h]

variable {p : Fin 16} {c : BitVec 2} (h : hopOf (noteHeads s0) x.frame = .out p c)
include h

theorem frameForward_unserved (hs : served (noteHeads s0) p q x = false) : exec (.frameForward fr q) s0 = .next (noteHeads s0) := by
  show execFrameForward fr q s0 = _
  simp only [execFrameForward, hq, if_neg hd, h, hs, Bool.not_false, if_true]

variable (hs : served (noteHeads s0) p q x = true)
include hs

theorem frameForward_served : exec (.frameForward fr q) s0 =
    if 39 ≤ x.frame.hops.toNat then .next (dropFrame x.frame p (turnTaken fr q p (noteHeads s0)))
    else .next (noteSent x.frame (emitMessage p (onward (noteHeads s0) x.frame c) (turnTaken fr q p (noteHeads s0)))) := by
  show execFrameForward fr q s0 = _
  simp only [execFrameForward, hq, if_neg hd, h, hs, Bool.not_true, Bool.false_eq_true, if_false, turnTaken, State.modPort, onward]

/-- A frame that goes out on a port has one hop more, keeps its other fields, and starts its transaction's 200 ms. -/
theorem frameForward_sends (h39 : x.frame.hops.toNat < 39) :
    ∃ t g, exec (.frameForward fr q) s0 = .next t
      ∧ (t.port p).sent = ((turnTaken fr q p (noteHeads s0)).port p).sent ++ [g]
      ∧ g.hops = x.frame.hops + 1 ∧ g.cls = c ∧ g.dest = x.frame.dest ∧ g.src = x.frame.src ∧ g.op = x.frame.op
      ∧ (t.port p).txSeq = ((turnTaken fr q p (noteHeads s0)).port p).txSeq + 1
      ∧ (∀ y ∈ t.mach.txns, x.frame.vc = 0 → x.frame.src = (noteHeads s0).mach.logical → y.tag = x.frame.tag → y.dest = x.frame.dest
        → y.sent = true) := by
  obtain ⟨hhops, hcls, hdest, hsrc, hop⟩ := onward_header (noteHeads s0) x.frame c
  obtain ⟨g, hsent, h1, h2, h3, h4, h5, hseq⟩ := emitMessage_sends p (onward (noteHeads s0) x.frame c) (turnTaken fr q p (noteHeads s0))
  refine ⟨noteSent x.frame (emitMessage p (onward (noteHeads s0) x.frame c) (turnTaken fr q p (noteHeads s0))), g,
    (frameForward_served hq hd h hs).trans (if_neg (Nat.not_le.2 h39)), ?_, h1.trans hhops, h2.trans hcls, h3.trans hdest, h4.trans hsrc,
    h5.trans hop, ?_, fun y hy hv hfrom => ?_⟩
  · rw [noteSent_port, hsent]
  · rw [noteSent_port, hseq]
  · refine noteSent_sent hv ?_ y hy
    exact hfrom.trans (turnTaken_logical fr q p (noteHeads s0)).symm

end Routed

theorem routerFrameUrgent_waited {t : Nat} (h : x.since = some t) : exec (.routerFrameUrgent fr q) s0 =
    .next (if t + 1000 ≤ (noteHeads s0).ns then setPool fr q ({ x with urgent := true } :: l) (noteHeads s0) else noteHeads s0) := by
  show execRouterFrameUrgent fr q s0 = _
  simp only [execRouterFrameUrgent, hq, h]

theorem routerFrameUrgent_creditless (h : x.since = none) : exec (.routerFrameUrgent fr q) s0 = .next (noteHeads s0) := by
  show execRouterFrameUrgent fr q s0 = _
  simp only [execRouterFrameUrgent, hq, h]

end Head

theorem router_empty {s0 : State} {fr : Fin 17} {q : Fin 16} (h : poolQueue (noteHeads s0) fr q = []) :
    exec (.frameForward fr q) s0 = .next (noteHeads s0) ∧ exec (.routerFrameUrgent fr q) s0 = .next (noteHeads s0) := by
  constructor
  · show execFrameForward fr q s0 = _
    simp only [execFrameForward, h]
  · show execRouterFrameUrgent fr q s0 = _
    simp only [execRouterFrameUrgent, h]

/-! ### Dropped frames (R334) -/

theorem dropFrame_other {f : Frame} {p : Fin 16} {u : State} (h : f.src ≠ u.mach.logical) :
    dropFrame f p u = inject { rejectFrame u f 2 p.val with src := u.mach.logical } u := if_pos h

theorem dropFrame_own {f : Frame} {p : Fin 16} {u : State} (h : f.src = u.mach.logical) :
    dropFrame f p u = if f.vc = 1 then u else onReject { rejectFrame u f 2 p.val with src := u.mach.logical } u := if_neg (not_not_intro h)

/-- Settles O48: the head's destination, then its way, then its turn decide. -/
theorem theRouterForwards : Obligations.TheRouterForwards := by
  refine ⟨fun s0 fr q => router_empty, fun s0 fr q x l hq => ⟨frameForward_here hq, fun hd => ⟨frameForward_waits hq hd,
      fun p => frameForward_drops hq hd, fun p c => frameForward_unserved hq hd,
      fun p c hp hs => ⟨fun h39 => (frameForward_served hq hd hp hs).trans (if_pos h39), frameForward_sends hq hd hp hs⟩⟩,
      fun t ht h1 => (routerFrameUrgent_waited hq ht).trans (congrArg _ (if_pos h1)), ?_⟩,
    fun u f p => ⟨dropFrame_other, fun hsrc hvc => (dropFrame_own hsrc).trans (if_pos hvc),
      fun hsrc hvc => (dropFrame_own hsrc).trans (if_neg hvc)⟩⟩
  rintro (hnone | ⟨t, ht, h1⟩)
  · exact routerFrameUrgent_creditless hq hnone
  · exact (routerFrameUrgent_waited hq ht).trans (congrArg _ (if_neg (Nat.not_le.2 h1)))

end Sys2Proof.Machine
end

section
/-! PROOFS. Ports: what events leave of them, what frames sent change, and how a port goes down, haggles and retrains (R311, R314, R325,
R339, R351). -/
namespace Sys2Proof.Machine
open Sys2Proof

/-! ### Events leave every port and the clock alone -/

theorem EventOnly.port {s t : State} (h : EventOnly s t) (q : Fin 16) : t.port q = s.port q := by rw [h]; rfl
theorem EventOnly.ns {s t : State} (h : EventOnly s t) : t.ns = s.ns := by rw [h]
theorem EventOnly.mach {s t : State} (h : EventOnly s t) : t.mach = s.mach := by rw [h]

@[simp] theorem portEvent_port (pt : Fin 16) (kind : Half) (sev : Nat) (data : List Byte) (s : State) (q : Fin 16) :
    (portEvent pt kind sev data s).port q = s.port q := (postEvent_eventOnly ..).port q

@[simp] theorem portEvent_boot (pt : Fin 16) (kind : Half) (sev : Nat) (data : List Byte) (s : State) :
    (portEvent pt kind sev data s).boot = s.boot := postEvent_boot ..

@[simp] theorem setDegraded_port (s : State) (q : Fin 16) : (setDegraded s).port q = s.port q := (setDegraded_eventOnly s).port q

/-- A port changed leaves the other ports. -/
theorem State.setPort_port_of_ne {s : State} {pt q : Fin 16} (h : q ≠ pt) (x : Port) : (s.setPort pt x).port q = s.port q :=
  State.setPort_other s pt q x h.symm

theorem State.setPort_setPort (s : State) (pt : Fin 16) (x y : Port) : (s.setPort pt x).setPort pt y = s.setPort pt y := by
  simp [State.setPort]

theorem State.setPort_self (s : State) (pt : Fin 16) : s.setPort pt (s.port pt) = s := by
  simp [State.setPort, State.port]

/-! ### Frames sent (R311, R339) -/

/-- `t` is `s` with `n` frames more sent by a port. -/
def SentOnly (pt : Fin 16) (n : Nat) (s t : State) : Prop :=
  ∃ l : List Frame, l.length = n ∧ t = s.setPort pt { s.port pt with sent := (s.port pt).sent ++ l }

section SentOnly
variable {pt : Fin 16} {n m : Nat} {s t u : State}

theorem SentOnly.refl (pt : Fin 16) (s : State) : SentOnly pt 0 s s := ⟨[], rfl, by rw [List.append_nil]; exact (State.setPort_self s pt).symm⟩

theorem SentOnly.trans (h : SentOnly pt n s t) (k : SentOnly pt m t u) : SentOnly pt (n + m) s u := by
  obtain ⟨l, hl, rfl⟩ := h
  obtain ⟨l', hl', rfl⟩ := k
  exact ⟨l ++ l', by simp [hl, hl'], by rw [State.setPort_setPort, State.setPort_same, List.append_assoc]⟩

theorem SentOnly.forAll {α : Type} (f : α → State → State) (h : ∀ a t, SentOnly pt 1 t (f a t)) (l : List α) (s : State) :
    SentOnly pt l.length s (forAll l f s) := by
  induction l generalizing s with
  | nil => exact .refl pt s
  | cons a l ih =>
    rw [List.length_cons, Nat.add_comm]
    exact (h a s).trans (ih (f a s))

theorem SentOnly.port_same (h : SentOnly pt n s t) : ∃ l : List Frame, l.length = n
    ∧ t.port pt = { s.port pt with sent := (s.port pt).sent ++ l } := by
  obtain ⟨l, hl, rfl⟩ := h
  exact ⟨l, hl, State.setPort_same ..⟩

theorem SentOnly.port_other (h : SentOnly pt n s t) {q : Fin 16} (hq : q ≠ pt) : t.port q = s.port q := by
  obtain ⟨l, -, rfl⟩ := h
  exact State.setPort_port_of_ne hq _

theorem SentOnly.boot (h : SentOnly pt n s t) : t.boot = s.boot := by
  obtain ⟨l, -, rfl⟩ := h
  rfl

end SentOnly

theorem emit_sentOnly (pt : Fin 16) (f : Frame) (s : State) : SentOnly pt 1 s (emit pt f s) := ⟨[(s.port pt).dress f], rfl, rfl⟩

theorem sendRetrain_sentOnly (pt : Fin 16) (phase : Nat) (tSend : Dword) (s : State) : SentOnly pt 1 s (sendRetrain pt phase tSend s) :=
  emit_sentOnly ..

/-- The sixteen frames of PHASE 6 go out, with no samples yet (R339). -/
theorem sendRetrains_sentOnly (pt : Fin 16) (s : State) :
    SentOnly pt 16 (s.setPort pt { s.port pt with samples := [] }) (sendRetrains pt s) :=
  SentOnly.forAll _ (fun _ _ => sendRetrain_sentOnly ..) (List.range 16) _

/-! ### Down, haggling, retraining -/

/-- A port that is DOWN: no lanes, nothing kept to be sent again, nothing to resume. -/
def Port.down (p : Port) : Port :=
  { p with
    state := 0, phase := 0, txLanes := 0, rxLanes := 0, buf := [], hgBuf := [], resume := false, narrowed := false,
    retrySince := none, quarEnd := none, fruitless := 0 }

theorem portDown_eventOnly (pt : Fin 16) (cause : Byte) (s : State) : EventOnly (s.setPort pt (s.port pt).down) (portDown pt cause s) := by
  simp only [portDown]
  split
  · exact .refl _
  · exact postEvent_eventOnly ..

@[simp] theorem portDown_port (pt : Fin 16) (cause : Byte) (s : State) : (portDown pt cause s).port pt = (s.port pt).down :=
  ((portDown_eventOnly ..).port pt).trans (State.setPort_same ..)

@[simp] theorem portDown_boot (pt : Fin 16) (cause : Byte) (s : State) : (portDown pt cause s).boot = s.boot := (portDown_eventOnly ..).boot

/-- A port at the start of a full haggle, until its partner's signal is detected. -/
def Port.startsHaggle (p : Port) : Port :=
  { p with
    state := 1, phase := 0, hgTx := 0, hgRx := 0, hgBuf := [], nak := false, ackValid := false, samples := [], cert := [],
    certOk := false, certWanted := false, retrySince := none, quarEnd := none, txFailed := 0, rxFailed := 0,
    txLanes := 0, rxLanes := 0, narrowed := false, blockCause := 0, partnerBound := false, verAgreed := 0, nakReplay := none,
    fruitless := 0 }

theorem startHaggle_eq (pt : Fin 16) (s : State) : startHaggle pt s = s.setPort pt (s.port pt).startsHaggle := rfl

/-- A port that has begun a retrain, before its sixteen frames. -/
def Port.retrains (p : Port) : Port := { p with state := 4, samples := [] }

theorem enterRetrain_not_up {pt : Fin 16} {s : State} (h : (s.port pt).state ≠ 3) : enterRetrain pt s = s := if_pos h

theorem enterRetrain_up {pt : Fin 16} {s : State} (h : (s.port pt).state = 3) : enterRetrain pt s = sendRetrains pt
    ((s.setPort pt { s.port pt with state := 4 }).setTime { s.time with fifoPort := s.time.fifoPort.set pt 4 }) := if_neg (not_not_intro h)

/-- An UP port retrains: its sixteen frames go out, and no other port changes. -/
theorem enterRetrain_port {pt : Fin 16} {s : State} (h : (s.port pt).state = 3) :
    (∃ l : List Frame, l.length = 16
      ∧ (enterRetrain pt s).port pt = { (s.port pt).retrains with sent := (s.port pt).sent ++ l })
    ∧ ∀ q, q ≠ pt → (enterRetrain pt s).port q = s.port q := by
  rw [enterRetrain_up h]
  refine ⟨?_, fun q hq => ((sendRetrains_sentOnly ..).port_other hq).trans ?_⟩
  · obtain ⟨l, hl, heq⟩ := (sendRetrains_sentOnly pt
      ((s.setPort pt { s.port pt with state := 4 }).setTime { s.time with fifoPort := s.time.fifoPort.set pt 4 })).port_same
    exact ⟨l, hl, by rw [heq, State.setPort_same, State.setTime_port, State.setPort_same]; rfl⟩
  · rw [State.setPort_port_of_ne hq, State.setTime_port, State.setPort_port_of_ne hq]

theorem enterRetrain_boot (pt : Fin 16) (s : State) : (enterRetrain pt s).boot = s.boot := by
  by_cases h : (s.port pt).state = 3
  · rw [enterRetrain_up h, (sendRetrains_sentOnly ..).boot]
    rfl
  · rw [enterRetrain_not_up h]

end Sys2Proof.Machine
end

section
/-! PROOFS. Link frames and their answers, replays, quarantine and RETRY (R309 to R314, R336 to R338, R342, R345). -/
namespace Sys2Proof.Machine
open Sys2Proof

/-! ### Every frame is answered (R311, R312) -/

theorem answered_as_is {pt : Fin 16} {s t : State} (h : (t.port pt).sending = false ∨ (t.port pt).sent.length ≠ (s.port pt).sent.length) :
    answered pt s t = t := by
  refine if_neg ?_
  obtain h | h := h <;> simp [h]

/-- With nothing else sent, an IDLE frame goes out with the port's acknowledgement. -/
theorem answered_idle {pt : Fin 16} {s t : State} (h : (t.port pt).sending = true)
    (hl : (t.port pt).sent.length = (s.port pt).sent.length) :
    ∃ g, answered pt s t = t.setPort pt { t.port pt with sent := (t.port pt).sent ++ [g] } ∧ g.typ = 0
      ∧ g.ack = (t.port pt).expects - 1 ∧ g.nak = (t.port pt).nak ∧ g.ackValid = (t.port pt).ackValid :=
  ⟨(t.port pt).dress idleFrame, if_pos (by simp [h, hl]), rfl, rfl, rfl, rfl⟩

/-! ### A frame's bytes pass their CRC (R310) -/

theorem fit_length (n : Nat) (bs : List Byte) : (fit n bs).length = n := by simp [fit]

theorem frameHeader_length (f : Frame) : (frameHeader f).length = 28 := by simp [frameHeader, leBytes_length]

theorem crcPasses_frameImage (f : Frame) : crcPasses (frameImage f) = true := by
  have hbody : (frameHeader f ++ fit 224 f.payload).length = 252 := by simp [frameHeader_length, fit_length]
  have hcrc (c : Word) : leNat (leBytes c.toNat 4) = c.toNat := by
    rw [leNat_leBytes]
    exact Nat.mod_eq_of_lt c.isLt
  unfold crcPasses frameImage
  dsimp only
  rw [List.drop_left' hbody, List.take_left' hbody, hcrc, List.length_append, hbody, leBytes_length]
  simp

/-! ### Unsequenced frames (R336, R337) -/

section Plain
variable {pt : Fin 16} {f : Frame} {eff : State → State} {s : State}

theorem recvPlain_allowed (h : frameFault (s.port pt) f = none) : recvPlain pt f eff s = answered pt s (eff (linkFields pt f s)) := by
  simp only [recvPlain, h]

theorem recvPlain_refused {code : Nat} (h : frameFault (s.port pt) f = some code) :
    recvPlain pt f eff s = answered pt s (violation pt code (f.typ ≠ 2) f (heard pt s)) := by simp only [recvPlain, h]

end Plain

section Frames
variable {pt : Fin 16} {f : Frame} {s : State}

theorem idleFrame_ignored {fixed : List Nat} (h : (s.port pt).receives = false ∨ (f.typ ≠ 0 ∧ f.typ.toNat < 5)) :
    exec (.idleFrame pt f fixed) s = .next s := by
  show execIdleFrame pt f fixed s = _
  refine if_pos ?_
  simp only [Bool.or_eq_true, Bool.not_eq_true', Bool.or_eq_false_iff, decide_eq_false_iff_not, Nat.not_le]
  exact h

theorem idleFrame_received {fixed : List Nat} (hr : (s.port pt).receives = true) (ht : f.typ = 0 ∨ 5 ≤ f.typ.toNat) :
    exec (.idleFrame pt f fixed) s = .next (recvPlain pt f id (countFixed pt fixed s)) := by
  show execIdleFrame pt f fixed s = _
  refine if_neg ?_
  simp only [Bool.or_eq_true, Bool.not_eq_true', Bool.or_eq_false_iff, decide_eq_false_iff_not, hr]
  tauto

theorem crcFailedFrame_ignored {raw : List Byte} {errs : Nat} (h : (s.port pt).receives = false ∨ crcPasses raw = true) :
    exec (.crcFailedFrame pt raw errs) s = .next s := by
  show execCrcFailedFrame pt raw errs s = _
  refine if_pos ?_
  obtain h | h := h <;> simp [h]

theorem crcFailedFrame_nak {raw : List Byte} {errs : Nat} (hr : (s.port pt).receives = true) (hc : crcPasses raw = false) :
    exec (.crcFailedFrame pt raw errs) s = .next (answered pt s (s.setPort pt
      { s.port pt with nak := true, uncorrectable := satAdd (s.port pt).uncorrectable (if 8 < errs then 1 else 0) })) := by
  show execCrcFailedFrame pt raw errs s = _
  simp [execCrcFailedFrame, hr, hc, State.modPort, b2n]

theorem reproofFrame_ignored (h : (s.port pt).receives = false ∨ f.typ ≠ 2) : exec (.reproofFrame pt f) s = .next s := by
  show execReproofFrame pt f s = _
  refine if_pos ?_
  simp only [Bool.or_eq_true, Bool.not_eq_true', decide_eq_true_eq]
  exact h

/-- A REPROOF that arrives is counted and logged (R337). -/
def reproofCounted (pt : Fin 16) (f : Frame) (t : State) : State :=
  violationEntry pt 0 f (t.setPort pt { t.port pt with reproofs := satAdd (t.port pt).reproofs 1 })

theorem reproofFrame_received (hr : (s.port pt).receives = true) (ht : f.typ = 2) :
    exec (.reproofFrame pt f) s = .next (recvPlain pt f (reproofCounted pt f) s) := by
  show execReproofFrame pt f s = _
  refine if_neg ?_
  simp only [Bool.or_eq_true, Bool.not_eq_true', decide_eq_true_eq, hr]
  tauto

end Frames

/-! ### Corrected symbols (R309, R339) -/

theorem laneLimit_ge (p : Port) : 1024 ≤ laneLimit p := by
  unfold laneLimit
  split
  · next h =>
    have h10 : 10 ≤ p.laneFailThr.toNat := (by simpa using h : _ ∧ _).1
    exact Nat.pow_le_pow_right (n := 2) (by decide) h10
  · decide

/-- The symbols corrected in each lane in the millisecond so far. -/
def Port.tally (p : Port) (now : Nat) : Vector Nat 9 := if p.laneWindow = now / 1000000 then p.laneFixed else Vector.replicate 9 0

/-- A tally with the symbols of a frame added, each to its lane. -/
def Port.addFixed (p : Port) (fixed : List Nat) (v : Vector Nat 9) : Vector Nat 9 :=
  fixed.foldl (fun v i => v.set (laneOf p.rxFailed p.rxLanes i) (v[laneOf p.rxFailed p.rxLanes i] + 1)) v

theorem Port.tally_le (p : Port) (now : Nat) (l : Fin 9) : (p.tally now)[l] ≤ p.laneFixed[l] := by
  unfold Port.tally
  split <;> simp

/-- A lane's count grows by at most one for every symbol corrected. -/
theorem Port.addFixed_le (p : Port) (fixed : List Nat) (v : Vector Nat 9) (l : Fin 9) : (p.addFixed fixed v)[l] ≤ v[l] + fixed.length := by
  induction fixed generalizing v with
  | nil => exact Nat.le_refl _
  | cons i fixed ih =>
    have hset : (v.set (laneOf p.rxFailed p.rxLanes i) (v[laneOf p.rxFailed p.rxLanes i] + 1))[l] ≤ v[l] + 1 := by
      by_cases h : laneOf p.rxFailed p.rxLanes i = l
      · simp [h]
      · have hv : (laneOf p.rxFailed p.rxLanes i).val ≠ l.val := fun e => h (Fin.ext e)
        simp [hv]
    have hrest := ih (v.set (laneOf p.rxFailed p.rxLanes i) (v[laneOf p.rxFailed p.rxLanes i] + 1))
    rw [List.length_cons]
    exact hrest.trans (by omega)

theorem countFixed_eq (pt : Fin 16) (fixed : List Nat) (s : State) : countFixed pt fixed s =
    forAll ((List.finRange 9).filter fun l => ((s.port pt).tally s.ns)[l] < laneLimit (s.port pt)
      && laneLimit (s.port pt) ≤ ((s.port pt).addFixed fixed ((s.port pt).tally s.ns))[l]) (failLane pt true)
      (s.setPort pt { s.port pt with
        corrected := satAdd (s.port pt).corrected fixed.length, laneFixed := (s.port pt).addFixed fixed ((s.port pt).tally s.ns),
        laneWindow := s.ns / 1000000 }) := rfl

/-- Below every lane's threshold, corrected symbols are only counted. -/
theorem countFixed_counts {pt : Fin 16} {fixed : List Nat} {s : State}
    (h : ∀ l : Fin 9, (s.port pt).laneFixed[l] + fixed.length < 1024) : countFixed pt fixed s = s.setPort pt { s.port pt with
      corrected := satAdd (s.port pt).corrected fixed.length, laneFixed := (s.port pt).addFixed fixed ((s.port pt).tally s.ns),
      laneWindow := s.ns / 1000000 } := by
  have hnone : (List.finRange 9).filter (fun l => ((s.port pt).tally s.ns)[l] < laneLimit (s.port pt)
      && laneLimit (s.port pt) ≤ ((s.port pt).addFixed fixed ((s.port pt).tally s.ns))[l]) = [] := by
    refine List.filter_eq_nil_iff.2 fun l _ => ?_
    have hnew := (s.port pt).addFixed_le fixed ((s.port pt).tally s.ns) l
    have hold := (s.port pt).tally_le s.ns l
    have hlimit := laneLimit_ge (s.port pt)
    have hl := h l
    simp only [Bool.and_eq_true, decide_eq_true_eq, not_and, Nat.not_le]
    exact fun _ => by omega
  rw [countFixed_eq, hnone]
  rfl

/-! ### Replays (R314, R342) -/

theorem Port.resend_eq (p : Port) (l : List TxEntry) : ∃ g : List Frame, g.length = l.length ∧ p.resend l = { p with sent := p.sent ++ g } := by
  unfold Port.resend
  induction l generalizing p with
  | nil => exact ⟨[], rfl, by simp⟩
  | cons e l ih =>
    obtain ⟨g, hg, heq⟩ := ih { p with sent := p.sent ++ [p.dress e.frame] }
    exact ⟨p.dress e.frame :: g, congrArg (· + 1) hg, by simp [heq]⟩

/-- The frames kept in a buffer count as sent now. -/
def sentNow (now : Nat) (l : List TxEntry) : List TxEntry := l.map fun e => { e with sentAt := now }

/-- The state after a replay that is one fruitless more in a row. -/
def replayed (pt : Fin 16) (s : State) : State := (replayAll pt s).modPort pt fun p => { p with fruitless := p.fruitless + 1 }

section Replay
variable {pt : Fin 16} {s : State}

theorem replayed_other {q : Fin 16} (hq : q ≠ pt) : (replayed pt s).port q = s.port q :=
  (State.setPort_port_of_ne hq _).trans (State.setPort_port_of_ne hq _)

theorem replayed_link (h : (s.port pt).haggling = false) : ∃ g : List Frame, g.length = (s.port pt).buf.length
    ∧ (replayed pt s).port pt = { s.port pt with
      sent := (s.port pt).sent ++ g, buf := sentNow s.ns (s.port pt).buf, replays := satAdd (s.port pt).replays 1,
      fruitless := (s.port pt).fruitless + 1 } := by
  obtain ⟨g, hg, heq⟩ := (s.port pt).resend_eq (s.port pt).buf
  exact ⟨g, hg, by simp [replayed, replayAll, h, heq, sentNow]⟩

theorem replayed_haggle (h : (s.port pt).haggling = true) : ∃ g : List Frame, g.length = (s.port pt).hgBuf.length
    ∧ (replayed pt s).port pt = { s.port pt with
      sent := (s.port pt).sent ++ g, hgBuf := sentNow s.ns (s.port pt).hgBuf, replays := satAdd (s.port pt).replays 1,
      fruitless := (s.port pt).fruitless + 1 } := by
  obtain ⟨g, hg, heq⟩ := (s.port pt).resend_eq (s.port pt).hgBuf
  exact ⟨g, hg, by simp [replayed, replayAll, h, heq, sentNow]⟩

/-- The frames a port keeps until they are acknowledged. -/
def Port.kept (p : Port) : List TxEntry := if p.haggling then p.hgBuf else p.buf

theorem replayTimer_empty (h : (s.port pt).kept = []) : exec (.replayTimer pt) s = .next s := by
  show execReplayTimer pt s = _
  unfold Port.kept at h
  simp only [execReplayTimer, h]

theorem replayTimer_early {e : TxEntry} {l : List TxEntry} (hk : (s.port pt).kept = e :: l)
    (h : ((s.port pt).haggling = false ∧ (s.port pt).state ≠ 3) ∨ s.ns < e.sentAt + 2000) : exec (.replayTimer pt) s = .next s := by
  show execReplayTimer pt s = _
  unfold Port.kept at hk
  simp only [execReplayTimer, hk]
  refine if_pos ?_
  simp only [Bool.or_eq_true, Bool.and_eq_true, Bool.not_eq_true', decide_eq_true_eq]
  exact h

theorem replayTimer_due {e : TxEntry} {l : List TxEntry} (hk : (s.port pt).kept = e :: l)
    (h : (s.port pt).haggling = true ∨ (s.port pt).state = 3) (hns : e.sentAt + 2000 ≤ s.ns) : exec (.replayTimer pt) s =
    if 8 ≤ (s.port pt).fruitless + 1 then .next (linkLost pt (replayed pt s)) else .next (replayed pt s) := by
  show execReplayTimer pt s = _
  unfold Port.kept at hk
  simp only [execReplayTimer, hk]
  refine if_neg ?_
  simp only [Bool.or_eq_true, Bool.and_eq_true, Bool.not_eq_true', decide_eq_true_eq, not_or, not_and, Nat.not_lt]
  exact ⟨fun hh => by simpa [hh] using h, hns⟩

theorem linkLost_link (h : (s.port pt).haggling = false) : linkLost pt s = s.setPort pt { s.port pt with
    state := 5, retrySince := some s.ns, retryAt := s.ns, fruitless := 0 } := if_neg (ne_true_of_eq_false h)

theorem linkLost_haggle (h : (s.port pt).haggling = true) : linkLost pt s = portDown pt 2 s := if_pos h

end Replay

end Sys2Proof.Machine
end

section
/-! PROOFS. The ends of quarantine and RETRY, PORT_CFG and lane sweeps (R338, R342, R345, R354, R357, R359). -/
namespace Sys2Proof.Machine
open Sys2Proof

/-! ### Quarantine and RETRY -/

section Deadlines
variable {pt : Fin 16} {s : State}

theorem quarantineEnd_waits (h : (s.port pt).quarEnd = none ∨ (∃ t, (s.port pt).quarEnd = some t ∧ s.ns < t) ∨ (s.port pt).state ≠ 6) :
    exec (.quarantineEnd pt) s = .next s := by
  show execQuarantineEnd pt s = _
  unfold execQuarantineEnd
  split
  · next t ht =>
    refine congrArg Host.Outcome.next (if_neg ?_)
    simp only [Bool.and_eq_true, decide_eq_true_eq, ht] at h ⊢
    rintro ⟨hle, h6⟩
    obtain h | ⟨u, hu, hlt⟩ | h := h
    · exact Option.some_ne_none t h
    · exact absurd hle (by rw [Option.some.inj hu]; exact Nat.not_le.2 hlt)
    · exact h h6
  · rfl

theorem quarantineEnd_haggles {t : Nat} (ht : (s.port pt).quarEnd = some t) (hle : t ≤ s.ns) (h6 : (s.port pt).state = 6) :
    exec (.quarantineEnd pt) s = .next (startHaggle pt s) := by
  show execQuarantineEnd pt s = _
  simp only [execQuarantineEnd, ht, hle, h6, decide_true, Bool.and_self, if_true]

theorem retryExpiry_waits (h : (s.port pt).retrySince = none ∨ (∃ t, (s.port pt).retrySince = some t ∧ s.ns < t + 100000000)
    ∨ (s.port pt).state ≠ 5) : exec (.retryExpiry pt) s = .next s := by
  show execRetryExpiry pt s = _
  unfold execRetryExpiry
  split
  · next t ht =>
    refine congrArg Host.Outcome.next (if_neg ?_)
    simp only [Bool.and_eq_true, decide_eq_true_eq, ht] at h ⊢
    rintro ⟨h5, hle⟩
    obtain h | ⟨u, hu, hlt⟩ | h := h
    · exact Option.some_ne_none t h
    · exact absurd hle (by rw [Option.some.inj hu]; exact Nat.not_le.2 hlt)
    · exact h h5
  · rfl

theorem retryExpiry_down {t : Nat} (ht : (s.port pt).retrySince = some t) (h5 : (s.port pt).state = 5) (hle : t + 100000000 ≤ s.ns) :
    exec (.retryExpiry pt) s = .next (portDown pt 2 (discardHeld pt s)) := by
  show execRetryExpiry pt s = _
  simp only [execRetryExpiry, ht, hle, h5, decide_true, Bool.and_self, if_true]

theorem retryAttempt_waits (h : (s.port pt).state ≠ 5 ∨ s.ns < (s.port pt).retryAt + 1000000) : exec (.retryAttempt pt) s = .next s := by
  show execRetryAttempt pt s = _
  exact if_pos (by simpa using h)

theorem retryAttempt_sends (h5 : (s.port pt).state = 5) (hle : (s.port pt).retryAt + 1000000 ≤ s.ns) : ∃ u, exec (.retryAttempt pt) s = .next u
    ∧ (u.port pt).retryAt = s.ns ∧ (u.port pt).sent.length = (s.port pt).sent.length + 16 ∧ (u.port pt).state = 5 := by
  have hexec : exec (.retryAttempt pt) s = .next (sendRetrains pt (s.setPort pt { s.port pt with retryAt := s.ns })) := by
    show execRetryAttempt pt s = _
    exact if_neg (by simp [h5, hle])
  obtain ⟨l, hl, heq⟩ := (sendRetrains_sentOnly pt (s.setPort pt { s.port pt with retryAt := s.ns })).port_same
  refine ⟨_, hexec, ?_⟩
  rw [heq, State.setPort_same, State.setPort_same]
  exact ⟨rfl, by rw [List.length_append, hl], h5⟩

end Deadlines

/-! ### PORT_CFG (R354, R357) -/

/-- A port whose counters are 0. -/
def Port.cleared (p : Port) : Port :=
  { p with corrected := 0, uncorrectable := 0, replays := 0, viol := Vector.replicate 5 0, reproofs := 0, quarantines := 0 }

/-- A port with the fields of a write of PORT_CFG, its counters cleared where CNT_CLEAR is set. -/
def Port.configured (w : Word) (p : Port) : Port :=
  { (if w.getLsbD 4 then p.cleared else p) with enable := w.getLsbD 0, certReq := w.getLsbD 1, laneFailThr := bits w 8 5 }

theorem Port.configured_link (w : Word) (p : Port) :
    (p.configured w).state = p.state ∧ (p.configured w).sent = p.sent := by
  unfold Port.configured
  split <;> exact ⟨rfl, rfl⟩

/-- What a port is set to, and its counters. -/
def Port.service (p : Port) : (Bool × Bool × BitVec 5) × Word × Half × Half × Vector Byte 5 × Byte × Byte :=
  ((p.enable, p.certReq, p.laneFailThr), p.corrected, p.uncorrectable, p.replays, p.viol, p.reproofs, p.quarantines)

theorem portCfgWrite_eq (pt : Fin 16) (w : Word) (s : State) : portCfgWrite pt w s =
    if !w.getLsbD 0 then portDown pt 3 (s.setPort pt ((s.port pt).configured w))
    else if w.getLsbD 3 && ((s.setPort pt ((s.port pt).configured w)).port pt).state ≠ 0 then
      startHaggle pt (s.setPort pt ((s.port pt).configured w))
    else if w.getLsbD 2 then enterRetrain pt (s.setPort pt ((s.port pt).configured w))
    else s.setPort pt ((s.port pt).configured w) := rfl

section Configuration
variable {pt : Fin 16} {w : Word} {s : State}

theorem portCfgWrite_disables (h : w.getLsbD 0 = false) :
    portCfgWrite pt w s = portDown pt 3 (s.setPort pt ((s.port pt).configured w)) := by
  rw [portCfgWrite_eq, if_pos (by rw [h]; rfl)]

variable (h0 : w.getLsbD 0 = true)
include h0

theorem portCfgWrite_haggles (h3 : w.getLsbD 3 = true) (hs : (s.port pt).state ≠ 0) :
    portCfgWrite pt w s = startHaggle pt (s.setPort pt ((s.port pt).configured w)) := by
  have hstate : ((s.setPort pt ((s.port pt).configured w)).port pt).state ≠ 0 := by
    rw [State.setPort_same, (Port.configured_link w (s.port pt)).1]
    exact hs
  rw [portCfgWrite_eq, if_neg (by rw [h0]; decide), if_pos (by rw [h3, decide_eq_true hstate]; rfl)]

theorem portCfgWrite_keeps_link (h : w.getLsbD 3 = false ∨ (s.port pt).state = 0) : portCfgWrite pt w s =
    if w.getLsbD 2 then enterRetrain pt (s.setPort pt ((s.port pt).configured w)) else s.setPort pt ((s.port pt).configured w) := by
  have hskip : (w.getLsbD 3 && decide (((s.setPort pt ((s.port pt).configured w)).port pt).state ≠ 0)) = false := by
    obtain h | h := h
    · rw [h, Bool.false_and]
    · rw [State.setPort_same, (Port.configured_link w (s.port pt)).1, h]
      simp
  rw [portCfgWrite_eq, if_neg (by rw [h0]; decide), if_neg (ne_true_of_eq_false hskip)]

theorem portCfgWrite_only_configures (h3 : w.getLsbD 3 = false ∨ (s.port pt).state = 0) (h2 : w.getLsbD 2 = false ∨ (s.port pt).state ≠ 3) :
    portCfgWrite pt w s = s.setPort pt ((s.port pt).configured w) := by
  rw [portCfgWrite_keeps_link h0 h3]
  obtain h2 | h2 := h2
  · rw [if_neg (ne_true_of_eq_false h2)]
  · split
    · refine enterRetrain_not_up ?_
      rw [State.setPort_same, (Port.configured_link w (s.port pt)).1]
      exact h2
    · rfl

theorem portCfgWrite_retrains (h3 : w.getLsbD 3 = false) (h2 : w.getLsbD 2 = true) :
    portCfgWrite pt w s = enterRetrain pt (s.setPort pt ((s.port pt).configured w)) := by
  rw [portCfgWrite_keeps_link h0 (.inl h3), if_pos h2]

end Configuration

/-- However the write goes on, the port has the write's settings and its counters. -/
theorem portCfgWrite_service (pt : Fin 16) (w : Word) (s : State) :
    ((portCfgWrite pt w s).port pt).service = ((s.port pt).configured w).service := by
  have hretrain (t : State) : ((enterRetrain pt t).port pt).service = (t.port pt).service := by
    by_cases h : (t.port pt).state = 3
    · obtain ⟨⟨l, -, heq⟩, -⟩ := enterRetrain_port h
      rw [heq]
      rfl
    · rw [enterRetrain_not_up h]
  rw [portCfgWrite_eq]
  split
  · rw [portDown_port, State.setPort_same]
    rfl
  · split
    · rw [startHaggle_eq, State.setPort_same, State.setPort_same]
      rfl
    · split
      · rw [hretrain, State.setPort_same]
      · rw [State.setPort_same]

/-! ### Lane sweeps (R359) -/

section Sweep
variable {pt : Fin 16} {w : Word} {s : State}

theorem laneSweepStart_ignored (h : w.getLsbD 4 = false ∨ s.sec.dbgActive = false ∨ (s.port pt).sweepState = 1) :
    exec (.laneSweepStart pt w) s = .next s := by
  show execLaneSweepStart pt w s = _
  refine congrArg Host.Outcome.next ?_
  split
  · next h4 =>
    unfold sweepCtrlWrite
    obtain h | h | h := h
    · exact absurd h4 (ne_true_of_eq_false h)
    · simp [h]
    · simp [h, h4]
  · rfl

theorem laneSweepStart_starts (h4 : w.getLsbD 4 = true) (hd : s.sec.dbgActive = true) (hs : (s.port pt).sweepState ≠ 1) :
    exec (.laneSweepStart pt w) s = .next (s.setPort pt { s.port pt with
      sweepLane := bits w 0 4, sweepState := if 9 ≤ (bits w 0 4 : BitVec 4).toNat then 3 else 1 }) := by
  show execLaneSweepStart pt w s = _
  simp only [execLaneSweepStart, sweepCtrlWrite, hd, h4, Bool.not_true, Bool.false_eq_true, if_false, if_neg hs, if_true]
  by_cases h9 : 9 ≤ (bits w 0 4 : BitVec 4).toNat
  · rw [if_pos h9, if_pos h9]
  · rw [if_neg h9, if_neg h9]

theorem laneSweepDone_answers (h : (s.port pt).sweepState = 1) (v m : Byte) :
    exec (.laneSweepDone pt v m) s = .next (s.setPort pt { s.port pt with sweepState := 2, vMargin := v, hMargin := m }) :=
  congrArg Host.Outcome.next (if_pos h)

theorem laneSweepDone_ignored (h : (s.port pt).sweepState ≠ 1) (v m : Byte) : exec (.laneSweepDone pt v m) s = .next s :=
  congrArg Host.Outcome.next (if_neg h)

end Sweep

/-! ### The statement -/

theorem Port.service_configured (w : Word) (p : Port) : (p.configured w).service = ((w.getLsbD 0, w.getLsbD 1, bits w 8 5),
    if w.getLsbD 4 then (0, 0, 0, Vector.replicate 5 0, 0, 0)
    else (p.corrected, p.uncorrectable, p.replays, p.viol, p.reproofs, p.quarantines)) := by
  unfold Port.configured Port.service
  split <;> rfl

/-- A write of PORT_CFG sets the port's fields, and clears its counters under CNT_CLEAR alone (R354, R357). -/
theorem portCfgWrite_sets (pt : Fin 16) (w : Word) (s : State) :
    let p := s.port pt
    let t := portCfgWrite pt w s
    (t.port pt).enable = w.getLsbD 0 ∧ (t.port pt).certReq = w.getLsbD 1 ∧ (t.port pt).laneFailThr = bits w 8 5
      ∧ (w.getLsbD 4 = true → (t.port pt).corrected = 0 ∧ (t.port pt).uncorrectable = 0 ∧ (t.port pt).replays = 0
        ∧ (t.port pt).viol = Vector.replicate 5 0 ∧ (t.port pt).reproofs = 0 ∧ (t.port pt).quarantines = 0)
      ∧ (w.getLsbD 4 = false → (t.port pt).corrected = p.corrected ∧ (t.port pt).uncorrectable = p.uncorrectable
        ∧ (t.port pt).replays = p.replays ∧ (t.port pt).viol = p.viol ∧ (t.port pt).reproofs = p.reproofs
        ∧ (t.port pt).quarantines = p.quarantines) := by
  have hservice := (portCfgWrite_service pt w s).trans (Port.service_configured w (s.port pt))
  obtain ⟨hset, hcount⟩ := Prod.mk.inj hservice
  obtain ⟨he, hrest⟩ := Prod.mk.inj hset
  obtain ⟨hc, hl⟩ := Prod.mk.inj hrest
  refine ⟨he, hc, hl, fun h4 => ?_, fun h4 => ?_⟩
  · rw [if_pos h4] at hcount
    simpa only [Prod.mk.injEq] using hcount
  · rw [if_neg (ne_true_of_eq_false h4)] at hcount
    simpa only [Prod.mk.injEq] using hcount

theorem portCfgWrite_ends (pt : Fin 16) (w : Word) (s : State) :
    let p := s.port pt
    let t := portCfgWrite pt w s
    (w.getLsbD 0 = false → (t.port pt).state = 0 ∧ (t.port pt).buf = [])
      ∧ (w.getLsbD 0 = true → w.getLsbD 3 = true → p.state ≠ 0 → (t.port pt).state = 1 ∧ (t.port pt).phase = 0 ∧ (t.port pt).hgTx = 0
        ∧ (t.port pt).hgRx = 0)
      ∧ (w.getLsbD 0 = true → w.getLsbD 3 = false → w.getLsbD 2 = true → p.state = 3 →
        (t.port pt).state = 4 ∧ (t.port pt).sent.length = p.sent.length + 16)
      ∧ (w.getLsbD 0 = true → w.getLsbD 3 = false ∨ p.state = 0 → w.getLsbD 2 = false ∨ p.state ≠ 3 → w.getLsbD 4 = false →
        t = s.setPort pt { p with enable := true, certReq := w.getLsbD 1, laneFailThr := bits w 8 5 })
      ∧ (w.getLsbD 0 = true → w.getLsbD 3 = false ∨ p.state = 0 → w.getLsbD 2 = false ∨ p.state ≠ 3 →
        (t.port pt).state = p.state ∧ (t.port pt).sent = p.sent ∧ ∀ q, q ≠ pt → t.port q = s.port q) := by
  obtain ⟨hstate, hsent⟩ := Port.configured_link w (s.port pt)
  refine ⟨fun h0 => ?_, fun h0 h3 hs => ?_, fun h0 h3 h2 hs => ?_, fun h0 h3 h2 h4 => ?_, fun h0 h3 h2 => ?_⟩
  · rw [portCfgWrite_disables h0, portDown_port]
    exact ⟨rfl, rfl⟩
  · rw [portCfgWrite_haggles h0 h3 hs, startHaggle_eq, State.setPort_same]
    exact ⟨rfl, rfl, rfl, rfl⟩
  · have hup : ((s.setPort pt ((s.port pt).configured w)).port pt).state = 3 := by rw [State.setPort_same, hstate, hs]
    obtain ⟨⟨l, hl, heq⟩, -⟩ := enterRetrain_port hup
    rw [portCfgWrite_retrains h0 h3 h2, heq]
    refine ⟨rfl, ?_⟩
    rw [State.setPort_same, hsent, List.length_append, hl]
  · rw [portCfgWrite_only_configures h0 h3 h2, Port.configured, if_neg (ne_true_of_eq_false h4), h0]
  · rw [portCfgWrite_only_configures h0 h3 h2]
    refine ⟨?_, ?_, fun q hq => State.setPort_port_of_ne hq _⟩
    · rw [State.setPort_same, hstate]
    · rw [State.setPort_same, hsent]

/-- A replay that is due is counted and goes out; the eighth fruitless one in a row loses the link, or takes a haggling port down (R314). -/
theorem replayTimer_cases {pt : Fin 16} {s : State} {e : TxEntry} {l : List TxEntry} (hk : (s.port pt).kept = e :: l) :
    let p := s.port pt
    (p.haggling = false → p.state = 3 → e.sentAt + 2000 ≤ s.ns →
      (p.fruitless + 1 < 8 → ∃ t, exec (.replayTimer pt) s = .next t ∧ (t.port pt).replays = satAdd p.replays 1
        ∧ (t.port pt).buf = p.buf.map (fun e => { e with sentAt := s.ns }) ∧ (t.port pt).fruitless = p.fruitless + 1
        ∧ (t.port pt).sent.length = p.sent.length + p.buf.length ∧ (t.port pt).state = 3 ∧ ∀ q, q ≠ pt → t.port q = s.port q)
      ∧ (8 ≤ p.fruitless + 1 → ∃ t, exec (.replayTimer pt) s = .next t ∧ (t.port pt).state = 5
        ∧ (t.port pt).retrySince = some s.ns))
    ∧ (p.haggling = true → e.sentAt + 2000 ≤ s.ns →
      (p.fruitless + 1 < 8 → ∃ t, exec (.replayTimer pt) s = .next t ∧ (t.port pt).replays = satAdd p.replays 1
        ∧ (t.port pt).hgBuf = p.hgBuf.map (fun e => { e with sentAt := s.ns }) ∧ (t.port pt).fruitless = p.fruitless + 1
        ∧ (t.port pt).state = p.state ∧ ∀ q, q ≠ pt → t.port q = s.port q)
      ∧ (8 ≤ p.fruitless + 1 → ∃ t, exec (.replayTimer pt) s = .next t ∧ (t.port pt).state = 0)) := by
  refine ⟨fun hh h3 hns => ?_, fun hh hns => ?_⟩
  · obtain ⟨g, hg, heq⟩ := replayed_link hh
    refine ⟨fun h8 => ⟨_, (replayTimer_due hk (.inr h3) hns).trans (if_neg (Nat.not_le.2 h8)), ?_⟩,
      fun h8 => ⟨_, (replayTimer_due hk (.inr h3) hns).trans (if_pos h8), ?_⟩⟩
    · rw [heq]
      exact ⟨rfl, rfl, rfl, by rw [List.length_append, hg], h3, fun q => replayed_other⟩
    · rw [linkLost_link (by rw [heq]; exact hh), State.setPort_same]
      exact ⟨rfl, rfl⟩
  · obtain ⟨g, -, heq⟩ := replayed_haggle hh
    refine ⟨fun h8 => ⟨_, (replayTimer_due hk (.inl hh) hns).trans (if_neg (Nat.not_le.2 h8)), ?_⟩,
      fun h8 => ⟨_, (replayTimer_due hk (.inl hh) hns).trans (if_pos h8), ?_⟩⟩
    · rw [heq]
      exact ⟨rfl, rfl, rfl, rfl, fun q => replayed_other⟩
    · rw [linkLost_haggle (by rw [heq]; exact hh), portDown_port]
      rfl

/-- Settles O44: one lemma per kind of frame, per deadline and per bit of the registers. -/
theorem linksAndPortConfiguration : Obligations.LinksAndPortConfiguration := by
  refine ⟨fun s pt f eff => ⟨recvSequenced_lost, recvSequenced_duplicate, recvSequenced_outside, recvSequenced_accepts,
      fun _ => recvSequenced_refuses, seqAct_accept_iff _ _, fun _ => ⟨answered_as_is, answered_idle⟩⟩, crcPasses_frameImage,
    fun s pt => ⟨fun f fixed => idleFrame_ignored, fun f fixed hr ht => ⟨fun hf => ?_, fun code hf => ?_, fun h => ?_⟩,
      fun raw errs => crcFailedFrame_ignored, fun raw errs => crcFailedFrame_nak,
      ⟨replayTimer_empty, fun e l hk => ⟨replayTimer_early hk, replayTimer_cases hk⟩⟩,
      fun f => reproofFrame_ignored, fun f hr ht => ⟨fun hf => ?_, fun code hf => ?_⟩, quarantineEnd_waits, fun t ht hle h6 => ?_,
      retryExpiry_waits, fun t ht h5 hle => ?_, retryAttempt_waits, retryAttempt_sends⟩,
    fun s pt w => ⟨?_, ⟨_, rfl, ?_⟩, fun h4 hd hs => ⟨fun h9 => ?_, fun h9 => ?_⟩, laneSweepStart_ignored,
      fun v h hs => laneSweepDone_ignored hs v h, fun v h hs => laneSweepDone_answers hs v h⟩⟩
  · rw [idleFrame_received hr ht, recvPlain_allowed hf]
    rfl
  · have htyp : f.typ ≠ 2 := by
      rintro h2
      rw [h2] at ht
      exact absurd ht (by decide)
    rw [idleFrame_received hr ht, recvPlain_refused hf, decide_eq_true htyp]
  · rw [countFixed_counts h, State.setPort_same]
    exact ⟨rfl, rfl⟩
  · rw [reproofFrame_received hr ht, recvPlain_allowed hf]
    rfl
  · rw [reproofFrame_received hr ht, recvPlain_refused hf, ht]
    rfl
  · refine ⟨_, quarantineEnd_haggles ht hle h6, ?_, ?_, ?_, fun q hq => State.setPort_port_of_ne hq _⟩
    all_goals rw [startHaggle_eq, State.setPort_same]; rfl
  · refine ⟨_, retryExpiry_down ht h5 hle, ?_⟩
    rw [portDown_port]
    exact ⟨rfl, rfl, rfl⟩
  · simp only [List.forall_mem_cons]
    refine ⟨rfl, ?_, rfl, rfl, rfl, fun _ h => absurd h List.not_mem_nil⟩
    show execPortDisable pt w s = _
    cases h : w.getLsbD 0
    · exact congrArg Host.Outcome.next (if_neg (ne_true_of_eq_false h))
    · exact congrArg Host.Outcome.next (if_pos h)
  · obtain ⟨henable, hcert, hlane, hcleared, hcounts⟩ := portCfgWrite_sets pt w s
    exact ⟨henable, hcert, hlane, hcleared, hcounts, portCfgWrite_ends pt w s⟩
  · rw [laneSweepStart_starts h4 hd hs, if_neg (Nat.not_le.2 h9)]
  · rw [laneSweepStart_starts h4 hd hs, if_pos h9]

end Sys2Proof.Machine
end

section
/-! PROOFS. The haggle (R324 to R327, R343): a partner's signal, haggle frames by their phase, and a certificate that does not come. -/
namespace Sys2Proof.Machine
open Sys2Proof

/-! ### HAGGLE frames sent (R324) -/

/-- A HAGGLE frame as it enters a port's haggle: typed, and under the haggle's own SEQ. -/
def Port.haggleFrame (p : Port) (f : Frame) : Frame := { f with typ := 3, seq := p.hgTx }

theorem emitHaggle_port (pt : Fin 16) (f : Frame) (s : State) : (emitHaggle pt f s).port pt = { s.port pt with
    sent := (s.port pt).sent ++ [(s.port pt).dress ((s.port pt).haggleFrame f)], hgTx := (s.port pt).hgTx + 1,
    hgBuf := (s.port pt).hgBuf ++ [⟨(s.port pt).haggleFrame f, s.ns⟩] } := State.modPort_same ..

/-- Byte 0x0C of a HAGGLE payload is its PHASE. -/
theorem hagglePayload_phase (s : State) (pt : Fin 16) {phase : Nat} (h : phase < 256) (tSend : Dword) (cert : List Byte) :
    fieldAt (hagglePayload s pt phase tSend cert) 0x0C 1 = phase := by
  have hhead (rest : List Byte) : fieldAt (fit frameBytes (haggleHead s pt phase ++ rest)) 0x0C 1 = phase := by
    simp [fieldAt, fit, frameBytes, haggleHead, leBytes, leNat, Nat.mod_eq_of_lt h]
  unfold hagglePayload
  simp only [List.append_assoc]
  exact hhead _

/-! ### A partner's signal (R325 steps 1 to 4) -/

/-- A port in a new haggle with its lanes trained: those that failed are marked, and leave the module degraded. -/
def lanesTrained (pt : Fin 16) (txFailed rxFailed : BitVec 9) (s : State) : State :=
  let s1 := (startHaggle pt s).modPort pt fun p => { p with txFailed := txFailed, rxFailed := rxFailed, signalAt := s.ns }
  if txFailed = 0 && rxFailed = 0 then s1 else setDegraded s1

theorem lanesTrained_port (pt : Fin 16) (txFailed rxFailed : BitVec 9) (s : State) : (lanesTrained pt txFailed rxFailed s).port pt =
    { (s.port pt).startsHaggle with txFailed := txFailed, rxFailed := rxFailed, signalAt := s.ns } := by
  unfold lanesTrained
  dsimp only
  split
  · rw [State.modPort_same, startHaggle_eq, State.setPort_same]
  · rw [setDegraded_port, State.modPort_same, startHaggle_eq, State.setPort_same]

theorem lanesTrained_degraded (pt : Fin 16) {txFailed rxFailed : BitVec 9} (h : txFailed ≠ 0 ∨ rxFailed ≠ 0) (s : State) :
    (lanesTrained pt txFailed rxFailed s).boot.degraded = true := by
  have hfailed : ¬ (decide (txFailed = 0) && decide (rxFailed = 0)) = true := by
    rw [Bool.and_eq_true, decide_eq_true_eq, decide_eq_true_eq]
    tauto
  unfold lanesTrained
  rw [if_neg hfailed]
  exact setDegraded_degraded _

/-- A port with the widths found, a fresh nonce and its buffers granted, about to send HELLO. -/
def helloReady (pt : Fin 16) (tx rx : Nat) (s : State) : State :=
  let a := s.fresh
  let b := a.2.fresh
  let grant (p : Port) (q : Nat) (x : Pool) : Pool := { x with freed := 0, granted := x.held.length + announce p (ix 16 q) }
  b.2.modPort pt fun p => { p with
    phase := 1, txLanes := tx, rxLanes := rx, nonce := (b.1.setWidth 128 : BitVec 128) ++ a.1, pools := p.pools.mapIdx fun q x => grant p q x }

theorem helloReady_port (pt : Fin 16) (tx rx : Nat) (s : State) : ∃ n g, (helloReady pt tx rx s).port pt =
    { s.port pt with phase := 1, txLanes := tx, rxLanes := rx, nonce := n, pools := g } := ⟨_, _, State.modPort_same ..⟩

/-- The HELLO of a port, as its haggle keeps it and as it goes out. -/
def keptHello (pt : Fin 16) (s : State) : Frame :=
  (s.port pt).haggleFrame { blankFrame with typ := 3, len := 224, payload := hagglePayload s pt 1 0 [] }
def sentHello (pt : Fin 16) (s : State) : Frame := (s.port pt).dress (keptHello pt s)

/-- HELLO goes out, and is kept. -/
def sendHello (pt : Fin 16) (s : State) : State :=
  emitHaggle pt { blankFrame with typ := 3, len := 224, payload := hagglePayload s pt 1 0 [] }
    (s.modPort pt fun p => { p with ownHello := hagglePayload s pt 1 0 [] })

theorem sendHello_port (pt : Fin 16) (s : State) : (sendHello pt s).port pt = { s.port pt with
    ownHello := (sentHello pt s).payload, sent := (s.port pt).sent ++ [sentHello pt s], hgTx := (s.port pt).hgTx + 1,
    hgBuf := (s.port pt).hgBuf ++ [⟨keptHello pt s, s.ns⟩] } := by
  rw [sendHello, emitHaggle_port, State.modPort_same]
  rfl

theorem partnerSignal_eq (pt : Fin 16) (tx rx : BitVec 9) (s : State) : exec (.partnerSignalDetect pt tx rx) s =
    if !((s.port pt).enable && 8 ≤ s.boot.step.toNat && !s.boot.recovery && s.pwr.mstate = 0)
      || !((s.port pt).state = 0 || ((s.port pt).state = 1 && (s.port pt).phase = 0)) then .next s
    else if widthOf tx = 0 || widthOf rx = 0 then .next (portDown pt 1 (lanesTrained pt tx rx s))
    else .next (sendHello pt (helloReady pt (widthOf tx) (widthOf rx) (lanesTrained pt tx rx s))) := rfl

theorem widthOf_zero : widthOf 0 = 8 := by decide

section Signal
variable {pt : Fin 16} {tx rx : BitVec 9} {s : State}

theorem partnerSignal_ignored (h : (s.port pt).enable = false ∨ s.boot.step.toNat < 8 ∨ s.boot.recovery = true ∨ s.pwr.mstate ≠ 0
    ∨ ((s.port pt).state ≠ 0 ∧ ((s.port pt).state ≠ 1 ∨ (s.port pt).phase ≠ 0))) : exec (.partnerSignalDetect pt tx rx) s = .next s := by
  rw [partnerSignal_eq]
  refine if_pos ?_
  simp only [Bool.or_eq_true, Bool.not_eq_true', Bool.and_eq_false_iff, Bool.or_eq_false_iff, decide_eq_false_iff_not, Bool.not_eq_false',
    Nat.not_le]
  tauto

variable (he : (s.port pt).enable = true) (h8 : 8 ≤ s.boot.step.toNat) (hr : s.boot.recovery = false) (hm : s.pwr.mstate = 0)
  (hs : (s.port pt).state = 0 ∨ ((s.port pt).state = 1 ∧ (s.port pt).phase = 0))
include he h8 hr hm hs

theorem partnerSignal_taken : exec (.partnerSignalDetect pt tx rx) s =
    if widthOf tx = 0 || widthOf rx = 0 then .next (portDown pt 1 (lanesTrained pt tx rx s))
    else .next (sendHello pt (helloReady pt (widthOf tx) (widthOf rx) (lanesTrained pt tx rx s))) := by
  rw [partnerSignal_eq]
  refine if_neg ?_
  simp only [Bool.or_eq_true, Bool.not_eq_true', Bool.and_eq_false_iff, Bool.or_eq_false_iff, decide_eq_false_iff_not, Bool.not_eq_false',
    Nat.not_le, he, hr, hm]
  obtain hs | ⟨hs, hp⟩ := hs
  · simp [hs, h8]
  · simp [hs, hp, h8]

theorem partnerSignal_hello (htx : widthOf tx ≠ 0) (hrx : widthOf rx ≠ 0) : ∃ t f, exec (.partnerSignalDetect pt tx rx) s = .next t
    ∧ (t.port pt).state = 1 ∧ (t.port pt).phase = 1 ∧ (t.port pt).txLanes = widthOf tx ∧ (t.port pt).rxLanes = widthOf rx
    ∧ (t.port pt).hgTx = 1 ∧ (t.port pt).sent = (s.port pt).sent ++ [f] ∧ f.typ = 3 ∧ hPhase f = 1 ∧ f.payload = (t.port pt).ownHello := by
  obtain ⟨n, g, hport⟩ := helloReady_port pt (widthOf tx) (widthOf rx) (lanesTrained pt tx rx s)
  rw [lanesTrained_port] at hport
  have hsend := sendHello_port pt (helloReady pt (widthOf tx) (widthOf rx) (lanesTrained pt tx rx s))
  rw [hport] at hsend
  refine ⟨_, sentHello pt (helloReady pt (widthOf tx) (widthOf rx) (lanesTrained pt tx rx s)),
    (partnerSignal_taken he h8 hr hm hs).trans (if_neg (by simp [htx, hrx])), ?_⟩
  rw [hsend]
  exact ⟨rfl, rfl, rfl, rfl, rfl, rfl, rfl, hagglePayload_phase _ _ (by decide) _ _, rfl⟩

theorem partnerSignal_down (hw : widthOf tx = 0 ∨ widthOf rx = 0) : ∃ t, exec (.partnerSignalDetect pt tx rx) s = .next t
    ∧ (t.port pt).state = 0 ∧ (t.port pt).txLanes = 0 ∧ t.boot.degraded = true := by
  refine ⟨_, (partnerSignal_taken he h8 hr hm hs).trans (if_pos (by simpa using hw)), ?_⟩
  have hfailed : tx ≠ 0 ∨ rx ≠ 0 := by
    refine hw.imp (fun h he => ?_) (fun h he => ?_) <;>
    · rw [he, widthOf_zero] at h
      exact absurd h (by decide)
  rw [portDown_port, portDown_boot]
  exact ⟨rfl, rfl, lanesTrained_degraded pt hfailed s⟩

end Signal

/-! ### Haggle frames by their phase -/

/-- A row that stands for a HAGGLE frame, with its PHASE and what it does in its place. -/
def HaggleRow (pt : Fin 16) (f : Frame) (k : Nat × Instr × (State → State)) : Prop :=
  k ∈ [(1, Instr.helloFrame pt f, onHello pt f), (2, .pingFrame pt f, fun t => sendHaggle pt 3 (hSend f) [] t),
    (3, .echoFrame pt f, onEcho pt f), (4, .certFrame pt f, onCert pt f), (5, .joinFrame pt f, onJoin pt f)]

theorem HaggleRow.exec_eq (pt : Fin 16) (f : Frame) (s : State) :
    ∀ k, HaggleRow pt f k → exec k.2.1 s = .next (recvHaggle pt f k.1 k.2.2 s) := by
  simp only [HaggleRow, List.forall_mem_cons]
  exact ⟨rfl, rfl, rfl, rfl, rfl, fun _ h => absurd h List.not_mem_nil⟩

/-- A HELLO of another partner while the port haggles with one it knows, or is linked to it. -/
def HelloOfAnother (p : Port) (f : Frame) (phase : Nat) : Prop :=
  phase = 1 ∧ (p.state = 2 ∨ (p.state = 1 ∧ 2 ≤ p.phase)) ∧ p.known = true ∧ samePartner p f = false
    ∧ frameFault { p with verAgreed := 0 } f = none

theorem HelloOfAnother.haggling {p : Port} {f : Frame} {phase : Nat} (h : HelloOfAnother p f phase) : p.haggling = true := by
  obtain ⟨-, h2 | ⟨h1, -⟩, -⟩ := h <;> simp [Port.haggling, *]

section Receive
variable {pt : Fin 16} {f : Frame} {phase : Nat} {eff : State → State} {s : State}

theorem recvHaggle_ignored (h : (s.port pt).receives = false ∨ f.typ ≠ 3 ∨ hPhase f ≠ phase) : recvHaggle pt f phase eff s = s := by
  refine if_pos ?_
  simp only [Bool.or_eq_true, Bool.not_eq_true', decide_eq_true_eq]
  tauto

variable (hr : (s.port pt).receives = true) (ht : f.typ = 3) (hp : hPhase f = phase)
include hr ht hp

theorem recvHaggle_taken : recvHaggle pt f phase eff s =
    if phase = 1 && ((s.port pt).state = 2 || ((s.port pt).state = 1 && 2 ≤ (s.port pt).phase)) && (s.port pt).known
      && !samePartner (s.port pt) f && (frameFault { s.port pt with verAgreed := 0 } f).isNone then startHaggle pt s
    else if !(s.port pt).haggling then
      (if phase = 1 && (frameFault { s.port pt with verAgreed := 0 } f).isNone then startHaggle pt s
      else if phase = 5 && (s.port pt).state = 3 && f.seq = (s.port pt).hgRx then
        recvSequenced pt f eff (sendJoin pt (s.setPort pt { s.port pt with state := 2, phase := 5 }))
      else s)
    else recvSequenced pt f eff s := by
  refine if_neg ?_
  simp [hr, ht, hp]

theorem recvHaggle_another (h : HelloOfAnother (s.port pt) f phase) : recvHaggle pt f phase eff s = startHaggle pt s := by
  rw [recvHaggle_taken hr ht hp]
  obtain ⟨h1, hs, hk, hsame, hf⟩ := h
  refine if_pos ?_
  simp only [Bool.and_eq_true, Bool.or_eq_true, decide_eq_true_eq, Bool.not_eq_true', Option.isNone_iff_eq_none]
  exact ⟨⟨⟨⟨h1, hs⟩, hk⟩, hsame⟩, hf⟩

theorem recvHaggle_same (h : ¬ HelloOfAnother (s.port pt) f phase) : recvHaggle pt f phase eff s =
    if !(s.port pt).haggling then
      (if phase = 1 && (frameFault { s.port pt with verAgreed := 0 } f).isNone then startHaggle pt s
      else if phase = 5 && (s.port pt).state = 3 && f.seq = (s.port pt).hgRx then
        recvSequenced pt f eff (sendJoin pt (s.setPort pt { s.port pt with state := 2, phase := 5 }))
      else s)
    else recvSequenced pt f eff s := by
  rw [recvHaggle_taken hr ht hp]
  refine if_neg fun hb => h ?_
  simp only [Bool.and_eq_true, Bool.or_eq_true, decide_eq_true_eq, Bool.not_eq_true', Option.isNone_iff_eq_none] at hb
  obtain ⟨⟨⟨⟨h1, hs⟩, hk⟩, hsame⟩, hf⟩ := hb
  exact ⟨h1, hs, hk, hsame, hf⟩

theorem recvHaggle_haggling (h : ¬ HelloOfAnother (s.port pt) f phase) (hh : (s.port pt).haggling = true) :
    recvHaggle pt f phase eff s = recvSequenced pt f eff s := by
  rw [recvHaggle_same hr ht hp h, hh]
  rfl

variable (hh : (s.port pt).haggling = false)
include hh

theorem recvHaggle_linked : recvHaggle pt f phase eff s =
    if phase = 1 ∧ frameFault { s.port pt with verAgreed := 0 } f = none then startHaggle pt s
    else if phase = 5 ∧ (s.port pt).state = 3 ∧ f.seq = (s.port pt).hgRx then
      recvSequenced pt f eff (sendJoin pt (s.setPort pt { s.port pt with state := 2, phase := 5 }))
    else s := by
  rw [recvHaggle_same hr ht hp fun h => by rw [h.haggling] at hh; exact absurd hh (by decide), hh]
  simp only [Bool.not_false, if_true, Bool.and_eq_true, decide_eq_true_eq, Option.isNone_iff_eq_none, and_assoc]

end Receive

/-! ### A certificate that does not come (R326) -/

@[simp] theorem portBlock_port (pt : Fin 16) (cause : BitVec 3) (s : State) :
    (portBlock pt cause s).port pt = { s.port pt with state := 7, blockCause := cause } := by simp [portBlock]

theorem certTimeout_blocks {pt : Fin 16} {s : State} (h1 : (s.port pt).state = 1) (h4 : (s.port pt).phase = 4)
    (hns : (s.port pt).signalAt + 70000000 ≤ s.ns) : exec (.certTimeout pt) s = .next (portBlock pt 3 s) := by
  show execCertTimeout pt s = _
  exact if_pos (by simp [h1, h4, hns])

theorem certTimeout_waits {pt : Fin 16} {s : State} (h : (s.port pt).state ≠ 1 ∨ (s.port pt).phase ≠ 4
    ∨ s.ns < (s.port pt).signalAt + 70000000) : exec (.certTimeout pt) s = .next s := by
  show execCertTimeout pt s = _
  refine if_neg ?_
  simp only [Bool.and_eq_true, decide_eq_true_eq, not_and, Nat.not_le]
  tauto

end Sys2Proof.Machine
end

section
/-! PROOFS. Retrains and failing lanes (R339 to R343), and the statement on the life of a port. -/
namespace Sys2Proof.Machine
open Sys2Proof

/-! ### Retrain frames (R339, R343) -/

section Receive
variable {pt : Fin 16} {f : Frame} {phase : Nat} {eff : State → State} {s : State}

theorem recvRetrain_ignored (h : (s.port pt).receives = false ∨ f.typ ≠ 4 ∨ hPhase f ≠ phase ∨ (s.port pt).state.toNat < 3
    ∨ 5 < (s.port pt).state.toNat) : recvRetrain pt f phase eff s = s := by
  refine if_pos ?_
  simp only [Bool.or_eq_true, Bool.not_eq_true', decide_eq_true_eq, Bool.and_eq_false_iff, decide_eq_false_iff_not, Nat.not_le]
  tauto

variable (hr : (s.port pt).receives = true) (ht : f.typ = 4) (hp : hPhase f = phase) (h3 : 3 ≤ (s.port pt).state.toNat)
  (h5 : (s.port pt).state.toNat ≤ 5)
include hr ht hp h3 h5

theorem recvRetrain_taken : recvRetrain pt f phase eff s = match frameFault (s.port pt) f with
    | some _ => recvPlain pt f id s
    | none => if samePartner (s.port pt) f then recvPlain pt f eff s else startHaggle pt s := by
  refine (if_neg ?_).trans (by rfl)
  simp only [Bool.or_eq_true, Bool.not_eq_true', decide_eq_true_eq, Bool.and_eq_false_iff, decide_eq_false_iff_not, hr, ht, hp, h3, h5]
  simp

theorem recvRetrain_refused {code : Nat} (hf : frameFault (s.port pt) f = some code) :
    recvRetrain pt f phase eff s = answered pt s (violation pt code true f (heard pt s)) := by
  rw [recvRetrain_taken hr ht hp h3 h5, hf]
  rw [recvPlain_refused hf, ht]
  rfl

theorem recvRetrain_another (hf : frameFault (s.port pt) f = none) (hs : samePartner (s.port pt) f = false) :
    recvRetrain pt f phase eff s = startHaggle pt s := by
  rw [recvRetrain_taken hr ht hp h3 h5, hf]
  exact if_neg (ne_true_of_eq_false hs)

theorem recvRetrain_known (hf : frameFault (s.port pt) f = none) (hs : samePartner (s.port pt) f = true) :
    recvRetrain pt f phase eff s = answered pt s (eff (linkFields pt f s)) := by
  rw [recvRetrain_taken hr ht hp h3 h5, hf]
  exact (if_pos hs).trans (recvPlain_allowed hf)

end Receive

/-- What a retrain frame of PHASE 6 does: the port retrains, and returns T_SEND (R339). -/
def onRetrain (pt : Fin 16) (f : Frame) (t : State) : State :=
  sendRetrain pt 7 (hSend f) ((enterRetrain pt t).setPort pt { (enterRetrain pt t).port pt with peerNext := hRxNext f })

/-- An echo is a flight sample, and says what the partner expects next. -/
def sampled (pt : Fin 16) (f : Frame) (t : State) : State := t.setPort pt { t.port pt with
  samples := (t.port pt).samples ++ [flightSample (t.port pt) t.time.mt (hSend f)], peerNext := hRxNext f }

/-- What a retrain frame of PHASE 7 does: at the sixteenth sample the retrain is done. -/
def onRetrainEcho (pt : Fin 16) (f : Frame) (t : State) : State :=
  if (t.port pt).state = 3 then t else if (t.port pt).samples.length + 1 < 16 then sampled pt f t else retrainDone pt (sampled pt f t)

theorem retrainFrame_eq (pt : Fin 16) (f : Frame) (s : State) :
    exec (.retrainFrame pt f) s = .next (recvRetrain pt f 6 (onRetrain pt f) s) := rfl

theorem retrainEcho_eq (pt : Fin 16) (f : Frame) (s : State) :
    exec (.retrainEcho pt f) s = .next (recvRetrain pt f 7 (onRetrainEcho pt f) s) := rfl

theorem retrainFrames_exec (pt : Fin 16) (f : Frame) (s : State) : ∀ k ∈ [(6, Instr.retrainFrame pt f), (7, .retrainEcho pt f)],
    ∃ eff, exec k.2 s = .next (recvRetrain pt f k.1 eff s) := by
  simp only [List.forall_mem_cons]
  exact ⟨⟨_, retrainFrame_eq pt f s⟩, ⟨_, retrainEcho_eq pt f s⟩, fun _ h => absurd h List.not_mem_nil⟩

/-! ### Lanes that fail (R339, R340) -/

/-- The lanes of a direction that have failed: from the partner, or toward it. -/
def Port.failed (p : Port) (rx : Bool) : BitVec 9 := if rx then p.rxFailed else p.txFailed

/-- The lanes of a direction in use. -/
def Port.lanes (p : Port) (rx : Bool) : Nat := if rx then p.rxLanes else p.txLanes

/-- A port with the failed lanes of a direction, and the width they leave. -/
def Port.setLanes (rx : Bool) (now : BitVec 9) (width : Nat) (p : Port) : Port :=
  if rx then { p with rxFailed := now, rxLanes := width } else { p with txFailed := now, txLanes := width }

theorem Port.setLanes_spec (rx : Bool) (now : BitVec 9) (width : Nat) (p : Port) : (p.setLanes rx now width).state = p.state
    ∧ (p.setLanes rx now width).failed rx = now ∧ (p.setLanes rx now width).lanes rx = width := by
  cases rx <;> exact ⟨rfl, rfl, rfl⟩

/-- The width a set of failed lanes leaves a port: half where it was narrowed (R340, R341). -/
def Port.widthWith (p : Port) (now : BitVec 9) : Nat := if p.narrowed && widthOf now ≠ 0 then 4 else widthOf now

/-- The failed lanes of a direction with one more. -/
def Port.failing (p : Port) (rx : Bool) (lane : Fin 9) : BitVec 9 := p.failed rx ||| BitVec.ofNat 9 (2 ^ lane.val)

/-- A lane has left the lanes in use, and the module is degraded. -/
def laneLost (pt : Fin 16) (rx : Bool) (lane : Fin 9) (s : State) : State :=
  let now := (s.port pt).failing rx lane
  let w := (s.port pt).widthWith now
  setDegraded (portEvent pt 0x0503 1 [BitVec.ofNat 8 lane.val, BitVec.ofNat 8 (b2n rx), BitVec.ofNat 8 w]
    (s.setPort pt ((s.port pt).setLanes rx now w)))

theorem laneLost_port (pt : Fin 16) (rx : Bool) (lane : Fin 9) (s : State) : (laneLost pt rx lane s).port pt =
    (s.port pt).setLanes rx ((s.port pt).failing rx lane) ((s.port pt).widthWith ((s.port pt).failing rx lane)) := by
  rw [laneLost, setDegraded_port, portEvent_port, State.setPort_same]

section Lane
variable {pt : Fin 16} {rx : Bool} {lane : Fin 9} {s : State}

theorem laneFail_eq : exec (.laneFail pt rx lane) s = .next
    (if !((s.port pt).state = 3 || (s.port pt).state = 4) || ((s.port pt).failed rx).getLsbD lane.val then s
    else if (s.port pt).widthWith ((s.port pt).failing rx lane) = 0 then portDown pt 1 (laneLost pt rx lane s)
    else enterRetrain pt (laneLost pt rx lane s)) := rfl

theorem laneFail_ignored (h : ((s.port pt).state ≠ 3 ∧ (s.port pt).state ≠ 4) ∨ ((s.port pt).failed rx).getLsbD lane.val = true) :
    exec (.laneFail pt rx lane) s = .next s := by
  rw [laneFail_eq]
  refine congrArg Host.Outcome.next (if_pos ?_)
  simp only [Bool.or_eq_true, Bool.not_eq_true', Bool.or_eq_false_iff, decide_eq_false_iff_not]
  exact h

variable (hs : (s.port pt).state = 3 ∨ (s.port pt).state = 4) (hl : ((s.port pt).failed rx).getLsbD lane.val = false)
include hs hl

theorem laneFail_taken : exec (.laneFail pt rx lane) s = .next
    (if (s.port pt).widthWith ((s.port pt).failing rx lane) = 0 then portDown pt 1 (laneLost pt rx lane s)
    else enterRetrain pt (laneLost pt rx lane s)) := by
  rw [laneFail_eq]
  refine congrArg Host.Outcome.next (if_neg ?_)
  simp only [Bool.or_eq_true, Bool.not_eq_true', Bool.or_eq_false_iff, decide_eq_false_iff_not, hl]
  tauto

theorem laneFail_down (hw : widthOf ((s.port pt).failing rx lane) = 0) : ∃ t, exec (.laneFail pt rx lane) s = .next t
    ∧ (t.port pt).state = 0 ∧ t.boot.degraded = true := by
  have hnone : (s.port pt).widthWith ((s.port pt).failing rx lane) = 0 := by simp [Port.widthWith, hw]
  refine ⟨_, (laneFail_taken hs hl).trans (congrArg _ (if_pos hnone)), ?_⟩
  rw [portDown_port, portDown_boot]
  exact ⟨rfl, setDegraded_degraded _⟩

/-- A port with lanes enough goes on, retraining, over what is left. -/
theorem laneFail_retrains (hw : widthOf ((s.port pt).failing rx lane) ≠ 0) : ∃ t, exec (.laneFail pt rx lane) s = .next t
    ∧ (t.port pt).state = 4 ∧ t.boot.degraded = true ∧ (t.port pt).failed rx = (s.port pt).failing rx lane
    ∧ (t.port pt).lanes rx = if (s.port pt).narrowed then 4 else widthOf ((s.port pt).failing rx lane) := by
  have hwidth : (s.port pt).widthWith ((s.port pt).failing rx lane)
      = if (s.port pt).narrowed then 4 else widthOf ((s.port pt).failing rx lane) := by
    cases hn : (s.port pt).narrowed <;> simp [Port.widthWith, hn, hw]
  have hsome : (s.port pt).widthWith ((s.port pt).failing rx lane) ≠ 0 := by
    rw [hwidth]
    split
    · decide
    · exact hw
  obtain ⟨hstate, hfailed, hlanes⟩ := Port.setLanes_spec rx ((s.port pt).failing rx lane)
    ((s.port pt).widthWith ((s.port pt).failing rx lane)) (s.port pt)
  rw [← laneLost_port] at hstate hfailed hlanes
  refine ⟨_, (laneFail_taken hs hl).trans (congrArg _ (if_neg hsome)), ?_⟩
  rw [enterRetrain_boot]
  obtain h3 | h4 := hs
  · obtain ⟨⟨l, -, heq⟩, -⟩ := enterRetrain_port (hstate.trans h3)
    rw [heq]
    exact ⟨rfl, setDegraded_degraded _, hfailed, hlanes.trans hwidth⟩
  · rw [enterRetrain_not_up (by rw [hstate, h4]; decide)]
    exact ⟨hstate.trans h4, setDegraded_degraded _, hfailed, hlanes.trans hwidth⟩

end Lane

/-! ### The statement -/

/-- Settles O45: haggle and retrain frames come in by their phase and their partner, signals and lanes by the port's state. -/
theorem portsHaggleAndRetrain : Obligations.PortsHaggleAndRetrain := by
  refine ⟨fun s pt => ⟨fun tx rx => partnerSignal_ignored, fun tx rx he h8 hr hm hs => ⟨partnerSignal_hello he h8 hr hm hs,
      partnerSignal_down he h8 hr hm hs⟩, fun f k hk => ?_, fun h1 h4 hns => ⟨_, certTimeout_blocks h1 h4 hns, ?_⟩, certTimeout_waits⟩,
    fun s pt => ⟨fun f k hk => ?_, fun f hr ht h3 h5 hf hs => ⟨fun hp => ?_, fun hp hup => ?_, fun hp hup => ⟨fun h15 => ?_, fun h15 => ?_⟩⟩,
      fun hup => ?_, fun hup => congrArg _ (enterRetrain_not_up hup), fun rx lane => laneFail_ignored,
      fun rx lane hs hl => ⟨laneFail_down hs hl, laneFail_retrains hs hl⟩⟩⟩
  · rw [HaggleRow.exec_eq pt f s k hk]
    refine ⟨fun h => congrArg _ (recvHaggle_ignored h), fun hr ht hp => ⟨fun h => congrArg _ (recvHaggle_another hr ht hp h),
      fun h hh => congrArg _ (recvHaggle_haggling hr ht hp h hh), fun hh hq hf h => ?_, fun hh h1 hf => ?_, fun hh h5 h3 hq => ?_,
      fun hh h1 h5 => ?_⟩⟩
    · rw [recvHaggle_haggling hr ht hp h hh,
        recvSequenced_accepts ((seqAct_accept_iff _ _).2 (hq.trans (Port.expects_haggling hh).symm)) hf]
    · rw [recvHaggle_linked hr ht hp hh, if_pos ⟨h1, hf⟩]
    · rw [recvHaggle_linked hr ht hp hh, if_neg fun h => by rw [h5] at h; exact absurd h.1 (by decide), if_pos ⟨h5, h3, hq⟩]
    · rw [recvHaggle_linked hr ht hp hh, if_neg fun h => h1 h.1 h.2, if_neg fun h => (h5 h.1).elim (· h.2.1) (· h.2.2)]
  · rw [portBlock_port]
    exact ⟨rfl, rfl⟩
  · obtain ⟨eff, heff⟩ := retrainFrames_exec pt f s k hk
    rw [heff]
    exact ⟨fun h => congrArg _ (recvRetrain_ignored h), fun hr ht hp h3 h5 => ⟨fun code hf => congrArg _ (recvRetrain_refused hr ht hp h3 h5 hf),
      fun hf hs => congrArg _ (recvRetrain_another hr ht hp h3 h5 hf hs)⟩⟩
  · rw [retrainFrame_eq, recvRetrain_known hr ht hp h3 h5 hf hs]
    rfl
  · rw [retrainEcho_eq, recvRetrain_known hr ht hp h3 h5 hf hs, onRetrainEcho, if_pos hup]
  · rw [retrainEcho_eq, recvRetrain_known hr ht hp h3 h5 hf hs, onRetrainEcho, if_neg hup, if_pos (by omega)]
    rfl
  · rw [retrainEcho_eq, recvRetrain_known hr ht hp h3 h5 hf hs, onRetrainEcho, if_neg hup, if_neg (by omega)]
    rfl
  · obtain ⟨⟨l, hl, heq⟩, hother⟩ := enterRetrain_port hup
    refine ⟨_, rfl, ?_⟩
    rw [heq]
    exact ⟨rfl, by rw [List.length_append, hl], rfl, hother⟩

end Sys2Proof.Machine
end

section
/-! PROOFS. What partners' requests and their responses do (R320, R321, R323, R344). -/
namespace Sys2Proof.Machine
open Sys2Proof

/-! ### The ports of a local store -/

theorem AskOnly.mach_eq {s t : State} (h : AskOnly s t) : t.mach = s.mach := by rw [h]

theorem AskOnly.mem_eq {s t : State} (h : AskOnly s t) : t.gddr.mem = s.gddr.mem := by rw [h]

theorem lsAccept_ls (o : TxnOwner) (write : Bool) (c : Fin 384) (a n : Nat) (s : State) (d : Fin 384) :
    ((lsAccept o write c a n s).core d).ls = (s.core d).ls := by
  simp only [lsAccept]
  split
  · rfl
  · by_cases h : c = d
    · subst h
      rw [State.modCore_same, addReqs_eq]
    · rw [State.modCore_other _ _ _ _ h]

theorem lsAccept_core_other (o : TxnOwner) (write : Bool) {c d : Fin 384} (h : c ≠ d) (a n : Nat) (s : State) :
    (lsAccept o write c a n s).core d = s.core d := by
  simp only [lsAccept]
  split
  · rfl
  · exact State.modCore_other _ _ _ _ h

theorem lsAccept_gddr (o : TxnOwner) (write : Bool) (c : Fin 384) (a n : Nat) (s : State) : (lsAccept o write c a n s).gddr = s.gddr := by
  simp only [lsAccept]
  split <;> rfl

/-! ### Bytes stored at a place, with the requests that storing them makes -/

/-- Bytes go to a place and the write is presented there. -/
def storeAt (o : TxnOwner) (cls : Nat) (p : Place) (n : Nat) (bs : List MByte) (s : State) : State :=
  acceptAt o cls true p n (writePlace p bs s)

section
variable (o : TxnOwner) (cls n : Nat) (bs : List MByte) (s : State)

theorem storeAt_ls_core_other {c d : Fin 384} (h : d ≠ c) (a : Nat) : (storeAt o cls (.ls c a) n bs s).core d = s.core d :=
  (lsAccept_core_other o true h.symm a n _).trans (by rw [writePlace_ls_core, if_neg h.symm])

theorem storeAt_ls_gddr (c : Fin 384) (a : Nat) : (storeAt o cls (.ls c a) n bs s).gddr = s.gddr := lsAccept_gddr ..

theorem storeAt_mach (p : Place) : (storeAt o cls p n bs s).mach = s.mach := by
  rw [storeAt, (acceptAt_askOnly o cls true p n _).mach_eq, writePlace_eq]

theorem storeAt_ls_get {c : Fin 384} (a : Nat) (h : (s.core c).ls.wf = true) {i : Nat} (hi : i < bs.length) :
    ((storeAt o cls (.ls c a) n bs s).core c).ls.get (a + i) = bs[i].1 :=
  (congrArg (fun m : Memory => m.get (a + i)) (lsAccept_ls o true c a n _ c)).trans (writePlace_ls_get a bs h hi)

theorem storeAt_ls_get_outside {c : Fin 384} {a b : Nat} (h : b < a ∨ a + bs.length ≤ b) :
    ((storeAt o cls (.ls c a) n bs s).core c).ls.get b = (s.core c).ls.get b :=
  (congrArg (fun m : Memory => m.get b) (lsAccept_ls o true c a n _ c)).trans (writePlace_ls_get_outside h s)

theorem storeAt_gddr (h : s.gddr.failedCh = 0) (a : Nat) : (storeAt o cls (.gddr a) n bs s).gddr.mem = s.gddr.mem.putBytes a (plain bs)
    ∧ (storeAt o cls (.gddr a) n bs s).cores = s.cores := by
  obtain ⟨hmem, hcores⟩ := writePlace_gddr_frame h a bs
  exact ⟨(acceptAt_askOnly o cls true (.gddr a) n _).mem_eq.trans hmem, (gdAccept_cores ..).trans hcores⟩

end

/-- The bytes that a frame carries, each with its mark. -/
def carried (f : Frame) : List MByte := (f.payload.take f.len.toNat).map fun b => (b, f.poison)

theorem carried_length {f : Frame} (h : f.len.toNat ≤ f.payload.length) : (carried f).length = f.len.toNat := by simp [carried, h]

theorem plain_carried (f : Frame) : plain (carried f) = f.payload.take f.len.toNat := by
  simp [plain, carried, Function.comp_def]

/-- What a local store holds once the bytes of a frame stand there, and what the other cores keep. -/
theorem storeAt_carried_ls (o : TxnOwner) (cls n : Nat) {f : Frame} (h : f.len.toNat ≤ f.payload.length) (c : Fin 384) (a : Nat) (s : State) :
    (let t := storeAt o cls (.ls c a) n (carried f) s
    ((s.core c).ls.wf = true → ∀ i, i < f.len.toNat → (t.core c).ls.get (a + i) = f.payload.getD i 0)
    ∧ (∀ b, b < a ∨ a + f.len.toNat ≤ b → (t.core c).ls.get b = (s.core c).ls.get b)
    ∧ ∀ c', c' ≠ c → t.core c' = s.core c') := by
  have hn := carried_length h
  refine ⟨fun hwf i hi => ?_, fun b hb => storeAt_ls_get_outside o cls n _ s (hn ▸ hb), fun c' hc => storeAt_ls_core_other o cls n _ s hc a⟩
  rw [storeAt_ls_get o cls n _ s a hwf (hn ▸ hi)]
  simp [carried, List.getElem?_eq_getElem (hi.trans_le h)]

/-! ### WRITE (R320, R321) -/

/-- The local injection queues after a frame depend on the queues before it and on the module's address alone. -/
theorem inject_inject_congr {s t : State} (hq : t.mach.inject = s.mach.inject) (hl : t.mach.logical = s.mach.logical) (f : Frame) :
    (inject f t).mach.inject = (inject f s).mach.inject := by
  simp only [inject, State.setMach_mach, hq, hl]

section Write
variable {f : Frame} {s : State}

/-- The record of a WRITE's transaction with one frame less to come. -/
def onceMore (s : State) (f : Frame) : Inbound := { inboundOf s f with left := (inboundOf s f).left - 1 }

theorem onWrite_dead (h : (inboundOf s f).dead = true) : ∃ x, onWrite f s = setInbound x s := by
  simp only [onWrite]
  split <;> exact ⟨_, if_pos h⟩

theorem onWrite_refused {x : Nat} (hx : reqFault s f f.len.toNat = some x) (h : (inboundOf s f).dead = false) :
    onWrite f s = inject (rejectFrame s f x 0) (setInbound { onceMore s f with dead := true } s) := by
  simp [onWrite, hx, h, onceMore]

theorem onWrite_stored (hx : reqFault s f f.len.toNat = none) (h : (inboundOf s f).dead = false) :
    (let t := storeAt (.peer f.src f.tag) 0 (framePlace f) f.len.toNat (carried f) (setInbound (onceMore s f) s)
    onWrite f s = if (inboundOf s f).left - 1 = 0 then inject (respFrame s 0x11 f.src f.tag []) t else t) := by
  simp [onWrite, hx, h, onceMore, storeAt, carried]

/-- An accepted WRITE frame has the cores and the memory of its bytes stored. -/
theorem onWrite_spaces (hx : reqFault s f f.len.toNat = none) (h : (inboundOf s f).dead = false) :
    (let t := storeAt (.peer f.src f.tag) 0 (framePlace f) f.len.toNat (carried f) (setInbound (onceMore s f) s)
    (onWrite f s).cores = t.cores ∧ (onWrite f s).gddr = t.gddr) := by
  rw [onWrite_stored hx h]
  split <;> exact ⟨rfl, rfl⟩

/-- The last frame of a WRITE is answered with WRITE_DONE, the others are not answered. -/
theorem onWrite_answer (hx : reqFault s f f.len.toNat = none) (h : (inboundOf s f).dead = false) :
    ((inboundOf s f).left = 1 → (onWrite f s).mach.inject = (inject (respFrame s 0x11 f.src f.tag []) s).mach.inject)
    ∧ ((inboundOf s f).left ≠ 1 → (inboundOf s f).left ≠ 0 → (onWrite f s).mach.inject = s.mach.inject) := by
  rw [onWrite_stored hx h]
  refine ⟨fun h1 => ?_, fun h1 h0 => ?_⟩
  · rw [if_pos (by omega)]
    exact inject_inject_congr (by rw [storeAt_mach]; rfl) (by rw [storeAt_mach]; rfl) _
  · rw [if_neg (by omega), storeAt_mach]
    rfl

theorem core_of_cores {s t : State} (h : t.cores = s.cores) (c : Fin 384) : t.core c = s.core c := congrArg (fun v : Vector Core 384 => v[c]) h

theorem onWrite_ls {c : Fin 384} {a : Nat} (hx : reqFault s f f.len.toNat = none) (hp : framePlace f = .ls c a)
    (hlen : f.len.toNat ≤ f.payload.length) (hd : (inboundOf s f).dead = false) :
    ((s.core c).ls.wf = true → ∀ i, i < f.len.toNat → ((onWrite f s).core c).ls.get (a + i) = f.payload.getD i 0)
    ∧ (∀ b, b < a ∨ a + f.len.toNat ≤ b → ((onWrite f s).core c).ls.get b = (s.core c).ls.get b)
    ∧ (∀ c', c' ≠ c → (onWrite f s).core c' = s.core c') ∧ (onWrite f s).gddr = s.gddr := by
  obtain ⟨hcores, hgddr⟩ := onWrite_spaces hx hd
  obtain ⟨hget, hout, hother⟩ :=
    storeAt_carried_ls (.peer f.src f.tag) 0 f.len.toNat hlen c a (setInbound (onceMore s f) s)
  simp only [core_of_cores hcores, hgddr, hp]
  exact ⟨hget, hout, hother, storeAt_ls_gddr ..⟩

theorem onWrite_gddr {a : Nat} (hx : reqFault s f f.len.toNat = none) (hp : framePlace f = .gddr a)
    (hlen : f.len.toNat ≤ f.payload.length) (hd : (inboundOf s f).dead = false) (hch : s.gddr.failedCh = 0) (hwf : s.gddr.mem.wf = true) :
    (∀ i, i < f.len.toNat → (onWrite f s).gddr.mem.get (a + i) = f.payload.getD i 0)
    ∧ (∀ b, b < a ∨ a + f.len.toNat ≤ b → (onWrite f s).gddr.mem.get b = s.gddr.mem.get b) ∧ (onWrite f s).cores = s.cores := by
  obtain ⟨hcores, hgddr⟩ := onWrite_spaces hx hd
  obtain ⟨hmem, hsame⟩ := storeAt_gddr (.peer f.src f.tag) 0 f.len.toNat (carried f) (setInbound (onceMore s f) s) hch a
  rw [hp] at hcores hgddr
  rw [hcores, hgddr, hmem, plain_carried]
  have hn : (f.payload.take f.len.toNat).length = f.len.toNat := List.length_take_of_le hlen
  refine ⟨fun i hi => ?_, fun b hb => Memory.get_putBytes_other _ _ _ _ (by rwa [hn]), hsame⟩
  exact (Memory.get_putBytes_same _ _ _ _ hwf (by rwa [hn])).trans (by simp [List.getElem?_eq_getElem (hi.trans_le hlen)])

end Write

/-- A request of another epoch is answered as restarted, whatever it asks for (R344). -/
theorem reqFault_stale {s : State} {f : Frame} (h0 : f.destEpoch ≠ 0) (h : f.destEpoch ≠ bits s.boot.epoch 0 16) (n : Nat) :
    reqFault s f n = some 1 := if_pos (Bool.and_eq_true_iff.2 ⟨decide_eq_true h0, decide_eq_true h⟩)

/-! ### READ (R320) -/

/-- A partner's only read that waits is answered once its requests are served. -/
theorem servePeers_one {f : Frame} {s : State} (h : s.mach.serving = [f]) :
    servePeers s = if asking s (.peer f.src f.tag) then s else answerRead f (s.setMach { s.mach with serving := [] }) := by
  simp [servePeers, h, forAll]

section Read
variable {f : Frame} {s : State}

/-- A READ that has presented its requests and waits for them. -/
def readAsked (f : Frame) (s : State) : State :=
  let s1 := acceptAt (.peer f.src f.tag) 0 false (framePlace f) (pay f 0 4) s
  s1.setMach { s1.mach with serving := [f] }

theorem onRead_tooLong (h : txnBytes < pay f 0 4) : onRead f s = inject (rejectFrame s f 4 0) s := if_pos h

theorem onRead_refused {x : Nat} (hn : pay f 0 4 ≤ txnBytes) (hx : reqFault s f (pay f 0 4) = some x) :
    onRead f s = inject (rejectFrame s f x 0) s := by
  simp [onRead, Nat.not_lt.2 hn, hx]

theorem onRead_asks (hn : pay f 0 4 ≤ txnBytes) (hx : reqFault s f (pay f 0 4) = none) (he : s.mach.serving = []) :
    onRead f s = if asking (readAsked f s) (.peer f.src f.tag) then readAsked f s
      else answerRead f ((readAsked f s).setMach { (readAsked f s).mach with serving := [] }) := by
  have hs : (acceptAt (.peer f.src f.tag) 0 false (framePlace f) (pay f 0 4) s).mach.serving = [] := by
    rw [(acceptAt_askOnly ..).mach_eq, he]
  rw [← servePeers_one (s := readAsked f s) rfl]
  simp [onRead, Nat.not_lt.2 hn, hx, hs, readAsked]

end Read

/-! ### Transactions that end (R323, R344) -/

@[simp] theorem modCtx_mach (r : Fin 256) (idx : Nat) (f : DescCtx → DescCtx) (s : State) : (modCtx r idx f s).mach = s.mach := rfl

@[simp] theorem finishDesc_mach (r : Fin 256) (idx : Nat) (status : Byte) (detail : Half) (result : Dword) (s : State) :
    (finishDesc r idx status detail result s).mach = s.mach := by rw [finishDesc_eq]

theorem txnEnded_mach (t : Txn) (status : Byte) (detail : Half) (s : State) : (txnEnded t status detail s).mach = s.mach := by
  unfold txnEnded
  split
  · rfl
  · split
    · rfl
    · simp only [apply_ite State.mach, finishDesc_mach, modCtx_mach, ite_self]
  · rfl

theorem txnEnded_unowned {t : Txn} (h : t.owner = .none) (status : Byte) (detail : Half) (s : State) : txnEnded t status detail s = s := by
  simp [txnEnded, h]

theorem closeTxn_txns (t : Txn) (status : Byte) (detail : Half) (s : State) :
    (closeTxn t status detail s).mach.txns = s.mach.txns.filter fun x => x.tag ≠ t.tag := by
  rw [closeTxn, txnEnded_mach, State.setMach_mach]

theorem transactionTimeout_eq {s : State} {y : Nat} {t : Txn} (h : s.mach.txns[y]? = some t) :
    exec (.transactionTimeout y) s = .next (if t.sent && t.at_ + 200000000 ≤ s.ns then closeTxn t 0x12 t.dest s else s) := by
  show execTransactionTimeout y s = _
  rw [execTransactionTimeout, h]
  rfl

/-! ### Responses (R320, R321, R334) -/

section Response
variable {f : Frame} {s : State} {t : Txn}

theorem onWriteDone_closes (h : txnFor s f = some t) (hr : t.isRead = false) (hd : t.dest = f.src) : onWriteDone f s = closeTxn t 0x00 0 s := by
  simp [onWriteDone, h, hr, hd, stOk]

theorem onWriteDone_ignored (h : txnFor s f = some t) (hr : t.isRead = true ∨ t.dest ≠ f.src) : onWriteDone f s = s := by
  obtain hr | hr := hr <;> simp [onWriteDone, h, hr]

theorem onReadData_ignored (h : txnFor s f = some t) (hr : t.isRead = false ∨ t.dest ≠ f.src ∨ t.len < f.addr.toNat + f.len.toNat) :
    onReadData f s = s := by
  obtain hr | hr | hr := hr <;> simp [onReadData, h, hr]

/-- A transaction with the bytes that a frame brings it. -/
def Txn.gets (f : Frame) (t x : Txn) : Txn := if x.tag = t.tag then { t with got := t.got + f.len.toNat } else x

/-- The module once the bytes that a frame brings a transaction are counted. -/
def counted (f : Frame) (t : Txn) (s : State) : State := s.setMach { s.mach with txns := s.mach.txns.map (t.gets f) }

/-- A part of a read that does not end it has its bytes placed; poison is noted with the read's descriptor. -/
theorem onReadData_part (h : txnFor s f = some t) (hr : t.isRead = true) (hd : t.dest = f.src) (hg : t.got + f.len.toNat < t.len)
    (hl : f.addr.toNat + f.len.toNat ≤ t.len) :
    (let u := placeData t f.addr.toNat (carried f) (counted f t s)
    onReadData f s = if f.poison then notePoison t f.len.toNat u else u) := by
  rw [onReadData, h]
  exact (if_neg (by simp [hr, hd, hl])).trans (if_pos hg)

theorem placeData_ls {d : Dword} {c : Fin 384} {a off : Nat} (hd : t.dstAddr + BitVec.ofNat 64 off = d) (hs : d < stageAddr)
    (hp : placeOf s d = .ls c a) (bs : List MByte) : placeData t off bs s = storeAt t.owner (ownerClass t.owner) (.ls c a) bs.length bs s := by
  simp only [placeData, hd, if_neg (BitVec.not_le.2 hs), hp]
  rfl

theorem notePoison_eq (t : Txn) (n : Nat) (s : State) : notePoison t n s = { s with rings := (notePoison t n s).rings } := by
  unfold notePoison
  split <;> rfl

theorem gets_tag_got (f : Frame) (t : Txn) (l : List Txn) : (l.map (t.gets f)).map (fun x => (x.tag, x.got)) =
    l.map fun x => (x.tag, if x.tag = t.tag then t.got + f.len.toNat else x.got) := by
  rw [List.map_map]
  refine List.map_congr_left fun x _ => ?_
  by_cases hx : x.tag = t.tag <;> simp [Txn.gets, hx]

/-- A part of a read for a local store has its bytes stored there and counted with its transaction. -/
theorem onReadData_ls {c : Fin 384} {a : Nat} (h : txnFor s f = some t) (hr : t.isRead = true) (hd : t.dest = f.src)
    (hg : t.got + f.len.toNat < t.len) (hl : f.addr.toNat + f.len.toNat ≤ t.len)
    (hp : placeOf s (t.dstAddr + BitVec.ofNat 64 f.addr.toNat) = .ls c a) (hs : t.dstAddr + BitVec.ofNat 64 f.addr.toNat < stageAddr)
    (hlen : f.len.toNat ≤ f.payload.length) :
    ((s.core c).ls.wf = true → ∀ i, i < f.len.toNat → ((onReadData f s).core c).ls.get (a + i) = f.payload.getD i 0)
    ∧ (∀ b, b < a ∨ a + f.len.toNat ≤ b → ((onReadData f s).core c).ls.get b = (s.core c).ls.get b)
    ∧ (∀ c', c' ≠ c → (onReadData f s).core c' = s.core c')
    ∧ (onReadData f s).mach.txns.map (fun x => (x.tag, x.got)) =
      s.mach.txns.map (fun x => (x.tag, if x.tag = t.tag then t.got + f.len.toNat else x.got)) := by
  have hspaces : (onReadData f s).cores
        = (storeAt t.owner (ownerClass t.owner) (.ls c a) (carried f).length (carried f) (counted f t s)).cores
      ∧ (onReadData f s).mach = (counted f t s).mach := by
    rw [onReadData_part h hr hd hg hl, placeData_ls (s := counted f t s) rfl hs hp]
    split
    · rw [notePoison_eq]
      exact ⟨rfl, storeAt_mach ..⟩
    · exact ⟨rfl, storeAt_mach ..⟩
  obtain ⟨hcores, hmach⟩ := hspaces
  obtain ⟨hget, hout, hother⟩ :=
    storeAt_carried_ls t.owner (ownerClass t.owner) (carried f).length hlen c a (counted f t s)
  simp only [core_of_cores hcores, hmach]
  exact ⟨hget, hout, hother, gets_tag_got f t _⟩

theorem onReject_closes (h : txnFor s f = some t) :
    (pay f 0 1 = 1 → onReject f s = closeTxn t 0x11 t.dest s)
    ∧ (pay f 0 1 = 2 → onReject f s = closeTxn t 0x51 (BitVec.ofNat 16 (0x0200 + pay f 1 1)) s)
    ∧ (pay f 0 1 ≠ 1 → pay f 0 1 ≠ 2 → onReject f s = closeTxn t 0x30 0 s) := by
  refine ⟨fun h1 => ?_, fun h2 => ?_, fun h1 h2 => ?_⟩
  · simp [onReject, h, h1, stRestarted]
  · simp [onReject, h, h2, stDegraded]
  · simp [onReject, h, h1, h2, stMalformed]

theorem onReject_fails (h : txnFor s f = none) :
    (pay f 0 1 = 1 → onReject f s = failTag f.tag 0x11 f.src s)
    ∧ (pay f 0 1 = 2 → onReject f s = failTag f.tag 0x51 (BitVec.ofNat 16 (0x0200 + pay f 1 1)) s)
    ∧ (pay f 0 1 ≠ 1 → pay f 0 1 ≠ 2 → onReject f s = failTag f.tag 0x30 0 s) := by
  refine ⟨fun h1 => ?_, fun h2 => ?_, fun h1 h2 => ?_⟩
  · simp [onReject, h, h1, stRestarted]
  · simp [onReject, h, h2, stDegraded]
  · simp [onReject, h, h1, h2, stMalformed]

end Response

/-- Settles O47: requests by their fault and their record, responses by the transaction they name. -/
theorem requestsAndResponses : Obligations.RequestsAndResponses := by
  unfold Obligations.RequestsAndResponses
  intro s f
  refine ⟨fun c a hx hp hlen hd => ?_, fun a hx hp hlen hd hch hwf => onWrite_gddr hx hp hlen hd hch hwf, fun hd => ?_, fun x hx hd => ?_,
    fun h0 h n => reqFault_stale h0 h n, ⟨onRead_tooLong, fun x hn hx => onRead_refused hn hx, fun hn hx he => ?_⟩, fun h => ?_,
    fun t h hr => onWriteDone_ignored h hr, fun t h hr hd => onWriteDone_closes h hr hd, fun t h hr => onReadData_ignored h hr,
    fun t c a h hr hd hg hl hp hs hlen => onReadData_ls h hr hd hg hl hp hs hlen, fun t h => onReject_closes h, onReject_fails,
    fun y h => ?_, fun t y st d => ⟨closeTxn_txns t st d s, fun h => ?_, fun h hsent ht => ?_, fun h hn => ?_⟩⟩
  · obtain ⟨hget, hout, hother, hgddr⟩ := onWrite_ls hx hp hlen hd
    obtain ⟨hlast, hmore⟩ := onWrite_answer hx hd
    exact ⟨hget, hout, hother, hgddr, hlast, hmore⟩
  · obtain ⟨x, hx⟩ := onWrite_dead hd
    rw [hx]
    exact ⟨rfl, rfl, rfl⟩
  · rw [onWrite_refused hx hd]
    exact ⟨inject_inject_congr rfl rfl _, rfl, rfl⟩
  · rw [onRead_asks hn hx he]
    exact ⟨fun h => if_pos h, fun h => if_neg (Bool.eq_false_iff.1 h)⟩
  · simp [onWriteDone, onReadData, h]
  · show execTransactionTimeout y s = _
    rw [execTransactionTimeout, h]
  · rw [closeTxn, txnEnded_unowned h]
    rfl
  · rw [transactionTimeout_eq h, if_pos (by simp [hsent, ht])]
  · rw [transactionTimeout_eq h, if_neg (by obtain hn | hn := hn <;> simp [hn, Nat.not_le.2])]

end Sys2Proof.Machine
end

section
/-! PROOFS. How a module stands in its machine (R330, R332), which the steps and norms of its collectives leave as it is (R364 to R376,
R385, R386). -/
namespace Sys2Proof.Machine
open Sys2Proof

/-- How a module stands in its machine: bound or not, its address, slot and block, its routing description and the one that loads. -/
def membership (s : State) : Bool × Half × BitVec 6 × BitVec 10 × Option RouteDesc × Option (RouteDesc × Nat) :=
  (s.mach.bound, s.mach.logical, s.mach.slot, s.mach.block, s.mach.route, s.mach.loading)

theorem membership_of_mach {s t : State} (h : t.mach = s.mach) : membership t = membership s := congrArg (fun m : Mach =>
  (m.bound, m.logical, m.slot, m.block, m.route, m.loading)) h

theorem membership_forAll {α : Type} {f : α → State → State} (h : ∀ a t, membership (f a t) = membership t) (l : List α) (s : State) :
    membership (forAll l f s) = membership s := forAll_leaves membership l f s h

section
variable (s : State)

/-! ### The state's fields, frames and descriptors -/

@[simp] theorem membership_setColl (x : Coll) : membership (s.setColl x) = membership s := rfl
@[simp] theorem membership_setPort (pt : Fin 16) (x : Port) : membership (s.setPort pt x) = membership s := rfl
@[simp] theorem membership_modPort (pt : Fin 16) (f : Port → Port) : membership (s.modPort pt f) = membership s := rfl
@[simp] theorem membership_inject (f : Frame) : membership (inject f s) = membership s := rfl
@[simp] theorem membership_nextTag (x : BitVec 15) : membership (s.setMach { s.mach with nextTag := x }) = membership s := rfl
@[simp] theorem membership_effectsDone (r : Fin 256) (idx : Nat) : membership (effectsDone r idx s) = membership s := rfl

@[simp] theorem membership_finishDesc (r : Fin 256) (idx : Nat) (status : Byte) (detail : Half) (result : Dword) :
    membership (finishDesc r idx status detail result s) = membership s := membership_of_mach (finishDesc_mach ..)

@[simp] theorem membership_sendColl (x : CollStep) (op : Byte) (dest : Half) (round fmt elems e0 : Nat) (poison : Bool) (data : List Byte) :
    membership (sendColl x op dest round fmt elems e0 poison data s) = membership s := rfl

@[simp] theorem membership_sendDiss (x : CollStep) (opening : Bool) (i : Nat) : membership (sendDiss x opening i s) = membership s := by
  simp only [sendDiss]
  split <;> rfl

@[simp] theorem membership_sendUnit (x : CollStep) (op : Byte) (u round : Nat) (dest : Half) (f : Nat) (xs : List WireElem) :
    membership (sendUnit x op u round dest f xs s) = membership s :=
  foldl_leaves membership _ (fun _ _ => membership_sendColl ..) _ s

@[simp] theorem membership_modGroup (id : Word) (f : Group → Group) : membership (modGroup id f s) = membership s := rfl
@[simp] theorem membership_modStep (id : Word) (f : CollStep → CollStep) : membership (modStep id f s) = membership s := rfl
@[simp] theorem membership_heardNow (id : Word) : membership (heardNow id s) = membership s := rfl

/-! ### Elements stored (R370, R372) -/

@[simp] theorem membership_writePlace (p : Place) (bs : List MByte) : membership (writePlace p bs s) = membership s :=
  membership_of_mach (by rw [writePlace_eq])

@[simp] theorem membership_acceptAt (o : TxnOwner) (cls : Nat) (write : Bool) (p : Place) (n : Nat) :
    membership (acceptAt o cls write p n s) = membership s := membership_of_mach (acceptAt_askOnly ..).mach_eq

@[simp] theorem Tensor.membership_put (t : Tensor) (core a : Nat) (bs : List Byte) : membership (t.put core a bs s) = membership s :=
  membership_writePlace ..

@[simp] theorem Tensor.membership_putCodes (t : Tensor) (ext : List Nat) (l0 : Nat) (tl cs : List Nat) :
    membership (t.putCodes ext l0 tl cs s) = membership s := t.membership_put ..

@[simp] theorem Tensor.membership_putScale (t : Tensor) (ext : List Nat) (l0 : Nat) (tl : List Nat) (sc : Byte) :
    membership (t.putScale ext l0 tl sc s) = membership s := by
  simp only [Tensor.putScale]
  split <;> simp

@[simp] theorem Tensor.membership_acceptRun (t : Tensor) (o : TxnOwner) (ext : List Nat) (l0 : Nat) (tl : List Nat) (n : Nat) :
    membership (t.acceptRun o ext l0 tl n s) = membership s := by
  simp only [Tensor.acceptRun]
  split <;> simp

@[simp] theorem Tensor.membership_storeExact (t : Tensor) (ext : List Nat) (f l0 : Nat) (tl : List Nat) (xs : List WireElem) :
    membership (t.storeExact ext f l0 tl xs s) = membership s := by
  simp only [Tensor.storeExact]
  split <;> simp

@[simp] theorem Tensor.membership_storeFlat (t : Tensor) (o : TxnOwner) (f e0 : Nat) (xs : List WireElem) :
    membership (t.storeFlat o f e0 xs s) = membership s := by
  have runs (ext : List Nat) (n0 k : Nat) : ∀ e xs s, membership (Tensor.storeFlat.go t o f ext n0 k e xs s) = membership s := by
    induction k with
    | zero => exact fun _ _ _ => rfl
    | succ k ih =>
      intro e xs s
      cases xs with
      | nil => rfl
      | cons x xs => simp [Tensor.storeFlat.go, ih]
  exact runs ..

@[simp] theorem Tensor.membership_storeSums (t : Tensor) (o : TxnOwner) (rnd : Nat → Nat) (e0 : Nat) (xs : List WireElem) :
    membership (t.storeSums o rnd e0 xs s) = membership s := by
  have runs (ext : List Nat) (n0 k : Nat) : ∀ e xs s, membership (Tensor.storeSums.go t o rnd e0 ext n0 k e xs s) = membership s := by
    induction k with
    | zero => exact fun _ _ _ => rfl
    | succ k ih =>
      intro e xs s
      cases xs with
      | nil => rfl
      | cons x xs =>
        simp only [Tensor.storeSums.go, ih]
        split <;> simp
  exact runs ..

/-! ### Units (R367, R368, R370 to R372) -/

@[simp] theorem membership_storeUnit (x : CollStep) (u : Nat) : membership (storeUnit x u s) = membership s := by
  simp only [storeUnit]
  repeat' split
  all_goals simp

@[simp] theorem membership_storeUnits (x : CollStep) (u : Nat) : membership (storeUnits x u s) = membership s := by
  simp only [storeUnits]
  repeat' split
  · simp
  · rw [membership_forAll fun _ _ => membership_storeUnit .., membership_storeUnit]
  · simp

@[simp] theorem membership_storeLate (x : CollStep) : membership (storeLate x s) = membership s := by
  simp only [storeLate]
  repeat' split
  all_goals simp

@[simp] theorem membership_spreadUnit (id : Word) (u : Nat) : membership (spreadUnit id u s) = membership s := by
  simp only [spreadUnit]
  split
  · rfl
  · exact foldl_leaves membership _ (fun _ _ => membership_sendUnit ..) _ s

@[simp] theorem membership_finishUnit (id : Word) (u : Nat) : membership (finishUnit id u s) = membership s := by
  simp only [finishUnit]
  repeat' split
  all_goals simp

@[simp] theorem membership_ownUnit (id : Word) (u : Nat) : membership (ownUnit id u s) = membership s := by
  simp only [ownUnit]
  split <;> simp

@[simp] theorem membership_kickUnit (id : Word) (u : Nat) : membership (kickUnit id u s) = membership s := by
  simp only [kickUnit]
  split
  · rfl
  · split
    · simp
    · split <;> simp

@[simp] theorem membership_originUnit (id : Word) (u : Nat) : membership (originUnit id u s) = membership s := by
  simp only [originUnit]
  repeat' split
  all_goals simp

@[simp] theorem membership_unitGot (id : Word) (adds : Bool) (u k : Nat) : membership (unitGot id adds u k s) = membership s := by
  simp only [unitGot]
  split
  · rfl
  · split
    · rfl
    · cases adds <;> simp

/-! ### Steps begin and end (R364, R365, R369, R375) -/

@[simp] theorem membership_leaveGroup (id : Word) (close : Bool) : membership (leaveGroup id close s) = membership s := rfl

@[simp] theorem membership_endStep (id : Word) (status : Byte) (detail : Half) (close : Bool) :
    membership (endStep id status detail close s) = membership s := by
  simp only [endStep]
  split <;> simp

@[simp] theorem membership_stepOk (id : Word) : membership (stepOk id s) = membership s := by
  simp only [stepOk]
  split <;> simp

@[simp] theorem membership_beginData (id : Word) : membership (beginData id s) = membership s := by
  simp only [beginData]
  split
  · rfl
  · split
    · rw [membership_forAll fun _ _ => membership_originUnit .., membership_modStep]
    · rw [membership_forAll fun _ _ => membership_kickUnit .., membership_modStep]

@[simp] theorem membership_tryClose (id : Word) : membership (tryClose id s) = membership s := by
  simp only [tryClose]
  repeat' split
  all_goals simp

@[simp] theorem membership_pipeMove (id : Word) : membership (pipeMove id s) = membership s := by
  simp only [pipeMove]
  repeat' split
  · rfl
  · rfl
  · rw [membership_forAll fun _ _ => membership_sendUnit .., membership_modStep]

theorem membership_beginStep (id : Word) : membership (beginStep id s) = membership s := by
  simp only [beginStep]
  repeat' split
  all_goals simp

end

end Sys2Proof.Machine
end

section
/-! PROOFS. Collective messages, norms and failing partners leave how a module stands in its machine (R343, R374, R375, R385, R386), and so
does every port that joins it again (R325, R330). -/
namespace Sys2Proof.Machine
open Sys2Proof

/-! ### Messages of steps (R374) -/

/-- A message's fate that leaves how the module stands. -/
def MsgFate.leavesMembership (s : State) : MsgFate → Prop
  | .take t => membership t = membership s
  | .wait => True
  | .drop => True

@[simp] theorem MsgFate.take_leavesMembership (s t : State) : (MsgFate.take t).leavesMembership s ↔ membership t = membership s := Iff.rfl

@[simp] theorem MsgFate.wait_leavesMembership (s : State) : MsgFate.wait.leavesMembership s := trivial

@[simp] theorem MsgFate.drop_leavesMembership (s : State) : MsgFate.drop.leavesMembership s := trivial

section
variable (id : Word) (x : CollStep) (f : Frame) (s : State)

theorem onOpen_leavesMembership : (onOpen id x f s).leavesMembership s := by
  simp only [onOpen]
  repeat' split
  all_goals simp

theorem onClose_leavesMembership : (onClose id x f s).leavesMembership s := by
  simp only [onClose]
  repeat' split
  all_goals simp

theorem onData_leavesMembership (adds : Bool) : (onData id x adds f s).leavesMembership s := by
  simp only [onData]
  repeat' split
  all_goals simp [membership_forAll]

theorem onReady_leavesMembership : (onReady id x f s).leavesMembership s := by
  simp only [onReady]
  repeat' split
  all_goals simp

theorem groupMsg_leavesMembership : (groupMsg f s).leavesMembership s := by
  simp only [groupMsg]
  repeat' split
  all_goals simp [onOpen_leavesMembership, onClose_leavesMembership, onData_leavesMembership, onReady_leavesMembership]

end

/-! ### The norm (R385, R386) -/

section
variable (x : NormRun) (s : State)

theorem membership_giveNorm (e : NormEntry) (u : UpdateCtx) : membership (giveNorm e u s) = membership s := by
  simp only [giveNorm]
  repeat' split
  all_goals simp

@[simp] theorem membership_publishNorm (id : Word) (status : Nat) (factor : Word) (st : Byte) (detail : Half) :
    membership (publishNorm id status factor st detail s) = membership s :=
  (membership_forAll (fun _ _ => membership_giveNorm ..) _ _).trans (membership_setColl ..)

theorem membership_failNorm (status : Byte) (detail : Half) : membership (failNorm x status detail s) = membership s := by simp [failNorm]

@[simp] theorem membership_endNorm (S : Word) : membership (endNorm x S s) = membership s := by simp [endNorm]

@[simp] theorem membership_sendNorm (rank round : Nat) (v : Word) : membership (sendNorm x rank round v s) = membership s := rfl

@[simp] theorem membership_modNorm (id : Word) (f : NormRun → NormRun) : membership (modNorm id f s) = membership s := rfl

@[simp] theorem membership_chainDown (acc : Word) : membership (chainDown x acc s) = membership s := by
  simp only [chainDown]
  split <;> simp

theorem normMsg_leavesMembership (f : Frame) : (normMsg f s).leavesMembership s := by
  simp only [normMsg]
  repeat' split
  all_goals simp

/-! ### What has become able goes on (R364, R374) -/

theorem collMsg_leavesMembership (f : Frame) : (collMsg f s).leavesMembership s := by
  simp only [collMsg]
  split
  · exact normMsg_leavesMembership ..
  · exact groupMsg_leavesMembership ..

@[simp] theorem membership_freeWaiting (pt : Fin 16) (f : Frame) : membership (freeWaiting pt f s) = membership s := rfl

theorem membership_drainOnce (l : List (Fin 16 × Frame)) : membership (drainOnce l s) = membership s := by
  induction l generalizing s with
  | nil => rfl
  | cons y l ih =>
    obtain ⟨pt, f⟩ := y
    have hfate := collMsg_leavesMembership s f
    rw [drainOnce]
    split
    · rw [ih, membership_setColl]
    · next t htake =>
      rw [htake] at hfate
      rw [ih, membership_freeWaiting]
      exact hfate
    · rw [ih, membership_freeWaiting, membership_setColl]

theorem membership_settle (k : Nat) : membership (settle k s) = membership s := by
  induction k generalizing s with
  | zero => rfl
  | succ k ih =>
    simp only [settle]
    split
    · rw [membership_drainOnce, membership_setColl, membership_forAll fun _ _ => membership_beginStep ..]
    · rw [ih, membership_drainOnce, membership_setColl, membership_forAll fun _ _ => membership_beginStep ..]

theorem membership_failSteps (step : CollStep → Bool) (norm : NormRun → Bool) (status : Byte) (detail : Half) :
    membership (failSteps step norm status detail s) = membership s := by
  simp only [failSteps, collSettle]
  rw [membership_settle, membership_forAll fun _ _ => membership_failNorm .., membership_forAll fun _ _ => membership_endStep ..]

/-! ### Partners that restart (R343) -/

theorem membership_endTxnsTo (m : Half) (status : Byte) (detail : Half) : membership (endTxnsTo m status detail s) = membership s :=
  (membership_forAll (fun _ _ => membership_of_mach (txnEnded_mach ..)) _ _).trans rfl

theorem membership_noteRestart (addr : Half) (epoch : Word) (except : Option (Fin 16)) :
    membership (noteRestart addr epoch except s) = membership s := by
  simp only [noteRestart]
  rw [membership_forAll fun _ _ => membership_inject .., failPartner, membership_failSteps]
  exact (membership_endTxnsTo ..).trans rfl

/-! ### Ports that join (R325, R327) -/

@[simp] theorem membership_portEvent (pt : Fin 16) (kind : Half) (sev : Nat) (data : List Byte) :
    membership (portEvent pt kind sev data s) = membership s := membership_of_mach (postEvent_eventOnly ..).mach

theorem membership_goUp (pt : Fin 16) : membership (goUp pt s) = membership s := by
  simp only [goUp]
  repeat' split
  all_goals simp [membership_noteRestart, replayAll]

theorem membership_tryJoin (pt : Fin 16) : membership (tryJoin pt s) = membership s := by
  simp only [tryJoin]
  repeat' split
  · rfl
  · simp [portBlock]
  · exact membership_goUp ..

theorem membership_sendJoin (pt : Fin 16) : membership (sendJoin pt s) = membership s := by
  simp only [sendJoin]
  split <;> rfl

theorem membership_rejoin (pt : Fin 16) : membership (rejoin pt s) = membership s := by
  simp only [rejoin]
  split
  · rw [membership_tryJoin, membership_sendJoin, membership_setPort]
  · rfl

theorem membership_rejoinAll : membership (rejoinAll s) = membership s := membership_forAll (fun _ _ => membership_rejoin ..) _ s

end

end Sys2Proof.Machine
end

section
/-! PROOFS. Binding, route descriptions and margin sweeps (R330 to R333, R349, R350, R352). -/
namespace Sys2Proof.Machine
open Sys2Proof

theorem membership_eq_iff {s t : State} : membership t = membership s ↔ t.mach.bound = s.mach.bound ∧ t.mach.logical = s.mach.logical
    ∧ t.mach.slot = s.mach.slot ∧ t.mach.block = s.mach.block ∧ t.mach.route = s.mach.route ∧ t.mach.loading = s.mach.loading := by
  simp [membership]

/-! ### BIND and UNBIND (R330, R331) -/

section
variable {s : State}

theorem bind_refused {c : BitVec 3} (h : bindFault s = some c) : bind s = s.setMach { s.mach with bindErr := true, bindCause := c } := by
  rw [bind, h]

theorem bind_binds (h : bindFault s = none) : (bind s).mach.bound = true ∧ (bind s).mach.logical = s.mach.logical
    ∧ (bind s).mach.slot = s.mach.slot ∧ (bind s).mach.block = s.mach.block := by
  have hbind : bind s = rejoinAll (s.setMach { s.mach with bound := true }) := by rw [bind, h]
  obtain ⟨hbound, hlogical, hslot, hblock, -⟩ := membership_eq_iff.1 (membership_rejoinAll (s.setMach { s.mach with bound := true }))
  rw [hbind]
  exact ⟨hbound, hlogical, hslot, hblock⟩

/-- A bound module is not bound again: the refusal names this cause or one before it. -/
theorem bindFault_of_bound (h : s.mach.bound = true) : ∃ c, bindFault s = some c := by
  simp only [bindFault]
  split_ifs <;> exact ⟨_, rfl⟩

theorem unbind_begins (h : s.mach.bound = true) (hu : s.mach.unbinding = none) :
    unbind s = s.setMach { s.mach with unbinding := some s.ns } := if_pos (by simp [h, hu])

theorem unbind_ignored (h : s.mach.bound = false ∨ s.mach.unbinding ≠ none) : unbind s = s :=
  if_neg (by obtain h | h := h <;> simp [h, Option.isNone_iff_eq_none])

/-- A port that the unbinding takes out of the machine is changed alone, and is not UP. -/
theorem unjoin_eq (pt : Fin 16) (s : State) : ∃ x : Port, unjoin pt s = s.setPort pt x ∧ x.state ≠ 3 := by
  simp only [unjoin]
  split
  · refine ⟨_, State.setPort_setPort .., ?_⟩
    rw [State.setPort_same]
    simp
  · next h => exact ⟨_, (State.setPort_self s pt).symm, fun hup => h (by simp [hup])⟩

theorem unjoin_mach (pt : Fin 16) (s : State) : (unjoin pt s).mach = s.mach := by
  obtain ⟨x, hx, -⟩ := unjoin_eq pt s
  rw [hx]
  rfl

/-- Once every port has left the machine, none is UP. -/
theorem unjoinAll_port (s : State) (p : Fin 16) : ((forAll (List.finRange 16) unjoin s).port p).state ≠ 3 := by
  refine forAll_establishes (fun t => (t.port p).state ≠ 3) _ _ p s (List.mem_finRange p) (fun t => ?_) fun q t hq ht => ?_
  · obtain ⟨x, hx, hstate⟩ := unjoin_eq p t
    rw [hx, State.setPort_same]
    exact hstate
  · obtain ⟨x, hx, -⟩ := unjoin_eq q t
    rw [hx, State.setPort_port_of_ne hq.symm]
    exact ht

/-- What keeps an unbinding from ending (R331): transactions, norms, or steps under way. -/
def inFlight (s : State) : Bool :=
  !s.mach.txns.isEmpty || !s.coll.runs.isEmpty || s.coll.groups.any fun g => g.steps.any fun x => x.phase ≠ 0

theorem inFlight_iff : inFlight s = true ↔ s.mach.txns ≠ [] ∨ s.coll.runs ≠ [] ∨ ∃ g ∈ s.coll.groups, ∃ x ∈ g.steps, x.phase ≠ 0 := by
  simp [inFlight, or_assoc]

theorem unbindWaitEnd_eq {t : Nat} (h : s.mach.unbinding = some t) : exec .unbindWaitEnd s =
    if !inFlight s || t + 1000000 ≤ s.ns then
      .next (forAll (List.finRange 16) unjoin (s.setMach { s.mach with bound := false, unbinding := none }))
    else .next s := by
  show execUnbindWaitEnd s = _
  rw [execUnbindWaitEnd, h]
  rfl

theorem unbindWaitEnd_ends {t : Nat} (h : s.mach.unbinding = some t) (hend : inFlight s = false ∨ t + 1000000 ≤ s.ns) :
    ∃ u, exec .unbindWaitEnd s = .next u ∧ u.mach.bound = false ∧ u.mach.unbinding = none ∧ ∀ p, (u.port p).state ≠ 3 := by
  rw [unbindWaitEnd_eq h, if_pos (by simpa using hend)]
  refine ⟨_, rfl, ?_, ?_, unjoinAll_port _⟩
  · rw [forAll_leaves State.mach _ _ _ unjoin_mach]
    rfl
  · rw [forAll_leaves State.mach _ _ _ unjoin_mach]
    rfl

/-! ### Route descriptions (R332, R333) -/

/-- The module once a write of MACH_ROUTE has named the description's address. -/
def routeNamed (w : Dword) (s : State) : State := s.setMach { s.mach with routeAddr := bits w 6 58 }

theorem routeLoad_eq {w : Dword} (h : w.getLsbD 0 = true) : exec (.routeLoad w) s = .next (
    if s.mach.loading.isSome then routeNamed w s
    else match readRoute (routeNamed w s) (BitVec.ofNat 64 (64 * (bits w 6 58 : BitVec 58).toNat)) with
      | some x => (routeNamed w s).setMach { (routeNamed w s).mach with loading := some (x, s.ns) }
      | none => (routeNamed w s).setMach { (routeNamed w s).mach with routeErr := true }) := by
  show Host.Outcome.next _ = _
  rw [h]
  simp only [machRouteWrite, h]
  rfl

theorem routeMasksReady_refused {x : RouteDesc} {a : Nat} (h : s.mach.loading = some (x, a)) (hb : s.mach.bound = true)
    (hl : 2 ^ x.dims ≤ s.mach.logical.toNat) :
    exec .routeMasksReady s = .next (s.setMach { s.mach with loading := none, routeErr := true }) := by
  show execRouteMasksReady s = _
  rw [execRouteMasksReady, h]
  exact if_pos (by simp [hb, hl])

/-- The module once a description is in force: every port's dimension is crossed as the description says. -/
def routed (x : RouteDesc) (s : State) : State :=
  forAll (List.finRange 16) (fun pt t => t.modPort pt fun p => { p with crossed := crossedDim t pt.val })
    (s.setMach { s.mach with loading := none, route := some x })

theorem membership_routed (x : RouteDesc) (s : State) :
    membership (routed x s) = membership (s.setMach { s.mach with loading := none, route := some x }) :=
  forAll_leaves membership _ _ _ fun _ _ => membership_modPort ..

theorem routeMasksReady_loads {x : RouteDesc} {a : Nat} (h : s.mach.loading = some (x, a))
    (hin : s.mach.bound = false ∨ s.mach.logical.toNat < 2 ^ x.dims) :
    ∃ u, exec .routeMasksReady s = .next u ∧ u.mach.route = some x ∧ u.mach.loading = none := by
  have hexec : exec .routeMasksReady s = .next (rejoinAll (routed x s)) := by
    show execRouteMasksReady s = _
    rw [execRouteMasksReady, h]
    exact if_neg (by obtain hin | hin := hin <;> simp [hin])
  obtain ⟨-, -, -, -, hroute, hloading⟩ :=
    membership_eq_iff.1 ((membership_rejoinAll (routed x s)).trans (membership_routed x s))
  exact ⟨_, hexec, hroute, hloading⟩

end

/-! ### Margin sweeps (R349, R350) -/

section
variable {s : State} {r : Fin 256} {n : Nat} {c : DescCtx}

theorem sweepHopTimeout_eq {x : Sweep} (h : (s.ring r).started[n]? = some c) (hx : s.mach.sweep = some x) :
    exec (.sweepHopTimeout r n) s = if x.ring = r && x.idx = c.idx && x.at_ + 10000000 ≤ s.ns then
      .next (endSweep x (x.ended.getD 2) s) else .next s := by
  show execSweepHopTimeout r n s = _
  rw [execSweepHopTimeout, h, hx]

theorem sweepHopTimeout_none (h : (s.ring r).started[n]? = none ∨ s.mach.sweep = none) : exec (.sweepHopTimeout r n) s = .next s := by
  show execSweepHopTimeout r n s = _
  rw [execSweepHopTimeout]
  obtain h | h := h
  · rw [h]
  · rw [h]
    cases (s.ring r).started[n]? <;> rfl

section
variable {action : Nat}

theorem startSweep_none (h : descAt s r n 0x70 = none) : startSweep action r n s = s := by rw [startSweep, h]

variable (h : descAt s r n 0x70 = some c)
include h

theorem startSweep_ignored (hi : (bits (dW2 c.word) 0 8 : Byte).toNat ≠ action ∨ s.mach.sweep ≠ none) : startSweep action r n s = s := by
  rw [startSweep, h]
  exact if_pos (by simpa [Option.isSome_iff_ne_none] using hi)

variable (ha : (bits (dW2 c.word) 0 8 : Byte).toNat = action) (hs : s.mach.sweep = none)
include ha hs

theorem startSweep_refused {y : Byte × Half} (hy : sweepFault s c.word = some y) :
    startSweep action r n s = finishDesc r c.idx y.1 y.2 0 s := by
  rw [startSweep, h]
  exact (if_neg (by simp [ha, hs])).trans (by rw [hy])

theorem startSweep_reads (hy : sweepFault s c.word = none) : startSweep action r n s =
    withOperand r c 0 2 (dQ c.word 0x10) (0x80 + 48 * (dW3 c.word).toNat) (fun mb t => beginSweep action r c (plain mb) t) s := by
  rw [startSweep, h]
  exact (if_neg (by simp [ha, hs])).trans (by rw [hy])

end

end

/-- Settles O49: what BIND and a description in force do beyond the ports' joins is read off, since the joins leave `membership`. -/
theorem bindingRoutesAndSweeps : Obligations.BindingRoutesAndSweeps := by
  unfold Obligations.BindingRoutesAndSweeps
  refine ⟨fun s w => ⟨fun h => ?_, fun h => ?_, fun h => ?_, fun h => ?_, fun c h => bind_refused h, fun h => ⟨_, rfl, bind_binds h⟩,
    bindFault_of_bound, fun u => ⟨unbind_begins, unbind_ignored⟩, ⟨fun h => ?_, fun t h => ⟨fun hb ht => ?_, fun hend => ?_⟩⟩, fun h => ?_,
    fun h => ⟨fun hl => ?_, fun x hl hx => ?_, fun hl hx => ?_⟩, fun h => ?_,
    fun x a h => ⟨routeMasksReady_loads h, routeMasksReady_refused h⟩⟩,
    fun s r n => ⟨sweepHopTimeout_none, fun h => ?_, fun c => ⟨fun x h hx => ⟨fun hr hi ht => ?_, fun hn => ?_⟩, fun h k hk => ?_,
      fun bs u => ⟨rfl, ?_⟩⟩⟩⟩
  · show Host.Outcome.next _ = _
    rw [if_neg (Bool.eq_false_iff.1 h)]
  · show Host.Outcome.next _ = _
    rw [if_neg (Bool.eq_false_iff.1 h)]
  · show Host.Outcome.next _ = _
    rw [if_pos h]
    rfl
  · show Host.Outcome.next _ = _
    rw [if_pos h]
    exact congrArg Host.Outcome.next (if_pos h)
  · show execUnbindWaitEnd s = _
    rw [execUnbindWaitEnd, h]
  · rw [unbindWaitEnd_eq h, if_neg]
    simp [inFlight_iff.2 hb, ht]
  · refine unbindWaitEnd_ends h (hend.imp_left fun hb => ?_)
    rwa [← inFlight_iff, Bool.not_eq_true] at hb
  · show Host.Outcome.next _ = _
    rw [if_neg (Bool.eq_false_iff.1 h)]
  · rw [routeLoad_eq h, if_pos (Option.isSome_iff_ne_none.2 hl)]
    rfl
  · rw [routeLoad_eq h, if_neg (by simp [hl])]
    rw [show readRoute (routeNamed w s) _ = some x from hx]
    rfl
  · rw [routeLoad_eq h, if_neg (by simp [hl])]
    rw [show readRoute (routeNamed w s) _ = none from hx]
    rfl
  · show execRouteMasksReady s = _
    rw [execRouteMasksReady, h]
  · exact ⟨congrArg Host.Outcome.next (startSweep_none h), congrArg Host.Outcome.next (startSweep_none h)⟩
  · rw [sweepHopTimeout_eq h hx, if_pos (by simp [hr, hi, ht])]
  · rw [sweepHopTimeout_eq h hx, if_neg (by simp; omega)]
  · have hexec : exec k.2 s = .next (startSweep k.1 r n s) := by
      obtain rfl | rfl : k = (2, Instr.diagMarginSweep r n) ∨ k = (3, .diagResumeSweep r n) := by simpa using hk
      · rfl
      · rfl
    rw [hexec]
    exact ⟨fun hi => congrArg Host.Outcome.next (startSweep_ignored h hi), fun ha hs =>
      ⟨fun y hy => congrArg Host.Outcome.next (startSweep_refused h ha hs hy),
        fun hy => congrArg Host.Outcome.next (startSweep_reads h ha hs hy)⟩⟩
  · simp only [beginSweep, ↓reduceIte]
    congr 2
    split
    · next hl => rw [hl]; rfl
    · next hl => rw [hl]; rfl

end Sys2Proof.Machine
end

section
/-! PROOFS. Collectives, pipeline steps and barriers: how they take their place in a group, start and time out (R362 to R365, R375, R376). -/
namespace Sys2Proof.Machine
open Sys2Proof

/-! ### The steps of a group (R364) -/

section Groups
variable {s : State}

/-- A change of a group that keeps ids is found in the group it names. -/
theorem groupAt_modGroup (id : Word) {f : Group → Group} (hf : ∀ g, (f g).id = g.id) (s : State) :
    groupAt (modGroup id f s) id = (groupAt s id).map f := by
  have hid : ((fun g : Group => decide (g.id = id)) ∘ fun g => if g.id = id then f g else g) = fun g => decide (g.id = id) := by
    funext g
    simp only [Function.comp_apply]
    split <;> simp [*]
  simp only [groupAt, modGroup, State.setColl_coll, List.find?_map, hid]
  refine Option.map_congr fun g hg => if_pos ?_
  simpa using List.find?_some hg

theorem enqueueStep_new {x : CollStep} (h : groupAt s x.gid = none) :
    (enqueueStep x s).coll.groups = s.coll.groups ++ [⟨x.gid, 0, [x]⟩] := by
  simp only [enqueueStep, h, State.setColl_coll]

theorem enqueueStep_steps {x : CollStep} {g : Group} (h : groupAt s x.gid = some g) :
    (groupAt (enqueueStep x s) x.gid).map (·.steps) = some (g.steps ++ [x]) := by
  simp only [enqueueStep, h]
  rw [groupAt_modGroup x.gid (f := fun g => { g with steps := g.steps ++ [x] }) (fun _ => rfl), h]
  rfl

/-- Where a group stands depends on the collectives' state alone. -/
theorem groupAt_of_coll {t : State} (h : t.coll = s.coll) (id : Word) : groupAt t id = groupAt s id := by rw [groupAt, h, groupAt]

end Groups

/-! ### COLLECTIVE (R363, R367 to R369) -/

section Collective
variable {s : State} {r : Fin 256} {n kind : Nat}

/-- The step that a COLLECTIVE of one KIND makes. -/
def collStep (s : State) (r : Fin 256) (c : DescCtx) (kind : Nat) : CollStep :=
  newStep s r c kind (groupOf s (dQ c.word 0x20) (4 ≤ kind) (bits c.word 320 16))

/-- The state in which a COLLECTIVE has presented the reads of its SRC. -/
def collAsked (s : State) (r : Fin 256) (c : DescCtx) (kind : Nat) : State :=
  let a := c.td s (dQ c.word 0x10)
  askDesc r c 0 (askAll (.desc r c.idx) 0 (if kind = 5 then [] else a.spans true true (a.exts s.mach.logical)) []) s

/-- A COLLECTIVE under way, its step the last of its group. -/
def collJoined (s : State) (r : Fin 256) (c : DescCtx) (kind : Nat) : State :=
  enqueueStep (collStep s r c kind) (issueDesc r c.idx 0 0 0 (collAsked s r c kind))

theorem issued_collAsked_coll (s : State) (r : Fin 256) (c : DescCtx) (kind : Nat) :
    (issueDesc r c.idx 0 0 0 (collAsked s r c kind)).coll = s.coll := by
  rw [issueDesc_eq]
  show (askDesc r c 0 _ s).coll = s.coll
  unfold askDesc
  split
  · rfl
  · exact (askAll_askOnly ..).coll_eq

theorem collStep_src (c : DescCtx) (hk : kind ≤ 5) :
    (collStep s r c kind).src = if kind = 5 then none else some (c.td s (dQ c.word 0x10)) := by
  simp [collStep, newStep, show kind ≠ 6 by omega]

theorem collStep_dst (c : DescCtx) (hk : kind ≤ 5) :
    (collStep s r c kind).dst = if kind = 4 then none else some (c.td s (dQ c.word 0x18)) := by
  simp [collStep, newStep, show kind ≠ 6 by omega]

theorem collJoined_new (c : DescCtx) (hg : groupAt s (dW3 c.word) = none) :
    (collJoined s r c kind).coll.groups = s.coll.groups ++ [⟨dW3 c.word, 0, [collStep s r c kind]⟩] := by
  have hcoll := issued_collAsked_coll s r c kind
  rw [← hcoll]
  exact enqueueStep_new ((groupAt_of_coll hcoll _).trans hg)

theorem collJoined_steps (c : DescCtx) {g : Group} (hg : groupAt s (dW3 c.word) = some g) :
    (groupAt (collJoined s r c kind) (dW3 c.word)).map (·.steps) = some (g.steps ++ [collStep s r c kind]) :=
  enqueueStep_steps (x := collStep s r c kind) ((groupAt_of_coll (issued_collAsked_coll s r c kind) _).trans hg)

/-- Each of the six commands is the start of a COLLECTIVE of its KIND. -/
theorem exec_collective {k : Nat × Instr} (hk : k ∈ [(0, Instr.allReduce r n), (1, .reduceScatter r n), (2, .allGather r n),
    (3, .broadcastColl r n), (4, .pipelineSend r n), (5, .pipelineReceive r n)]) :
    exec k.2 s = .next (startColl r n k.1 s) ∧ k.1 ≤ 5 := by
  simp only [List.mem_cons, List.not_mem_nil, or_false] at hk
  obtain rfl | rfl | rfl | rfl | rfl | rfl := hk <;> exact ⟨rfl, by simp⟩

theorem startColl_none (h : descAt s r n 0x30 = none) : startColl r n kind s = s := by
  simp only [startColl, h]

variable {c : DescCtx} (h : descAt s r n 0x30 = some c)
include h

theorem startColl_ignored (hi : (bits (dW2 c.word) 0 4 : BitVec 4).toNat ≠ kind ∨ earlierStep s c = true) : startColl r n kind s = s := by
  simp only [startColl, h]
  exact if_pos (by simpa using hi)

variable (hk : (bits (dW2 c.word) 0 4 : BitVec 4).toNat = kind) (he : earlierStep s c = false)
include hk he

theorem startColl_fault {f : Byte × Half} (hf : collFault s c kind = some f) :
    startColl r n kind s = finishDesc r c.idx f.1 f.2 0 s := by
  simp only [startColl, h]
  rw [if_neg (by simp [hk, he]), hf]

theorem startColl_goes (h5 : kind ≤ 5) (hf : collFault s c kind = none) : startColl r n kind s =
    onceServed (.desc r c.idx) (fun t => collSettle (enqueueStep (collStep s r c kind) (issueDesc r c.idx 0 0 0 t)))
      (collAsked s r c kind) := by
  have hsrc := collStep_src (s := s) (r := r) c h5
  rw [collStep] at hsrc
  simp only [startColl, h]
  rw [if_neg (by simp [hk, he]), hf]
  simp only [hsrc, collAsked]
  by_cases hkind : kind = 5
  · simp only [hkind, if_true]
    rfl
  · simp only [hkind, if_false]
    rfl

theorem startColl_asks (h5 : kind ≤ 5) (hf : collFault s c kind = none)
    (ha : asking (collAsked s r c kind) (.desc r c.idx) = true) : startColl r n kind s = collAsked s r c kind := by
  rw [startColl_goes h hk he h5 hf, onceServed_waits ha]

theorem startColl_joins (h5 : kind ≤ 5) (hf : collFault s c kind = none)
    (ha : asking (collAsked s r c kind) (.desc r c.idx) = false) : startColl r n kind s = collSettle (collJoined s r c kind) := by
  rw [startColl_goes h hk he h5 hf, onceServed_goes ha]
  rfl

end Collective

/-! ### BARRIER (R376) -/

section Barrier
variable {s : State} {r : Fin 256} {n : Nat}

theorem barrier_none (h : descAt s r n 0x31 = none) : exec (.barrierDesc r n) s = .next s := by
  show execBarrierDesc r n s = _
  simp only [execBarrierDesc, h]

variable {c : DescCtx} (h : descAt s r n 0x31 = some c)
include h

theorem barrier_waits (hw : earlierStep s c = true ∨ earlierVisible s r c.idx = false) : exec (.barrierDesc r n) s = .next s := by
  show execBarrierDesc r n s = _
  simp only [execBarrierDesc, h]
  exact if_pos (by simpa using hw)

variable (he : earlierStep s c = false) (hv : earlierVisible s r c.idx = true)
include he hv

theorem barrier_fault {f : Byte × Half} (hf : groupFault s (dQ c.word 0x10) 0x10 false 0 = some f) :
    exec (.barrierDesc r n) s = .next (finishDesc r c.idx f.1 f.2 0 s) := by
  show execBarrierDesc r n s = _
  simp only [execBarrierDesc, h, he, hv, hf, Bool.not_true, Bool.or_self, Bool.false_eq_true, if_false]

theorem barrier_joins (hf : groupFault s (dQ c.word 0x10) 0x10 false 0 = none) : exec (.barrierDesc r n) s = .next (collSettle
    (enqueueStep (newStep s r c 6 (groupOf s (dQ c.word 0x10) false 0)) (issueDesc r c.idx 0 0 0 s))) := by
  show execBarrierDesc r n s = _
  simp only [execBarrierDesc, h, he, hv, hf, Bool.not_true, Bool.or_self, Bool.false_eq_true, if_false]

end Barrier

/-! ### Silence (R375) -/

section StepTimeout
variable {s : State} {g : Nat} {gr : Group} (h : s.coll.groups[g]? = some gr)
include h

theorem roundTimeout_idle (hs : gr.steps = []) : exec (.collectiveRoundTimeout g) s = .next s := by
  show execCollectiveRoundTimeout g s = _
  simp only [execCollectiveRoundTimeout, h, hs, (List.getElem?_eq_some_iff.1 h).1, if_true]

theorem roundTimeout_step {x : CollStep} {l : List CollStep} (hs : gr.steps = x :: l) : exec (.collectiveRoundTimeout g) s =
    if x.phase ≠ 0 && x.heard + 1000000 * x.timeout ≤ s.ns then
      .next (collSettle (endStep gr.id 0x12 (silentMember x) true s)) else .next s := by
  show execCollectiveRoundTimeout g s = _
  simp only [execCollectiveRoundTimeout, h, hs, (List.getElem?_eq_some_iff.1 h).1, if_true]
  rfl

end StepTimeout

section NormTimeout
variable {s : State} {g : Nat}

theorem roundTimeout_noRun (h : s.coll.runs[g]? = none) : exec (.collectiveRoundTimeout (s.coll.groups.length + g)) s = .next s := by
  show execCollectiveRoundTimeout _ s = _
  simp only [execCollectiveRoundTimeout, Nat.not_lt.2 (Nat.le_add_right _ g), if_false, Nat.add_sub_cancel_left, h]

theorem roundTimeout_run {x : NormRun} (h : s.coll.runs[g]? = some x) : exec (.collectiveRoundTimeout (s.coll.groups.length + g)) s =
    if x.heard + 1000000 * x.timeout ≤ s.ns then .next (failNorm x 0x12 (x.members.getD (normRecv x).2 0) s) else .next s := by
  show execCollectiveRoundTimeout _ s = _
  simp only [execCollectiveRoundTimeout, Nat.not_lt.2 (Nat.le_add_right _ g), if_false, Nat.add_sub_cancel_left, h]
  rfl

end NormTimeout

/-- Settles O36: the six kinds of COLLECTIVE are one start, then a barrier joins, then a silent step and a silent norm reduction end. -/
theorem collectivesStartAndTimeOut : Obligations.CollectivesStartAndTimeOut := by
  unfold Obligations.CollectivesStartAndTimeOut
  refine ⟨fun s r n k hk => ?_, fun s r n => ⟨barrier_none, fun c h => ⟨barrier_waits h, fun he hv =>
      ⟨fun _ => barrier_fault h he hv, barrier_joins h he hv⟩⟩⟩,
    fun s g gr h => ⟨roundTimeout_idle h, fun x l hs => ⟨fun hw => ?_, fun hp ht => ?_⟩⟩,
    fun s g => ⟨roundTimeout_noRun, fun x h => ⟨fun hw => ?_, fun ht => ?_⟩⟩⟩
  · obtain ⟨hexec, h5⟩ := exec_collective (s := s) hk
    rw [hexec]
    exact ⟨fun h => congrArg Host.Outcome.next (startColl_none h), fun c h =>
      ⟨fun hi => congrArg Host.Outcome.next (startColl_ignored h hi), fun hkind he =>
        ⟨fun f hf => congrArg Host.Outcome.next (startColl_fault h hkind he hf), fun hf =>
          ⟨fun ha => congrArg Host.Outcome.next (startColl_asks h hkind he h5 hf ha),
            fun ha => congrArg Host.Outcome.next (startColl_joins h hkind he h5 hf ha), rfl, rfl, rfl, rfl, rfl, rfl, rfl,
            collStep_src c h5, collStep_dst c h5, collJoined_new c, fun _ => collJoined_steps c⟩⟩⟩⟩
  · rw [roundTimeout_step h hs, if_neg]
    simp only [Bool.and_eq_true, decide_eq_true_eq, not_and]
    omega
  · rw [roundTimeout_step h hs, if_pos (by simp [hp, ht])]
  · rw [roundTimeout_run h, if_neg (Nat.not_le.2 hw)]
  · rw [roundTimeout_run h, if_pos ht]

end Sys2Proof.Machine
end

section
/-! PROOFS. A step on an empty queue (R400, R407, R411): market time over a nanosecond, awake and in Sleep. -/
namespace Sys2Proof.Machine
open Sys2Proof

theorem step_of_pending_nil {s : State} (h : s.pending = []) : step s = .next s.idle := by
  simp only [step, h]

/-! ### Market time over a nanosecond, awake -/

section Tick
variable {t : TimeBase} {ns : Nat}

theorem TimeBase.tick_stopped (h : t.running = false) : t.tick ns = t := by
  simp [TimeBase.tick, h]

/-- With nothing to slew, or within 4,096 ns of the last slew, a nanosecond counts 1 ns. -/
theorem TimeBase.tick_steady (hr : t.running = true) (h : t.slew = 0 ∨ ns < t.slewAt + 4096) :
    t.tick ns = { t with mt := t.mt + 1 } := by
  rcases h with h | h <;> simp [TimeBase.tick, hr, h]

/-- The last slew is 4,096 ns past, and the count stands before no beacon and no multiple of 100 µs, which a gain would pass over (log 39). -/
theorem TimeBase.tick_gains (hr : t.running = true) (hbeacon : t.mt.toNat % 4096 ≠ 4095) (htenth : t.mt.toNat % 100000 ≠ 99999)
    (hpast : t.slewAt + 4096 ≤ ns) (h : 0 < t.slew) : t.tick ns = { t with mt := t.mt + 2, slew := t.slew - 1, slewAt := ns } := by
  simp [TimeBase.tick, hr, h, h.ne', hbeacon, htenth, Nat.not_lt.2 hpast]

/-- A count that stands still passes no beacon over, so that a loss may come before one. -/
theorem TimeBase.tick_loses (hr : t.running = true) (htenth : t.mt.toNat % 100000 ≠ 99999) (hpast : t.slewAt + 4096 ≤ ns)
    (h : t.slew < 0) : t.tick ns = { t with slew := t.slew + 1, slewAt := ns } := by
  simp [TimeBase.tick, hr, h.ne, h.not_gt, htenth, Nat.not_lt.2 hpast]

end Tick

/-! ### Market time over a nanosecond of Sleep -/

theorem TimeBase.sleepTick_stopped {t : TimeBase} {asleep : Nat} (h : t.running = false) : t.sleepTick asleep = t := by
  simp [TimeBase.sleepTick, h]

theorem TimeBase.sleepTick_running {t : TimeBase} {asleep : Nat} (h : t.running = true) :
    t.sleepTick asleep = if asleep % 40 = 0 then { t with mt := t.mt + 40 } else t := by
  simp [TimeBase.sleepTick, h]

/-! ### The idle step -/

theorem State.idle_time_awake {s : State} (h : s.pwr.mstate ≠ 2) : s.idle.time = s.time.tick s.ns := if_neg h

theorem State.idle_time_asleep {s : State} (h : s.pwr.mstate = 2) : s.idle.time = s.time.sleepTick (s.ns + 1 - s.pwr.sleepAt) :=
  if_pos h

theorem State.idle_time_stopped {s : State} (h : s.time.running = false) : s.idle.time = s.time := by
  by_cases hm : s.pwr.mstate = 2
  · rw [State.idle_time_asleep hm, TimeBase.sleepTick_stopped h]
  · rw [State.idle_time_awake hm, TimeBase.tick_stopped h]

/-- Idling changes the clock, the time base and the noted causes of SMB_ALERT_N, and nothing else. -/
theorem State.idle_frame (s : State) :
    s.idle = { s with ns := s.idle.ns, time := s.idle.time, pins := { s.pins with alertOff := s.idle.pins.alertOff } } := rfl

/-- Settles O2: the next state is `idle`, whose time base is a tick awake and a count of the AON domain in Sleep. -/
theorem idleStepPassesOneNanosecond : Obligations.IdleStepPassesOneNanosecond := by
  unfold Obligations.IdleStepPassesOneNanosecond
  refine fun s hq => ⟨s.idle, step_of_pending_nil hq, s.idle_ns, State.idle_time_stopped, fun hm hr => ?awake, fun hm hr => ?asleep,
    s.idle_frame⟩
  case awake =>
    rw [State.idle_time_awake hm]
    exact ⟨TimeBase.tick_steady hr, fun hbeacon htenth hpast =>
      ⟨TimeBase.tick_gains hr hbeacon htenth hpast, TimeBase.tick_loses hr htenth hpast⟩⟩
  case asleep => rw [State.idle_time_asleep hm, TimeBase.sleepTick_running hr]

end Sys2Proof.Machine
end

section
/-! PROOFS. A step on a waiting command, and the state at reset. -/
namespace Sys2Proof.Machine
open Sys2Proof

theorem step_of_pending_cons {s : State} {c : Instr} {l : List Instr} (h : s.pending = c :: l) : step s = exec c (s.popCmd l) := by
  rw [step, h]

/-- Settles O1: the front command is taken off by `popCmd`. -/
theorem stepRunsFrontCommand : Obligations.StepRunsFrontCommand := by
  unfold Obligations.StepRunsFrontCommand
  exact fun c l s h => step_of_pending_cons h

/-! ### The components of the reset state -/

section
variable (c : Fin 384) (k : Fin 8) (cl : Fin 48)

theorem State.reset_core : State.reset.core c = Core.reset := by simp [State.core, State.reset]

theorem State.reset_station : State.reset.station c k = Station.reset := by
  simp [State.station, State.reset_core, Core.reset]

theorem State.reset_sk : State.reset.sk cl = Stallkeeper.reset := by simp [State.sk, State.cluster, State.reset, Cluster.reset]

theorem State.reset_chan (ch : Fin 50) : State.reset.chan ch = Channel.reset := by simp [State.chan, State.reset, Gddr.reset]

theorem State.reset_ring (r : Fin 256) : State.reset.ring r = Ring.reset := by simp [State.ring, State.reset]

theorem State.reset_port (p : Fin 16) : State.reset.port p = Port.reset := by simp [State.port, State.reset]

theorem State.reset_entry (v : Fin 512) : State.reset.pcie.entries[v].mask = true := by simp [State.reset, Pcie.reset]

end

/-- The queue map is at 0xFFFF: no queue mapped (R135). -/
theorem qmapReset_word : ∀ i : Fin 32, qmapReset.word (16 * i.val) = 0xFFFF := by decide

theorem qmapReset_wf : qmapReset.wf := by decide

/-- Settles O3, one component of the reset state after another. -/
theorem registersResetToTheirStatedValues : Obligations.RegistersResetToTheirStatedValues := by
  unfold Obligations.RegistersResetToTheirStatedValues
  simp only [State.reset_station, State.reset_core, State.reset_sk, State.reset_chan, State.reset_ring, State.reset_port, State.reset_entry]
  refine ⟨rfl, fun _ _ => by decide, fun _ => qmapReset_word, fun _ => rfl, rfl, rfl, rfl, fun _ => ⟨rfl, rfl⟩, fun _ => ⟨rfl, rfl, rfl⟩, ?_⟩
  exact ⟨rfl, rfl, fun _ => trivial, rfl, rfl, rfl, rfl, rfl, rfl, rfl, rfl, fun _ => ⟨rfl, rfl, rfl⟩, rfl, rfl, rfl, rfl, rfl⟩

theorem Core.reset_memOk : Core.reset.memOk := ⟨rfl, rfl, qmapReset_wf, rfl⟩

/-- Settles O4: every memory but the queue maps is empty. -/
theorem resetMemoriesAreCanonical : Obligations.ResetMemoriesAreCanonical := by
  unfold Obligations.ResetMemoriesAreCanonical
  refine ⟨rfl, rfl, rfl, rfl, rfl, fun c => ?_, fun cl => ?_⟩
  · rw [State.reset_core]
    exact Core.reset_memOk
  · rw [State.reset_sk]
    exact ⟨rfl, rfl⟩

end Sys2Proof.Machine
end

section
/-! PROOFS. What a step keeps: the queue of commands, the nanosecond clock, and the canonical form of the addressed memories. -/
namespace Sys2Proof.Machine
open Sys2Proof

/-! ### Canonical memories of a component -/

/-- A stallkeeper's memories are canonical. -/
def Stallkeeper.memOk (k : Stallkeeper) : Prop := k.imem.wf ∧ k.dmem.wf

/-- GDDR7's memories are canonical. -/
def Gddr.memOk (g : Gddr) : Prop := g.mem.wf ∧ g.raw.wf

/-- The flash images are canonical. -/
def Security.memOk (x : Security) : Prop := x.flashA.wf ∧ x.flashB.wf

/-- The memories of the core a store works on are canonical. -/
def Stored.memOk (r : Stored) : Prop := r.co.memOk

/-! An update of other fields leaves them canonical. -/

theorem Core.memOk.same {co x : Core} (h : co.memOk) (hi : x.istore = co.istore := by rfl) (ho : x.optab = co.optab := by rfl)
    (hq : x.qmap = co.qmap := by rfl) (hl : x.ls = co.ls := by rfl) : x.memOk := by
  rw [Core.memOk, hi, ho, hq, hl]
  exact h

theorem Stallkeeper.memOk.same {k x : Stallkeeper} (h : k.memOk) (hi : x.imem = k.imem := by rfl) (hd : x.dmem = k.dmem := by rfl) :
    x.memOk := by
  rw [Stallkeeper.memOk, hi, hd]
  exact h

theorem Gddr.memOk.same {g x : Gddr} (h : g.memOk) (hm : x.mem = g.mem := by rfl) (hr : x.raw = g.raw := by rfl) : x.memOk := by
  rw [Gddr.memOk, hm, hr]
  exact h

theorem Security.memOk.same {y x : Security} (h : y.memOk) (ha : x.flashA = y.flashA := by rfl) (hb : x.flashB = y.flashB := by rfl) :
    x.memOk := by
  rw [Security.memOk, ha, hb]
  exact h

/-! ### The relation every command respects -/

/-- `t` has the queue and the clock of `o`, and canonical memories where `o` has them. -/
structure Kept (o t : State) : Prop where
  pending : t.pending = o.pending
  ns : t.ns = o.ns
  memOk : o.memOk → t.memOk

theorem Kept.refl (s : State) : Kept s s := ⟨rfl, rfl, id⟩

/-- A command answers a next state, and that state keeps what `o` has. -/
def Answers (o : State) (r : Res) : Prop := ∃ t, r = .next t ∧ Kept o t

/-- A state that may come out keeps what `o` has. -/
def Offered (o : State) (x : Option State) : Prop := ∀ t, x = some t → Kept o t

/-- The state that a message leaves keeps what `o` has. -/
def Fated (o : State) (m : MsgFate) : Prop := ∀ t, m = .take t → Kept o t

section
variable {o s t : State} {c : Prop} [Decidable c]

theorem Kept.ite (hs : Kept o s) (ht : Kept o t) : Kept o (if c then s else t) := by
  split <;> assumption

theorem Kept.ifThen (hs : Kept o s) (ht : Kept o s → Kept o t) : Kept o (if c then t else s) := (ht hs).ite hs

theorem Kept.ifElse (hs : Kept o s) (ht : Kept o s → Kept o t) : Kept o (if c then s else t) := hs.ite (ht hs)

theorem Kept.foldl {α : Type} {f : State → α → State} {l : List α} (h : Kept o s) (hf : ∀ t a, Kept o t → Kept o (f t a)) :
    Kept o (l.foldl f s) :=
  List.foldlRecOn l f h fun t ht a _ => hf t a ht

/-- A fold that also gathers what it is asked for. -/
theorem Kept.foldlFst {α β : Type} {f : State × β → α → State × β} {l : List α} {b : β} (h : Kept o s)
    (hf : ∀ r a, Kept o r.1 → Kept o (f r a).1) : Kept o (l.foldl f (s, b)).1 :=
  List.foldlRecOn (motive := fun r : State × β => Kept o r.1) l f h fun r hr a _ => hf r a hr

theorem Kept.forAll {α : Type} {f : α → State → State} {l : List α} (h : Kept o s) (hf : ∀ a t, Kept o t → Kept o (f a t)) :
    Kept o (forAll l f s) :=
  h.foldl fun t a => hf a t

theorem Kept.next (h : Kept o s) : Answers o (.next s) := ⟨s, rfl, h⟩

theorem Answers.ite {r r' : Res} (h : Answers o r) (h' : Answers o r') : Answers o (if c then r else r') := by
  split <;> assumption

theorem Kept.some (h : Kept o s) : Offered o (some s) := fun _ e => Option.some.inj e ▸ h

theorem Offered.none : Offered o none := fun _ e => nomatch e

theorem Offered.ite {x y : Option State} (hx : Offered o x) (hy : Offered o y) : Offered o (if c then x else y) := by
  split <;> assumption

theorem Kept.take (h : Kept o s) : Fated o (.take s) := fun _ e => MsgFate.take.inj e ▸ h

theorem Fated.wait : Fated o .wait := fun _ e => nomatch e

theorem Fated.drop : Fated o .drop := fun _ e => nomatch e

theorem Fated.ite {m m' : MsgFate} (h : Fated o m) (h' : Fated o m') : Fated o (if c then m else m') := by
  split <;> assumption

end

/-! ### Updates of the state -/

section
variable {o s t : State} (h : Kept o s) {r : Fin 256} {c : Fin 384} {cl : Fin 48} {k : Fin 8} {p : Fin 16} {ch : Fin 50} {d : Fin 59}
include h

/-- An update that keeps the memories canonical. -/
theorem Kept.change (hm : s.memOk → t.memOk) (hp : t.pending = s.pending := by rfl) (hn : t.ns = s.ns := by rfl) : Kept o t :=
  ⟨hp.trans h.pending, hn.trans h.ns, hm ∘ h.memOk⟩

/-- An update of fields outside the queue, the clock and the memories. -/
theorem Kept.same (hp : t.pending = s.pending := by rfl) (hn : t.ns = s.ns := by rfl) (hh : t.host = s.host := by rfl)
    (hg : t.gddr = s.gddr := by rfl) (hs : t.sec = s.sec := by rfl) (hc : t.cores = s.cores := by rfl)
    (hk : t.clusters = s.clusters := by rfl) : Kept o t :=
  h.change (fun hm => State.memOk_of_eq hm hh (by rw [hg]) (by rw [hg]) (by rw [hs]) (by rw [hs]) hc hk) hp hn

theorem Kept.setPwr {x : Power} : Kept o (s.setPwr x) := h.same
theorem Kept.setPins {x : Pins} : Kept o (s.setPins x) := h.same
theorem Kept.setBoot {x : Boot} : Kept o (s.setBoot x) := h.same
theorem Kept.setPcie {x : Pcie} : Kept o (s.setPcie x) := h.same
theorem Kept.setEvt {x : EventRing} : Kept o (s.setEvt x) := h.same
theorem Kept.setLaunches {x : List Launch} : Kept o (s.setLaunches x) := h.same
theorem Kept.setWires {x : List Transit} : Kept o (s.setWires x) := h.same
theorem Kept.setMach {x : Mach} : Kept o (s.setMach x) := h.same
theorem Kept.setColl {x : Coll} : Kept o (s.setColl x) := h.same
theorem Kept.setTime {x : TimeBase} : Kept o (s.setTime x) := h.same
theorem Kept.setLedger {x : Ledger} : Kept o (s.setLedger x) := h.same
theorem Kept.setOut {x : Output} : Kept o (s.setOut x) := h.same
theorem Kept.setFree {x : Nat} : Kept o (s.setFree x) := h.same
theorem Kept.fresh : Kept o s.fresh.2 := h.setFree
theorem Kept.setRing {x : Ring} : Kept o (s.setRing r x) := h.same
theorem Kept.modRing {f : Ring → Ring} : Kept o (s.modRing r f) := h.setRing
theorem Kept.setPort {x : Port} : Kept o (s.setPort p x) := h.same
theorem Kept.modPort {f : Port → Port} : Kept o (s.modPort p f) := h.setPort
theorem Kept.setCpwr {x : ClusterPower} : Kept o (s.setCpwr cl x) := h.setPwr
theorem Kept.setDom {x : Domain} : Kept o (s.setDom d x) := h.setPwr

theorem Kept.setHost {x : Memory} (hx : s.host.wf → x.wf) : Kept o (s.setHost x) :=
  h.change fun ⟨hh, hs⟩ => ⟨hx hh, hs⟩

theorem Kept.setGddr {x : Gddr} (hx : s.gddr.memOk → x.memOk := by exact fun h => h.same) : Kept o (s.setGddr x) :=
  h.change fun ⟨hh, hm, hr, hs⟩ => ⟨hh, (hx ⟨hm, hr⟩).1, (hx ⟨hm, hr⟩).2, hs⟩

theorem Kept.setChan {x : Channel} : Kept o (s.setChan ch x) := h.setGddr

theorem Kept.setSec {x : Security} (hx : s.sec.memOk → x.memOk := by exact fun h => h.same) : Kept o (s.setSec x) :=
  h.change fun ⟨hh, hm, hr, ha, hb, hs⟩ => ⟨hh, hm, hr, (hx ⟨ha, hb⟩).1, (hx ⟨ha, hb⟩).2, hs⟩

theorem Kept.setCore {x : Core} (hx : (s.core c).memOk → x.memOk := by exact fun h => h.same) : Kept o (s.setCore c x) := by
  refine h.change fun ⟨hh, hm, hr, ha, hb, hc, hk⟩ => ⟨hh, hm, hr, ha, hb, fun d => ?_, hk⟩
  by_cases e : c = d
  · subst e
    rw [State.setCore_same]
    exact hx (hc c)
  · rw [State.setCore_other _ _ _ _ e]
    exact hc d

theorem Kept.modCore {f : Core → Core} (hf : ∀ co, co.memOk → (f co).memOk := by exact fun _ h => h.same) : Kept o (s.modCore c f) :=
  h.setCore (hf _)

theorem Kept.setStation {x : Station} : Kept o (s.setStation c k x) := h.modCore
theorem Kept.modStation {f : Station → Station} : Kept o (s.modStation c k f) := h.setStation

theorem Kept.setCluster {x : Cluster} (hx : (s.cluster cl).sk.memOk → x.sk.memOk := by exact fun h => h.same) :
    Kept o (s.setCluster cl x) := by
  refine h.change fun ⟨hh, hm, hr, ha, hb, hc, hk⟩ => ⟨hh, hm, hr, ha, hb, hc, fun d => ?_⟩
  by_cases e : cl = d
  · subst e
    rw [State.sk, State.setCluster_same]
    exact hx (hk cl)
  · rw [State.sk, State.setCluster_other _ _ _ _ e]
    exact hk d

theorem Kept.modCluster {f : Cluster → Cluster} (hf : ∀ cu, cu.sk.memOk → (f cu).sk.memOk := by exact fun _ h => h.same) :
    Kept o (s.modCluster cl f) :=
  h.setCluster (hf _)

theorem Kept.modSk {f : Stallkeeper → Stallkeeper} (hf : ∀ k, k.memOk → (f k).memOk := by exact fun _ h => h.same) :
    Kept o (s.modSk cl f) :=
  h.modCluster fun _ => hf _

end

/-! ### Cores -/

section
variable {co : Core} (h : co.memOk) {c : Prop} [Decidable c] {k : Fin 8} {key : Fin 8 × Nat} {e : Entry}

theorem Core.memOk.ite {x y : Core} (hx : x.memOk) (hy : y.memOk) : (if c then x else y).memOk := by
  split <;> assumption

include h

theorem Core.memOk.foldl {α : Type} {f : Core → α → Core} {l : List α} (hf : ∀ co a, co.memOk → (f co a).memOk) :
    (l.foldl f co).memOk :=
  List.foldlRecOn l f h fun co hc a _ => hf co a hc

theorem Core.memOk.lsWrite {a : Nat} {bs : List Byte} : (co.lsWrite a bs).memOk := by
  obtain ⟨hi, ho, hq, hl⟩ := h
  exact ⟨hi, ho, hq, Memory.putBytes_wf _ _ _ hl⟩

theorem Core.memOk.putBlock {row col : Nat} {cs : List Nat} : (co.putBlock e row col cs).memOk := h.lsWrite
theorem Core.memOk.dropHolds : (dropHolds k co).memOk := h
theorem Core.memOk.abandonStreams : (abandonStreams k co).memOk := h
theorem Core.memOk.freeMvSlot {held : Bool} : (freeMvSlot held co).memOk := h

theorem Core.memOk.freeSlots {f : Inflight} : (freeSlots k f co).memOk := by
  unfold Machine.freeSlots
  split <;> exact h

theorem Core.memOk.addReqs {rs : List PortReq} : (addReqs rs co).memOk := h.foldl fun _ _ ht => ht
theorem Core.memOk.modFlight {g : Inflight → Inflight} : (co.modFlight key g).memOk := h

theorem Core.memOk.takeNet {f : Inflight} : (takeNet key f co).memOk := by
  unfold Machine.takeNet
  split
  · exact h
  · exact h.same.modFlight.addReqs

theorem Core.memOk.netTurn : (netTurn co).memOk := by
  unfold Machine.netTurn
  split
  · split
    · exact h
    · exact .ite h h.same.takeNet
  · exact h

theorem Core.memOk.joinNet : (joinNet key co).memOk := h.same.netTurn
theorem Core.memOk.leaveNet {more : Bool} : (leaveNet key more co).memOk := h.same.netTurn
theorem Core.memOk.dropReqs {p : Fin 8 × Nat → Bool} : (dropReqs p co).memOk := h.same.netTurn
theorem Core.memOk.takeBase : (takeBase co).memOk := h
theorem Core.memOk.countEv {ev : Ev} : (countEv ev co).memOk := h

theorem Core.memOk.takeSlots {o : CoreOp} : (takeSlots key o co).memOk := by
  unfold Machine.takeSlots
  split <;> exact h

theorem Core.memOk.setHolds {o : CoreOp} : (setHolds k o co).memOk := by
  unfold Machine.setHolds
  split <;> exact h

theorem Core.memOk.retain {narrow : Bool} {n : Nat} {r : Retained} : (retain e narrow n r co).memOk := .ite h (.ite h h.lsWrite)
theorem Core.memOk.finishPass : (finishPass key co).memOk := h
theorem Core.memOk.askStore {out : Part} : (startUnit.askStore key out co).memOk := .ite h (.ite h.modFlight.joinNet h.addReqs)
theorem Core.memOk.needRepair {t : Fin 4} {line : Nat} : (needRepair t line co).memOk := .ite h h
theorem Core.memOk.lsPoisonSector {line : Nat} {x : Fin 16} : (lsPoisonSector line x co).memOk := .ite h h

theorem Core.memOk.lsFind {t : Fin 4} {line : Nat} {e : Ecc} : (lsFind t line e co).memOk :=
  (Core.memOk.ite h.same.needRepair h.same).foldl fun _ _ ht => ht.lsPoisonSector

theorem Core.memOk.releaseUnit : (releaseUnit key co).memOk := h
theorem Core.memOk.cntClear {v : Word} : (cntClear v co).memOk := by
  unfold Machine.cntClear
  cases v.getLsbD 4 <;> cases v.getLsbD 5 <;> exact h

theorem Core.memOk.watchArm : (watchArm co).memOk := h.takeBase

theorem Core.memOk.ctrWrite {a : Nat} {v : Word} : (ctrWrite a v co).memOk := by
  unfold Machine.ctrWrite
  split
  case h_5 => exact .ite h.watchArm h
  case h_8 => exact h.cntClear
  all_goals exact h

theorem Core.memOk.loadStations {a : Nat} {bs : List Byte} : (loadStations a bs co).memOk := h

theorem Core.memOk.rescale {x : Retained} : (rescale x co).memOk :=
  h.foldl fun _ _ ht => ht.foldl fun _ _ ht => ht.lsWrite

theorem Core.memOk.streamPass {seen : Core} {p : PassOp} {rs : Vector Word 16} {m : StreamMeas} :
    (streamPass co seen key p rs m).1.memOk := by
  refine List.foldlRecOn (motive := fun acc : Core × Ev => acc.1.memOk) _ _ h fun acc hc rank _ => ?_
  split <;> exact hc

theorem Core.memOk.streamMv {seen : Core} {m : MvOp} {rs : Vector Word 16} : (streamMv co seen key m rs).1.memOk := h

/-- Every write through a stallkeeper's window of a core keeps its memories canonical. -/
theorem Core.memOk.windowWrite {a : Nat} {v : Word} {x : Core} (hx : windowWrite co a v = some x) : x.memOk := by
  obtain ⟨hi, ho, hq, hl⟩ := id h
  have some_ite {p : Prop} [Decidable p] {y : Core} (e : some (if p then y else co) = some x) (hy : y.memOk) : x.memOk :=
    Option.some.inj e ▸ Core.memOk.ite hy h
  unfold Machine.windowWrite at hx
  split at hx
  · exact some_ite hx ⟨Memory.putLE_wf _ _ _ _ hi, ho, hq, hl⟩
  split at hx
  · exact some_ite hx ⟨hi, Memory.putLE_wf _ _ _ _ ho, hq, hl⟩
  split at hx
  · exact some_ite hx ⟨hi, ho, Memory.putLE_wf _ _ _ _ hq, hl⟩
  split at hx
  · cases hx
  split at hx
  · exact Option.some.inj hx ▸ h
  split at hx
  · cases hx
  split at hx
  · exact Option.some.inj hx ▸ h.ctrWrite
  split at hx
  · cases hx
  split at hx
  · exact Option.some.inj hx ▸ Core.memOk.ite h h
  · cases hx

theorem Core.memOk.start {g : Dword} {seen : Core} : (Stored.start co g seen).memOk := h

end

theorem putMasked_wf {mask : Nat → Word → Word} {m : Memory} {a : Nat} {bs : List Byte} (h : m.wf) : (putMasked mask m a bs).wf :=
  List.foldlRecOn (motive := fun m : Memory => m.wf = true) _ _ (Memory.putBytes_wf _ _ _ h) fun _ hm _ _ => Memory.putLE_wf _ _ _ _ hm

/-! ### Stores of a core -/

section
variable {r : Stored} (h : r.memOk) {e : Entry} {src row col : Nat}

theorem Stored.memOk.raise {ev : Ev} (h : r.memOk) : (r.raise ev).memOk := h

include h

theorem Stored.memOk.foldl {α : Type} {f : Stored → α → Stored} {l : List α} (hf : ∀ r a, r.memOk → (f r a).memOk) :
    (l.foldl f r).memOk :=
  List.foldlRecOn l f h fun r hr a _ => hf r a hr

theorem Stored.memOk.storeBlocks {xs : List (List FNum)} : (storeBlocks e src row col xs r).memOk := by
  induction xs generalizing col r with
  | nil => exact h
  | cons x xs ih =>
    refine ih (r := { r with co := _, ev := _, g := _, bad := _ }) ?_
    unfold Stored.memOk
    dsimp only
    split
    · exact (Core.memOk.putBlock h).lsWrite
    · exact Core.memOk.putBlock h

theorem Stored.memOk.storeRow {xs : List FNum} : (storeRow e src row col xs r).memOk := by
  unfold Machine.storeRow
  split
  · exact h.storeBlocks
  · exact Core.memOk.lsWrite h

theorem Stored.memOk.storeRows {xs : List (List FNum)} : (storeRows e src row xs r).memOk := by
  induction xs generalizing row r with
  | nil => exact h
  | cons x xs ih => exact ih h.storeRow

theorem Stored.memOk.storeRegion {n : Nat} {rows : List (List FNum)} : (storeRegion e row n rows r).memOk := h.storeRows

theorem Stored.memOk.retain {narrow : Bool} {n : Nat} {x : Retained} : { r with co := retain e narrow n x r.co }.memOk :=
  Core.memOk.retain h

theorem Stored.memOk.vstoreMove {words : List Word} {l16 : Bool} {lanes : List Nat} :
    (vstoreMove e words row col l16 lanes r).memOk := by
  unfold Machine.vstoreMove
  dsimp only
  split
  · exact h.retain.storeRows
  · exact h.retain.storeRow

theorem Stored.memOk.copyCodes {d : Entry} {ra rb n : Nat} : (copyCodes e d ra rb n r).memOk :=
  Core.memOk.foldl h fun _ _ hc => hc.putBlock

theorem Stored.memOk.copyMove {d : Entry} {words : List Word} {ra rb : Nat} {x : Nat × Nat × Nat × Nat} :
    (copyMove e d words ra rb x r).memOk := by
  unfold Machine.copyMove
  split
  · exact h.foldl fun _ _ hr => hr.copyCodes
  · exact h.retain.raise.storeRows

theorem Stored.memOk.putTile {q : Nat × Nat} {tile : List (List FNum)} : (putTile e src row q tile r).memOk :=
  h.foldl fun _ _ hr => hr.storeRow

theorem Stored.memOk.transposeMove {d : Entry} {ra rb n : Nat} : (transposeMove e d ra rb n r).memOk :=
  h.foldl fun _ _ hr => hr.raise.putTile

theorem Stored.memOk.hadamardMove {d : Entry} {ra rb : Nat} {x : XnetOp} : (hadamardMove e d ra rb x r).memOk := by
  unfold Machine.hadamardMove
  dsimp only
  split
  · exact h.raise.foldl fun _ _ hr => hr.storeRow
  · exact h.raise.foldl fun _ _ hr => hr.storeRow

theorem Stored.memOk.storeTile {words : List Word} {rank : Nat} {tile : List (List FNum)} : (storeTile e words row rank tile r).memOk :=
  h.retain.foldl fun _ _ hr => hr.storeRow

end

/-- A movement of an instruction keeps the memories of its core canonical. -/
theorem Core.memOk.moveData {co : Core} (h : co.memOk) {k : Fin 8} {f : Inflight} {o : CoreOp} : (moveData co k f o).memOk := by
  unfold Machine.moveData
  split
  · exact h
  · exact h.start.vstoreMove
  · exact h
  · exact h.lsWrite
  · exact h.start.copyMove
  · exact h.start.transposeMove
  · exact h.start.hadamardMove
  · exact h

/-! ### Stallkeepers, GDDR7, flash -/

theorem Stallkeeper.memOk.ite {x y : Stallkeeper} {c : Prop} [Decidable c] (hx : x.memOk) (hy : y.memOk) : (if c then x else y).memOk := by
  split <;> assumption

theorem Stallkeeper.memOk.setG {k : Stallkeeper} (h : k.memOk) {r : BitVec 5} {v : Word} : (k.setG r v).memOk := .ite h h

theorem Gddr.memOk.askRate {g : Gddr} (h : g.memOk) : (askRate g).memOk := h

section
variable {x : Security} (h : x.memOk) {b : BootRec} {slot trial : Bool}

theorem Security.memOk.ite {y : Security} {c : Prop} [Decidable c] (h : x.memOk) (hy : y.memOk) : (if c then x else y).memOk := by
  split <;> assumption

include h

theorem Security.memOk.writeRec : (writeRec b x).memOk := .ite h h
theorem Security.memOk.bootedAs : (bootedAs x slot trial).memOk := h
theorem Security.memOk.blowMissing {old : Security} : (blowMissing old slot trial x).memOk := .ite h h

theorem Security.memOk.setFlash {m : Memory} (hm : m.wf) : (setFlash slot m x).memOk := .ite ⟨h.1, hm⟩ ⟨hm, h.2⟩

theorem Security.memOk.flashOf : (flashOf x slot).wf := by
  unfold Machine.flashOf
  split
  · exact h.2
  · exact h.1

/-- The boot ROM's choice writes boot records alone. -/
theorem Security.memOk.chooseImage : (chooseImage x).2.memOk := by
  have first {y : Option (Bool × Bool) × Security} (hy : y.2.memOk) {a f g : Bool} : (match y.1 with
      | some c => (some c, { y.2 with fallback := false })
      | none => if fwVerifies y.2 a then (some (a, false), { y.2 with fallback := f })
        else if fwVerifies y.2 (!a) then (some (!a, false), { Machine.writeRec { standing y.2 with active := !a } y.2 with fallback := g })
        else (none, { y.2 with fallback := false }) : Option (Bool × Bool) × Security).2.memOk := by
    split
    · exact hy
    · split
      · exact hy
      · split
        · exact hy.writeRec
        · exact hy
  refine first ?_
  split
  · split
    · dsimp only
      split
      · exact h.writeRec
      · exact h.writeRec
    · exact h.writeRec
  · exact h

end


end Sys2Proof.Machine
end

section
/-! PROOFS. Every command keeps the queue, the nanosecond clock and the canonical memories: one lemma for each function of the model that
makes a state, in the order of the definitions. -/
/- The lemmas are elaborated one after another: side by side they would take more threads than memory allows. -/
set_option Elab.async false
namespace Sys2Proof.Machine
open Sys2Proof

/-! ### Shared steps -/

section
variable {o s : State} (h : Kept o s) {r : Fin 256} {idx sev v : Nat} {f : DescCtx → DescCtx} {kind source : Half} {data : List Byte}
include h

theorem Kept.modCtx : Kept o (modCtx r idx f s) := h.modRing
theorem Kept.rearm : Kept o (rearm s) := h.setPins
theorem Kept.ledgerAdd : Kept o (ledgerAdd kind sev source data s) := .ite h.setLedger h.setLedger
theorem Kept.sendMsi : Kept o (sendMsi v s) := .ite h.setPcie h.setOut

theorem Kept.evtWrite {kind : Half} {sev : Nat} {source : Word} {data : List Byte} : Kept o (evtWrite kind sev source data s) :=
  (h.setHost (Memory.putBytes_wf _ _ _)).setEvt.ifThen fun h => h.sendMsi

theorem Kept.evtCheckFull : Kept o (evtCheckFull s) := h.ifElse fun h => .ite h.setEvt h.setEvt

theorem Kept.postEvent {source : Word} : Kept o (postEvent kind sev source data s) :=
  (Kept.ite h.ledgerAdd h).ifElse fun h => .ite h.setEvt h.evtWrite.evtCheckFull

theorem Kept.setDegraded : Kept o (setDegraded s) := h.setBoot.postEvent

end

/-! ### Flags, halts, the watch -/

section
variable {o s : State} (h : Kept o s) {cl : Fin 48} {kind core stn code : Nat} {c : Fin 384} {k : Fin 8} {pc : BitVec 12}
  {detail : Word} {uid : Option Nat} {status : Byte} {l : Launch} {m : BitVec 48} {ev : Ev}
include h

theorem Kept.skPost : Kept o (skPost cl kind core stn code s) := h.modCluster

theorem Kept.haltStation : Kept o (haltStation c k code pc detail uid s) :=
  h.ifElse fun h => (h.modCore fun _ hc => hc.same.abandonStreams.dropReqs).skPost

theorem Kept.haltCommanded : Kept o (haltCommanded c k s) := h.haltStation

theorem Kept.endCluster : Kept o (endCluster cl status s) := by
  unfold Machine.endCluster
  exact (h.forAll fun _ _ ht => ht.haltCommanded).modCluster

theorem Kept.setLaunch : Kept o (setLaunch l s) := h.setLaunches
theorem Kept.refuseReplay : Kept o (refuseReplay m s) := h.forAll fun _ _ ht => ht.forAll fun _ _ ht => ht.modCore
theorem Kept.stopLaunch : Kept o (stopLaunch l s) := (h.forAll fun _ _ ht => .ite ht.endCluster.modCluster ht).setLaunch

theorem Kept.pauseLaunch : Kept o (pauseLaunch l s) :=
  (h.forAll fun _ _ ht => (ht.forAll fun _ _ ht => ht.haltCommanded).modCluster).setLaunch

theorem Kept.watchAct : Kept o (watchAct c s) := by
  unfold Machine.watchAct
  dsimp only
  split
  · exact h
  · exact .ite h.setLaunch (.ite h.stopLaunch (.ite h.pauseLaunch (.ite h.refuseReplay.stopLaunch h.setLaunch)))

theorem Kept.watchTrigger {i : Fin 3} : Kept o (watchTrigger c i s) := by
  have count {s : State} (h : Kept o s) {n : Nat} : Kept o { s with watchTotal := n } := h.same
  unfold Machine.watchTrigger
  exact ((count h.setCore.skPost).ifElse fun h => h.postEvent).watchAct

theorem Kept.watchCheck : Kept o (watchCheck c s) := h.forAll fun _ _ ht => ht.watchTrigger
theorem Kept.raiseEv {uid : Nat} : Kept o (raiseEv c k uid ev s) := (h.modCore fun _ hc => hc.countEv).modStation.watchCheck

end

/-! ### Stations -/

section
variable {o s : State} (h : Kept o s) {c : Fin 384} {q : Fin 32} {v : Word} {k : Fin 8} {i : CoreInstr} {w : InstrWord}
  {code detail uid u n : Nat} {kind : CoreOp → Bool} {eff : CoreInstr → Nat → State → State} {r : BitVec 4} {cl : Fin 48} {ch : Fin 64}
include h

theorem Kept.popToken : Kept o (popToken c q s) := h.modCore.ifThen fun h => h.setWires
theorem Kept.spendCredit : Kept o (spendCredit c q s) := h.modCore
theorem Kept.returnCredit : Kept o (returnCredit c q s) := h.modCore
theorem Kept.sendToken : Kept o (sendToken c q v s) := .ite h.setWires h.modCore
theorem Kept.pushToken : Kept o (pushToken c q v s) := h.spendCredit.sendToken

theorem Kept.fireAt : Kept o (fireAt c k i w s) := by
  unfold Machine.fireAt
  exact ((h.forAll fun _ _ ht => ht.popToken).forAll fun _ _ ht => ht.spendCredit).modCore fun _ hc => .ite
    hc.same.addReqs.takeSlots.setHolds hc.same.addReqs.takeSlots.setHolds.joinNet

theorem Kept.preFire : Kept o (preFire c k code detail s) := h.haltStation

theorem Kept.fireWith (heff : ∀ a0 a1 t, Kept o t → Kept o (eff a0 a1 t)) : Kept o (fireWith c k kind eff s) := by
  unfold Machine.fireWith
  dsimp only
  split
  · exact h
  · split
    · exact h.preFire
    · split
      · exact h
      · split
        · exact h.preFire
        · split
          · exact h.ifElse fun h => h.preFire
          · split
            · exact h
            · split
              · exact h.preFire
              · exact .ite (heff _ _ _ h.fireAt) h

theorem Kept.setReg : Kept o (setReg c k r v s) := h.modStation
theorem Kept.markMoved : Kept o (markMoved c k uid s) := h.modStation
theorem Kept.execStationNop : Answers o (execStationNop c k s) := (h.fireWith fun _ _ _ ht => ht.markMoved).next

theorem Kept.aluEff : Kept o (aluEff c k i u s) := by
  unfold Machine.aluEff
  dsimp only
  split
  · exact h.markMoved.setReg
  · exact h

theorem Kept.execStationAlu : Answers o (execStationAlu c k s) := (h.fireWith fun _ _ _ ht => ht.aluEff).next

theorem Kept.liEff : Kept o (liEff c k i u s) := by
  unfold Machine.liEff
  split
  · exact h.markMoved.setReg
  · exact h

theorem Kept.execLi : Answers o (execLi c k s) := (h.fireWith fun _ _ _ ht => ht.liEff).next

theorem Kept.brEff : Kept o (brEff c k i u s) := by
  unfold Machine.brEff
  dsimp only
  split
  · exact h.markMoved.ifThen fun h => h.modStation
  · exact h

theorem Kept.execBr : Answers o (execBr c k s) := (h.fireWith fun _ _ _ ht => ht.brEff).next

theorem Kept.loopEff : Kept o (loopEff c k i u s) := by
  unfold Machine.loopEff
  dsimp only
  split
  · exact h.markMoved.setReg.ifThen fun h => h.modStation
  · exact h

theorem Kept.execLoopStn : Answers o (execLoopStn c k s) := (h.fireWith fun _ _ _ ht => ht.loopEff).next
theorem Kept.execStationEnd : Answers o (execStationEnd c k s) := (h.fireWith fun _ _ _ ht => ht.markMoved.modStation).next
theorem Kept.execTrapStn : Answers o (execTrapStn c k s) := (h.fireWith fun _ _ _ ht => ht.markMoved).next

theorem Kept.flagsEff : Kept o (flagsEff c k i u s) := by
  unfold Machine.flagsEff
  dsimp only
  split
  · exact h.markMoved.setReg.ifThen fun h => h.modStation
  · exact h

theorem Kept.execFlagsStn : Answers o (execFlagsStn c k s) := (h.fireWith fun _ _ _ ht => ht.flagsEff).next
theorem Kept.execJoinStn : Answers o (execJoinStn c k s) := (h.fireWith fun _ _ _ ht => ht.markMoved).next
theorem Kept.execQuiesce : Answers o (execQuiesce c k s) := (h.fireWith fun _ _ _ ht => ht.markMoved).next
theorem Kept.crierArrive : Kept o (crierArrive cl ch n s) := h.modCluster

theorem Kept.execRaiseStn : Answers o (execRaiseStn c k s) := by
  unfold Machine.execRaiseStn
  refine (h.fireWith fun _ _ _ ht => ?_).next
  split
  · exact ht.markMoved.crierArrive
  · exact ht

theorem Kept.execNotifyStn : Answers o (execNotifyStn c k s) := by
  unfold Machine.execNotifyStn
  refine (h.fireWith fun _ _ _ ht => ?_).next
  split
  · exact ht.markMoved.skPost
  · exact ht

end

/-! ### MOVE and XNET instructions -/

section
variable {o s : State} (h : Kept o s) {c : Fin 384} {k : Fin 8} {u : Nat} {i : CoreInstr}
include h

theorem Kept.moveNow {f : Inflight} : Kept o (moveNow c k f s) := by
  unfold Machine.moveNow
  split
  · exact h
  · exact (h.setCore fun hc => hc.moveData).modStation.raiseEv

theorem Kept.memFired {i : CoreInstr} : Kept o (memFired c k i u s) := by
  unfold Machine.memFired
  split
  · exact h
  · split
    · exact (h.markMoved.modCore fun _ hc => hc.freeSlots).moveNow
    · exact h

theorem Kept.xnetFired : Kept o (xnetFired c k i u s) := .ite h.memFired h
theorem Kept.execCopyInstruction : Answers o (execCopyInstruction c k s) := (h.fireWith fun _ _ _ ht => ht.memFired).next
theorem Kept.execVload : Answers o (execVload c k s) := (h.fireWith fun _ _ _ ht => ht.memFired).next
theorem Kept.execVstore : Answers o (execVstore c k s) := (h.fireWith fun _ _ _ ht => ht.memFired).next
theorem Kept.execSload : Answers o (execSload c k s) := (h.fireWith fun _ _ _ ht => ht.memFired).next
theorem Kept.execSstore : Answers o (execSstore c k s) := (h.fireWith fun _ _ _ ht => ht.memFired).next
theorem Kept.execXnetTranspose : Answers o (execXnetTranspose c k s) := (h.fireWith fun _ _ _ ht => ht.xnetFired).next
theorem Kept.execXnetHadamard : Answers o (execXnetHadamard c k s) := (h.fireWith fun _ _ _ ht => ht.xnetFired).next

theorem Kept.xferPost : Kept o (xferPost c k i u s) := by
  unfold Machine.xferPost
  dsimp only
  split
  · exact h.modCluster
  · exact h.modCluster
  · exact h

theorem Kept.execXferSend : Answers o (execXferSend c k s) := (h.fireWith fun _ _ _ ht => ht.xferPost).next
theorem Kept.execXferRecv : Answers o (execXferRecv c k s) := (h.fireWith fun _ _ _ ht => ht.xferPost).next

end

/-! ### Passes and matrix-vector operations -/

section
variable {o s : State} (h : Kept o s) {c : Fin 384} {k : Fin 8} {uid n wait : Nat} {g : Inflight → Inflight} {stream marked : Bool}
  {a : Fin 4} {swap : ArrayUnit → Bool} {f : Inflight} {m : StreamMeas}
include h

theorem Kept.modInflight : Kept o (modInflight c k uid g s) := h.modStation
theorem Kept.execArrayPass : Answers o (execArrayPass c k s) := (h.fireWith fun _ _ _ ht => ht).next
theorem Kept.execMv : Answers o (execMv c k s) := (h.fireWith fun _ _ _ ht => ht).next
theorem Kept.startFlags {g : Inflight} : Kept o (startFlags c k g stream marked s) := h.modStation

theorem Kept.retirePass : Kept o (retirePass c a swap s) := by
  unfold Machine.retirePass
  dsimp only
  split
  · exact h
  · split
    · exact h
    · split
      · exact h.ifElse fun h => ((h.modCore fun _ hc => hc.finishPass).modInflight).ifThen fun h => h.modCore
      · exact h

theorem Kept.startUnitStartXnet : Kept o (startUnit.startXnet c k f s) :=
  h.ifElse fun h => (h.modCore fun _ hc => hc.freeSlots).startFlags.modCore fun _ hc => hc.netTurn

theorem Kept.startUnit {f : Inflight} {m : StreamMeas} : Kept o (startUnit c k f m s) := by
  unfold Machine.startUnit
  dsimp only
  split
  · refine h.ifElse fun h => Kept.raiseEv (Kept.startFlags (Kept.setCore ?_ fun hc => hc.streamPass))
    exact h.ifElse fun h => h.forAll fun _ _ ht => ht.retirePass
  · exact h.ifElse fun h => (h.setCore fun hc => hc.freeMvSlot.streamMv.askStore).startFlags.raiseEv
  · exact (h.modCore fun _ hc => hc.freeSlots).startFlags
  · exact h.startUnitStartXnet
  · exact h.startUnitStartXnet
  · exact h

theorem Kept.execUnitStart : Answers o (execUnitStart c k n m s) := by
  unfold Machine.execUnitStart
  split
  · exact .ite h.next h.startUnit.next
  · exact h.next

theorem Kept.drainWait : Kept o (drainWait c a wait s) := h.modCore

theorem Kept.drainEnd {a : Fin 4} {d : DrainRun} {p : PassOp} {cols : List (List Word)} {wait : Nat} :
    Kept o (drainEnd c a d p cols wait s) := by
  unfold Machine.drainEnd
  dsimp only
  split
  · exact h.drainWait
  · split
    · exact .ite h.drainWait h.setCore.modInflight
    · exact (h.setCore fun hc => Core.memOk.askStore hc.same.start.storeTile).modInflight.modStation.raiseEv

theorem Kept.drainStep : Kept o (drainStep c a wait s) := by
  unfold Machine.drainStep
  dsimp only
  split
  · split
    · exact .ite h.drainEnd h.modCore
    · exact h
  · exact h.retirePass

theorem Kept.execPassDrain : Answers o (execPassDrain c a wait s) := h.drainStep.next

theorem Kept.biasStep : Kept o (biasStep c a s) := by
  unfold Machine.biasStep
  dsimp only
  split
  · exact h
  · split
    · exact h
    · split
      · split
        · exact h
        · exact h.ifElse fun h => h.setCore.raiseEv
      · exact h

theorem Kept.execBiasPreload : Answers o (execBiasPreload c a s) := h.biasStep.next

theorem Kept.mvStore {f : Inflight} {m : MvOp} : Kept o (mvStore c k f m s) :=
  (h.setCore fun hc => hc.same.retain.start.storeRegion).modStation.modInflight.raiseEv

theorem Kept.mvQueue {m : MvOp} : Offered o (mvQueue c k f m s) := .ite .none h.setCore.modInflight.some

end

/-! ### The vector engine -/

section
variable {o s : State} (h : Kept o s) {c : Fin 384} {k : Fin 8} {i : CoreInstr} {u : Nat} {op : BitVec 4}
include h

theorem Kept.vecEff : Kept o (vecEff c k i u s) := by
  unfold Machine.vecEff
  dsimp only
  split
  · exact h.setCore.modInflight.raiseEv
  · exact h

theorem Kept.fireVec : Kept o (fireVec op c k s) := h.fireWith fun _ _ _ ht => ht.vecEff
theorem Kept.execVecAdd : Answers o (execVecAdd c k s) := h.fireVec.next
theorem Kept.execVecSubtract : Answers o (execVecSubtract c k s) := h.fireVec.next
theorem Kept.execVecMultiply : Answers o (execVecMultiply c k s) := h.fireVec.next
theorem Kept.execVecFma : Answers o (execVecFma c k s) := h.fireVec.next
theorem Kept.execVecMin : Answers o (execVecMin c k s) := h.fireVec.next
theorem Kept.execVecMax : Answers o (execVecMax c k s) := h.fireVec.next
theorem Kept.execVecCompare : Answers o (execVecCompare c k s) := h.fireVec.next
theorem Kept.execVecSelect : Answers o (execVecSelect c k s) := h.fireVec.next
theorem Kept.execVecConvert : Answers o (execVecConvert c k s) := h.fireVec.next
theorem Kept.execVecReciprocal : Answers o (execVecReciprocal c k s) := h.fireVec.next
theorem Kept.execVecRsqrt : Answers o (execVecRsqrt c k s) := h.fireVec.next
theorem Kept.execVecExp2 : Answers o (execVecExp2 c k s) := h.fireVec.next
theorem Kept.execVecExp : Answers o (execVecExp c k s) := h.fireVec.next
theorem Kept.execVecReduce : Answers o (execVecReduce c k s) := h.fireVec.next
theorem Kept.execVecSoftmaxStep : Answers o (execVecSoftmaxStep c k s) := h.fireVec.next

end

/-! ### Port grants and completion -/

section
variable {o s : State} (h : Kept o s) {c : Fin 384} {k : Fin 8} {f : Inflight} {r : PortReq} {uid busy n space : Nat}
  {key : Fin 8 × Nat} {bad : List Nat} {e : Ecc} {q : Fin 32}
include h

theorem Kept.startByGrant : Kept o (startByGrant c k f r s) := by
  unfold Machine.startByGrant
  dsimp only
  split
  · exact h.ifElse fun h => (h.modCore fun _ hc => hc.freeSlots).modInflight
  · exact h.ifElse fun h => (h.modCore fun _ hc => hc.freeSlots).modInflight
  · exact h.ifElse fun h => (h.modCore fun _ hc => hc.freeSlots).modInflight
  · exact h.ifElse fun h => (h.modCore fun _ hc => hc.freeSlots).modInflight
  · exact h.ifElse fun h => (h.modCore fun _ hc => hc.freeSlots).modInflight
  · exact h.ifElse fun h => (h.modCore fun _ hc => hc.freeMvSlot).modInflight
  · exact h

theorem Kept.deliverLine : Kept o (deliverLine c k uid r s) := h.ifElse fun h => h.modInflight
theorem Kept.endPiece : Kept o (endPiece c key r busy s) := h.ifElse fun h => h.setCore fun hc => hc.same.leaveNet

theorem Kept.mvWriting : Kept o (mvWriting c k f r s) := by
  unfold Machine.mvWriting
  dsimp only
  split
  · exact h.ifElse fun h => (h.modCore fun _ hc => .ite hc.same hc).modInflight
  · exact h

theorem Kept.lastGrant : Kept o (lastGrant c k uid s) := by
  unfold Machine.lastGrant
  split
  · exact h
  · split
    · exact h
    · split
      · exact h
      · exact .ite h.mvStore h
      · exact h.moveNow
      · exact h

theorem Kept.grantTo : Kept o (grantTo c k uid r busy s) := by
  unfold Machine.grantTo
  split
  · exact h
  · exact h.deliverLine.startByGrant.mvWriting.endPiece.lastGrant

theorem Kept.noteRead {w : TxnOwner} : Kept o (noteRead w n space bad s) := by
  unfold Machine.noteRead
  split
  · exact h.modCtx
  · exact h

theorem Kept.grantExt {w : TxnOwner} : Kept o (grantExt c w r e s) := by
  unfold Machine.grantExt
  dsimp only
  split
  · exact h
  · split
    · exact h.modCluster
    · exact h.noteRead

theorem Kept.grantPort {y : Fin 4} : Kept o (grantPort c y e busy s) := by
  unfold Machine.grantPort
  dsimp only
  split
  · exact h
  · split
    · exact h
    · split
      · exact (h.modCore fun _ hc => .ite hc.same hc.same.lsFind).grantTo
      · exact (h.modCore fun _ hc => .ite hc.same hc.same.lsFind).grantExt

theorem Kept.execPortRequestUrgent {y : Fin 4} : Answers o (execPortRequestUrgent c y n s) := h.modCore.next
theorem Kept.checkDone : Kept o (checkDone c k s) := .ite h.setStation.skPost h

theorem Kept.completeNow : Kept o (completeNow c k f s) := by
  unfold Machine.completeNow
  dsimp only
  refine Kept.checkDone ?_
  split
  · exact ((h.modCore fun _ hc => hc.releaseUnit).modStation.ifElse fun h => h.forAll fun _ _ ht => ht.sendToken).haltStation
  · exact (h.modCore fun _ hc => hc.releaseUnit).modStation.ifElse fun h => h.forAll fun _ _ ht => ht.sendToken

theorem Kept.execInstructionComplete {n : Nat} : Answers o (execInstructionComplete c k n s) := by
  unfold Machine.execInstructionComplete
  split
  · exact h.next
  · refine .ite h.next ?_
    split
    · refine .ite ?_ h.completeNow.next
      split
      · exact (h.mvQueue _ ‹_›).completeNow.next
      · exact h.next
    · exact h.completeNow.next

theorem Kept.execRemoteTokenArrival : Answers o (execRemoteTokenArrival c q s) := by
  unfold Machine.execRemoteTokenArrival
  dsimp only
  split
  · exact h.next
  · exact h.setWires.modCore.next

theorem Kept.execRemoteCreditReturn : Answers o (execRemoteCreditReturn c q s) := by
  unfold Machine.execRemoteCreditReturn
  split
  · exact h.next
  · exact h.setWires.returnCredit.next

theorem Kept.execStationWatchdog : Answers o (execStationWatchdog c k s) := .ite h.preFire.next h.next

end

/-! ### Stallkeepers -/

section
variable {o s : State} (h : Kept o s) {cl : Fin 48} {ch : Fin 64} {v ga gb mask : Word} {c : Fin 384} {k : Fin 8} {r gd : BitVec 5}
  {i imm : Half} {fn : Nat} {kind : Stallkeeper → SkOp → Bool}
include h

theorem Kept.crierWrite {w : Nat} : Kept o (crierWrite cl ch w v s) :=
  .ite h.modCluster (.ite h.modCluster (.ite h.modCluster (.ite h.crierArrive h.modCluster)))

theorem Kept.skWrite {a : Nat} {v : Word} : Offered o (skWrite s cl a v) := by
  have window {c : Fin 384} {a : Nat} : Offered o ((windowWrite (s.core c) a v).map fun co => Machine.watchCheck c (s.setCore c co)) := by
    intro t ht
    obtain ⟨co, hw, rfl⟩ := Option.map_eq_some_iff.mp ht
    exact (h.setCore fun hc => hc.windowWrite hw).watchCheck
  unfold Machine.skWrite
  exact .ite .none (.ite (Kept.some (h.modSk fun _ hk => ⟨Memory.putLE_wf _ _ _ _ hk.1, hk.2⟩))
    (.ite (Kept.some (h.modSk fun _ hk => ⟨hk.1, Memory.putLE_wf _ _ _ _ hk.2⟩))
      (.ite .none (.ite window (.ite .none (.ite h.crierWrite.some (.ite h.some .none)))))))

theorem Kept.resetStation : Kept o (resetStation c k s) := by
  refine Kept.forAll (Kept.modCluster (h.modCore fun _ hc => ?_)) fun _ _ ht => ht.returnCredit
  exact (hc.foldl fun _ _ ht => ht.freeSlots).abandonStreams.dropHolds.dropReqs.same

theorem Kept.startStation : Kept o (startStation c k s) := h.modStation
theorem Kept.resumeStation : Kept o (resumeStation c k s) := h.modStation.checkDone
theorem Kept.skNext : Kept o (skNext cl s) := h.modSk
theorem Kept.skSet : Kept o (skSet cl r v s) := (h.modSk fun _ hc => hc.setG).skNext
theorem Kept.skStop : Kept o (skStop cl s) := h.endCluster

theorem Kept.csrRead : Kept o (csrRead cl gd i s) := by
  unfold Machine.csrRead
  dsimp only
  split
  · exact h.modSk.skSet
  · exact h.skSet
  · exact h.modSk.skSet
  · exact h.skSet
  · exact h.skSet
  · exact h.skSet
  · split
    · exact h.modSk.skSet
    · exact .ite h.modSk h.modSk
  · exact h.skSet

theorem Kept.csrWrite : Kept o (csrWrite cl i v s) := by
  unfold Machine.csrWrite
  dsimp only
  split
  · exact h.modSk.skNext
  · exact h.modSk.skNext
  · exact h.modSk.skNext
  · exact h.modSk.skNext
  · exact h.modSk.skNext
  · exact h.modSk.skNext
  · exact h.modSk.skNext

theorem Kept.cctl {gd : Word} : Kept o (cctl cl ga gb gd fn s) := by
  unfold Machine.cctl
  dsimp only
  split
  · exact h.startStation.skNext
  · exact h.haltCommanded.skNext
  · exact h.resumeStation.skNext
  · exact h.resetStation.skNext
  · exact .ite (h.ifElse fun h => h.spendCredit.sendToken.skNext) (h.ifElse fun h => h.pushToken.skNext)

theorem Kept.pcmd : Kept o (pcmd cl ga imm s) := by
  unfold Machine.pcmd
  dsimp only
  split
  · exact h.skStop
  · exact .ite h.skNext (h.ifElse fun h => h.modCluster.skNext)

theorem Kept.ccmd : Kept o (ccmd cl ga s) := by
  unfold Machine.ccmd
  dsimp only
  split
  · exact h.skStop
  · exact h.modCluster.skNext

theorem Kept.skSleep : Kept o (skSleep cl mask s) := .ite h.skNext h.modSk

theorem Kept.skExec {op : SkOp} : Kept o (skExec cl op s) := by
  unfold Machine.skExec
  dsimp only
  split
  case h_6 =>
    split
    · exact h.skSet
    · exact h.skStop
  case h_7 =>
    split
    · exact (h.skWrite _ ‹_›).skNext
    · exact h.skStop
  case h_8 => exact .ite h.modSk h.skNext
  case h_9 => exact h.modSk fun _ hk => hk.setG
  case h_10 => exact h.modSk
  case h_11 => exact h.csrRead
  case h_12 => exact h.csrWrite
  case h_13 => exact h.skSleep
  case h_14 => exact h.cctl
  case h_15 => exact h.pcmd
  case h_16 => exact h.ccmd
  case h_17 => exact h.endCluster
  all_goals exact h.skSet

theorem Kept.skStep : Kept o (skStep cl kind s) := by
  unfold Machine.skStep
  dsimp only
  split
  · exact h
  · split
    · exact h.skStop
    · exact .ite h.skExec h

theorem Kept.execSkAlu : Answers o (execSkAlu cl s) := h.skStep.next
theorem Kept.execAddi : Answers o (execAddi cl s) := h.skStep.next
theorem Kept.execAndi : Answers o (execAndi cl s) := h.skStep.next
theorem Kept.execOri : Answers o (execOri cl s) := h.skStep.next
theorem Kept.execLui : Answers o (execLui cl s) := h.skStep.next
theorem Kept.execLw : Answers o (execLw cl s) := h.skStep.next
theorem Kept.execSw : Answers o (execSw cl s) := h.skStep.next
theorem Kept.execBeq : Answers o (execBeq cl s) := h.skStep.next
theorem Kept.execBne : Answers o (execBne cl s) := h.skStep.next
theorem Kept.execBlt : Answers o (execBlt cl s) := h.skStep.next
theorem Kept.execBge : Answers o (execBge cl s) := h.skStep.next
theorem Kept.execBltu : Answers o (execBltu cl s) := h.skStep.next
theorem Kept.execBgeu : Answers o (execBgeu cl s) := h.skStep.next
theorem Kept.execJal : Answers o (execJal cl s) := h.skStep.next
theorem Kept.execJr : Answers o (execJr cl s) := h.skStep.next
theorem Kept.execCsrr : Answers o (execCsrr cl s) := h.skStep.next
theorem Kept.execCsrw : Answers o (execCsrw cl s) := h.skStep.next
theorem Kept.execSkWait : Answers o (execSkWait cl s) := h.skStep.next
theorem Kept.execWaitWake : Answers o (execWaitWake cl s) := .ite h.modSk.skNext.next h.next
theorem Kept.execCctlStart : Answers o (execCctlStart cl s) := h.skStep.next
theorem Kept.execCctlHalt : Answers o (execCctlHalt cl s) := h.skStep.next
theorem Kept.execCctlResume : Answers o (execCctlResume cl s) := h.skStep.next
theorem Kept.execCctlReset : Answers o (execCctlReset cl s) := h.skStep.next
theorem Kept.execCctlInject : Answers o (execCctlInject cl s) := h.skStep.next
theorem Kept.execPcmd : Answers o (execPcmd cl s) := h.skStep.next
theorem Kept.execCcmd : Answers o (execCcmd cl s) := h.skStep.next
theorem Kept.execSkEnd : Answers o (execSkEnd cl s) := h.skStep.next
theorem Kept.execEvtPop : Answers o (execEvtPop cl s) := h.skStep.next
theorem Kept.execTimerArm : Answers o (execTimerArm cl s) := h.skStep.next
theorem Kept.execTimerEvent : Answers o (execTimerEvent cl s) := .ite h.modSk.skPost.next h.next
theorem Kept.execStartCapture : Answers o (execStartCapture cl s) := h.skStep.next
theorem Kept.execStartLo : Answers o (execStartLo cl s) := h.skStep.next
theorem Kept.execStartHi : Answers o (execStartHi cl s) := h.skStep.next
theorem Kept.execNowLo : Answers o (execNowLo cl s) := h.skStep.next
theorem Kept.execStopCapture : Answers o (execStopCapture cl s) := h.skStep.next
theorem Kept.execNormSel : Answers o (execNormSel cl s) := h.skStep.next
theorem Kept.execNormFactor : Answers o (execNormFactor cl s) := h.skStep.next

theorem Kept.execNormFactorTimeout : Answers o (execNormFactorTimeout cl s) := by
  unfold Machine.execNormFactorTimeout
  dsimp only
  split
  · exact .ite h.modSk.skSet.next h.next
  · exact h.next

theorem Kept.execCrierCountWrite : Answers o (execCrierCountWrite cl s) := h.skStep.next
theorem Kept.execWatchArm : Answers o (execWatchArm cl s) := h.skStep.next
theorem Kept.execCntClear : Answers o (execCntClear cl s) := h.skStep.next

end

/-! ### Address spaces and transactions -/

section
variable {o s : State} (h : Kept o s) {owner : TxnOwner} {cls a n len busy : Nat} {narrow write isRead : Bool} {c : Fin 384}
  {p src dst : Place} {go : State → State} {reads writes : List (Place × Nat)} {m e dest : Half} {f : Frame} {low : BitVec 44}
  {bs : List MByte}
include h

theorem Kept.gdAccept : Kept o (gdAccept owner cls narrow write a n s) := by
  unfold Machine.gdAccept
  dsimp only
  split
  · exact h
  · refine h.forAll fun _ _ ht => ?_
    split
    · exact ht
    · exact ht.setChan

theorem Kept.writePlace {p : Place} {bs : List MByte} : Kept o (writePlace p bs s) := by
  have queue : (Machine.writePlace p bs s).pending = s.pending ∧ (Machine.writePlace p bs s).ns = s.ns := by
    rw [writePlace_eq]
    exact ⟨rfl, rfl⟩
  exact h.change (writePlace_memOk p bs s) queue.1 queue.2

theorem Kept.lsAccept : Kept o (lsAccept owner write c a n s) := h.ifElse fun h => h.modCore fun _ hc => hc.addReqs

theorem Kept.acceptAt : Kept o (acceptAt owner cls write p n s) := by
  unfold Machine.acceptAt
  split
  · exact h.gdAccept
  · exact h.lsAccept
  · exact h

theorem Kept.onceServed {w : TxnOwner} (hgo : ∀ t, Kept o t → Kept o (go t)) : Kept o (onceServed w go s) := by
  unfold Machine.onceServed
  exact .ite h (hgo _ h)

theorem Kept.askMove : Kept o (askMove owner cls src dst n s) := by
  unfold Machine.askMove
  dsimp only
  split
  · exact h.acceptAt.lsAccept
  · exact h.acceptAt

theorem Kept.askAll : Kept o (askAll owner cls reads writes s) := (h.foldl fun _ _ ht => ht.acceptAt).foldl fun _ _ ht => ht.askMove

theorem Kept.landAt : Kept o (landAt owner cls dst n s) := by
  unfold Machine.landAt
  split
  · exact h.gdAccept
  · exact h

theorem Kept.landAll : Kept o (landAll owner cls writes s) := h.foldl fun _ _ ht => ht.landAt
theorem Kept.recordEpoch : Kept o (recordEpoch m e s) := h.setMach
theorem Kept.inject : Kept o (inject f s) := h.setMach
theorem Kept.fitTxns {u : State} (hu : Kept o u) : Kept o (fitTxns u s) := .ite h hu
theorem Kept.openTxn {dst : Dword} : Kept o (openTxn dest isRead owner dst len s) := h.setMach
theorem Kept.startWrite : Kept o (startWrite owner dest low bs s) := h.openTxn.foldl fun _ _ ht => ht.inject
theorem Kept.startRead {dst : Dword} : Kept o (startRead owner dest low dst len s) := h.openTxn.inject
theorem Kept.answerRead : Kept o (answerRead f s) := h.forAll fun _ _ ht => ht.inject
theorem Kept.servePeers : Kept o (servePeers s) := h.forAll fun _ _ ht => ht.ifElse fun h => h.setMach.answerRead
theorem Kept.execLocalStorePortGrant {y : Fin 4} {e : Ecc} :
    Answers o (execLocalStorePortGrant c y e busy s) := h.grantPort.servePeers.next

end

/-! ### Porters and criers -/

section
variable {o s : State} (h : Kept o s) {cl : Fin 48} {q : Fin 4} {p : PorterCmd} {rest : List PorterCmd} {id cls n k : Nat}
  {f : PorterRun → PorterRun} {owner : TxnOwner} {src dst : Place} {dstWord : Dword} {v : State} {status : Byte} {r : Fin 256}
  {ask : State → State} {rows : List Dword} {bs : List Byte} {gen : Half} {b : Broadcast} {ch : Fin 50}
include h

theorem Kept.porterStart : Kept o (porterStart cl q p rest s) := h.setCluster.ifThen fun h => h.spendCredit

theorem Kept.execPorterCommandStart : Answers o (execPorterCommandStart cl s) := by
  unfold Machine.execPorterCommandStart
  split
  · exact h.next
  · split
    · exact h.next
    · split
      · exact h.next
      · exact h.porterStart.next

theorem Kept.modRun : Kept o (modRun cl id f s) := h.modCluster

theorem Kept.transfer : Kept o (transfer owner cls src dst dstWord n v s).1 := by
  unfold Machine.transfer
  dsimp only
  split
  · exact h.foldl fun _ _ ht => ht.startRead
  · exact h.foldl fun _ _ ht => ht.startWrite
  · exact h.writePlace.landAt

theorem Kept.failRun : Kept o (failRun cl id status s) := h.modRun
theorem Kept.askRun {r : PorterRun} (hask : ∀ t, Kept o t → Kept o (ask t)) : Kept o (askRun cl r k ask s) := .ite h (hask _ h.modRun)

theorem Kept.runTransfers {r : PorterRun} {moves : List (Place × Place × Dword × Nat)} : Kept o (runTransfers cl r moves s) := by
  unfold Machine.runTransfers
  split
  · exact h.failRun
  · refine h.ifElse fun h => (h.askRun fun _ ht => ht.foldl fun _ _ ht => ht.askMove).onceServed fun _ ht => ?_
    refine Kept.fitTxns (Kept.modRun (Kept.foldlFst ht fun _ _ ht => ?_)) ht
    exact ht.transfer

theorem Kept.execPorterMove : Answers o (execPorterMove cl n s) := by
  unfold Machine.execPorterMove
  dsimp only
  split
  · exact h.next
  · split
    · exact h.runTransfers.next
    · exact h.runTransfers.next

theorem Kept.execPorterMove2d : Answers o (execPorterMove2d cl n s) := by
  unfold Machine.execPorterMove2d
  dsimp only
  split
  · exact h.next
  · exact h.runTransfers.next

theorem Kept.askRows : Kept o (askRows owner cls rows dst s) := by
  unfold Machine.askRows
  dsimp only
  split
  · refine (h.foldl fun _ _ ht => ?_).lsAccept
    split
    · exact ht.gdAccept
    · exact ht
  · refine h.foldl fun _ _ ht => ?_
    split
    · exact ht.gdAccept
    · exact ht

theorem Kept.gatherRows {dst : Dword} : Kept o (gatherRows owner cls rows dst s).1 := by
  unfold Machine.gatherRows
  dsimp only
  split
  · exact h.foldl fun _ _ ht => ht.startWrite
  · exact h.writePlace.landAt

theorem Kept.fetchList {r : PorterRun} : Kept o (fetchList cl r s) := by
  unfold Machine.fetchList
  dsimp only
  exact h.ifElse fun h => h.transfer.modRun.fitTxns h

theorem Kept.gatherRun {r : PorterRun} : Kept o (gatherRun cl r bs s) := by
  unfold Machine.gatherRun
  dsimp only
  split
  · exact h.failRun
  · exact (h.askRun fun _ ht => ht.askRows).onceServed fun _ ht => ht.gatherRows.modRun.fitTxns ht

theorem Kept.execPorterGather : Answers o (execPorterGather cl n s) := by
  unfold Machine.execPorterGather
  dsimp only
  split
  · exact h.next
  · split
    · exact h.failRun.next
    · exact .ite h.fetchList.next (.ite (h.ifElse fun h => h.gatherRun).next
        (.ite h.next ((h.askRun fun _ ht => ht.acceptAt).onceServed fun _ ht => ht.gatherRun).next))

theorem Kept.execPorterFill : Answers o (execPorterFill cl n s) := by
  unfold Machine.execPorterFill
  dsimp only
  split
  · exact h.next
  · split
    · exact h.failRun.next
    · split
      · exact ((h.foldl fun _ _ ht => ht.startWrite).modRun.fitTxns h).next
      · exact .ite h.next ((h.askRun fun _ ht => ht.askMove).onceServed fun _ ht => ht.modRun.writePlace.landAt).next

theorem Kept.execPorterSignal : Answers o (execPorterSignal cl n s) := by
  unfold Machine.execPorterSignal
  split
  · exact h.next
  · exact h.modRun.next

theorem Kept.noteExposed : Kept o (noteExposed cl s) := by
  unfold Machine.noteExposed
  split
  · exact h.setLaunch
  · exact h

theorem Kept.porterDone {r : PorterRun} : Kept o (porterDone cl r s) := by
  unfold Machine.porterDone
  dsimp only
  split
  · exact h.modCluster.modInflight.ifThen fun h => h.noteExposed
  · exact h.modCluster.modInflight.ifThen fun h => h.noteExposed
  · exact ((h.modCluster.ifThen fun h => h.sendToken).ifThen fun h => h.skPost).ifThen fun h => h.noteExposed
  · exact ((h.modCluster.ifThen fun h => h.returnCredit).skPost).ifThen fun h => h.noteExposed

theorem Kept.execPorterCommandComplete : Answers o (execPorterCommandComplete cl n s) := by
  unfold Machine.execPorterCommandComplete
  split
  · exact .ite h.porterDone.next h.next
  · exact h.next

theorem Kept.reserveTargets {ts : List Half} : Offered o (reserveTargets ts s) := by
  induction ts generalizing s with
  | nil => exact h.some
  | cons t ts ih => exact .ite (.ite (ih h.spendCredit) .none) (ih h)

theorem Kept.serveTarget {y : Half} : Kept o (serveTarget gen y s) := .ite h.sendToken (.ite h.crierArrive h)

theorem Kept.execCrierFire {ch : Fin 64} : Answers o (execCrierFire cl ch s) := by
  unfold Machine.execCrierFire
  dsimp only
  split
  · exact h.next
  · split
    · exact h.next
    · have ht := h.reserveTargets _ ‹_›
      exact ((ht.modCluster.ifThen fun h => h.skPost).foldl fun _ _ ht => ht.serveTarget).next

theorem Kept.bcastCopy : Kept o (bcastCopy b s) := h.forAll fun _ _ ht => .ite ht.writePlace ht

theorem Kept.execCrierBroadcastComplete : Answers o (execCrierBroadcastComplete cl n s) := by
  unfold Machine.execCrierBroadcastComplete
  dsimp only
  split
  · exact h.next
  · exact .ite h.modCluster.bcastCopy.crierArrive.next h.modCluster.next

end

/-! ### Rings and descriptors -/

section
variable {o s : State} (h : Kept o s) {cause bindCause off size idx k n : Nat} {tag detail : Half} {r : Fin 256} {l : Launch}
  {again ran : Bool} {w tail : Word} {slots : List DescWord} {fault : Option (Byte × Half)} {status : Byte} {result : Dword}
  {c : DescCtx} {ask : State → State} {v : Fin 512}
include h

theorem Kept.cutAccess : Kept o (cutAccess s) := .ite h.same h
theorem Kept.endDebug {cause : Byte} : Kept o (endDebug cause s) := .ite h.setSec.ledgerAdd.cutAccess h
theorem Kept.endSession : Kept o (endSession tag s) := h.setSec.ifThen fun h => h.endDebug

theorem Kept.endBinding : Kept o (endBinding r cause s) := by
  unfold Machine.endBinding
  dsimp only
  split
  · exact h
  · exact h.modRing.postEvent.ifElse fun h => h.endSession

theorem Kept.abortLaunch : Kept o (abortLaunch l s) := h.forAll fun _ _ ht => .ite ht.skPost ht

theorem Kept.ringReset : Kept o (ringReset r cause bindCause again s) :=
  h.ifElse fun h => (h.setRing.forAll fun _ _ ht => ht.abortLaunch).endBinding.modRing.postEvent

theorem Kept.ringCfgWrite : Kept o (ringCfgWrite r w s) :=
  .ite (h.modRing.ifThen fun h => h.ringReset).setRing
    (.ite (h.modRing.ifThen fun h => h.ringReset).setRing
      ((h.modRing.ifThen fun h => h.ringReset).ifElse fun h => .ite h.setRing h.setRing))

theorem Kept.execRingEnable : Answers o (execRingEnable r w s) := (Kept.ite h.ringCfgWrite h).next
theorem Kept.execRingDisable : Answers o (execRingDisable r w s) := (h.ifElse fun h => h.ringCfgWrite).next
theorem Kept.execRingReset : Answers o (execRingReset r w s) := (Kept.ite h.ringCfgWrite h).next
theorem Kept.execRingResetComplete : Answers o (execRingResetComplete r s) := .ite h.next (.ite h.setRing.next h.setRing.next)
theorem Kept.execRingIdleDisable : Answers o (execRingIdleDisable r s) := .ite h.endBinding.modRing.next h.next
theorem Kept.issueRead : Kept o (issueRead r s) := h.forAll fun _ _ ht => ht.modRing
theorem Kept.execDoorbellWatchTimer : Answers o (execDoorbellWatchTimer r s) := .ite h.issueRead.next h.next
theorem Kept.execMirrorTailWrite : Answers o (execMirrorTailWrite r off size w s) := .ite h.next h.issueRead.modRing.next
theorem Kept.takeTail : Kept o (takeTail r tail s) := .ite (.ite h.setRing h.setRing.postEvent) (h.ifElse fun h => h.setRing)

theorem Kept.execDoorbellReadReturn {w : Dword} : Answers o (execDoorbellReadReturn r w s) :=
  .ite h.next (.ite h.setRing.modRing.takeTail.next (.ite h.setRing.ringReset.next h.setRing.takeTail.next))

theorem Kept.noteAble : Kept o (noteAble r s) := h.modRing
theorem Kept.execDescriptorFetchReturn : Answers o (execDescriptorFetchReturn r slots s) := .ite h.next h.setRing.noteAble.next
theorem Kept.takeNext {w : DescWord} : Kept o (takeNext r w fault ran s) := h.setRing.setPcie.noteAble

theorem Kept.execRingUrgent : Answers o (execRingUrgent r s) := by
  unfold Machine.execRingUrgent
  dsimp only
  split
  · exact (Kept.ite h.modRing h).next
  · exact h.next

theorem Kept.finishDesc : Kept o (finishDesc r idx status detail result s) := .ite h.modRing h.modCtx.modRing.noteAble
theorem Kept.effectsDone : Kept o (effectsDone r idx s) := h.modCtx.noteAble
theorem Kept.issueDesc : Kept o (issueDesc r idx status detail result s) := h.modCtx
theorem Kept.askDesc (hask : ∀ t, Kept o t → Kept o (ask t)) : Kept o (askDesc r c k ask s) := .ite h (hask _ h.modCtx)
theorem Kept.ringIrq : Kept o (ringIrq r s) := .ite h.setRing h.setRing.sendMsi

theorem Kept.writeRecord {c0 : DescCtx} : Kept o (writeRecord r c0 s) :=
  (((h.setHost (Memory.putBytes_wf _ _ _)).setRing.ifThen fun h => h.postEvent).ifThen fun h => h.ringIrq).noteAble

theorem Kept.execCompletionRecordWrite : Answers o (execCompletionRecordWrite r s) := by
  unfold Machine.execCompletionRecordWrite
  split
  · exact h.next
  · exact .ite h.writeRecord.next h.next

theorem Kept.execMsixModerationExpiry : Answers o (execMsixModerationExpiry r s) := .ite h.setRing.sendMsi.next h.next
theorem Kept.hostReset : Kept o (hostReset s) := (h.setEvt.forAll fun _ _ ht => ht.ringReset).setPcie
theorem Kept.execPcieFlr : Answers o (execPcieFlr s) := h.hostReset.next
theorem Kept.execHotReset : Answers o (execHotReset s) := h.hostReset.next
theorem Kept.execPcieLinkLoss : Answers o (execPcieLinkLoss s) := h.hostReset.next
theorem Kept.evtCfgWrite : Kept o (evtCfgWrite w s) := .ite h.setEvt (.ite h.setEvt h.setEvt)
theorem Kept.execEventRingEnable : Answers o (execEventRingEnable w s) := (Kept.ite h.evtCfgWrite h).next

theorem Kept.execEvtFullPoll {consumed : Word} : Answers o (execEvtFullPoll consumed s) :=
  .ite h.next (.ite (h.setHost (Memory.putLE_wf _ _ _ _)).setEvt.next
    (h.setHost (Memory.putLE_wf _ _ _ _)).setEvt.ledgerAdd.evtWrite.evtCheckFull.next)

theorem Kept.unmaskVector : Kept o (unmaskVector v s) := h.setPcie.ifThen fun h => h.sendMsi
theorem Kept.execMsixUnmask : Answers o (execMsixUnmask v s) := h.unmaskVector.next

theorem Kept.execNopDesc : Answers o (execNopDesc r n s) := by
  unfold Machine.execNopDesc
  split
  · exact h.finishDesc.next
  · exact h.next

theorem Kept.execFenceDesc : Answers o (execFenceDesc r n s) := by
  unfold Machine.execFenceDesc
  dsimp only
  split
  · exact h.next
  · exact .ite h.finishDesc.next (.ite h.next (.ite h.setRing.finishDesc.next h.finishDesc.next))

theorem Kept.execTimeMark : Answers o (execTimeMark r n s) := by
  unfold Machine.execTimeMark
  split
  · exact h.finishDesc.next
  · exact h.next

end

/-! ### Programs and launches -/

section
variable {o s : State} (h : Kept o s) {img : List MByte} {cl : Fin 48} {r : Fin 256} {n id l : Nat} {seed : Dword}
  {retaining replayed : Bool} {c : Fin 384} {arg : Word} {m : BitVec 48}
include h

theorem Kept.loadCore {x : Section} {bs : List MByte} : Kept o (loadCore x bs c s) := by
  unfold Machine.loadCore
  split
  · exact h.modCore fun _ ⟨hi, ho, hq, hl⟩ => ⟨Memory.putBytes_wf _ _ _ hi, ho, hq, hl⟩
  · exact h.modCore fun _ ⟨hi, ho, hq, hl⟩ => ⟨hi, putMasked_wf ho, hq, hl⟩
  · exact h.modCore fun _ ⟨hi, ho, hq, hl⟩ => ⟨hi, ho, putMasked_wf hq, hl⟩
  · exact h.modCore fun _ hc => hc.loadStations
  · exact h.writePlace
  · exact h

theorem Kept.loadSection {img : List MByte} {x : Section} : Kept o (loadSection img cl x s) :=
  .ite (h.modSk fun _ hk => ⟨Memory.putBytes_wf _ _ _ hk.1, hk.2⟩)
    (.ite (h.modSk fun _ hk => ⟨hk.1, Memory.putBytes_wf _ _ _ hk.2⟩) (h.forAll fun _ _ ht => ht.loadCore))

theorem Kept.loadImage : Kept o (loadImage img cl s) := by
  unfold Machine.loadImage
  exact (h.foldl fun _ _ ht => ht.loadSection).modCluster

theorem Kept.execProgramLoad : Answers o (execProgramLoad r n s) := by
  unfold Machine.execProgramLoad
  dsimp only
  split
  · exact h.next
  · split
    · exact h.next
    · split
      · exact h.finishDesc.next
      · exact ((h.askDesc fun _ ht => ht.acceptAt).onceServed fun _ ht => (ht.forAll fun _ _ ht => ht.loadImage).finishDesc).next

theorem Kept.resetCore : Kept o (resetCore seed retaining replayed c s) := by
  unfold Machine.resetCore
  exact (h.forAll fun _ _ ht => ht.resetStation).modCore fun _ hc => hc.same.takeBase

theorem Kept.startCluster : Kept o (startCluster id arg cl s) := (h.modCluster.forAll fun _ _ ht => .ite ht.startStation ht).setCpwr

theorem Kept.startClusters : Kept o (startClusters id m seed arg retaining replayed s) :=
  (h.setWires.forAll fun _ _ ht => ht.resetCore).forAll fun _ _ ht => ht.startCluster

theorem Kept.execLaunchDesc : Answers o (execLaunchDesc r n s) := by
  unfold Machine.execLaunchDesc
  dsimp only
  split
  · exact h.next
  · split
    · exact h.next
    · split
      · exact h.finishDesc.next
      · exact h.setLaunches.issueDesc.startClusters.next

theorem Kept.execLaunchTimeout : Answers o (execLaunchTimeout l s) := by
  unfold Machine.execLaunchTimeout
  split
  · exact h.next
  · exact .ite h.next h.setLaunch.abortLaunch.next

theorem Kept.execLaunchForcedEnd : Answers o (execLaunchForcedEnd l cl s) := by
  unfold Machine.execLaunchForcedEnd
  split
  · exact h.next
  · split
    · exact h.next
    · exact .ite h.endCluster.next h.next

theorem Kept.execClusterLaunchEnd : Answers o (execClusterLaunchEnd cl s) := by
  unfold Machine.execClusterLaunchEnd
  dsimp only
  split
  · exact .ite h.next h.modCluster.setCpwr.setLaunch.rearm.next
  · exact h.next

theorem Kept.execLaunchComplete : Answers o (execLaunchComplete l s) := by
  unfold Machine.execLaunchComplete
  dsimp only
  split
  · exact h.next
  · exact .ite h.setLaunches.finishDesc.next h.next

theorem Kept.replayedEvent {l : Launch} : Kept o (replayedEvent l s) := h.postEvent

theorem Kept.execVk1Replay : Answers o (execVk1Replay l s) := by
  unfold Machine.execVk1Replay
  dsimp only
  split
  · exact h.next
  · exact .ite h.next (.ite (h.forAll fun _ _ ht => ht.modCore fun _ hc => hc.foldl fun _ _ ht =>
      ht.rescale).setLaunch.startClusters.replayedEvent.next h.refuseReplay.stopLaunch.next)

end

/-! ### Repair in the field -/

section
variable {o s : State} (h : Kept o s) {c : Fin 384} {kind mat : Nat} {f : TierSlice → TierSlice} {cl : Fin 48} {cause : Byte}
include h

theorem Kept.execLsScrubRead {y : Fin 4} : Answers o (execLsScrubRead c y s) := .ite h.next (h.modCore fun _ hc => hc.same.addReqs).next
theorem Kept.repairEvent {y : Nat} : Kept o (repairEvent c kind y mat s) := h.postEvent.ledgerAdd
theorem Kept.modSlice {y : Fin 4} : Kept o (modSlice c y f s) := h.modCore

theorem Kept.execRowRepair {y : Fin 4} : Answers o (execRowRepair c y s) := by
  unfold Machine.execRowRepair
  dsimp only
  split
  · exact h.next
  · exact .ite h.modSlice.modCore.repairEvent.next (.ite h.modSlice.modCore.next h.next)

theorem Kept.execMatReplacement {y : Fin 4} : Answers o (execMatReplacement c y s) := by
  unfold Machine.execMatReplacement
  dsimp only
  split
  · exact h.next
  · exact .ite h.next h.modSlice.modCore.repairEvent.next

theorem Kept.clusterOut : Kept o (clusterOut cl cause s) := h.ifElse fun h => h.modCluster.setDegraded.postEvent

theorem Kept.execCoreRetirement : Answers o (execCoreRetirement c s) :=
  .ite h.next (.ite h.setCore.postEvent.setDegraded.clusterOut.next h.setCore.postEvent.setDegraded.next)

end

/-! ### GDDR7 channels -/

section
variable {o s : State} (h : Kept o s) {ch : Fin 50} {f : Channel → Channel} {k n : Nat} {r : GReq} {e : Ecc} {ok : Bool} {w : Word}
  {lanes : List Nat}
include h

theorem Kept.modChan : Kept o (modChan ch f s) := h.setChan
theorem Kept.countCorrected : Kept o (countCorrected ch k s) := h.setChan.ifThen fun h => h.postEvent

theorem Kept.gdFind : Kept o (gdFind ch r e s) := by
  unfold Machine.gdFind
  exact ((h.ifElse fun h => h.countCorrected).ifThen fun h => h.setGddr).modChan

theorem Kept.execGddr7RequestUrgent : Answers o (execGddr7RequestUrgent ch n s) := .ite h.setChan.next h.setChan.next

theorem Kept.execGddr7EdcRetry : Answers o (execGddr7EdcRetry ch ok s) := by
  unfold Machine.execGddr7EdcRetry
  dsimp only
  split
  · exact h.next
  · split
    · exact h.next
    · exact .ite h.next (.ite h.setChan.next h.setChan.setGddr.postEvent.setDegraded.next)

theorem Kept.execGddr7ScrubRead : Answers o (execGddr7ScrubRead ch s) := .ite h.next h.setChan.next

theorem Kept.execGddr7RateChange : Answers o (execGddr7RateChange s) := by
  unfold Machine.execGddr7RateChange
  dsimp only
  split
  · exact h.next
  · exact .ite h.next h.setGddr.setTime.next

theorem Kept.memCtrlWrite : Kept o (memCtrlWrite w s) := h.setGddr fun hc => hc.same.askRate
theorem Kept.execMemCntClear : Answers o (execMemCntClear w s) := (Kept.ite h.memCtrlWrite h).next

theorem Kept.tgWriteGroup {g : Nat} : Kept o (tgWriteGroup ch s g) :=
  .ite (h.modChan.setGddr fun hg => ⟨hg.1, Memory.putBytes_wf _ _ _ hg.2⟩) h.writePlace

theorem Kept.tgGroup {y : TrafficGen} : Kept o (tgGroup y s).2 := by
  unfold Machine.tgGroup
  dsimp only
  split
  · exact h
  · split
    · exact h.setFree
    · exact h

theorem Kept.tgNext :
    Kept o (tgNext ch s) := h.ifElse fun h => (h.tgGroup.ifThen fun h => h.tgWriteGroup.setChan).ifThen fun h => h.setChan
theorem Kept.tgServe : Kept o (tgServe ch r e s) := (h.ifElse fun h => h.gdFind).ifElse fun h => h.modChan.tgNext

theorem Kept.execGddr7CommandIssue : Answers o (execGddr7CommandIssue ch e s) := by
  unfold Machine.execGddr7CommandIssue
  dsimp only
  split
  · exact h.next
  · split
    · exact h.next
    · exact .ite h.setChan.tgServe.next (.ite h.setChan.modChan.noteRead.servePeers.next h.setChan.gdFind.noteRead.servePeers.next)

theorem Kept.tgCtrlWrite :
    Kept o (tgCtrlWrite ch w s) := h.ifElse fun h => (Kept.ite h.setChan.tgNext h.setChan).ifThen fun h => h.modChan
theorem Kept.execTgStart : Answers o (execTgStart ch w s) := (Kept.ite h.tgCtrlWrite h).next
theorem Kept.execTgStop : Answers o (execTgStop ch w s) := (Kept.ite h.tgCtrlWrite h).next
theorem Kept.execTgClear : Answers o (execTgClear ch w s) := (Kept.ite h.tgCtrlWrite h).next
theorem Kept.execTgRunDone : Answers o (execTgRunDone ch lanes s) := .ite h.next h.modChan.tgNext.next

end

/-! ### Descriptors that move bytes -/

section
variable {o s : State} (h : Kept o s) {r : Fin 256} {idx n k cls : Nat} {status : Byte} {detail : Half} {result d : Dword} {c : DescCtx}
  {go : List MByte → State → State} {lb bs : List MByte} {owner : TxnOwner} {core : Fin 384}
include h

theorem Kept.endOrWait : Kept o (endOrWait r idx status detail result s) := .ite h.issueDesc h.finishDesc

theorem Kept.txnEnded {y : Txn} : Kept o (txnEnded y status detail s) := by
  unfold Machine.txnEnded
  dsimp only
  split
  · exact h.modRun
  · split
    · exact h
    · exact h.modCtx.ifElse fun h => .ite h.finishDesc h.modCtx
  · exact h

theorem Kept.fetchOperand : Kept o (fetchOperand r c d n s) := h.ifElse fun h => h.transfer.fitTxns h

theorem Kept.withOperand (hgo : ∀ a0 t, Kept o t → Kept o (go a0 t)) : Kept o (withOperand r c k cls d n go s) := by
  unfold Machine.withOperand
  split
  · exact .ite (hgo _ _ h) h.fetchOperand
  · exact (h.askDesc fun _ ht => ht.acceptAt).onceServed fun _ ht => hgo _ _ ht

theorem Kept.execCopyByteMode : Answers o (execCopyByteMode r n s) := by
  unfold Machine.execCopyByteMode
  dsimp only
  split
  · exact h.next
  · split
    · exact h.next
    · split
      · exact h.finishDesc.next
      · exact ((h.askDesc fun _ ht => ht.askMove).onceServed fun _ ht => ht.transfer.endOrWait.fitTxns ht).next

theorem Kept.gatherDesc : Kept o (gatherDesc r c lb s) := by
  unfold Machine.gatherDesc
  dsimp only
  split
  · exact h.finishDesc
  · exact (h.askDesc fun _ ht => ht.askRows).onceServed fun _ ht => ht.gatherRows.endOrWait.fitTxns ht

theorem Kept.execGatherDesc : Answers o (execGatherDesc r n s) := by
  unfold Machine.execGatherDesc
  split
  · exact h.next
  · split
    · exact h.finishDesc.next
    · exact (h.withOperand fun _ _ ht => ht.gatherDesc).next

theorem Kept.writeOut : Kept o (writeOut owner cls d bs s) := by
  unfold Machine.writeOut
  dsimp only
  split
  · exact h.foldl fun _ _ ht => ht.startWrite
  · exact h.writePlace.acceptAt

theorem Kept.execFillDesc : Answers o (execFillDesc r n s) := by
  unfold Machine.execFillDesc
  dsimp only
  split
  · exact h.next
  · split
    · exact h.finishDesc.next
    · exact (h.writeOut.endOrWait.fitTxns h).next

theorem Kept.execDiagReadCounters : Answers o (execDiagReadCounters r n s) := by
  unfold Machine.execDiagReadCounters
  dsimp only
  split
  · exact h.next
  · split
    · exact h.next
    · split
      · exact h.finishDesc.next
      · exact (h.writeOut.endOrWait.fitTxns h).next

theorem Kept.diagWrite {w : Nat} {bs : List Byte} : Kept o (diagWrite core w bs s) :=
  h.foldl fun _ _ ht => (ht.modCore fun _ hc => hc.ctrWrite).watchCheck

theorem Kept.execDiagWriteCounters : Answers o (execDiagWriteCounters r n s) := by
  unfold Machine.execDiagWriteCounters
  dsimp only
  split
  · exact h.next
  · split
    · exact h.next
    · split
      · exact h.finishDesc.next
      · exact (h.withOperand fun _ _ ht => ht.diagWrite.finishDesc).next

end

/-! ### Sessions, debug, firmware, SPDM -/

section
variable {o s : State} (h : Kept o s) {size n code data : Nat} {r : Fin 256} {w asym hash : Word}
  {bs req resp head tail_ nonce : List Byte} {p : Fin 8 → Bool} {slot : Fin 8} {k : KeySlot} {off len : Half} {op : Byte} {sign : Bool}
  {c : Fin 384}
include h

theorem Kept.execNonceDraw : Answers o (execNonceDraw size s) := .ite h.setOut.next h.fresh.setSec.setOut.next
theorem Kept.execNonceExpiry {y : Fin 16} : Answers o (execNonceExpiry y s) := .ite h.setSec.next h.next
theorem Kept.countFail : Kept o (countFail r s) := .ite h.setSec h.setSec.postEvent

theorem Kept.bindSession : Kept o (bindSession r slot s).2.2 := by
  unfold Machine.bindSession
  dsimp only
  split
  · dsimp only
    exact h.setSec.modRing
  · dsimp only
    exact h.setSec.fresh.setSec.modRing

theorem Kept.execSessionOpen : Answers o (execSessionOpen r n s) := by
  unfold Machine.execSessionOpen
  dsimp only
  split
  · exact h.next
  · split
    · exact h.next
    · split
      · exact h.finishDesc.next
      · split
        · exact h.setSec.countFail.finishDesc.next
        · split
          · exact h.setSec.countFail.finishDesc.next
          · exact .ite h.setSec.countFail.finishDesc.next h.setSec.bindSession.finishDesc.next

theorem Kept.execSessionClose : Answers o (execSessionClose r n s) := by
  unfold Machine.execSessionClose
  split
  · exact h.next
  · exact h.finishDesc.endBinding.next

theorem Kept.execSessionIdleTimeout : Answers o (execSessionIdleTimeout r s) := .ite h.endBinding.next h.next

theorem Kept.execLockoutExpiry : Answers o (execLockoutExpiry s) := by
  unfold Machine.execLockoutExpiry
  dsimp only
  split
  · exact (Kept.ite h.setSec h).next
  · exact h.next

theorem Kept.debugCtrlWrite : Kept o (debugCtrlWrite w s) := by
  unfold Machine.debugCtrlWrite
  dsimp only
  split
  · exact h.setSec.endDebug.setSec
  · split
    · exact h.setSec
    · exact .ite h.setSec (h.setSec.ifElse fun h => h.ledgerAdd)

theorem Kept.execDebugEnable : Answers o (execDebugEnable w s) := (Kept.ite h.debugCtrlWrite h).next
theorem Kept.execDebugDisable : Answers o (execDebugDisable w s) := (h.ifElse fun h => h.debugCtrlWrite).next

theorem Kept.programChunk {c : DescCtx} {bs : List MByte} : Kept o (programChunk r c bs s) := by
  refine Kept.finishDesc (h.setSec fun hc => ?_)
  have marked {b : BootRec} {p : Prop} [Decidable p] : (if p then s.sec else writeRec b s.sec).memOk := by
    split
    · exact hc
    · exact hc.writeRec
  exact (marked.setFlash (Memory.putBytes_wf _ _ _ marked.flashOf)).same

theorem Kept.execFwChunk : Answers o (execFwChunk r n s) := by
  unfold Machine.execFwChunk
  split
  · exact h.next
  · split
    · exact h.next
    · split
      · exact h.finishDesc.next
      · exact (h.withOperand fun _ _ ht => ht.programChunk).next

theorem Kept.execFwVerify : Answers o (execFwVerify r n s) := by
  unfold Machine.execFwVerify
  split
  · exact h.next
  · refine .ite h.next (.ite h.finishDesc.next ?_)
    split
    · exact h.finishDesc.next
    · exact (h.setSec fun hc => hc.writeRec.same).finishDesc.next

theorem Kept.execFwActivate : Answers o (execFwActivate r n s) := by
  unfold Machine.execFwActivate
  split
  · exact h.next
  · exact .ite h.next (.ite h.finishDesc.next (.ite h.finishDesc.next (h.setSec fun hc => hc.writeRec.same).finishDesc.next))

theorem Kept.execFwConfirm : Answers o (execFwConfirm r n s) := by
  unfold Machine.execFwConfirm
  split
  · exact h.next
  · exact .ite h.next (.ite h.finishDesc.next (h.setSec fun hc => hc.writeRec.same).finishDesc.next)

theorem Kept.doeAnswer : Kept o (doeAnswer bs s) := h.setOut
theorem Kept.endSlots : Kept o (endSlots p s) := h.forAll fun _ _ ht => ht.forAll fun _ _ ht => ht.endBinding
theorem Kept.setKey {w : ProvObject} : Kept o (setKey slot k w s) := h.setSec

theorem Kept.execClaimKeys {w : ProvObject} : Answers o (execClaimKeys w s) := by
  unfold Machine.execClaimKeys
  dsimp only
  split
  · exact h.next
  · split
    · exact h.doeAnswer.next
    · split
      · exact h.doeAnswer.next
      · split
        · exact h.doeAnswer.next
        · split
          · exact h.doeAnswer.next
          · exact h.setKey.setSec.doeAnswer.next

theorem Kept.execSetSlot {w : ProvObject} : Answers o (execSetSlot w s) := by
  unfold Machine.execSetSlot
  dsimp only
  split
  · exact h.next
  · split
    · exact h.doeAnswer.next
    · split
      · exact h.doeAnswer.next
      · exact h.endSlots.setKey.doeAnswer.next

theorem Kept.execClearSlot {w : ProvObject} : Answers o (execClearSlot w s) :=
  .ite h.next (.ite h.doeAnswer.next (.ite h.doeAnswer.next h.endSlots.setKey.doeAnswer.next))

theorem Kept.execSetPolicy {w : ProvObject} : Answers o (execSetPolicy w s) := .ite h.next (.ite h.doeAnswer.next h.setSec.doeAnswer.next)

theorem Kept.execReleaseKeys {w : ProvObject} : Answers o (execReleaseKeys w s) :=
  .ite h.next (.ite h.doeAnswer.next h.endSlots.setSec.doeAnswer.next)

theorem Kept.spdmAnswer : Kept o (spdmAnswer req resp s) := h.setSec.doeAnswer
theorem Kept.spdmError : Kept o (spdmError code data s) := h.doeAnswer
theorem Kept.execGetVersion : Answers o (execGetVersion s) := .ite h.next h.setSec.spdmAnswer.next
theorem Kept.execGetCapabilities : Answers o (execGetCapabilities s) := .ite h.next (.ite h.spdmError.next h.setSec.spdmAnswer.next)

theorem Kept.execNegotiateAlgorithms : Answers o (execNegotiateAlgorithms asym hash s) :=
  .ite h.next (.ite h.spdmError.next (.ite h.spdmError.next h.setSec.spdmAnswer.next))

theorem Kept.execGetDigests : Answers o (execGetDigests s) := .ite h.next (.ite h.spdmError.next h.spdmAnswer.next)

theorem Kept.execGetCertificate : Answers o (execGetCertificate slot off len s) :=
  .ite h.next (.ite h.spdmError.next (.ite h.spdmError.next h.spdmAnswer.next))

theorem Kept.signedAnswer {slot : Nat} : Kept o (signedAnswer slot req head tail_ s) := h.fresh.spdmAnswer

theorem Kept.execSpdmChallenge : Answers o (execSpdmChallenge slot nonce s) :=
  .ite h.next (.ite h.spdmError.next (.ite h.spdmError.next h.signedAnswer.next))

theorem Kept.execGetMeasurements : Answers o (execGetMeasurements op sign nonce s) :=
  .ite h.next (.ite h.spdmError.next (.ite h.spdmError.next (.ite h.signedAnswer.next h.fresh.spdmAnswer.next)))

theorem Kept.execSpdmUnsupportedRequest {code : Byte} : Answers o (execSpdmUnsupportedRequest code s) := .ite h.next h.spdmError.next

end

/-! ### Failures and the ledger -/

section
variable {o s : State} (h : Kept o s) {cl : Fin 48} {c : Fin 384} {cause : Byte} {stuck answered : BitVec 48} {st : Nat} {sm : Fin 12}
  {g : Fin 32} {x : SeamGroup} {lane : Fin 17} {w : Word}
include h

theorem Kept.failLaunch : Kept o (failLaunch cl s) := by
  unfold Machine.failLaunch
  dsimp only
  split
  · exact h
  · exact (h.forAll fun _ _ ht => .ite ht.endCluster.modCluster ht).setLaunch

theorem Kept.orphanTxns : Kept o (orphanTxns cl s) := h.setMach
theorem Kept.resetStations : Kept o (resetStations c s) := (h.forAll fun _ _ ht => ht.resetStation).modCore

theorem Kept.resetCluster : Kept o (resetCluster cl s) := by
  unfold Machine.resetCluster
  exact (h.forAll fun _ _ ht => ht.resetStations).modCluster.orphanTxns.setCpwr

theorem Kept.clusterFails {stuck : Bool} : Kept o (clusterFails cl cause stuck s) :=
  h.failLaunch.resetCluster.modCluster.postEvent.ifThen fun h => h.clusterOut

theorem Kept.pollCluster : Kept o (pollCluster answered stuck cl s) := h.ifElse fun h => .ite h.modCluster (.ite h.clusterFails h)

theorem Kept.execClusterHeartbeatPoll : Answers o (execClusterHeartbeatPoll answered stuck s) :=
  .ite h.next (h.forAll fun _ _ ht => ht.pollCluster).next

theorem Kept.stackOut : Kept o (stackOut st s) := by
  unfold Machine.stackOut
  exact (h.forAll fun _ _ ht => ht.ifElse fun h => h.failLaunch.modCluster).setDegraded.postEvent

theorem Kept.setGroup : Kept o (setGroup sm g x s) := h.same

theorem Kept.execSeamLaneFail : Answers o (execSeamLaneFail sm g lane s) :=
  .ite h.next (.ite h.setGroup.postEvent.next (.ite h.setGroup.postEvent.setDegraded.stackOut.next h.setGroup.postEvent.setDegraded.next))

theorem Kept.execSeamFlitReplay : Answers o (execSeamFlitReplay sm g s) := .ite h.next h.setGroup.next
theorem Kept.execLedgerFlush : Answers o (execLedgerFlush s) := h.setLedger.next

theorem Kept.ledgerSelect : Kept o (ledgerSelect w s) := by
  unfold Machine.ledgerSelect
  dsimp only
  split
  · exact h.setLedger
  · exact h.setLedger

theorem Kept.execLedgerLoad : Answers o (execLedgerLoad w s) := h.ledgerSelect.next

end

/-! ### The link layer -/

section
variable {o s : State} (h : Kept o s) {pt q : Fin 16} {f : Frame} {kind : Half} {sev code errs : Nat} {data raw : List Byte}
  {cause : Byte} {answer : Bool}
include h

theorem Kept.emit : Kept o (emit pt f s) := h.modPort
theorem Kept.emitHaggle : Kept o (emitHaggle pt f s) := h.modPort
theorem Kept.answered {u : State} : Kept o (answered pt u s) := .ite h.emit h
theorem Kept.emitMessage : Kept o (emitMessage pt f s) := h.modPort
theorem Kept.replayAll : Kept o (replayAll pt s) := h.modPort
theorem Kept.portEvent : Kept o (portEvent pt kind sev data s) := h.postEvent
theorem Kept.portDown : Kept o (portDown pt cause s) := h.setPort.ifElse fun h => h.portEvent
theorem Kept.portBlock {cause : BitVec 3} : Kept o (portBlock pt cause s) := h.modPort.portEvent
theorem Kept.startHaggle : Kept o (startHaggle pt s) := h.modPort
theorem Kept.violationEntry : Kept o (violationEntry pt code f s) := h.ledgerAdd.ifElse fun h => h.ledgerAdd
theorem Kept.reproof : Kept o (reproof pt code f s) := h.ifElse fun h => h.setPort.emit
theorem Kept.quarantine : Kept o (quarantine pt s) := h.setPort.portEvent

theorem Kept.violation : Kept o (violation pt code answer f s) :=
  (h.setPort.violationEntry.ifThen fun h => h.reproof).ifThen fun h => h.quarantine

theorem Kept.takeAck : Kept o (takeAck pt f s) := by
  unfold Machine.takeAck
  dsimp only
  split
  · exact .ite h.violation h
  · exact .ite h.setPort.replayAll h.setPort

theorem Kept.takeCredit : Kept o (takeCredit pt f s) := h.ifElse fun h => .ite h.violation h.setPort
theorem Kept.heard : Kept o (heard pt s) := h.modPort
theorem Kept.linkFields : Kept o (linkFields pt f s) := h.heard.takeAck.takeCredit
theorem Kept.freeBuffer : Kept o (freeBuffer pt q s) := h.modPort

theorem Kept.recvSequenced {eff : State → State} (heff : ∀ t, Kept o t → Kept o (eff t)) : Kept o (recvSequenced pt f eff s) := by
  unfold Machine.recvSequenced
  dsimp only
  refine Kept.answered ?_
  split
  · exact h.setPort.linkFields
  · exact h.linkFields
  · exact h.heard.violation
  · split
    · exact (h.setPort.ifThen fun h => h.freeBuffer).heard.violation
    · exact heff _ h.setPort.linkFields

theorem Kept.recvPlain {eff : State → State} (heff : ∀ t, Kept o t → Kept o (eff t)) : Kept o (recvPlain pt f eff s) := by
  refine Kept.answered ?_
  split
  · exact h.heard.violation
  · exact heff _ h.linkFields

theorem Kept.execCrcFailedFrame : Answers o (execCrcFailedFrame pt raw errs s) := .ite h.next h.modPort.answered.next
theorem Kept.linkLost : Kept o (linkLost pt s) := .ite h.portDown h.modPort

theorem Kept.execReplayTimer : Answers o (execReplayTimer pt s) := by
  unfold Machine.execReplayTimer
  dsimp only
  split
  · exact h.next
  · exact .ite h.next (.ite h.replayAll.modPort.linkLost.next h.replayAll.modPort.next)

theorem Kept.execReproofFrame :
    Answers o (execReproofFrame pt f s) := .ite h.next (h.recvPlain fun _ ht => ht.modPort.violationEntry).next

theorem Kept.execQuarantineEnd : Answers o (execQuarantineEnd pt s) := by
  unfold Machine.execQuarantineEnd
  split
  · exact (Kept.ite h.startHaggle h).next
  · exact h.next

end

/-! ### Waiting frames -/

section
variable {o s : State} (h : Kept o s) {from_ : Fin 17} {q pt : Fin 16} {l : List QFrame}
include h

theorem Kept.setPool : Kept o (setPool from_ q l s) := .ite h.modPort h.setMach

theorem Kept.discardHeld : Kept o (discardHeld pt s) :=
  h.forAll fun _ _ ht => ht.setPool.ifThen fun h => h.forAll fun _ _ ht => ht.freeBuffer

end

/-! ### Tensors -/

section
variable {o s : State} (h : Kept o s) {core a l0 n : Nat} {bs : List Byte} {ext tl cs : List Nat} {sc : Byte} {r : Fin 256}
  {c : DescCtx} {b : Tensor}
include h

theorem Kept.tensorPut {y : Tensor} : Kept o (Tensor.put y core a bs s) := h.writePlace
theorem Kept.tensorPutCodes {y : Tensor} : Kept o (Tensor.putCodes y ext l0 tl cs s) := h.tensorPut
theorem Kept.tensorPutScale {y : Tensor} : Kept o (Tensor.putScale y ext l0 tl sc s) := .ite h.tensorPut h

theorem Kept.tensorStoreSeg {mode at_ : Nat} {sr : Bool} {rnd : Nat → Nat} {xs : List FNum} {y : Tensor} :
    Kept o (Tensor.storeSeg y ext mode sr rnd at_ tl xs s).1 := by
  refine Kept.foldlFst h fun _ _ ht => ?_
  dsimp only
  split
  · exact ht.tensorPutCodes.tensorPutScale
  · exact ht.tensorPutCodes

omit h in
theorem Kept.copyRowCodes {a b : Tensor} {ea eb tl : List Nat} {v : State} {x : State × Ev} (h : Kept o x.1) :
    Kept o (copyRowCodes a b ea eb tl v x).1 :=
  h.foldl fun _ _ ht => ht.tensorPutCodes

theorem Kept.tensorCopy {a : Tensor} {mode : Nat} {sr xpose : Bool} {seed : Word} : Kept o (tensorCopy a b mode sr xpose seed s).1 := by
  unfold Machine.tensorCopy
  dsimp only
  split
  · exact h.foldlFst fun _ _ ht => ht.copyRowCodes
  · refine h.foldlFst fun _ _ ht => ?_
    dsimp only
    exact ht.tensorStoreSeg

theorem Kept.copyTensorNow {a : Tensor} : Kept o (copyTensorNow r c a b s) := by
  unfold Machine.copyTensorNow
  dsimp only
  exact h.tensorCopy.landAll.endOrWait

theorem Kept.execCopyTensorMode : Answers o (execCopyTensorMode r n s) := by
  unfold Machine.execCopyTensorMode
  dsimp only
  split
  · exact h.next
  · split
    · exact h.next
    · split
      · exact h.finishDesc.next
      · exact .ite h.finishDesc.next ((h.askDesc fun _ ht => ht.askAll).onceServed fun _ ht => ht.copyTensorNow).next

end

/-! ### Collective tensors -/

section
variable {o s : State} (h : Kept o s) {ext tl : List Nat} {f l0 n : Nat} {xs : List WireElem}
include h

theorem Kept.tensorStoreExact {y : Tensor} : Kept o (Tensor.storeExact y ext f l0 tl xs s) :=
  h.tensorPutCodes.tensorPutScale.ifThen fun h => h.writePlace

theorem Kept.tensorAcceptRun {y : Tensor} {w : TxnOwner} : Kept o (Tensor.acceptRun y w ext l0 tl n s) :=
  h.acceptAt.ifThen fun h => h.acceptAt

theorem Kept.tensorStoreFlatGo {x : Tensor} {w : TxnOwner} {f : Nat} {ext : List Nat} {n0 n e : Nat} {xs : List WireElem} :
    Kept o (Tensor.storeFlat.go x w f ext n0 n e xs s) := by
  induction n generalizing e xs s with
  | zero => exact h
  | succ n ih =>
    unfold Tensor.storeFlat.go
    split
    · exact h
    · exact ih h.tensorStoreExact.tensorAcceptRun

theorem Kept.tensorStoreFlat {x : Tensor} {w : TxnOwner} {f e : Nat} {xs : List WireElem} : Kept o (x.storeFlat w f e xs s) :=
  h.tensorStoreFlatGo

theorem Kept.tensorStoreSumsGo {x : Tensor} {w : TxnOwner} {rnd : Nat → Nat} {e0 : Nat} {ext : List Nat} {n0 n e : Nat}
    {xs : List WireElem} : Kept o (Tensor.storeSums.go x w rnd e0 ext n0 n e xs s) := by
  induction n generalizing e xs s with
  | zero => exact h
  | succ n ih =>
    unfold Tensor.storeSums.go
    split
    · exact h
    · refine ih ?_
      split
      · exact h.tensorPutCodes.tensorAcceptRun.tensorPutScale
      · exact h.tensorPutCodes.tensorAcceptRun

theorem Kept.tensorStoreSums {x : Tensor} {w : TxnOwner} {rnd : Nat → Nat} {e : Nat} {xs : List WireElem} :
    Kept o (x.storeSums w rnd e xs s) :=
  h.tensorStoreSumsGo

end

/-! ### Collective steps -/

section
variable {o s : State} (h : Kept o s) {id factor S v acc : Word} {f : Frame} {x : CollStep} {op status st : Byte} {dest detail m : Half}
  {round fmt elems e0 i u k rank n kind g : Nat} {poison opening close adds : Bool} {data : List Byte} {xs : List WireElem}
  {e : NormEntry} {pt : Fin 16} {step : CollStep → Bool} {norm : NormRun → Bool} {tag : BitVec 15} {r : Fin 256}
include h

theorem Kept.modGroup {f : Group → Group} : Kept o (modGroup id f s) := h.setColl
theorem Kept.modStep {f : CollStep → CollStep} : Kept o (modStep id f s) := h.modGroup
theorem Kept.sendColl : Kept o (sendColl x op dest round fmt elems e0 poison data s) := h.inject
theorem Kept.sendDiss : Kept o (sendDiss x opening i s) := .ite h.sendColl h.sendColl
theorem Kept.sendUnit {f : Nat} : Kept o (sendUnit x op u round dest f xs s) := h.foldl fun _ _ ht => ht.sendColl

theorem Kept.storeUnit : Kept o (storeUnit x u s) := by
  unfold Machine.storeUnit
  dsimp only
  split
  · exact h
  · exact h.ifElse fun h => .ite (.ite h.tensorStoreFlat h.tensorStoreSums) h.tensorStoreFlat

theorem Kept.storeUnits : Kept o (storeUnits x u s) := by
  unfold Machine.storeUnits
  dsimp only
  split
  · exact h.storeUnit
  · exact h.storeUnit.ifThen fun h => h.forAll fun _ _ ht => ht.storeUnit

theorem Kept.storeLate : Kept o (storeLate x s) := by
  unfold Machine.storeLate
  dsimp only
  split
  · exact h
  · exact h.ifElse fun h => .ite (.ite h.tensorStoreFlat h.tensorStoreSums) h.tensorStoreFlat

theorem Kept.spreadUnit : Kept o (spreadUnit id u s) := by
  unfold Machine.spreadUnit
  dsimp only
  split
  · exact h
  · exact h.foldl fun _ _ ht => ht.sendUnit

theorem Kept.finishUnit : Kept o (finishUnit id u s) := by
  unfold Machine.finishUnit
  dsimp only
  split
  · exact h
  · exact h.modStep.storeUnits.ifThen fun h => h.spreadUnit

theorem Kept.ownUnit : Kept o (ownUnit id u s) := by
  unfold Machine.ownUnit
  dsimp only
  split
  · exact h
  · exact h.modStep.finishUnit

theorem Kept.kickUnit : Kept o (kickUnit id u s) := by
  unfold Machine.kickUnit
  dsimp only
  split
  · exact h
  · split
    · exact h.modStep.sendUnit
    · exact .ite h.ownUnit h

theorem Kept.leaveGroup : Kept o (leaveGroup id close s) := h.modGroup.setColl

theorem Kept.endStep : Kept o (endStep id status detail close s) := by
  unfold Machine.endStep
  dsimp only
  split
  · exact h
  · exact h.finishDesc.leaveGroup

theorem Kept.stepOk : Kept o (stepOk id s) := by
  unfold Machine.stepOk
  dsimp only
  split
  · exact h
  · exact h.endStep

theorem Kept.originUnit : Kept o (originUnit id u s) := by
  unfold Machine.originUnit
  split
  · exact h
  · exact .ite h.modStep.finishUnit h

theorem Kept.beginData : Kept o (beginData id s) := by
  unfold Machine.beginData
  dsimp only
  split
  · exact h
  · exact .ite (h.modStep.forAll fun _ _ ht => ht.originUnit) (h.modStep.forAll fun _ _ ht => ht.kickUnit)

theorem Kept.tryClose : Kept o (tryClose id s) := by
  unfold Machine.tryClose
  dsimp only
  split
  · exact h
  · exact h.ifElse fun h => .ite h.storeLate.effectsDone.modStep.sendColl.stepOk
      (h.storeLate.effectsDone.modStep.ifElse fun h => h.sendDiss)

theorem Kept.pipeMove : Kept o (pipeMove id s) := by
  unfold Machine.pipeMove
  dsimp only
  split
  · exact h
  · split
    · exact h.modStep
    · exact h.modStep.forAll fun _ _ ht => ht.sendUnit

theorem Kept.beginStep : Kept o (beginStep id s) := by
  unfold Machine.beginStep
  dsimp only
  split
  · exact h
  · split
    · exact h
    · split
      · exact h
      · split
        · exact h.endStep
        · split
          · exact h.endStep
          · split
            · exact h.modGroup.modStep.setMach
            · exact h.modGroup.modStep.setMach.ifElse fun h => .ite h.sendColl.modStep.tryClose h.sendDiss

theorem Kept.heardNow : Kept o (heardNow id s) := h.modStep

theorem Kept.onOpen : Fated o (onOpen id x f s) := by
  unfold Machine.onOpen
  dsimp only
  split
  · exact .ite .wait .drop
  · split
    · split
      · exact h.modStep.heardNow.sendDiss.take
      · exact h.modStep.heardNow.take
    · exact .ite h.modStep.heardNow.endStep.take (.ite h.modStep.heardNow.endStep.take h.modStep.heardNow.beginData.tryClose.take)

theorem Kept.onClose : Fated o (onClose id x f s) :=
  .ite (.ite h.stepOk.take .wait) (.ite .wait (.ite .drop (.ite h.modStep.heardNow.sendDiss.take h.modStep.heardNow.stepOk.take)))

theorem Kept.unitGot : Kept o (unitGot id adds u k s) := by
  unfold Machine.unitGot
  dsimp only
  split
  · exact h
  · exact .ite h.modStep (.ite h.modStep.kickUnit h.modStep.finishUnit)

theorem Kept.onData : Fated o (onData id x adds f s) :=
  .ite .wait (.ite .drop (.ite .wait (h.modStep.heardNow.forAll fun _ _ ht => ht.unitGot).tryClose.take))

theorem Kept.onReady : Fated o (onReady id x f s) := .ite .drop (.ite h.pipeMove.take (.ite .wait .drop))

theorem Kept.groupMsg : Fated o (groupMsg f s) := by
  unfold Machine.groupMsg
  dsimp only
  split
  · exact .wait
  · split
    · exact .wait
    · split
      · exact .drop
      · split
        · exact .drop
        · split
          · exact .drop
          · split
            · exact .ite h.onOpen .drop
            · exact .ite h.onData .drop
            · exact .ite h.onData .drop
            · exact .ite h.onData .drop
            · exact h.onReady
            · exact .ite h.onData .drop
            · exact .ite (.ite h.onOpen .drop) (.ite h.onClose .drop)
            · exact .drop

theorem Kept.giveNorm {u : UpdateCtx} : Kept o (giveNorm e u s) := h.ifElse fun h => .ite h.setColl h.setColl.finishDesc
theorem Kept.publishNorm {status : Nat} : Kept o (publishNorm id status factor st detail s) := h.setColl.forAll fun _ _ ht => ht.giveNorm
theorem Kept.failNorm {x : NormRun} : Kept o (failNorm x status detail s) := h.setColl.publishNorm.finishDesc
theorem Kept.endNorm {x : NormRun} : Kept o (endNorm x S s) := h.setColl.publishNorm.finishDesc
theorem Kept.modNorm {f : NormRun → NormRun} : Kept o (modNorm id f s) := h.setColl
theorem Kept.sendNorm {x : NormRun} : Kept o (sendNorm x rank round v s) := h.inject
theorem Kept.chainDown {x : NormRun} : Kept o (chainDown x acc s) := .ite h.sendNorm.endNorm h.modNorm.sendNorm

theorem Kept.normMsg : Fated o (normMsg f s) := by
  unfold Machine.normMsg
  dsimp only
  split
  · exact .wait
  · exact .ite .drop (.ite .wait (.ite (.ite h.modNorm.modNorm.sendNorm.take h.modNorm.endNorm.take)
      (.ite h.modNorm.chainDown.take (h.modNorm.ifThen fun h => h.sendNorm).endNorm.take)))

theorem Kept.collMsg : Fated o (collMsg f s) := .ite h.normMsg h.groupMsg

theorem Kept.freeWaiting : Kept o (freeWaiting pt f s) := by
  unfold Machine.freeWaiting
  exact h.modPort

theorem Kept.drainOnce {l : List (Fin 16 × Frame)} : Kept o (drainOnce l s) := by
  induction l generalizing s with
  | nil => exact h
  | cons x l ih =>
    unfold Machine.drainOnce
    split
    · exact ih h.setColl
    · exact ih (h.collMsg _ ‹_›).freeWaiting
    · exact ih h.setColl.freeWaiting

theorem Kept.settle {n : Nat} : Kept o (settle n s) := by
  induction n generalizing s with
  | zero => exact h
  | succ n ih =>
    unfold Machine.settle
    dsimp only
    split
    · exact (h.forAll fun _ _ ht => ht.beginStep).setColl.drainOnce
    · exact ih (h.forAll fun _ _ ht => ht.beginStep).setColl.drainOnce

theorem Kept.collSettle : Kept o (collSettle s) := h.settle

theorem Kept.collArrive {pt : Fin 16} {f : Frame} : Kept o (collArrive pt f s).1 := by
  unfold Machine.collArrive
  split
  · exact h.setColl
  · exact (h.collMsg _ ‹_›).collSettle
  · exact h.setColl

theorem Kept.failSteps : Kept o (failSteps step norm status detail s) :=
  ((h.forAll fun _ _ ht => ht.endStep).forAll fun _ _ ht => ht.failNorm).collSettle

theorem Kept.failPartner : Kept o (failPartner m s) := h.failSteps
theorem Kept.failTag : Kept o (failTag tag status detail s) := h.failSteps

theorem Kept.enqueueStep : Kept o (enqueueStep x s) := by
  unfold Machine.enqueueStep
  dsimp only
  split
  · exact h.modGroup
  · exact h.setColl

theorem Kept.startColl : Kept o (startColl r n kind s) := by
  unfold Machine.startColl
  dsimp only
  split
  · exact h
  · split
    · exact h
    · split
      · exact h.finishDesc
      · exact (h.askDesc fun _ ht => ht.askAll).onceServed fun _ ht => ht.issueDesc.enqueueStep.collSettle

theorem Kept.execAllReduce : Answers o (execAllReduce r n s) := h.startColl.next
theorem Kept.execReduceScatter : Answers o (execReduceScatter r n s) := h.startColl.next
theorem Kept.execAllGather : Answers o (execAllGather r n s) := h.startColl.next
theorem Kept.execBroadcastColl : Answers o (execBroadcastColl r n s) := h.startColl.next
theorem Kept.execPipelineSend : Answers o (execPipelineSend r n s) := h.startColl.next
theorem Kept.execPipelineReceive : Answers o (execPipelineReceive r n s) := h.startColl.next

theorem Kept.execBarrierDesc : Answers o (execBarrierDesc r n s) := by
  unfold Machine.execBarrierDesc
  split
  · exact h.next
  · split
    · exact h.next
    · split
      · exact h.finishDesc.next
      · exact h.issueDesc.enqueueStep.collSettle.next

theorem Kept.execCollectiveRoundTimeout : Answers o (execCollectiveRoundTimeout g s) := by
  unfold Machine.execCollectiveRoundTimeout
  dsimp only
  split
  · split
    · split
      · exact .ite h.endStep.collSettle.next h.next
      · exact h.next
    · exact h.next
  · split
    · exact .ite h.failNorm.next h.next
    · exact h.next

end

/-! ### Norms and updates -/

section
variable {o s : State} (h : Kept o s) {r : Fin 256} {c : DescCtx} {u : UpdateCtx} {n a : Nat} {write : Bool} {rows cols : List Word}
  {xs : List (Nat × Nat)}
include h

theorem Kept.markNorm {id : Word} : Offered o (markNorm id s) := by
  refine .ite h.setColl.some (.ite h.setColl.some fun t ht => ?_)
  obtain ⟨old, -, rfl⟩ := Option.map_eq_some_iff.mp ht
  exact h.setColl

theorem Kept.beginNorm : Kept o (beginNorm r c s) :=
  (Kept.ite h.setColl.setMach.issueDesc.sendNorm (h.setColl.setMach.issueDesc.ifThen fun h => h.chainDown)).collSettle

theorem Kept.readNorm : Kept o (readNorm r c s) := .ite ((h.askDesc fun _ ht => ht.askAll).onceServed fun _ ht => ht.beginNorm) h

theorem Kept.execNormReduce {n : Nat} : Answers o (execNormReduce r n s) := by
  unfold Machine.execNormReduce
  dsimp only
  split
  · exact h.next
  · split
    · exact h.finishDesc.next
    · refine .ite h.readNorm.next (.ite h.next ?_)
      split
      · exact h.next
      · exact (h.markNorm _ ‹_›).modCtx.readNorm.next

theorem Kept.setUpd : Kept o (setUpd u s) := h.setColl

theorem Kept.endUpdate : Kept o (endUpdate u s) := by
  unfold Machine.endUpdate
  dsimp only
  split
  · exact h.setColl.finishDesc
  · exact .ite h.setColl.finishDesc h.setColl.finishDesc

theorem Kept.execUpdateStep : Answers o (execUpdateStep r n s) := by
  unfold Machine.execUpdateStep
  dsimp only
  split
  · exact h.next
  · split
    · exact h.finishDesc.next
    · split
      · exact h.finishDesc.next
      · split
        · exact h.setColl.issueDesc.giveNorm.next
        · exact h.setColl.issueDesc.next

theorem Kept.execNormWaitTimeout : Answers o (execNormWaitTimeout r n s) := by
  unfold Machine.execNormWaitTimeout
  dsimp only
  split
  · exact h.next
  · split
    · exact h.next
    · exact .ite h.setColl.finishDesc.next h.next

theorem Kept.narrowAccess {w : TxnOwner} : Kept o (narrowAccess w write a n s) := h.forAll fun _ _ ht => ht.gdAccept
theorem Kept.writeFactors : Kept o (writeFactors u rows cols s) := h.writePlace.narrowAccess
theorem Kept.engineAsk : Kept o (engineAsk u write xs s) := h.forAll fun _ _ ht => ht.gdAccept

theorem Kept.storeSome {ext tl : List Nat} {l0 : Nat} {sr : Bool} {rnd : Nat → Nat} {y : Tensor} {xs : List (Option Word)} :
    Kept o (storeSome y ext tl l0 sr rnd xs s).1 := by
  refine Kept.foldlFst h fun _ _ ht => ?_
  dsimp only
  refine Kept.ifThen ?_ fun h => h.tensorPut
  split
  · exact (ht.foldl fun _ _ ht => ht.ifThen fun h => h.tensorPut).ifThen fun h => h.tensorPutScale
  · exact ht.foldl fun _ _ ht => ht.ifThen fun h => h.tensorPut

theorem Kept.updateBlock {x : List Nat × Nat × Nat} : Kept o (updateBlock u x s).1 := by
  unfold Machine.updateBlock
  refine Kept.tensorStoreSeg ?_
  split
  · exact h.storeSome.storeSome
  · dsimp only
    exact h.storeSome

theorem Kept.updateTrigger {run : Nat} : Kept o (updateTrigger run u s).2 := by
  unfold Machine.updateTrigger
  dsimp only
  split
  · exact h
  · exact h.postEvent

theorem Kept.workRun {run : Nat} : Kept o (workRun u run s) := by
  have worked {l : List (List Nat × Nat × Nat)} {e : Ev} {b : Bool} : Kept o (l.foldl (fun (r : State × Ev × Bool) x =>
      let q := Machine.updateBlock u x r.1
      (q.1, r.2.1.add q.2.1, r.2.2 || q.2.2)) (s, e, b)).1 :=
    h.foldlFst fun _ _ ht => by
      dsimp only
      exact ht.updateBlock
  unfold Machine.workRun
  exact .ite worked.engineAsk.updateTrigger.endUpdate worked.engineAsk.updateTrigger.setUpd

theorem Kept.firstPass : Kept o (firstPass u s) := h.writeFactors.setUpd
theorem Kept.askFirst : Kept o (askFirst u s) := h.engineAsk.narrowAccess

theorem Kept.nextRun {u : UpdateCtx} {run : Nat} : Kept o (nextRun u run s) := by
  unfold Machine.nextRun
  refine Kept.onceServed ?_ fun t ht => ?_
  · split
    · exact .ite h h.setUpd.askFirst
    · exact .ite h h.setUpd.engineAsk
  · split
    · exact ht
    · exact .ite ht.firstPass ht.workRun

theorem Kept.execUpdateRun {u : Nat} : Answers o (execUpdateRun r n u s) := by
  unfold Machine.execUpdateRun
  dsimp only
  split
  · exact h.next
  · split
    · exact h.next
    · exact .ite h.next h.nextRun.next

end

/-! ### Shards -/

section
variable {o s : State} (h : Kept o s) {r : Fin 256} {c0 c : DescCtx} {n : Nat} {ext tl : List Nat} {data scales : List Byte}
  {rec_ : List MByte}
include h

theorem Kept.digestNow {y : Tensor} : Kept o (digestNow r c0 y s) := h.writeOut.endOrWait

theorem Kept.execDigestDesc : Answers o (execDigestDesc r n s) := by
  unfold Machine.execDigestDesc
  dsimp only
  split
  · exact h.next
  · split
    · exact h.finishDesc.next
    · exact ((h.askDesc fun _ ht => ht.askAll).onceServed fun _ ht => ht.digestNow.fitTxns ht).next

theorem Kept.exportNow {y : Tensor} : Kept o (exportNow r c0 y s) := h.writeOut.endOrWait

theorem Kept.execExportShard : Answers o (execExportShard r n s) := by
  unfold Machine.execExportShard
  dsimp only
  split
  · exact h.next
  · split
    · exact h.finishDesc.next
    · exact ((h.askDesc fun _ ht => ht.askAll).onceServed fun _ ht => ht.exportNow.fitTxns ht).next

theorem Kept.importRow {y : Tensor} : Kept o (importRow y ext tl data scales s) := h.foldl fun _ _ ht => ht.tensorPutCodes.tensorPutScale
theorem Kept.importRows {y : Tensor} : Kept o (importRows y ext data scales s) := h.foldl fun _ _ ht => ht.importRow

theorem Kept.importNow {y : Tensor} : Kept o (importNow r c y rec_ s) :=
  .ite h.finishDesc ((h.askDesc fun _ ht => ht.askAll).onceServed fun _ ht => ht.importRows.finishDesc.landAll)

theorem Kept.execImportShard : Answers o (execImportShard r n s) := by
  unfold Machine.execImportShard
  dsimp only
  split
  · exact h.next
  · split
    · exact h.finishDesc.next
    · exact (h.withOperand fun _ _ ht => ht.importNow).next

end

/-! ### Bringing ports up -/

section
variable {o s : State} (h : Kept o s) {pt : Fin 16} {phase : Nat} {tSend : Dword} {cert : List Byte} {m detail addr : Half}
  {status v : Byte} {epoch w : Word} {except : Option (Fin 16)} {txFailed rxFailed : BitVec 9} {f : Frame} {eff : State → State}
  {rx down : Bool} {lane : Fin 9} {fixed : List Nat}
include h

theorem Kept.sendHaggle : Kept o (sendHaggle pt phase tSend cert s) := h.emitHaggle
theorem Kept.sendRetrain : Kept o (sendRetrain pt phase tSend s) := h.emit
theorem Kept.endTxnsTo : Kept o (endTxnsTo m status detail s) := h.setMach.forAll fun _ _ ht => ht.txnEnded

theorem Kept.noteRestart : Kept o (noteRestart addr epoch except s) :=
  h.setMach.endTxnsTo.recordEpoch.failPartner.forAll fun _ _ ht => ht.inject

theorem Kept.goUp : Kept o (goUp pt s) := (h.setPort.portEvent.ifElse fun h => h.replayAll).ifThen fun h => h.portEvent.noteRestart

theorem Kept.tryJoin : Kept o (tryJoin pt s) := by
  unfold Machine.tryJoin
  dsimp only
  split
  · exact h
  · split
    · exact h.portBlock
    · exact h.goUp

theorem Kept.sendJoin : Kept o (sendJoin pt s) := .ite h.sendHaggle h
theorem Kept.rejoin : Kept o (rejoin pt s) := .ite h.setPort.sendJoin.tryJoin h
theorem Kept.rejoinAll : Kept o (rejoinAll s) := h.forAll fun _ _ ht => ht.rejoin
theorem Kept.unjoin : Kept o (unjoin pt s) := .ite h.setPort.sendHaggle h
theorem Kept.goLinked : Kept o (goLinked pt s) := h.setPort.setTime.sendJoin

theorem Kept.execPartnerSignalDetect : Answers o (execPartnerSignalDetect pt txFailed rxFailed s) :=
  .ite h.next (.ite (h.startHaggle.modPort.ifElse fun h => h.setDegraded).portDown.next
    (h.startHaggle.modPort.ifElse fun h => h.setDegraded).fresh.fresh.modPort.modPort.emitHaggle.next)

theorem Kept.onHello : Kept o (onHello pt f s) :=
  h.ifElse fun h => .ite h.violation.portBlock
    (.ite h.setPort.portBlock ((Kept.ite h.discardHeld h).setPort.forAll fun _ _ ht => ht.sendHaggle))

theorem Kept.sendCert : Kept o (sendCert pt s) := h.forAll fun _ _ ht => ht.sendHaggle
theorem Kept.flightDone : Kept o (flightDone pt s) := .ite h.setPort.portBlock (.ite h.setPort.modPort.sendCert h.setPort.goLinked)
theorem Kept.onEcho : Kept o (onEcho pt f s) := h.ifElse fun h => h.setPort.ifElse fun h => h.flightDone
theorem Kept.onCert : Kept o (onCert pt f s) := h.ifElse fun h => h.setPort.ifElse fun h => .ite h.modPort.goLinked h.portBlock
theorem Kept.onJoin : Kept o (onJoin pt f s) := h.ifElse fun h => h.setPort.tryJoin

theorem Kept.recvHaggle (heff : ∀ t, Kept o t → Kept o (eff t)) : Kept o (recvHaggle pt f phase eff s) :=
  .ite h (.ite h.startHaggle (.ite (.ite h.startHaggle (.ite (h.setPort.sendJoin.recvSequenced fun _ ht => heff _ ht) h))
    (h.recvSequenced fun _ ht => heff _ ht)))

theorem Kept.execHelloFrame : Answers o (execHelloFrame pt f s) := (h.recvHaggle fun _ ht => ht.onHello).next
theorem Kept.execPingFrame : Answers o (execPingFrame pt f s) := (h.recvHaggle fun _ ht => ht.sendHaggle).next
theorem Kept.execEchoFrame : Answers o (execEchoFrame pt f s) := (h.recvHaggle fun _ ht => ht.onEcho).next
theorem Kept.execCertFrame : Answers o (execCertFrame pt f s) := (h.recvHaggle fun _ ht => ht.onCert).next
theorem Kept.execCertTimeout : Answers o (execCertTimeout pt s) := .ite h.portBlock.next h.next
theorem Kept.execJoinFrame : Answers o (execJoinFrame pt f s) := (h.recvHaggle fun _ ht => ht.onJoin).next
theorem Kept.sendRetrains : Kept o (sendRetrains pt s) := h.modPort.forAll fun _ _ ht => ht.sendRetrain
theorem Kept.enterRetrain : Kept o (enterRetrain pt s) := h.ifElse fun h => h.modPort.setTime.sendRetrains

theorem Kept.retrainDone : Kept o (retrainDone pt s) :=
  .ite h.setPort.portBlock ((h.setPort.modPort.ifElse fun h => h.replayAll).ifElse fun h => h.unjoin)

theorem Kept.recvRetrain (heff : ∀ t, Kept o t → Kept o (eff t)) : Kept o (recvRetrain pt f phase eff s) := by
  unfold Machine.recvRetrain
  dsimp only
  split
  · exact h
  · split
    · exact h.recvPlain fun _ ht => ht
    · exact .ite (h.recvPlain fun _ ht => heff _ ht) h.startHaggle

theorem Kept.execRetrainFrame :
    Answers o (execRetrainFrame pt f s) := (h.recvRetrain fun _ ht => ht.enterRetrain.modPort.sendRetrain).next

theorem Kept.execRetrainEcho : Answers o (execRetrainEcho pt f s) :=
  (h.recvRetrain fun _ ht => ht.ifElse fun h => h.setPort.ifElse fun h => h.retrainDone).next

theorem Kept.execRetrainPatternDetect : Answers o (execRetrainPatternDetect pt s) := h.enterRetrain.next

theorem Kept.failLane : Kept o (failLane pt rx lane s) :=
  h.ifElse fun h => .ite h.setPort.portEvent.setDegraded.portDown h.setPort.portEvent.setDegraded.enterRetrain

theorem Kept.execLaneFail : Answers o (execLaneFail pt rx lane s) := h.failLane.next
theorem Kept.countFixed : Kept o (countFixed pt fixed s) := h.setPort.forAll fun _ _ ht => ht.failLane
theorem Kept.execIdleFrame : Answers o (execIdleFrame pt f fixed s) := .ite h.next (h.countFixed.recvPlain fun _ ht => ht).next
theorem Kept.execRetryAttempt : Answers o (execRetryAttempt pt s) := .ite h.next h.setPort.sendRetrains.next

theorem Kept.execRetryExpiry : Answers o (execRetryExpiry pt s) := by
  unfold Machine.execRetryExpiry
  split
  · exact (Kept.ite h.discardHeld.portDown h).next
  · exact h.next

theorem Kept.widthStep : Kept o (widthStep down pt s) :=
  h.ifElse fun h => .ite (.ite h.setPort.enterRetrain h) (.ite h.setPort.enterRetrain h)

theorem Kept.portCfgWrite : Kept o (portCfgWrite pt w s) :=
  .ite h.modPort.portDown (.ite h.modPort.startHaggle (h.modPort.ifThen fun h => h.enterRetrain))

theorem Kept.execPortEnable : Answers o (execPortEnable pt w s) := (Kept.ite h.portCfgWrite h).next
theorem Kept.execPortDisable : Answers o (execPortDisable pt w s) := (h.ifElse fun h => h.portCfgWrite).next
theorem Kept.execPortRetrain : Answers o (execPortRetrain pt w s) := (Kept.ite h.portCfgWrite h).next
theorem Kept.execRehaggle : Answers o (execRehaggle pt w s) := (Kept.ite h.portCfgWrite h).next
theorem Kept.execPortCntClear : Answers o (execPortCntClear pt w s) := (Kept.ite h.portCfgWrite h).next

theorem Kept.sweepCtrlWrite : Kept o (sweepCtrlWrite pt w s) :=
  h.ifElse fun h => .ite h.setPort (h.ifElse fun h => .ite h.setPort h.setPort)

theorem Kept.execLaneSweepStart : Answers o (execLaneSweepStart pt w s) := (Kept.ite h.sweepCtrlWrite h).next
theorem Kept.execLaneSweepDone {x : Byte} : Answers o (execLaneSweepDone pt v x s) := (Kept.ite h.setPort h).next

end

/-! ### Messages -/

section
variable {o s : State} (h : Kept o s) {x : Inbound} {f : Frame} {status : Byte} {detail : Half} {off n port cause action vc op : Nat}
  {bs : List MByte} {pt : Fin 16} {r : Fin 256} {c : DescCtx} {eff : State → State × Bool}
include h

theorem Kept.setInbound : Kept o (setInbound x s) := h.setMach

theorem Kept.onWrite : Kept o (onWrite f s) := by
  unfold Machine.onWrite
  dsimp only
  split
  · exact h.setInbound.ifElse fun h => h.inject
  · exact h.setInbound.ifElse fun h => h.writePlace.acceptAt.ifThen fun h => h.inject

theorem Kept.onRead : Kept o (onRead f s) := by
  unfold Machine.onRead
  dsimp only
  split
  · exact h.inject
  · split
    · exact h.inject
    · exact h.acceptAt.setMach.servePeers

theorem Kept.closeTxn {y : Txn} : Kept o (closeTxn y status detail s) := h.setMach.txnEnded
theorem Kept.noteEpoch : Kept o (noteEpoch f s) := h.ifElse fun h => h.recordEpoch

theorem Kept.onWriteDone : Kept o (onWriteDone f s) := by
  unfold Machine.onWriteDone
  split
  · exact .ite h.closeTxn h
  · exact h

theorem Kept.placeData {y : Txn} : Kept o (placeData y off bs s) := by
  unfold Machine.placeData
  dsimp only
  split
  · split
    · exact h.modCtx
    · exact h.modRun
    · exact h
  · split
    · exact h.setMach
    · exact h.writePlace.acceptAt

theorem Kept.relayData {t : Txn} : Kept o (relayData t s) := by
  unfold Machine.relayData
  split
  · refine .ite h.closeTxn (.ite h.closeTxn (Kept.txnEnded (Kept.startWrite ?_)))
    dsimp only
    split
    · exact h.setMach.modRun
    · exact h.setMach
  · exact h.closeTxn

theorem Kept.notePoison {y : Txn} : Kept o (notePoison y n s) := by
  unfold Machine.notePoison
  split
  · exact h.modCtx
  · exact h

theorem Kept.onReadData : Kept o (onReadData f s) := by
  unfold Machine.onReadData
  dsimp only
  split
  · exact h
  · exact h.ifElse fun h => (h.setMach.placeData.ifThen fun h => h.notePoison).ifElse fun h => h.relayData

theorem Kept.onReject : Kept o (onReject f s) := by
  unfold Machine.onReject
  dsimp only
  split
  · exact h.closeTxn
  · exact .ite h.failTag (.ite h.failTag h.failTag)

theorem Kept.onNotice {pt : Option (Fin 16)} : Kept o (onNotice pt f s) := h.ifElse fun h => h.noteRestart
theorem Kept.hopResult : Kept o (hopResult s pt).2 := h.fresh.fresh

theorem Kept.measureHop : Kept o (measureHop port s).2.2 := by
  unfold Machine.measureHop
  split
  · exact h
  · split
    · exact h
    · exact h.hopResult

theorem Kept.endSweep {x : Sweep} : Kept o (endSweep x cause s) := by
  unfold Machine.endSweep
  dsimp only
  split
  · exact h.setMach
  · exact h.setMach.writeOut.writeOut.endOrWait.fitTxns h.setMach

theorem Kept.runSweep {n : Nat} {x : Sweep} : Kept o (runSweep n x s) := by
  induction n generalizing x s with
  | zero => exact h.endSweep
  | succ n ih =>
    unfold Machine.runSweep
    dsimp only
    split
    · exact h.endSweep
    · exact .ite (.ite h.measureHop.endSweep (ih h.measureHop)) h.setMach.inject

theorem Kept.onSweepReq : Kept o (onSweepReq f s) := h.measureHop.inject

theorem Kept.onSweepResult : Kept o (onSweepResult f s) := by
  unfold Machine.onSweepResult
  dsimp only
  split
  · exact h
  · exact h.ifElse fun h => .ite h.endSweep h.runSweep

theorem Kept.execSweepHopTimeout : Answers o (execSweepHopTimeout r n s) := by
  unfold Machine.execSweepHopTimeout
  split
  · exact .ite h.endSweep.next h.next
  · exact h.next

theorem Kept.beginSweep {bs : List Byte} : Kept o (beginSweep action r c bs s) := h.issueDesc.runSweep

theorem Kept.startSweep : Kept o (startSweep action r n s) := by
  unfold Machine.startSweep
  dsimp only
  split
  · exact h
  · split
    · exact h
    · split
      · exact h.finishDesc
      · exact h.withOperand fun _ _ ht => ht.beginSweep

theorem Kept.execDiagMarginSweep : Answers o (execDiagMarginSweep r n s) := h.startSweep.next
theorem Kept.execDiagResumeSweep : Answers o (execDiagResumeSweep r n s) := h.startSweep.next
theorem Kept.refuseStale : Kept o (refuseStale f s) := h.setInbound.ifElse fun h => h.inject

theorem Kept.effectOf : Kept o (effectOf pt f s).1 := by
  unfold Machine.effectOf
  dsimp only
  split
  · split
    · exact h.refuseStale
    · exact h.collArrive
  · split
    · exact .ite h.noteEpoch.onWriteDone (.ite h.noteEpoch.onReadData h.noteEpoch.onReject)
    · split
      · exact .ite h.onWrite h.onRead
      · exact .ite h.onNotice (.ite h.onSweepReq (.ite h.onSweepResult h))

theorem Kept.acceptMsg (heff : ∀ t, Kept o t → Kept o (eff t).1) : Kept o (acceptMsg pt f eff s) :=
  .ite h.violation (.ite ((heff _ h).ifThen fun h => h.freeBuffer) h.setPort)

theorem Kept.recvMsg (heff : ∀ t, Kept o t → Kept o (eff t).1) : Kept o (recvMsg pt f vc op eff s) :=
  .ite h (h.recvSequenced fun _ ht => ht.acceptMsg fun _ ht => heff _ ht)

theorem Kept.execWriteMsg : Answers o (execWriteMsg pt f s) := (h.recvMsg fun _ ht => ht.effectOf).next
theorem Kept.execReadMsg : Answers o (execReadMsg pt f s) := (h.recvMsg fun _ ht => ht.effectOf).next
theorem Kept.execWriteDone : Answers o (execWriteDone pt f s) := (h.recvMsg fun _ ht => ht.effectOf).next
theorem Kept.execReadData : Answers o (execReadData pt f s) := (h.recvMsg fun _ ht => ht.effectOf).next
theorem Kept.execRejectMsg : Answers o (execRejectMsg pt f s) := (h.recvMsg fun _ ht => ht.effectOf).next
theorem Kept.execRestartNotice : Answers o (execRestartNotice pt f s) := (h.recvMsg fun _ ht => ht.effectOf).next
theorem Kept.execSweepReq : Answers o (execSweepReq pt f s) := (h.recvMsg fun _ ht => ht.effectOf).next
theorem Kept.execSweepResult : Answers o (execSweepResult pt f s) := (h.recvMsg fun _ ht => ht.effectOf).next
theorem Kept.execStepOpen : Answers o (execStepOpen pt f s) := (h.recvMsg fun _ ht => ht.effectOf).next
theorem Kept.execRsData : Answers o (execRsData pt f s) := (h.recvMsg fun _ ht => ht.effectOf).next
theorem Kept.execAgData : Answers o (execAgData pt f s) := (h.recvMsg fun _ ht => ht.effectOf).next
theorem Kept.execBcData : Answers o (execBcData pt f s) := (h.recvMsg fun _ ht => ht.effectOf).next
theorem Kept.execPipeReady : Answers o (execPipeReady pt f s) := (h.recvMsg fun _ ht => ht.effectOf).next
theorem Kept.execPipeData : Answers o (execPipeData pt f s) := (h.recvMsg fun _ ht => ht.effectOf).next
theorem Kept.execArriveMsg : Answers o (execArriveMsg pt f s) := (h.recvMsg fun _ ht => ht.effectOf).next
theorem Kept.execNormPart : Answers o (execNormPart pt f s) := (h.recvMsg fun _ ht => ht.effectOf).next

theorem Kept.execTransactionTimeout {y : Nat} : Answers o (execTransactionTimeout y s) := by
  unfold Machine.execTransactionTimeout
  split
  · exact (Kept.ite h.closeTxn h).next
  · exact h.next

end

/-! ### Binding and routing -/

section
variable {o s : State} (h : Kept o s) {from_ : Fin 17} {q pt : Fin 16} {f : Frame} {w : Dword}
include h

theorem Kept.noteHeads : Kept o (noteHeads s) := by
  unfold Machine.noteHeads
  dsimp only
  refine h.forAll fun _ _ ht => ?_
  split
  · exact (ht.ifElse fun h => h.setPool)
  · exact ht

theorem Kept.popQueue : Kept o (popQueue from_ q s) := h.setPool.ifThen fun h => h.freeBuffer
theorem Kept.dropFrame : Kept o (dropFrame f pt s) := .ite h.inject (h.ifElse fun h => h.onReject)
theorem Kept.noteSent : Kept o (noteSent f s) := .ite h.setMach h

theorem Kept.execFrameForward : Answers o (execFrameForward from_ q s) := by
  unfold Machine.execFrameForward
  dsimp only
  split
  · exact h.noteHeads.next
  · split
    · exact h.noteHeads.popQueue.effectOf.next
    · split
      · exact h.noteHeads.next
      · exact h.noteHeads.popQueue.dropFrame.next
      · exact .ite h.noteHeads.next (.ite h.noteHeads.modPort.popQueue.dropFrame.next
          h.noteHeads.modPort.popQueue.emitMessage.noteSent.next)

theorem Kept.execRouterFrameUrgent : Answers o (execRouterFrameUrgent from_ q s) := by
  unfold Machine.execRouterFrameUrgent
  dsimp only
  split
  · exact h.noteHeads.next
  · split
    · exact (h.noteHeads.ifThen fun h => h.setPool).next
    · exact h.noteHeads.next

theorem Kept.bind : Kept o (bind s) := by
  unfold Machine.bind
  dsimp only
  split
  · exact h.setMach
  · exact h.setMach.rejoinAll

theorem Kept.unbind : Kept o (unbind s) := .ite h.setMach h
theorem Kept.machBindWrite : Kept o (machBindWrite w s) := ((h.ifElse fun h => h.setMach).ifThen fun h => h.bind).ifThen fun h => h.unbind
theorem Kept.execMachBind : Answers o (execMachBind w s) := (Kept.ite h.machBindWrite h).next
theorem Kept.execMachUnbind : Answers o (execMachUnbind w s) := (Kept.ite h.machBindWrite h).next

theorem Kept.execUnbindWaitEnd : Answers o (execUnbindWaitEnd s) := by
  unfold Machine.execUnbindWaitEnd
  dsimp only
  split
  · exact .ite (h.setMach.forAll fun _ _ ht => ht.unjoin).next h.next
  · exact h.next

theorem Kept.machRouteWrite : Kept o (machRouteWrite w s) := by
  unfold Machine.machRouteWrite
  dsimp only
  split
  · exact h.setMach
  · split
    · exact h.setMach.setMach
    · exact h.setMach.setMach

theorem Kept.execRouteLoad : Answers o (execRouteLoad w s) := (Kept.ite h.machRouteWrite h).next

theorem Kept.execRouteMasksReady : Answers o (execRouteMasksReady s) := by
  unfold Machine.execRouteMasksReady
  dsimp only
  split
  · exact h.next
  · exact .ite h.setMach.next (h.setMach.forAll fun _ _ ht => ht.modPort).rejoinAll.next

end

/-! ### Market time -/

section
variable {o s : State} (h : Kept o s) {cl : Fin 48} {goal : Dword} {load port edges : Bool} {e : ℤ} {pt : Fin 16} {f : Frame}
  {errs : List ℤ} {i : Fin 50} {sep : Nat} {freqErr : Half} {w : Word}
include h

theorem Kept.spoilStart : Kept o (spoilStart cl s) := h.modCluster
theorem Kept.stepTime : Kept o (stepTime goal load s) := (h.setTime.forAll fun _ _ ht => ht.modCluster.spoilStart).postEvent
theorem Kept.execTimeSyncSend : Answers o (execTimeSyncSend s) := .ite h.next (h.setTime.forAll fun _ _ ht => ht.inject).next
theorem Kept.acceptOffset : Kept o (acceptOffset e s) := h.setTime.ifThen fun h => h.stepTime

theorem Kept.takeSample : Kept o (takeSample e s) := by
  unfold Machine.takeSample
  dsimp only
  split
  · exact h.acceptOffset
  · split
    · exact h.acceptOffset
    · split
      · exact .ite h.setTime (.ite h.setTime h.acceptOffset)
      · exact h.setTime

theorem Kept.onSync : Kept o (onSync pt f s) := by
  unfold Machine.onSync
  dsimp only
  split
  · exact h.modPort
  · split
    · exact h.modPort
    · exact h.modPort.setTime.ifThen fun h => h.takeSample

theorem Kept.execTimeSync : Answers o (execTimeSync pt f s) := (h.recvMsg fun _ ht => ht.onSync).next
theorem Kept.execSyncLost : Answers o (execSyncLost s) := .ite h.next h.setTime.postEvent.next
theorem Kept.beaconAt : Kept o (beaconAt cl e s) := .ite h.modCluster.spoilStart.postEvent h.modCluster
theorem Kept.execTimeBeacon : Answers o (execTimeBeacon errs s) := .ite h.next (h.forAll fun _ _ ht => ht.beaconAt).next

theorem Kept.execFifoPointerCheck : Answers o (execFifoPointerCheck port i sep s) :=
  .ite h.next (h.setTime.ifElse fun h => h.postEvent).next

theorem Kept.execRefLost : Answers o (execRefLost edges freqErr s) := .ite h.next (.ite h.setTime.next h.setTime.postEvent.next)
theorem Kept.timeCtrlWrite : Kept o (timeCtrlWrite w s) := h.setTime.ifElse fun h => .ite h.stepTime h.setTime
theorem Kept.execTimeLoad : Answers o (execTimeLoad w s) := (Kept.ite h.timeCtrlWrite h).next

end

/-! ### Power -/

section
variable {o s : State} (h : Kept o s) {cl : Fin 48} {f : ClusterPower → ClusterPower} {code : BitVec 3} {power current depth hub : Nat}
  {excess : Rat} {load : List Nat} {raised : List (Fin 48)} {m : CapMeas} {d : Fin 59} {st : Fin 4} {temps : List ℤ} {ms : List DomMeas}
  {w : Word}
include h

theorem Kept.applyPoints : Kept o (applyPoints s) := (h.forAll fun _ _ ht => ht.ifElse fun h => h.setCpwr).rearm
theorem Kept.modCpwr : Kept o (modCpwr cl f s) := h.setCpwr
theorem Kept.applyDuty : Kept o (applyDuty s) := (h.forAll fun _ _ ht => ht.modCpwr).rearm
theorem Kept.noteBlock : Kept o (noteBlock code s) := h.setPwr
theorem Kept.endSurge : Kept o (endSurge code cl s) := h.ifElse fun h => h.modCpwr.noteBlock
theorem Kept.endSurges : Kept o (endSurges code s) := h.forAll fun _ _ ht => ht.endSurge

theorem Kept.dropSurges : Kept o (dropSurges s) := by
  refine h.forAll fun _ _ ht => .ite ht (.ite ht.endSurge ?_)
  split
  · exact ht.endSurge
  · exact ht

theorem Kept.grantSurges {l : List (Fin 48)} {power current : Rat} : Kept o (grantSurges l power current s) := by
  induction l generalizing power current s with
  | nil => exact h
  | cons cl l ih =>
    refine .ite (ih h) ?_
    split
    · exact ih h.noteBlock
    · exact .ite h.noteBlock (ih h.modCpwr)

theorem Kept.surgeTick : Kept o (surgeTick power current s) := by
  unfold Machine.surgeTick
  dsimp only
  split
  · exact .ite h.endSurges (h.ifElse fun h => h.noteBlock)
  · exact h.dropSurges.grantSurges

theorem Kept.execSurgeCheck : Answers o (execSurgeCheck power current s) :=
  .ite h.next (.ite h.setPwr.endSurges.next (.ite h.setPwr.endSurges.next h.setPwr.next))

theorem Kept.lowerPoints {n : Nat} {excess : Rat} : Kept o (lowerPoints n excess s) := by
  induction n generalizing excess s with
  | zero => exact h
  | succ n ih =>
    unfold Machine.lowerPoints
    split
    · exact h
    · exact .ite h.modCpwr (ih h.modCpwr)

theorem Kept.lowerOnce : Offered o (lowerOnce excess load s) :=
  .ite h.lowerPoints.some (.ite (h.setGddr fun hc => hc.same.askRate).some
    (.ite (h.setPwr.forAll fun _ _ ht => ht.widthStep).some (.ite h.setPwr.applyDuty.some .none)))

theorem Kept.widenPorts : Kept o (widenPorts s) := h.forAll fun _ _ ht => ht.ifElse fun h => h.widthStep

theorem Kept.raiseOnce : Kept o (raiseOnce s) := by
  unfold Machine.raiseOnce
  dsimp only
  split
  · exact h.setPwr.applyDuty
  · split
    · exact h.setPwr.widenPorts
    · split
      · exact h.setGddr fun hc => hc.same.askRate
      · split
        · exact h.modCpwr.applyPoints
        · exact h

theorem Kept.capDecide {m : CapMeas} : Kept o (capDecide m s) := by
  unfold Machine.capDecide
  dsimp only
  refine .ite h.setPwr (.ite ?_ (h.setPwr.setPwr.ifThen fun h => h.raiseOnce))
  split
  · exact (h.setPwr.lowerOnce _ ‹_›).setPwr
  · exact h.setPwr.setPwr.ifThen fun h => h.postEvent

theorem Kept.equalise {m : CapMeas} {l : List (Fin 48)} {extra : Rat} {done : List (Fin 48)} : Kept o (equalise m l extra done s).1 := by
  induction l generalizing extra done s with
  | nil => exact h
  | cons cl l ih =>
    unfold Machine.equalise
    dsimp only
    split
    · exact ih h
    · split
      · exact ih h.modCpwr
      · exact ih h

theorem Kept.stragglers : Kept o (stragglers raised s) := h.forAll fun _ _ ht => ht.setCpwr.ifThen fun h => h.postEvent
theorem Kept.wearTick : Kept o (wearTick cl s) := h.ifElse fun h => .ite h.setCpwr.setPwr.postEvent h.setCpwr
theorem Kept.capInForce : Kept o (capInForce s) := h.forAll fun _ _ ht => ht.forAll fun _ _ ht => ht.finishDesc

theorem Kept.takeMeas : Kept o (takeMeas m s) := by
  unfold Machine.takeMeas
  dsimp only
  refine h.setPwr.forAll fun _ _ ht => ?_
  split
  · exact ht.modCpwr
  · exact ht

theorem Kept.execCapLoopTick : Answers o (execCapLoopTick m s) :=
  .ite h.next (.ite h.setPwr.next (h.takeMeas.capInForce.forAll fun _ _ ht =>
    ht.wearTick).applyPoints.capDecide.equalise.stragglers.surgeTick.rearm.next)

theorem Kept.execConverterLimit : Answers o (execConverterLimit current s) := .ite h.next h.setPwr.postEvent.next

theorem Kept.execConverterLimitRelease : Answers o (execConverterLimitRelease s) :=
  .ite h.next (h.setPwr.forAll fun _ _ ht => ht.ifElse fun h => h.setDom).next

theorem Kept.execDroopWarning : Answers o (execDroopWarning d depth s) :=
  .ite h.next (Kept.ite (h.setDom.setPwr.ifThen fun h => h.modCpwr.endSurge).ledgerAdd
    (h.setDom.setPwr.ifThen fun h => h.modCpwr.endSurge).postEvent).next

theorem Kept.execPaceLimiterRelease : Answers o (execPaceLimiterRelease d s) := by
  unfold Machine.execPaceLimiterRelease
  dsimp only
  split
  · exact (Kept.ite h.setDom h).next
  · exact h.next

theorem Kept.execRetentionFloorLoss : Answers o (execRetentionFloorLoss st s) := .ite h.next (h.forAll fun _ _ ht => ht.modCore).next

theorem Kept.coolCluster : Kept o (coolCluster cl s) :=
  .ite ((((Kept.ite h.endSurge h).modCpwr).ifThen fun h => h.postEvent).ifThen fun h => h.modCpwr)
    ((((Kept.ite h.endSurge h).modCpwr).ifThen fun h => h.postEvent).ifThen fun h => h.modCpwr)

theorem Kept.coolMem : Kept o (coolMem s) :=
  .ite (h.setPwr.ifThen fun h => h.setPwr.setGddr fun hc => hc.same.askRate)
    (h.setPwr.ifThen fun h => h.setPwr.setGddr fun hc => hc.same.askRate)

theorem Kept.coolLinks : Kept o (coolLinks hub s) := .ite (h.setPwr.forAll fun _ _ ht => ht.widthStep) (.ite h.setPwr.widenPorts h)

theorem Kept.coolAll : Kept o (coolAll s) := by
  unfold Machine.coolAll
  dsimp only
  split
  · exact h.setPwr.endSurges.applyDuty.ifElse fun h => h.postEvent
  · exact .ite h.setPwr.applyDuty h

theorem Kept.readSensors : Kept o (readSensors temps s) := h.forAll fun _ _ ht => ht.setDom

theorem Kept.execThermalPoll : Answers o (execThermalPoll temps s) :=
  .ite h.next (.ite h.readSensors.next (h.readSensors.forAll fun _ _ ht =>
    ht.coolCluster).coolMem.coolLinks.coolLinks.coolAll.applyPoints.next)

theorem Kept.reportDom {m : DomMeas} : Kept o (reportDom d m s) := h.setDom

theorem Kept.execDomainStatusTick : Answers o (execDomainStatusTick ms s) := by
  unfold Machine.execDomainStatusTick
  split
  · exact h.next
  · refine (h.forAll fun _ _ ht => ?_).next
    split
    · exact ht.reportDom
    · exact ht

theorem Kept.pwrCapDefaultWrite : Kept o (pwrCapDefaultWrite w s) := .ite h.setPwr h
theorem Kept.pwrCapLimitWrite : Kept o (pwrCapLimitWrite w s) := h.setPwr
theorem Kept.pwrStateCtrlWrite : Kept o (pwrStateCtrlWrite w s) := h.setPwr.applyPoints
theorem Kept.wakeCfgWrite : Kept o (wakeCfgWrite w s) := h.setPwr
theorem Kept.pwrVtSelWrite : Kept o (pwrVtSelWrite w s) := h.setPwr

end

/-! ### Power states -/

section
variable {o s : State} (h : Kept o s) {w : DescWord} {m : PwrMode} {cl : Fin 48} {st n : Nat} {go : DescCtx → State → State}
  {r : Fin 256} {c : Fin 384} {pt : Fin 16} {src bit : BitVec 3} {f : State → State}
include h

theorem Kept.powerTake : Kept o (powerTake w s) := h.setPwr
theorem Kept.enterMode : Kept o (enterMode m cl s) := h.ifElse fun h => h.modCpwr.modCpwr

theorem Kept.powerSet (hgo : ∀ a0 t, Kept o t → Kept o (go a0 t)) : Kept o (powerSet st go r n s) := by
  unfold Machine.powerSet
  split
  · exact h
  · split
    · exact h
    · split
      · exact h.finishDesc
      · exact hgo _ _ h

theorem Kept.execPowerSetCap : Answers o (execPowerSetCap r n s) :=
  (h.powerSet fun _ _ ht => .ite ht.powerTake.finishDesc ht.powerTake.issueDesc).next

theorem Kept.execPowerSetRun : Answers o (execPowerSetRun r n s) :=
  (h.powerSet fun _ _ ht => (ht.powerTake.forAll fun _ _ ht => ht.enterMode).rearm.finishDesc).next

theorem Kept.execPowerSetIdle : Answers o (execPowerSetIdle r n s) :=
  (h.powerSet fun _ _ ht => (ht.powerTake.forAll fun _ _ ht => ht.enterMode).rearm.finishDesc).next

theorem Kept.deferTo {c : DescCtx} : Kept o (deferTo r st c s) := h.setPwr.issueDesc
theorem Kept.execPowerSetDoze : Answers o (execPowerSetDoze r n s) := (h.powerSet fun _ _ ht => ht.deferTo).next
theorem Kept.execPowerSetSleep : Answers o (execPowerSetSleep r n s) := (h.powerSet fun _ _ ht => ht.deferTo).next

theorem Kept.execDomainStateEntry : Answers o (execDomainStateEntry s) := by
  unfold Machine.execDomainStateEntry
  split
  · exact h.next
  · refine .ite h.next (Kept.finishDesc ?_).next
    have taken {c : Option DescCtx} : Kept o (match c with
        | Option.some c => Machine.powerTake c.word (s.setPwr { s.pwr with deferral := Option.none })
        | Option.none => s.setPwr { s.pwr with deferral := Option.none }) := by
      split
      · exact h.setPwr.powerTake
      · exact h.setPwr
    exact .ite taken.setPwr (taken.forAll fun _ _ ht => ht.enterMode)

theorem Kept.execPowerDeferralExpiry : Answers o (execPowerDeferralExpiry s) := by
  unfold Machine.execPowerDeferralExpiry
  dsimp only
  split
  · exact h.next
  · split
    · exact h.next
    · exact .ite h.next h.setPwr.finishDesc.next

theorem Kept.execAutoIdle : Answers o (execAutoIdle cl s) := .ite h.modCpwr.next h.next
theorem Kept.execDozeWake : Answers o (execDozeWake cl s) := .ite h.modCpwr.next h.next
theorem Kept.darkPort : Kept o (darkPort pt s) := h.modPort
theorem Kept.goSleep : Kept o (goSleep s) := (h.forAll fun _ _ ht => ht.darkPort).setTime.setGddr.setPins.setPwr.rearm
theorem Kept.wakeUp : Kept o (wakeUp src s) := h.setPwr.setTime.setGddr.setPins.forAll fun _ _ ht => ht.modRing
theorem Kept.wakeFrom : Kept o (wakeFrom bit s) := .ite h.wakeUp (.ite h.setPwr h)
theorem Kept.execSleepEntry : Answers o (execSleepEntry s) := .ite h.next (h.goSleep.ifElse fun h => h.wakeUp).next
theorem Kept.linkWake : Kept o (linkWake s) := .ite h.wakeFrom h
theorem Kept.execPcieWake : Answers o (execPcieWake s) := h.linkWake.next
theorem Kept.hostAccess (hf : ∀ t, Kept o t → Kept o (f t)) : Kept o (hostAccess f s) := .ite h (hf _ h.linkWake)
theorem Kept.execWakeNAssert : Answers o (execWakeNAssert s) := (h.setPins.ifThen fun h => h.wakeFrom).next

end

/-! ### Registers -/

section
variable {o s : State} (h : Kept o s) {r : Fin 256} {f : Ring → Ring} {v : Dword} {w size n : Nat} {x : Word} {ch : Fin 50} {off : Half}
  {bar2 : Bool}
include h

theorem Kept.ringAddrWrite : Kept o (ringAddrWrite r f s) := .ite h.modRing h

theorem Kept.msixWrite {v : Fin 512} : Kept o (msixWrite v w x s) :=
  .ite h.setPcie (.ite h.setPcie (.ite h.setPcie (.ite h.setPcie h.unmaskVector)))

theorem Kept.tgFieldWrite {f : TrafficGen → TrafficGen} : Kept o (tgFieldWrite ch f s) := h.ifElse fun h => h.modChan

theorem Kept.regWrite {x : Reg} : Kept o (Reg.write v s x) := by
  unfold Reg.write
  dsimp only
  split
  · exact h.setBoot
  · exact h.setBoot
  · exact h.machBindWrite
  · exact h.machRouteWrite
  · exact h.setMach
  · exact h.ledgerSelect
  · exact h.setSec
  · exact h.debugCtrlWrite
  · exact h.pwrCapDefaultWrite
  · exact h.pwrCapLimitWrite
  · exact h.pwrStateCtrlWrite
  · exact h.wakeCfgWrite
  · exact h.pwrVtSelWrite
  · exact h.timeCtrlWrite
  · exact h.setTime
  · exact h.setTime
  · exact h.setTime
  · exact h.setTime
  · exact h.ifElse fun h => h.setEvt
  · exact h.evtCfgWrite
  · exact h.ifElse fun h => h.setEvt
  · exact h.setEvt
  · exact h.setPcie
  · exact h.ringAddrWrite
  · exact h.ringAddrWrite
  · exact h.ringAddrWrite
  · exact h.ringCfgWrite
  · exact h.modRing
  · exact h.modRing
  · exact h.ifElse fun h => h.portCfgWrite
  · exact h.ifElse fun h => h.sweepCtrlWrite
  · exact h.ifElse fun h => h.memCtrlWrite
  · exact h.ifElse fun h => h.modChan
  · exact h.tgCtrlWrite
  · exact h.ifElse fun h => h.tgFieldWrite
  · exact h.ifElse fun h => h.tgFieldWrite
  · exact h.msixWrite
  · exact h
  · exact h
  · exact h
  · exact h
  · exact h
  · exact h
  · exact h
  · exact h
  · exact h
  · exact h
  · exact h
  · exact h
  · exact h
  · exact h
  · exact h
  · exact h
  · exact h
  · exact h
  · exact h
  · exact h
  · exact h
  · exact h
  · exact h
  · exact h
  · exact h
  · exact h
  · exact h
  · exact h
  · exact h
  · exact h
  · exact h
  · exact h
  · exact h
  · exact h
  · exact h
  · exact h
  · exact h
  · exact h

theorem Kept.unstage {w : Nat} : Kept o (unstage w s) := h.setPcie

theorem Kept.write2 {w : Nat} {v : Half} : Kept o (write2 w v s) := by
  unfold Machine.write2
  split
  · exact .ite h.regWrite h
  · exact h

theorem Kept.write4 {w : Nat} {v : Word} : Kept o (write4 w v s) := by
  unfold Machine.write4
  dsimp only
  split
  · exact h
  · exact .ite h.write2.write2 (.ite h.regWrite (.ite h.unstage.setPcie h.unstage.regWrite))

theorem Kept.hostWrite {w : Nat} : Kept o (hostWrite w size v s) := by
  unfold Machine.hostWrite
  split
  · exact h
  · split
    · exact h.write2
    · split
      · exact h.write4
      · split
        · split
          · exact .ite h.unstage.regWrite h.write4.write4
          · exact h.write4
        · exact h

theorem Kept.execRegisterWrite : Answers o (execRegisterWrite off size v s) := (h.hostAccess fun _ ht => ht.hostWrite).next

theorem Kept.read4 {w : Nat} : Kept o (read4 w s).2 := by
  unfold Machine.read4
  dsimp only
  split
  · exact h.setPcie
  · split
    · exact h.setPcie
    · exact h

theorem Kept.hostRead {w : Nat} : Kept o (hostRead bar2 w size s) :=
  .ite h.setOut (.ite h.setOut (.ite h.read4.setOut (.ite h.setOut h.setOut)))

theorem Kept.execLowHalfRead : Answers o (execLowHalfRead bar2 off size s) := (h.hostAccess fun _ ht => ht.hostRead).next

theorem Kept.execStateReq : Answers o (execStateReq r n s) := by
  unfold Machine.execStateReq
  dsimp only
  split
  · exact h.next
  · split
    · exact h.finishDesc.next
    · exact (h.writeOut.endOrWait.fitTxns h).next

end

/-! ### Start-up and resets -/

section
variable {o s : State} (h : Kept o s) {old : Security} {slot usable modResetN perstN stuck : Bool} {freqErr : Half} {bad : BitVec 4}
  {lanes : List (Fin 12 × Fin 32 × Fin 17)} {e : StartupEnv} {cause : Byte} {w : Word} {st depth : Nat} {d : Fin 59} {c : Fin 384}
  {cl : Fin 48}
include h

theorem Kept.fallbackEntry : Kept o (fallbackEntry old slot s) := by
  unfold Machine.fallbackEntry
  split
  · exact h.ifElse fun h => h.ledgerAdd
  · exact h

theorem Kept.bootClerk : Kept o (bootClerk s) := by
  unfold Machine.bootClerk
  dsimp only
  split
  · exact (h.setSec fun hc => hc.chooseImage.bootedAs.blowMissing).setBoot.fallbackEntry.ledgerAdd
  · refine Kept.postEvent (Kept.setBoot (h.setSec fun hc => ?_))
    exact hc.chooseImage.same

theorem Kept.startTime : Kept o (startTime usable freqErr s) := h.setTime.setBoot

theorem Kept.formSeams : Kept o (formSeams bad lanes s) :=
  ((h.same.foldl fun _ _ ht => .ite ht.stackOut ht).ifThen fun h => h.setDegraded).setBoot

theorem Kept.startClustersUp {bad : BitVec 48} : Kept o (startClustersUp bad s) :=
  ((h.forAll fun _ _ ht => ht.modCluster.modCpwr.modCpwr).forAll fun _ _ ht => ht.clusterOut).setBoot

theorem Kept.trainMemory {fails : List PhyFail} : Kept o (trainMemory fails s) :=
  ((h.setGddr fun _ => ⟨rfl, rfl⟩).ifThen fun h => h.setDegraded).setBoot

theorem Kept.linkUp : Kept o (linkUp s) := h.ifElse fun h => h.setPcie.setPins.setBoot

theorem Kept.finishStart : Kept o (finishStart e s) :=
  .ite h.setPcie.setBoot.linkUp h.setPcie.formSeams.startClustersUp.trainMemory.setBoot.linkUp

theorem Kept.startOn : Kept o (startOn e s) := .ite h.setPins.rearm.bootClerk.startTime.finishStart h.setPins.rearm.bootClerk.setBoot

/-- A module reset keeps host memory and the flash images, and empties every other memory. -/
theorem Kept.wiped : Kept o (wiped s) := by
  refine h.change fun ⟨hh, _, _, ha, hb, _, _⟩ => ⟨hh, rfl, rfl, ha, hb, fun c => ?_, fun cl => ?_⟩
  · have hc : (Machine.wiped s).core c = keptSlices (s.core c) := by simp [Machine.wiped, State.core]
    rw [hc]
    exact Core.reset_memOk
  · have hk : (Machine.wiped s).sk cl = Stallkeeper.reset := by
      simp [Machine.wiped, State.sk, State.cluster, State.reset, Cluster.reset]
    rw [hk]
    exact ⟨rfl, rfl⟩

theorem Kept.aonUp : Kept o (aonUp cause e s) := h.setBoot
theorem Kept.fromStep2 : Kept o (fromStep2 e s) := .ite h.setBoot.startOn h.setBoot
theorem Kept.moduleReset : Kept o (moduleReset cause e s) := (h.endDebug.wiped.aonUp.ifThen fun h => h.postEvent).rearm.fromStep2

theorem Kept.lose48 : Kept o (lose48 s) :=
  h.endDebug.wiped.change fun ⟨hh, hm, hr, ha, hb, hs⟩ => ⟨hh, hm, hr, ha, hb, hs⟩

theorem Kept.execPowerOn48vGood : Answers o (execPowerOn48vGood e modResetN perstN s) := .ite h.next h.setPwr.setPins.aonUp.fromStep2.next
theorem Kept.execLossOf48v : Answers o (execLossOf48v s) := (Kept.ite h.lose48 h).next
theorem Kept.execModResetNAssert : Answers o (execModResetNAssert e s) := .ite h.next (.ite h.setPins.moduleReset.next h.setPins.next)
theorem Kept.execModResetNRelease : Answers o (execModResetNRelease e s) := .ite h.setPins.fromStep2.next h.setPins.next
theorem Kept.execPerstNAssert : Answers o (execPerstNAssert e s) := .ite h.setPins.moduleReset.next h.setPins.next
theorem Kept.execPerstNRelease : Answers o (execPerstNRelease s) := .ite h.setPins.linkUp.next h.setPins.next

theorem Kept.execRefWaitTimeout : Answers o (execRefWaitTimeout e s) := by
  unfold Machine.execRefWaitTimeout
  split
  · exact h.next
  · exact .ite h.startTime.finishStart.next h.next

theorem Kept.execRefRestored : Answers o (execRefRestored freqErr s) := .ite h.next (.ite h.setTime.next h.setTime.postEvent.next)
theorem Kept.execModCtrlReset : Answers o (execModCtrlReset w e s) := .ite h.moduleReset.next h.next
theorem Kept.execClerkWatchdog : Answers o (execClerkWatchdog e s) := .ite h.moduleReset.next h.next

theorem Kept.execThermalShutdown {d : Fin 59} {temp : Byte} : Answers o (execThermalShutdown d temp s) := by
  have off {s : State} (h : Kept o s) {b : Boot} {x : Pins} {y : Power} : Kept o { s with boot := b, pins := x, pwr := y } := h.same
  exact .ite h.next (off h.ledgerAdd.endDebug.wiped).setDom.rearm.next

theorem Kept.dropAccesses : Kept o (dropAccesses st s) := h.forAll fun _ _ ht => ht.modCore

theorem Kept.execDroopReset : Answers o (execDroopReset d depth stuck e s) :=
  .ite h.next (.ite h.postEvent.endSurge.clusterFails.next
    (.ite h.postEvent.dropAccesses.next (.ite h.postEvent.moduleReset.next h.postEvent.lose48.next)))

end

/-! ### Pins, SMBus, the debug port -/

section
variable {o s : State} (h : Kept o s) {cmd : Byte} {bs : List Byte} {w off : Half} {pecOk drive : Bool} {tdi ins seen : List Bool}
  {wr : Option Word} {e : StartupEnv} {c : Fin 384} {addr : Nat} {cl : Fin 48}
include h

theorem Kept.smbReply : Kept o (smbReply cmd bs s) := h.setOut
theorem Kept.smbBlock : Kept o (smbBlock cmd bs s) := h.smbReply
theorem Kept.execSmbIdent : Answers o (execSmbIdent s) := (Kept.ite h.smbBlock h).next
theorem Kept.execSmbStatus : Answers o (execSmbStatus s) := (Kept.ite h.smbBlock h).next
theorem Kept.execSmbTemp : Answers o (execSmbTemp s) := (Kept.ite h.smbReply h).next
theorem Kept.execSmbTill : Answers o (execSmbTill s) := (Kept.ite h.smbBlock h).next

theorem Kept.execLedgerNext : Answers o (execLedgerNext s) := by
  unfold Machine.execLedgerNext
  dsimp only
  split
  · exact h.next
  · split
    · exact h.smbBlock.next
    · exact h.setLedger.smbBlock.next

theorem Kept.execCapCeilingRead : Answers o (execCapCeilingRead s) := (Kept.ite h.smbReply h).next

theorem Kept.execCapCeilingWrite : Answers o (execCapCeilingWrite w pecOk s) :=
  .ite h.next (.ite h.setPins.next (.ite h.setPwr.next h.next))

theorem Kept.execSmbusWakeAddress : Answers o (execSmbusWakeAddress s) := (Kept.ite h.wakeFrom h).next
theorem Kept.execSmbusAlertResponse : Answers o (execSmbusAlertResponse s) := .ite h.next h.setPins.setOut.next
theorem Kept.scanOut {bs : List Bool} : Kept o (scanOut bs s) := h.same
theorem Kept.bypassed : Kept o (bypassed tdi s) := h.scanOut
theorem Kept.execIdcode : Answers o (execIdcode s) := (Kept.ite h.scanOut h).next
theorem Kept.execBypass {ir : Byte} : Answers o (execBypass ir tdi s) := (Kept.ite h.bypassed h).next
theorem Kept.boundaryScan : Kept o (boundaryScan ins seen drive s) := h.scanOut.setPins
theorem Kept.execSamplePreload : Answers o (execSamplePreload ins seen s) := (h.ifElse fun h => .ite h.bypassed h.boundaryScan).next
theorem Kept.execExtest : Answers o (execExtest ins seen s) := (h.ifElse fun h => .ite h.bypassed h.boundaryScan).next
theorem Kept.debugBypass : Kept o (debugBypass wr s) := h.bypassed
theorem Kept.debugBegin : Kept o (debugBegin s) := h.scanOut.setPins
theorem Kept.debugAnswer {w : Word} : Kept o (debugAnswer w s) := h.setOut

theorem Kept.execDebugRegisterAccess : Answers o (execDebugRegisterAccess off wr e s) := by
  unfold Machine.execDebugRegisterAccess
  split
  · exact h.next
  · split
    · exact h.debugBypass.next
    · split
      · exact .ite h.debugBegin.execModCtrlReset h.debugBegin.write4.next
      · exact h.debugBegin.read4.debugAnswer.next

theorem Kept.execDebugLocalStoreAccess : Answers o (execDebugLocalStoreAccess c addr wr s) := by
  unfold Machine.execDebugLocalStoreAccess
  split
  · exact h.next
  · split
    · exact h.debugBypass.next
    · split
      · exact (h.debugBegin.modCore fun _ hc => hc.lsWrite).next
      · exact h.debugBegin.debugAnswer.next

theorem Kept.execDebugStallkeeperAccess {addr : Word} {wr : Option Word} : Answers o (execDebugStallkeeperAccess cl addr wr s) := by
  refine .ite h.next (.ite h.debugBypass.next ?_)
  split
  · refine Kept.next ?_
    cases e : Machine.skWrite (Machine.debugBegin s) cl addr.toNat _ with
    | none => exact h.debugBypass
    | some t => exact h.debugBegin.skWrite t e
  · refine Kept.next ?_
    split
    · exact h.debugBegin.debugAnswer
    · exact h.debugBypass

end

/-! ### Starts of descriptors -/

section
variable {o s : State} (h : Kept o s) {r : Fin 256}
include h

theorem Kept.execDescriptorStart : Answers o (execDescriptorStart r s) := by
  unfold Machine.execDescriptorStart
  dsimp only
  split
  · exact h.next
  · split
    · exact h.next
    · split
      · exact .ite h.next h.takeNext.next
      · split
        · exact h.next
        · split
          · exact h.takeNext.next
          · exact h.takeNext.modCtx.next

end

end Sys2Proof.Machine
end

section
/-! PROOFS. Commands and steps as wholes. -/
namespace Sys2Proof.Machine
open Sys2Proof

/-! ### Every command -/

/-- Every command answers a next state that keeps what the state it acts on has. -/
theorem Kept.exec {o s : State} (h : Kept o s) (i : Instr) : Answers o (exec i s) := by
  cases i with
  | powerOn48vGood => exact h.execPowerOn48vGood
  | lossOf48v => exact h.execLossOf48v
  | modResetNAssert => exact h.execModResetNAssert
  | modResetNRelease => exact h.execModResetNRelease
  | perstNAssert => exact h.execPerstNAssert
  | perstNRelease => exact h.execPerstNRelease
  | refWaitTimeout => exact h.execRefWaitTimeout
  | smbIdent => exact h.execSmbIdent
  | smbStatus => exact h.execSmbStatus
  | smbTemp => exact h.execSmbTemp
  | smbTill => exact h.execSmbTill
  | ledgerNext => exact h.execLedgerNext
  | capCeilingRead => exact h.execCapCeilingRead
  | capCeilingWrite => exact h.execCapCeilingWrite
  | smbusWakeAddress => exact h.execSmbusWakeAddress
  | smbusAlertResponse => exact h.execSmbusAlertResponse
  | idcode => exact h.execIdcode
  | bypass ir => exact h.execBypass (ir := ir)
  | samplePreload => exact h.execSamplePreload
  | extest => exact h.execExtest
  | debugRegisterAccess => exact h.execDebugRegisterAccess
  | debugLocalStoreAccess => exact h.execDebugLocalStoreAccess
  | debugStallkeeperAccess => exact h.execDebugStallkeeperAccess
  | stationNop => exact h.execStationNop
  | stationAlu => exact h.execStationAlu
  | li => exact h.execLi
  | br => exact h.execBr
  | loopStn => exact h.execLoopStn
  | stationEnd => exact h.execStationEnd
  | trapStn => exact h.execTrapStn
  | flagsStn => exact h.execFlagsStn
  | joinStn => exact h.execJoinStn
  | quiesce => exact h.execQuiesce
  | raiseStn => exact h.execRaiseStn
  | notifyStn => exact h.execNotifyStn
  | copyInstruction => exact h.execCopyInstruction
  | vload => exact h.execVload
  | vstore => exact h.execVstore
  | sload => exact h.execSload
  | sstore => exact h.execSstore
  | arrayPass => exact h.execArrayPass
  | mv => exact h.execMv
  | vecAdd => exact h.execVecAdd
  | vecSubtract => exact h.execVecSubtract
  | vecMultiply => exact h.execVecMultiply
  | vecFma => exact h.execVecFma
  | vecMin => exact h.execVecMin
  | vecMax => exact h.execVecMax
  | vecCompare => exact h.execVecCompare
  | vecSelect => exact h.execVecSelect
  | vecConvert => exact h.execVecConvert
  | vecReciprocal => exact h.execVecReciprocal
  | vecRsqrt => exact h.execVecRsqrt
  | vecExp2 => exact h.execVecExp2
  | vecExp => exact h.execVecExp
  | vecReduce => exact h.execVecReduce
  | vecSoftmaxStep => exact h.execVecSoftmaxStep
  | xnetTranspose => exact h.execXnetTranspose
  | xnetHadamard => exact h.execXnetHadamard
  | xferSend => exact h.execXferSend
  | xferRecv => exact h.execXferRecv
  | unitStart => exact h.execUnitStart
  | passDrain => exact h.execPassDrain
  | biasPreload => exact h.execBiasPreload
  | instructionComplete => exact h.execInstructionComplete
  | localStorePortGrant => exact h.execLocalStorePortGrant
  | portRequestUrgent => exact h.execPortRequestUrgent
  | remoteTokenArrival => exact h.execRemoteTokenArrival
  | remoteCreditReturn => exact h.execRemoteCreditReturn
  | stationWatchdog => exact h.execStationWatchdog
  | skAlu => exact h.execSkAlu
  | addi => exact h.execAddi
  | andi => exact h.execAndi
  | ori => exact h.execOri
  | lui => exact h.execLui
  | lw => exact h.execLw
  | sw => exact h.execSw
  | beq => exact h.execBeq
  | bne => exact h.execBne
  | blt => exact h.execBlt
  | bge => exact h.execBge
  | bltu => exact h.execBltu
  | bgeu => exact h.execBgeu
  | jal => exact h.execJal
  | jr => exact h.execJr
  | csrr => exact h.execCsrr
  | csrw => exact h.execCsrw
  | skWait => exact h.execSkWait
  | waitWake => exact h.execWaitWake
  | cctlStart => exact h.execCctlStart
  | cctlHalt => exact h.execCctlHalt
  | cctlResume => exact h.execCctlResume
  | cctlReset => exact h.execCctlReset
  | cctlInject => exact h.execCctlInject
  | pcmd => exact h.execPcmd
  | ccmd => exact h.execCcmd
  | skEnd => exact h.execSkEnd
  | evtPop => exact h.execEvtPop
  | timerArm => exact h.execTimerArm
  | timerEvent => exact h.execTimerEvent
  | startCapture => exact h.execStartCapture
  | startLo => exact h.execStartLo
  | startHi => exact h.execStartHi
  | nowLo => exact h.execNowLo
  | stopCapture => exact h.execStopCapture
  | normSel => exact h.execNormSel
  | normFactor => exact h.execNormFactor
  | crierCountWrite => exact h.execCrierCountWrite
  | crierFire => exact h.execCrierFire
  | crierBroadcastComplete => exact h.execCrierBroadcastComplete
  | porterCommandStart => exact h.execPorterCommandStart
  | porterMove => exact h.execPorterMove
  | porterMove2d => exact h.execPorterMove2d
  | porterGather => exact h.execPorterGather
  | porterFill => exact h.execPorterFill
  | porterSignal => exact h.execPorterSignal
  | porterCommandComplete => exact h.execPorterCommandComplete
  | launchTimeout => exact h.execLaunchTimeout
  | launchForcedEnd => exact h.execLaunchForcedEnd
  | clusterLaunchEnd => exact h.execClusterLaunchEnd
  | launchComplete => exact h.execLaunchComplete
  | watchArm => exact h.execWatchArm
  | cntClear => exact h.execCntClear
  | vk1Replay => exact h.execVk1Replay
  | lsScrubRead => exact h.execLsScrubRead
  | rowRepair => exact h.execRowRepair
  | matReplacement => exact h.execMatReplacement
  | coreRetirement => exact h.execCoreRetirement
  | gddr7CommandIssue => exact h.execGddr7CommandIssue
  | gddr7RequestUrgent => exact h.execGddr7RequestUrgent
  | gddr7EdcRetry => exact h.execGddr7EdcRetry
  | gddr7ScrubRead => exact h.execGddr7ScrubRead
  | gddr7RateChange => exact h.execGddr7RateChange
  | tgStart => exact h.execTgStart
  | tgStop => exact h.execTgStop
  | tgClear => exact h.execTgClear
  | tgRunDone => exact h.execTgRunDone
  | memCntClear => exact h.execMemCntClear
  | pcieFlr => exact h.execPcieFlr
  | hotReset => exact h.execHotReset
  | pcieLinkLoss => exact h.execPcieLinkLoss
  | doorbellWatchTimer => exact h.execDoorbellWatchTimer
  | doorbellReadReturn => exact h.execDoorbellReadReturn
  | mirrorTailWrite => exact h.execMirrorTailWrite
  | descriptorFetchReturn => exact h.execDescriptorFetchReturn
  | descriptorStart => exact h.execDescriptorStart
  | ringUrgent => exact h.execRingUrgent
  | nopDesc => exact h.execNopDesc
  | fenceDesc => exact h.execFenceDesc
  | sessionOpen => exact h.execSessionOpen
  | sessionClose => exact h.execSessionClose
  | copyByteMode => exact h.execCopyByteMode
  | copyTensorMode => exact h.execCopyTensorMode
  | gatherDesc => exact h.execGatherDesc
  | fillDesc => exact h.execFillDesc
  | programLoad => exact h.execProgramLoad
  | launchDesc => exact h.execLaunchDesc
  | allReduce => exact h.execAllReduce
  | reduceScatter => exact h.execReduceScatter
  | allGather => exact h.execAllGather
  | broadcastColl => exact h.execBroadcastColl
  | pipelineSend => exact h.execPipelineSend
  | pipelineReceive => exact h.execPipelineReceive
  | barrierDesc => exact h.execBarrierDesc
  | updateStep => exact h.execUpdateStep
  | updateRun => exact h.execUpdateRun
  | normReduce => exact h.execNormReduce
  | digestDesc => exact h.execDigestDesc
  | exportShard => exact h.execExportShard
  | importShard => exact h.execImportShard
  | powerSetCap => exact h.execPowerSetCap
  | powerSetRun => exact h.execPowerSetRun
  | powerSetIdle => exact h.execPowerSetIdle
  | powerSetDoze => exact h.execPowerSetDoze
  | powerSetSleep => exact h.execPowerSetSleep
  | stateReq => exact h.execStateReq
  | fwChunk => exact h.execFwChunk
  | fwVerify => exact h.execFwVerify
  | fwActivate => exact h.execFwActivate
  | fwConfirm => exact h.execFwConfirm
  | diagReadCounters => exact h.execDiagReadCounters
  | diagWriteCounters => exact h.execDiagWriteCounters
  | diagMarginSweep => exact h.execDiagMarginSweep
  | diagResumeSweep => exact h.execDiagResumeSweep
  | timeMark => exact h.execTimeMark
  | completionRecordWrite => exact h.execCompletionRecordWrite
  | msixModerationExpiry => exact h.execMsixModerationExpiry
  | ringReset => exact h.execRingReset
  | ringResetComplete => exact h.execRingResetComplete
  | ringEnable => exact h.execRingEnable
  | ringDisable => exact h.execRingDisable
  | ringIdleDisable => exact h.execRingIdleDisable
  | eventRingEnable => exact h.execEventRingEnable
  | evtFullPoll => exact h.execEvtFullPoll
  | msixUnmask => exact h.execMsixUnmask
  | registerWrite => exact h.execRegisterWrite
  | lowHalfRead => exact h.execLowHalfRead
  | nonceDraw => exact h.execNonceDraw
  | nonceExpiry => exact h.execNonceExpiry
  | sessionIdleTimeout => exact h.execSessionIdleTimeout
  | lockoutExpiry => exact h.execLockoutExpiry
  | debugEnable => exact h.execDebugEnable
  | debugDisable => exact h.execDebugDisable
  | modCtrlReset => exact h.execModCtrlReset
  | clerkWatchdog => exact h.execClerkWatchdog
  | getVersion => exact h.execGetVersion
  | getCapabilities => exact h.execGetCapabilities
  | negotiateAlgorithms => exact h.execNegotiateAlgorithms
  | getDigests => exact h.execGetDigests
  | getCertificate => exact h.execGetCertificate
  | spdmChallenge => exact h.execSpdmChallenge
  | getMeasurements => exact h.execGetMeasurements
  | spdmUnsupportedRequest => exact h.execSpdmUnsupportedRequest
  | claimKeys => exact h.execClaimKeys
  | setSlot => exact h.execSetSlot
  | clearSlot => exact h.execClearSlot
  | setPolicy => exact h.execSetPolicy
  | releaseKeys => exact h.execReleaseKeys
  | idleFrame => exact h.execIdleFrame
  | quarantineEnd => exact h.execQuarantineEnd
  | crcFailedFrame => exact h.execCrcFailedFrame
  | replayTimer => exact h.execReplayTimer
  | writeMsg => exact h.execWriteMsg
  | readMsg => exact h.execReadMsg
  | writeDone => exact h.execWriteDone
  | readData => exact h.execReadData
  | rejectMsg => exact h.execRejectMsg
  | restartNotice => exact h.execRestartNotice
  | sweepReq => exact h.execSweepReq
  | sweepResult => exact h.execSweepResult
  | sweepHopTimeout => exact h.execSweepHopTimeout
  | stepOpen => exact h.execStepOpen
  | rsData => exact h.execRsData
  | agData => exact h.execAgData
  | bcData => exact h.execBcData
  | pipeReady => exact h.execPipeReady
  | pipeData => exact h.execPipeData
  | arriveMsg => exact h.execArriveMsg
  | normPart => exact h.execNormPart
  | collectiveRoundTimeout => exact h.execCollectiveRoundTimeout
  | normWaitTimeout => exact h.execNormWaitTimeout
  | reproofFrame => exact h.execReproofFrame
  | partnerSignalDetect => exact h.execPartnerSignalDetect
  | helloFrame => exact h.execHelloFrame
  | pingFrame => exact h.execPingFrame
  | echoFrame => exact h.execEchoFrame
  | certFrame => exact h.execCertFrame
  | certTimeout => exact h.execCertTimeout
  | joinFrame => exact h.execJoinFrame
  | retrainFrame => exact h.execRetrainFrame
  | retrainEcho => exact h.execRetrainEcho
  | laneFail => exact h.execLaneFail
  | retrainPatternDetect => exact h.execRetrainPatternDetect
  | retryAttempt => exact h.execRetryAttempt
  | retryExpiry => exact h.execRetryExpiry
  | transactionTimeout => exact h.execTransactionTimeout
  | frameForward => exact h.execFrameForward
  | routerFrameUrgent => exact h.execRouterFrameUrgent
  | machBind => exact h.execMachBind
  | machUnbind => exact h.execMachUnbind
  | unbindWaitEnd => exact h.execUnbindWaitEnd
  | routeLoad => exact h.execRouteLoad
  | routeMasksReady => exact h.execRouteMasksReady
  | portEnable => exact h.execPortEnable
  | portDisable => exact h.execPortDisable
  | portRetrain => exact h.execPortRetrain
  | rehaggle => exact h.execRehaggle
  | portCntClear => exact h.execPortCntClear
  | laneSweepStart => exact h.execLaneSweepStart
  | laneSweepDone => exact h.execLaneSweepDone
  | timeSyncSend => exact h.execTimeSyncSend
  | timeSync => exact h.execTimeSync
  | syncLost => exact h.execSyncLost
  | timeBeacon => exact h.execTimeBeacon
  | fifoPointerCheck => exact h.execFifoPointerCheck
  | refLost => exact h.execRefLost
  | refRestored => exact h.execRefRestored
  | timeLoad => exact h.execTimeLoad
  | capLoopTick => exact h.execCapLoopTick
  | domainStatusTick => exact h.execDomainStatusTick
  | surgeCheck => exact h.execSurgeCheck
  | converterLimit => exact h.execConverterLimit
  | converterLimitRelease => exact h.execConverterLimitRelease
  | thermalPoll => exact h.execThermalPoll
  | thermalShutdown => exact h.execThermalShutdown
  | droopWarning => exact h.execDroopWarning
  | paceLimiterRelease => exact h.execPaceLimiterRelease
  | droopReset => exact h.execDroopReset
  | retentionFloorLoss => exact h.execRetentionFloorLoss
  | autoIdle => exact h.execAutoIdle
  | dozeWake => exact h.execDozeWake
  | powerDeferralExpiry => exact h.execPowerDeferralExpiry
  | domainStateEntry => exact h.execDomainStateEntry
  | sleepEntry => exact h.execSleepEntry
  | pcieWake => exact h.execPcieWake
  | wakeNAssert => exact h.execWakeNAssert
  | clusterHeartbeatPoll => exact h.execClusterHeartbeatPoll
  | seamLaneFail => exact h.execSeamLaneFail
  | seamFlitReplay => exact h.execSeamFlitReplay
  | ledgerLoad => exact h.execLedgerLoad
  | ledgerFlush => exact h.execLedgerFlush
  | normFactorTimeout => exact h.execNormFactorTimeout

/-- Settles O6: no command writes the queue or the clock, and every command answers. -/
theorem everyCommandAnswersAndKeepsTheQueue : Obligations.EveryCommandAnswersAndKeepsTheQueue := by
  unfold Obligations.EveryCommandAnswersAndKeepsTheQueue
  intro c s
  obtain ⟨t, ht, hk⟩ := (Kept.refl s).exec c
  exact ⟨t, ht, hk.pending, hk.ns⟩

theorem State.idle_memOk {s : State} (h : s.memOk) : s.idle.memOk := State.memOk_of_eq h rfl rfl rfl rfl rfl rfl rfl

theorem State.popCmd_memOk {s : State} {l : List Instr} (h : s.memOk) : (s.popCmd l).memOk := State.memOk_of_eq h rfl rfl rfl rfl rfl rfl rfl

/-- Settles O5: the block idles, or a command keeps its memories canonical. -/
theorem everyStepKeepsMemoriesCanonical : Obligations.EveryStepKeepsMemoriesCanonical := by
  unfold Obligations.EveryStepKeepsMemoriesCanonical
  intro s t hs ht
  cases hp : s.pending with
  | nil =>
    obtain rfl := Host.Outcome.next.inj ((step_of_pending_nil hp).symm.trans ht)
    exact State.idle_memOk hs
  | cons c l =>
    obtain ⟨u, hu, hk⟩ := (Kept.refl (s.popCmd l)).exec c
    obtain rfl := Host.Outcome.next.inj (hu.symm.trans ((step_of_pending_cons hp).symm.trans ht))
    exact hk.memOk (State.popCmd_memOk hs)

end Sys2Proof.Machine
end

section
/-! PROOFS. What the clerk's decisions on power and heat leave as it is (R433 to R439, R444 to R446). -/
namespace Sys2Proof.Machine
open Sys2Proof

/-- Power but for what the decisions move: points and duties of the clusters, the note on surge, wear spent, the loop's counts, its
steps of links, and the responses of memory and links to heat. -/
def settledPower (p : Power) : Power :=
  { p with
    clusters := Power.reset.clusters, duty := 0, surgeBlock := 0, wearSpent := false, underTicks := 0, overTicks := 0,
    capUnreachable := false, linkStepped := false, memThermAt := 0, memThermDown := false, linkTherm := 0 }

/-- What the decisions leave: meters, caps, sensors and states of the module, GDDR7's contents, and the cores. -/
def steady (s : State) : Power × Memory × Vector Core 384 := (settledPower s.pwr, s.gddr.mem, s.cores)

section
variable {s t : State} (h : steady t = steady s)
include h

theorem settledPower_of_steady : settledPower t.pwr = settledPower s.pwr := congrArg Prod.fst h

theorem pwr_of_steady {α : Type} (f : Power → α) (hf : ∀ p, f (settledPower p) = f p) : f t.pwr = f s.pwr := by
  rw [← hf, settledPower_of_steady h, hf]

theorem dom_of_steady (d : Fin 59) : t.dom d = s.dom d := pwr_of_steady h (fun p => p.doms[d]) fun _ => rfl
theorem limit105_of_steady : t.pwr.limit105 = s.pwr.limit105 := pwr_of_steady h Power.limit105 fun _ => rfl
theorem mem_of_steady : t.gddr.mem = s.gddr.mem := congrArg (fun v => v.2.1) h
theorem cores_of_steady : t.cores = s.cores := congrArg (fun v => v.2.2) h

end

section
variable (s : State)

theorem steady_rearm : steady (rearm s) = steady s := rfl

theorem steady_postEvent (kind : Half) (sev : Nat) (source : Word) (data : List Byte) :
    steady (postEvent kind sev source data s) = steady s := by
  rw [show postEvent kind sev source data s = _ from postEvent_eventOnly kind sev source data s]
  rfl

theorem steady_finishDesc (r : Fin 256) (idx : Nat) (status : Byte) (detail : Half) (result : Dword) :
    steady (finishDesc r idx status detail result s) = steady s := by
  rw [finishDesc_eq]
  rfl

theorem steady_sendRetrains (pt : Fin 16) : steady (sendRetrains pt s) = steady s :=
  forAll_leaves steady _ _ _ fun _ _ => rfl

theorem steady_enterRetrain (pt : Fin 16) : steady (enterRetrain pt s) = steady s := by
  unfold enterRetrain
  split
  · rfl
  · exact steady_sendRetrains ..

theorem steady_widthStep (down : Bool) (pt : Fin 16) : steady (widthStep down pt s) = steady s := by
  unfold widthStep
  dsimp only
  split
  · rfl
  · split
    · split
      · exact steady_enterRetrain ..
      · rfl
    · split
      · exact steady_enterRetrain ..
      · rfl

theorem steady_widenPorts : steady (widenPorts s) = steady s := by
  refine forAll_leaves steady _ _ s fun p t => ?_
  split
  · rfl
  · exact steady_widthStep ..

/-! ### Points, duty and surge -/

theorem steady_applyPoints : steady (applyPoints s) = steady s := by
  refine (steady_rearm _).trans (forAll_leaves steady _ _ s fun cl t => ?_)
  split <;> rfl

theorem steady_applyDuty : steady (applyDuty s) = steady s :=
  (steady_rearm _).trans (forAll_leaves steady _ _ s fun _ _ => rfl)

theorem steady_endSurge (code : BitVec 3) (cl : Fin 48) : steady (endSurge code cl s) = steady s := by
  unfold endSurge
  split <;> rfl

theorem steady_endSurges (code : BitVec 3) : steady (endSurges code s) = steady s :=
  forAll_leaves steady _ _ s fun cl t => steady_endSurge t code cl

theorem steady_dropSurges : steady (dropSurges s) = steady s := by
  refine forAll_leaves steady _ _ s fun cl t => ?_
  split
  · rfl
  · split
    · exact steady_endSurge ..
    · split
      · exact steady_endSurge ..
      · rfl

theorem steady_grantSurges (l : List (Fin 48)) (power current : Rat) : steady (grantSurges l power current s) = steady s := by
  induction l generalizing power current s with
  | nil => rfl
  | cons cl l ih =>
    unfold grantSurges
    dsimp only
    split
    · exact ih ..
    · split
      · exact ih ..
      · split
        · rfl
        · exact ih ..

theorem steady_surgeTick (power current : Nat) : steady (surgeTick power current s) = steady s := by
  unfold surgeTick
  split
  · split
    · exact steady_endSurges ..
    · split <;> rfl
  · exact (steady_grantSurges ..).trans (steady_dropSurges s)

/-! ### The loop's steps -/

theorem steady_lowerPoints (n : Nat) (excess : Rat) : steady (lowerPoints n excess s) = steady s := by
  induction n generalizing excess s with
  | zero => rfl
  | succ n ih =>
    unfold lowerPoints
    split
    · rfl
    · dsimp only
      split
      · rfl
      · exact ih ..

theorem steady_lowerOnce {excess : Rat} {load : List Nat} {t : State} (h : lowerOnce excess load s = some t) : steady t = steady s := by
  unfold lowerOnce at h
  split at h
  · obtain rfl := Option.some.inj h
    exact steady_lowerPoints ..
  · split at h
    · obtain rfl := Option.some.inj h
      rfl
    · split at h
      · obtain rfl := Option.some.inj h
        exact forAll_leaves steady _ _ _ fun p t => steady_widthStep t true p
      · split at h
        · obtain rfl := Option.some.inj h
          exact steady_applyDuty _
        · cases h

theorem steady_raiseOnce : steady (raiseOnce s) = steady s := by
  unfold raiseOnce
  split
  · exact steady_applyDuty _
  · split
    · exact steady_widenPorts _
    · split
      · rfl
      · split
        · exact steady_applyPoints _
        · rfl

theorem steady_capDecide (m : CapMeas) : steady (capDecide m s) = steady s := by
  unfold capDecide
  extract_lets p cap fails excess low under s1
  split
  · rfl
  · split
    · split
      · next s2 h =>
        calc
          steady _ = steady s2 := rfl
          _ = steady s := steady_lowerOnce s1 h
      · split
        · exact steady_postEvent ..
        · rfl
    · split
      · exact steady_raiseOnce _
      · rfl

theorem steady_equalise (m : CapMeas) (l : List (Fin 48)) (extra : Rat) (done : List (Fin 48)) :
    steady (equalise m l extra done s).1 = steady s := by
  induction l generalizing extra done s with
  | nil => rfl
  | cons cl l ih =>
    unfold equalise
    dsimp only
    split
    · exact ih ..
    · split
      · exact ih ..
      · exact ih ..

theorem steady_stragglers (raised : List (Fin 48)) : steady (stragglers raised s) = steady s := by
  refine forAll_leaves steady _ _ s fun cl t => ?_
  extract_lets c n now t1
  split
  · exact steady_postEvent ..
  · rfl

theorem steady_wearTick (cl : Fin 48) : steady (wearTick cl s) = steady s := by
  unfold wearTick
  dsimp only
  split
  · rfl
  · split
    · exact steady_postEvent ..
    · rfl

theorem steady_capInForce : steady (capInForce s) = steady s :=
  forAll_leaves steady _ _ s fun _ _ => forAll_leaves steady _ _ _ fun _ _ => steady_finishDesc ..

/-! ### Heat -/

theorem steady_coolCluster (cl : Fin 48) : steady (coolCluster cl s) = steady s := by
  have ended : steady (if 760 ≤ clusterTemp s cl then endSurge 5 cl s else s) = steady s := by
    split
    · exact steady_endSurge ..
    · rfl
  have told {t : State} {c : Prop} [Decidable c] {x : List Byte} (h : steady t = steady s) :
      steady (if c then postEvent 0x0402 1 (src cl.val) x t else t) = steady s := by
    split
    · exact (steady_postEvent ..).trans h
    · exact h
  unfold coolCluster
  dsimp only
  split
  · split
    · exact told ended
    · exact told ended
  · split
    · exact told ended
    · exact told ended

theorem steady_coolMem : steady (coolMem s) = steady s := by
  unfold coolMem
  dsimp only
  split
  · split <;> rfl
  · split <;> rfl

theorem steady_coolLinks (hub : Nat) : steady (coolLinks hub s) = steady s := by
  unfold coolLinks
  extract_lets h mine hubBit
  split
  · exact forAll_leaves steady _ _ _ fun p t => steady_widthStep t true p
  · split
    · exact steady_widenPorts _
    · rfl

end

end Sys2Proof.Machine
end

section
/-! PROOFS. Surge, the cap loop's tick and the converter limit (R424, R428, R432, R433, R437, R439). -/
namespace Sys2Proof.Machine
open Sys2Proof

/-! ### Points and surge -/

theorem setCpwr_cpwr_eq (s : State) (cl d : Fin 48) (x : ClusterPower) : (s.setCpwr cl x).cpwr d = if d = cl then x else s.cpwr d := by
  split
  · next h => rw [h, State.setCpwr_cpwr]
  · next h => exact setCpwr_cpwr_other h s x

theorem modCpwr_cpwr (s : State) (cl : Fin 48) (f : ClusterPower → ClusterPower) : (modCpwr cl f s).cpwr cl = f (s.cpwr cl) :=
  State.setCpwr_cpwr ..

theorem noteBlock_cpwr (code : BitVec 3) (s : State) (cl : Fin 48) : (noteBlock code s).cpwr cl = s.cpwr cl := rfl

/-- A cluster holds OP14 at most (R431, R458). -/
theorem pointOf_ne_surge (s : State) (cl : Fin 48) : pointOf s cl ≠ 15 := by
  unfold pointOf heldPoint requestOf
  split <;> omega

theorem surging_iff (s : State) : surging s = true ↔ ∃ cl, (s.cpwr cl).op = 15 := by simp [surging]

theorem endSurge_op_ne (code : BitVec 3) (cl : Fin 48) (s : State) : ((endSurge code cl s).cpwr cl).op ≠ 15 := by
  unfold endSurge
  split
  · assumption
  · rw [noteBlock_cpwr, modCpwr_cpwr]
    exact pointOf_ne_surge s cl

theorem endSurge_cpwr_other (code : BitVec 3) {cl d : Fin 48} (h : d ≠ cl) (s : State) : (endSurge code cl s).cpwr d = s.cpwr d := by
  unfold endSurge
  split
  · rfl
  · exact setCpwr_cpwr_other h s _

/-- No cluster is at OP15 where every surge has ended. -/
theorem endSurges_op_ne (code : BitVec 3) (s : State) (cl : Fin 48) : ((endSurges code s).cpwr cl).op ≠ 15 :=
  forAll_establishes (fun t => (t.cpwr cl).op ≠ 15) _ _ cl s (List.mem_finRange cl) (fun t => endSurge_op_ne code cl t)
    fun b t hb ht => by rwa [endSurge_cpwr_other code hb.symm]

/-! ### The check of surge (R437) -/

/-- The energies of the parts of the current millisecond, with a check's own. -/
def checkedParts (p : Nat) (s : State) : List Nat := (p / 10 :: s.pwr.part).take 10

/-- Ten times the energy of the trailing 100 ms at a check: the oldest sample counts for what is left of it. -/
def tenfoldEnergy (p : Nat) (s : State) : Nat :=
  10 * ((checkedParts p s).foldl (· + ·) 0 + (s.pwr.samples.take 99).foldl (· + ·) 0)
    + (s.pwr.samples.drop 99).headD 0 * (10 - (checkedParts p s).length)

theorem checkedParts_length_le (p : Nat) (s : State) : (checkedParts p s).length ≤ 10 := by
  simp only [checkedParts, List.length_take]
  omega

/-- The comparison of the check, without fractions. -/
theorem energy_bar_iff {cap new old n : Nat} (hn : n ≤ 10) :
    (((100000 * cap : Nat) : Rat) ≤ (new : Rat) + (old : Rat) * (10 - (n : Rat)) / 10) ↔ 1000000 * cap ≤ 10 * new + old * (10 - n) := by
  rw [← Nat.cast_le (α := Rat)]
  push_cast [Nat.cast_sub hn]
  constructor <;> intro h <;> linarith

section
variable {s : State} {p a : Nat}

theorem surgeCheck_idle (h : ∀ cl, (s.cpwr cl).op ≠ 15) : exec (.surgeCheck p a) s = .next s := by
  have hs : surging s = false := by
    rw [Bool.eq_false_iff, ne_eq, surging_iff]
    exact fun ⟨cl, hcl⟩ => h cl hcl
  show execSurgeCheck p a s = _
  simp [execSurgeCheck, hs]

theorem surgeCheck_surging (h : ∃ cl, (s.cpwr cl).op = 15) : exec (.surgeCheck p a) s =
    (if 1000000 * s.pwr.capForce.toNat ≤ tenfoldEnergy p s then .next (endSurges 3 (s.setPwr { s.pwr with part := checkedParts p s }))
    else if 3400000 < p || 44000 < a then .next (endSurges 4 (s.setPwr { s.pwr with part := checkedParts p s }))
    else .next (s.setPwr { s.pwr with part := checkedParts p s })) := by
  have hs : surging s = true := (surging_iff s).2 h
  show execSurgeCheck p a s = _
  rw [execSurgeCheck, if_neg (by simp [hs])]
  exact if_congr (energy_bar_iff (checkedParts_length_le p s)) rfl rfl

end

/-! ### The tick (R428, R432, R433) -/

/-- The power a tick's decisions begin from: the meter, the sample, and the cap in force. -/
def meteredPower (m : CapMeas) (s : State) : Power :=
  { s.pwr with
    till := s.pwr.till + BitVec.ofNat 64 m.energy, samples := (m.energy :: s.pwr.samples).take 100,
    surgeMs := (surging s :: s.pwr.surgeMs).take 100, part := [], coreCurrent := m.current, capForce := capNow s.pwr }

theorem steady_takeMeas (m : CapMeas) (s : State) : steady (takeMeas m s) = steady (s.setPwr (meteredPower m s)) := by
  refine forAll_leaves steady _ _ _ fun cl t => ?_
  split <;> rfl

/-- The state that a tick's decisions leave. -/
def decided (m : CapMeas) (s : State) : State :=
  let s1 := capDecide m (applyPoints (forAll (List.finRange 48) wearTick (capInForce (takeMeas m s))))
  let y := equalise m (List.finRange 48) 0 [] s1
  rearm (surgeTick m.energy m.current (stragglers y.2 y.1))

/-- A tick leaves its meters and the cap in force as it took them. -/
theorem steady_decided (m : CapMeas) (s : State) : steady (decided m s) = steady (s.setPwr (meteredPower m s)) := by
  unfold decided
  dsimp only
  rw [steady_rearm, steady_surgeTick, steady_stragglers, steady_equalise, steady_capDecide, steady_applyPoints,
    forAll_leaves steady _ _ _ fun cl t => steady_wearTick t cl, steady_capInForce, steady_takeMeas]

theorem capLoopTick_eq (m : CapMeas) (s : State) (hv : s.pwr.v48 = true) (hm : s.pwr.mstate = 0) (h9 : 9 ≤ s.boot.step.toNat)
    (hr : s.boot.recovery = false) : exec (.capLoopTick m) s = .next (decided m s) := by
  show execCapLoopTick m s = _
  rw [execCapLoopTick, if_neg (by simp [hv]), if_neg (by simp [hm, hr, h9])]
  rfl

theorem capNow_eq (p : Power) : capNow p = if p.ceiling ≠ 0 ∧ p.ceiling < p.hostCap then p.ceiling else p.hostCap := by simp [capNow]

theorem capLoopTick_measures (m : CapMeas) (s : State) (hv : s.pwr.v48 = true) (hm : s.pwr.mstate = 0) (h9 : 9 ≤ s.boot.step.toNat)
    (hr : s.boot.recovery = false) :
    ∃ t, exec (.capLoopTick m) s = .next t ∧ t.pwr.till = s.pwr.till + BitVec.ofNat 64 m.energy
      ∧ t.pwr.samples = (m.energy :: s.pwr.samples).take 100 ∧ t.pwr.coreCurrent = m.current ∧ t.pwr.hostCap = s.pwr.hostCap
      ∧ t.pwr.capForce = (if s.pwr.ceiling ≠ 0 ∧ s.pwr.ceiling < s.pwr.hostCap then s.pwr.ceiling else s.pwr.hostCap)
      ∧ t.gddr.mem = s.gddr.mem ∧ (∀ c, (t.core c).ls = (s.core c).ls) := by
  have h := steady_decided m s
  have pwr {α : Type} (f : Power → α) (hf : ∀ p, f (settledPower p) = f p) : f (decided m s).pwr = f (meteredPower m s) :=
    pwr_of_steady h f hf
  refine ⟨_, capLoopTick_eq m s hv hm h9 hr, pwr _ fun _ => rfl, pwr _ fun _ => rfl, pwr _ fun _ => rfl, pwr _ fun _ => rfl,
    ?_, (mem_of_steady h :), fun c => ?_⟩
  · exact (pwr Power.capForce fun _ => rfl).trans (capNow_eq s.pwr)
  · exact congrArg (fun v : Vector Core 384 => v[c].ls) (cores_of_steady h :)

theorem capLoopTick_asleep (m : CapMeas) (s : State) (hv : s.pwr.v48 = true)
    (h : s.pwr.mstate ≠ 0 ∨ s.boot.step.toNat < 9 ∨ s.boot.recovery = true) :
    exec (.capLoopTick m) s = .next (s.setPwr { s.pwr with till := s.pwr.till + BitVec.ofNat 64 m.energy }) := by
  show execCapLoopTick m s = _
  rw [execCapLoopTick, if_neg (by simp [hv]), if_pos (by simpa [or_assoc] using h)]

/-! ### The converter limit (R424) -/

theorem converterLimit_engages (a : Nat) (s : State) (hv : s.pwr.v48 = true) (ha : 36000 < a) :
    ∃ t, exec (.converterLimit a) s = .next t ∧ t.pwr.conv = true ∧ t.pwr = { s.pwr with conv := true } ∧ t.cores = s.cores := by
  refine ⟨postEvent 0x0406 2 0 (leBytes (a / 10) 2) (s.setPwr { s.pwr with conv := true }), ?_, ?_⟩
  · show execConverterLimit a s = _
    rw [execConverterLimit, if_neg (by simp [hv, ha])]
  · rw [show postEvent _ _ _ _ _ = _ from postEvent_eventOnly ..]
    exact ⟨rfl, rfl, rfl⟩

theorem setDom_dom_other {d e : Fin 59} (h : e ≠ d) (s : State) (x : Domain) : (s.setDom d x).dom e = s.dom e := by
  have hv : d.val ≠ e.val := fun h' => h (Fin.ext h'.symm)
  simp [State.setDom, State.dom, hv]

theorem clusterDom_injective {b cl : Fin 48} (h : b ≠ cl) : (ix 59 cl.val : Fin 59) ≠ ix 59 b.val := by
  intro e
  have hv := congrArg Fin.val e
  simp only [ix, Fin.val_ofNat] at hv
  omega

/-- The release of one cluster's limiter that no droop holds. -/
def releaseLimiter (cl : Fin 48) (t : State) : State :=
  if (t.dom (ix 59 cl.val)).engaged then t else t.setDom (ix 59 cl.val) { t.dom (ix 59 cl.val) with limitUntil := some t.ns }

theorem converterLimitRelease_eq (s : State) (hc : s.pwr.conv = true) : exec .converterLimitRelease s =
    .next (forAll (List.finRange 48) releaseLimiter (s.setPwr { s.pwr with conv := false })) := by
  show execConverterLimitRelease s = _
  rw [execConverterLimitRelease, if_neg (by simp [hc])]
  rfl

theorem releaseLimiter_other {b : Fin 48} {d : Fin 59} (h : d ≠ ix 59 b.val) (t : State) : (releaseLimiter b t).dom d = t.dom d := by
  unfold releaseLimiter
  split
  · rfl
  · exact setDom_dom_other h t _

theorem releaseLimiter_conv (b : Fin 48) (t : State) : (releaseLimiter b t).pwr.conv = t.pwr.conv := by
  unfold releaseLimiter
  split <;> rfl

theorem releaseLimiter_ns (b : Fin 48) (t : State) : (releaseLimiter b t).ns = t.ns := by
  unfold releaseLimiter
  split <;> rfl

theorem releaseLimiter_limitUntil (cl : Fin 48) (t : State) : ((releaseLimiter cl t).dom (ix 59 cl.val)).limitUntil =
    if (t.dom (ix 59 cl.val)).engaged then (t.dom (ix 59 cl.val)).limitUntil else some t.ns := by
  unfold releaseLimiter
  split
  · rfl
  · rw [State.setDom_dom]

theorem releaseLimiters_limitUntil (cl : Fin 48) (s : State) :
    ((forAll (List.finRange 48) releaseLimiter s).dom (ix 59 cl.val)).limitUntil =
      if (s.dom (ix 59 cl.val)).engaged then (s.dom (ix 59 cl.val)).limitUntil else some s.ns := by
  refine forAll_turns (P := fun t => t.ns = s.ns ∧ t.dom (ix 59 cl.val) = s.dom (ix 59 cl.val))
    (Q := fun t => (t.dom (ix 59 cl.val)).limitUntil =
      if (s.dom (ix 59 cl.val)).engaged then (s.dom (ix 59 cl.val)).limitUntil else some s.ns)
    (List.nodup_finRange 48) (List.mem_finRange cl) ?_ ?_ ?_ ⟨rfl, rfl⟩
  · rintro t ⟨hn, hd⟩
    rw [releaseLimiter_limitUntil, hd, hn]
  · rintro b t hb ⟨hn, hd⟩
    exact ⟨(releaseLimiter_ns b t).trans hn, (releaseLimiter_other (clusterDom_injective hb) t).trans hd⟩
  · intro b t hb ht
    rwa [releaseLimiter_other (clusterDom_injective hb)]

theorem converterLimitRelease_releases (s : State) (hc : s.pwr.conv = true) :
    ∃ t, exec .converterLimitRelease s = .next t ∧ t.pwr.conv = false ∧ ∀ cl : Fin 48, (t.dom (ix 59 cl.val)).limitUntil =
      (if (s.dom (ix 59 cl.val)).engaged then (s.dom (ix 59 cl.val)).limitUntil else some s.ns) :=
  ⟨_, converterLimitRelease_eq s hc, forAll_leaves (fun t => t.pwr.conv) _ _ _ releaseLimiter_conv,
    fun cl => releaseLimiters_limitUntil cl (s.setPwr _)⟩

/-- Settles O51: each clause by the lemma on its command. -/
theorem theCapLoopMeasures : Obligations.TheCapLoopMeasures := by
  unfold Obligations.TheCapLoopMeasures
  refine fun s => ⟨fun m hv => ?unpowered, fun m => capLoopTick_measures m s, fun m => capLoopTick_asleep m s, fun p a => surgeCheck_idle,
    fun p a hs hbar => ?barred, fun p a hs hp ha => ?within, fun a h => ?below, fun hc => ?unlimited, fun a => converterLimit_engages a s,
    converterLimitRelease_releases s⟩
  case unpowered =>
    show execCapLoopTick m s = _
    simp [execCapLoopTick, hv]
  case barred =>
    rw [surgeCheck_surging hs]
    split
    · exact ⟨_, rfl, endSurges_op_ne 3 _⟩
    · rw [if_pos (by simpa using hbar)]
      exact ⟨_, rfl, endSurges_op_ne 4 _⟩
  case within =>
    rw [surgeCheck_surging hs]
    refine ⟨fun hlow => ?_, fun hbar => ?_⟩
    · have hlow : ¬1000000 * s.pwr.capForce.toNat ≤ tenfoldEnergy p s := Nat.not_le.2 hlow
      rw [if_neg hlow, if_neg (by simp [hp, ha])]
      rfl
    · have hbar : 1000000 * s.pwr.capForce.toNat ≤ tenfoldEnergy p s := hbar
      rw [if_pos hbar]
      exact ⟨_, rfl, pwr_of_steady (steady_endSurges _ 3) Power.part fun _ => rfl, endSurges_op_ne 3 _⟩
  case below =>
    show execConverterLimit a s = _
    rw [execConverterLimit, if_pos]
    simpa [or_comm] using h
  case unlimited =>
    show execConverterLimitRelease s = _
    simp [execConverterLimitRelease, hc]

end Sys2Proof.Machine
end

section
/-! PROOFS. Heat: thermal polls and thermal shutdown (R446, R447). -/
namespace Sys2Proof.Machine
open Sys2Proof

/-- What one member's action makes of a view of the state, and no other member touches, is made of it once. -/
theorem forAll_once {α β : Type} [DecidableEq α] {l : List α} (hl : l.Nodup) {f : α → State → State} {a : α} (ha : a ∈ l)
    (v : State → β) (g : β → β) (here : ∀ t, v (f a t) = g (v t)) (other : ∀ b t, b ≠ a → v (f b t) = v t) (s : State) :
    v (forAll l f s) = g (v s) :=
  forAll_turns (P := fun t => v t = v s) (Q := fun t => v t = g (v s)) hl ha (fun t ht => by rw [here, ht])
    (fun b t hb ht => (other b t hb).trans ht) (fun b t hb ht => (other b t hb).trans ht) rfl

/-! ### Points and duty -/

theorem rearm_cpwr (s : State) (cl : Fin 48) : (rearm s).cpwr cl = s.cpwr cl := rfl

theorem applyDuty_eq (s : State) : applyDuty s = rearm (forAll (List.finRange 48)
    (fun cl => modCpwr cl fun c => { c with duty := if s.pwr.limit105 then 10 else s.pwr.duty }) s) := rfl

theorem applyDuty_cpwr (s : State) (cl : Fin 48) :
    (applyDuty s).cpwr cl = { s.cpwr cl with duty := if s.pwr.limit105 then 10 else s.pwr.duty } := by
  rw [applyDuty_eq, rearm_cpwr]
  exact forAll_once (List.nodup_finRange 48) (List.mem_finRange cl) (fun t => t.cpwr cl)
    (fun c => { c with duty := if s.pwr.limit105 then 10 else s.pwr.duty })
    (fun _ => State.setCpwr_cpwr ..) (fun _ t hb => setCpwr_cpwr_other hb.symm t _) s

theorem applyDuty_duty (s : State) (cl : Fin 48) : ((applyDuty s).cpwr cl).duty = if s.pwr.limit105 then 10 else s.pwr.duty := by
  rw [applyDuty_cpwr]

theorem applyDuty_op (s : State) (cl : Fin 48) : ((applyDuty s).cpwr cl).op = (s.cpwr cl).op := by
  rw [applyDuty_cpwr]

/-- One cluster not in surge takes the point it holds. -/
def takePoint (cl : Fin 48) (t : State) : State := if (t.cpwr cl).op = 15 then t else t.setCpwr cl { t.cpwr cl with op := pointOf t cl }

theorem applyPoints_eq (s : State) : applyPoints s = rearm (forAll (List.finRange 48) takePoint s) := rfl

theorem takePoint_keeps {t : State} {cl : Fin 48} {n : Nat} (b : Fin 48) (h : (t.cpwr cl).duty = n ∧ (t.cpwr cl).op ≠ 15) :
    ((takePoint b t).cpwr cl).duty = n ∧ ((takePoint b t).cpwr cl).op ≠ 15 := by
  unfold takePoint
  split
  · exact h
  · rw [setCpwr_cpwr_eq]
    split
    · next e => exact ⟨e ▸ h.1, pointOf_ne_surge t b⟩
    · exact h

/-- Taking the points it holds changes no cluster's duty and brings none to OP15. -/
theorem applyPoints_keeps {s : State} {cl : Fin 48} {n : Nat} (h : (s.cpwr cl).duty = n ∧ (s.cpwr cl).op ≠ 15) :
    ((applyPoints s).cpwr cl).duty = n ∧ ((applyPoints s).cpwr cl).op ≠ 15 := by
  rw [applyPoints_eq, rearm_cpwr]
  exact forAll_keeps (fun t => (t.cpwr cl).duty = n ∧ (t.cpwr cl).op ≠ 15) _ _ s (fun b _ _ ht => takePoint_keeps b ht) h

/-! ### Sensors -/

theorem readSensors_pwr (temps : List Int) (s : State) :
    (readSensors temps s).pwr = { s.pwr with doms := (readSensors temps s).pwr.doms } :=
  forAll_keeps (fun t => t.pwr = { s.pwr with doms := t.pwr.doms }) _ _ s (fun d _ t ht => by rw [State.setDom, ht]; rfl) rfl

theorem readSensors_cores (temps : List Int) (s : State) : (readSensors temps s).cores = s.cores :=
  forAll_leaves State.cores _ _ s fun _ _ => rfl

theorem readSensors_pins (temps : List Int) (s : State) : (readSensors temps s).pins = s.pins :=
  forAll_leaves State.pins _ _ s fun _ _ => rfl

theorem readSensors_dom (temps : List Int) (s : State) (d : Fin 59) :
    (readSensors temps s).dom d = { s.dom d with sensor := temps.getD d.val (s.dom d).sensor } :=
  forAll_once (List.nodup_finRange 59) (List.mem_finRange d) (fun t => t.dom d)
    (fun x => { x with sensor := temps.getD d.val x.sensor }) (fun _ => State.setDom_dom ..) (fun _ t hb => setDom_dom_other hb.symm t _) s

/-! ### 105 °C anywhere -/

/-- The state in which 105 °C anywhere has ended every surge. -/
def surgesStopped (s : State) : State := endSurges 5 (s.setPwr { s.pwr with limit105 := true })

theorem steady_surgesStopped (s : State) : steady (surgesStopped s) = steady (s.setPwr { s.pwr with limit105 := true }) :=
  steady_endSurges _ 5

theorem surgesStopped_limit105 (s : State) : (surgesStopped s).pwr.limit105 = true := by
  rw [limit105_of_steady (steady_surgesStopped s), State.setPwr_pwr]

theorem surgesStopped_op_ne (s : State) (cl : Fin 48) : ((surgesStopped s).cpwr cl).op ≠ 15 :=
  endSurges_op_ne 5 (s.setPwr { s.pwr with limit105 := true }) cl

/-- Then every duty is limited. -/
def dutyLimited (s : State) : State := applyDuty (surgesStopped s)

theorem dutyLimited_dom (s : State) (d : Fin 59) : (dutyLimited s).dom d = s.dom d := by
  rw [dutyLimited, dom_of_steady (steady_applyDuty (surgesStopped s)), dom_of_steady (steady_surgesStopped s)]
  rfl

theorem dutyLimited_limits (s : State) :
    (dutyLimited s).pwr.limit105 = true ∧ ∀ cl, ((dutyLimited s).cpwr cl).duty = 10 ∧ ((dutyLimited s).cpwr cl).op ≠ 15 := by
  refine ⟨?_, fun cl => ?_⟩
  · rw [dutyLimited, limit105_of_steady (steady_applyDuty (surgesStopped s)), surgesStopped_limit105]
  · rw [dutyLimited, applyDuty_duty, applyDuty_op, surgesStopped_limit105]
    exact ⟨rfl, surgesStopped_op_ne s cl⟩

theorem coolAll_hot {s : State} (h : ∃ d : Fin 59, 840 ≤ (s.dom d).sensor) :
    coolAll s = dutyLimited s ∨ ∃ source data, coolAll s = postEvent 0x0403 2 source data (dutyLimited s) := by
  unfold coolAll
  dsimp only
  split
  · split
    · exact .inl rfl
    · exact .inr ⟨_, _, rfl⟩
  · next hn =>
    obtain ⟨d, hd⟩ := h
    exact absurd hd (by simpa using List.find?_eq_none.1 hn d (List.mem_finRange d))

theorem coolAll_below {s : State} (h : ∀ d : Fin 59, (s.dom d).sensor < 840) :
    coolAll s = (if s.pwr.limit105 && (List.finRange 59).all fun d => (s.dom d).sensor < 800
      then applyDuty (s.setPwr { s.pwr with limit105 := false }) else s) := by
  unfold coolAll
  dsimp only
  split
  · next d hd => exact absurd (List.find?_some hd) (by simpa using h d)
  · rfl

theorem postEvent_pwr_eq (kind : Half) (sev : Nat) (source : Word) (data : List Byte) (s : State) :
    (postEvent kind sev source data s).pwr = s.pwr := by
  rw [show postEvent kind sev source data s = _ from postEvent_eventOnly kind sev source data s]

theorem coolAll_limits {s : State} (h : ∃ d : Fin 59, 840 ≤ (s.dom d).sensor) :
    (coolAll s).pwr.limit105 = true ∧ ∀ cl, ((coolAll s).cpwr cl).duty = 10 ∧ ((coolAll s).cpwr cl).op ≠ 15 := by
  obtain e | ⟨source, data, e⟩ := coolAll_hot h
  · rw [e]
    exact dutyLimited_limits s
  · rw [e]
    simp only [State.cpwr, postEvent_pwr_eq]
    exact dutyLimited_limits s

theorem coolAll_released {s : State} (h : s.pwr.limit105 = true) (hd : ∀ d : Fin 59, (s.dom d).sensor < 800) :
    (coolAll s).pwr.limit105 = false := by
  rw [coolAll_below fun d => (hd d).trans (by decide), if_pos (by simpa [h] using hd)]
  exact limit105_of_steady (steady_applyDuty _)

theorem coolAll_dom (s : State) (d : Fin 59) : (coolAll s).dom d = s.dom d := by
  by_cases h : ∃ d : Fin 59, 840 ≤ (s.dom d).sensor
  · obtain e | ⟨source, data, e⟩ := coolAll_hot h
    · rw [e, dutyLimited_dom]
    · rw [e, State.dom, postEvent_pwr_eq]
      exact dutyLimited_dom s d
  · rw [coolAll_below fun d => not_le.1 fun hd => h ⟨d, hd⟩]
    split
    · exact dom_of_steady (steady_applyDuty (s.setPwr { s.pwr with limit105 := false })) d
    · rfl

/-! ### A poll (R446) -/

/-- The state of a poll before its response at 105 °C: the sensors read, the clusters, memory and links answering theirs. -/
def cooledParts (temps : List Int) (s : State) : State :=
  coolLinks 1 (coolLinks 0 (coolMem (forAll (List.finRange 48) coolCluster (readSensors temps s))))

theorem steady_cooledParts (temps : List Int) (s : State) : steady (cooledParts temps s) = steady (readSensors temps s) := by
  rw [cooledParts, steady_coolLinks, steady_coolLinks, steady_coolMem, forAll_leaves steady _ _ _ fun cl t => steady_coolCluster t cl]

theorem thermalPoll_eq {s : State} (temps : List Int) (hv : s.pwr.v48 = true) (hm : s.pwr.mstate = 0) (h6 : 6 ≤ s.boot.step.toNat) :
    exec (.thermalPoll temps) s = .next (applyPoints (coolAll (cooledParts temps s))) := by
  show execThermalPoll temps s = _
  rw [execThermalPoll, if_neg (by simp [hv, hm]), if_neg (by simp [hm, h6])]
  rfl

theorem cooledParts_sensor (temps : List Int) (s : State) (d : Fin 59) :
    ((cooledParts temps s).dom d).sensor = temps.getD d.val (s.dom d).sensor := by
  rw [dom_of_steady (steady_cooledParts temps s), readSensors_dom]

theorem cooledParts_limit105 (temps : List Int) (s : State) : (cooledParts temps s).pwr.limit105 = s.pwr.limit105 := by
  rw [limit105_of_steady (steady_cooledParts temps s), readSensors_pwr]

theorem thermalPoll_responds {s : State} (temps : List Int) (hv : s.pwr.v48 = true) (hm : s.pwr.mstate = 0) (h6 : 6 ≤ s.boot.step.toNat) :
    ∃ t, exec (.thermalPoll temps) s = .next t
      ∧ (∀ d : Fin 59, (t.dom d).sensor = temps.getD d.val (s.dom d).sensor)
      ∧ ((∃ d : Fin 59, 840 ≤ temps.getD d.val (s.dom d).sensor) →
        t.pwr.limit105 = true ∧ ∀ cl, (t.cpwr cl).duty = 10 ∧ (t.cpwr cl).op ≠ 15)
      ∧ (s.pwr.limit105 = true → (∀ d : Fin 59, temps.getD d.val (s.dom d).sensor < 800) → t.pwr.limit105 = false) := by
  have points := steady_applyPoints (coolAll (cooledParts temps s))
  have sensor := cooledParts_sensor temps s
  refine ⟨_, thermalPoll_eq temps hv hm h6, fun d => ?_, fun ⟨d, hd⟩ => ?_, fun hl hd => ?_⟩
  · rw [dom_of_steady points, coolAll_dom, sensor]
  · obtain ⟨limit, clusters⟩ := coolAll_limits ⟨d, (sensor d).symm ▸ hd⟩
    exact ⟨(limit105_of_steady points).trans limit, fun cl => applyPoints_keeps (clusters cl)⟩
  · exact (limit105_of_steady points).trans (coolAll_released ((cooledParts_limit105 temps s).trans hl) fun d => (sensor d).symm ▸ hd d)

theorem thermalPoll_reads {s : State} (temps : List Int) (hv : s.pwr.v48 = true)
    (h : s.pwr.mstate = 4 ∨ (s.pwr.mstate = 0 ∧ s.boot.step.toNat < 6)) :
    exec (.thermalPoll temps) s = .next (readSensors temps s) := by
  show execThermalPoll temps s = _
  rw [execThermalPoll, if_neg, if_pos]
  · simpa using h.imp_right And.right
  · obtain hm | ⟨hm, -⟩ := h <;> simp [hv, hm]

/-! ### Thermal shutdown (R447) -/

/-- The state a thermal shutdown leaves, but for the sensor that tripped. -/
def tripped (d : Fin 59) (x : Byte) (s : State) : State :=
  let w := resetLoss (ledgerAdd 0x0802 3 (BitVec.ofNat 16 d.val) [x] s)
  { w with
    boot := { s.boot with step := 2, refWait := none, holdReset := false }, pins := { w.pins with thermTripN := false },
    pwr := { w.pwr with mstate := 4 } }

theorem tripped_sec (d : Fin 59) (x : Byte) (s : State) : (tripped d x s).sec = keptSecurity s.sec :=
  (resetLoss_sec _).trans (congrArg keptSecurity (ledgerAdd_sec ..))

theorem tripped_core_ls (d : Fin 59) (x : Byte) (s : State) (c : Fin 384) : ((tripped d x s).core c).ls = [] := resetLoss_core_ls _ c

theorem tripped_ring (d : Fin 59) (x : Byte) (s : State) (r : Fin 256) : ((tripped d x s).ring r).state = .disabled := by
  show ((resetLoss (ledgerAdd 0x0802 3 (BitVec.ofNat 16 d.val) [x] s)).ring r).state = _
  exact (resetLoss_ring ..).1

theorem thermalShutdown_eq {s : State} {d : Fin 59} {x : Byte} (hx : 115 ≤ x.toInt) (hv : s.pwr.v48 = true) (hm : s.pwr.mstate ≠ 4) :
    exec (.thermalShutdown d x) s =
      .next (rearm ((tripped d x s).setDom d { (tripped d x s).dom d with sensor := x.toInt * 8 })) := by
  show execThermalShutdown d x s = _
  rw [execThermalShutdown, if_neg (by simpa [hx, hv] using hm)]
  rfl

theorem thermalShutdown_ends {s : State} {d : Fin 59} {x : Byte} (hx : 115 ≤ x.toInt) (hv : s.pwr.v48 = true) (hm : s.pwr.mstate ≠ 4) :
    ∃ t, exec (.thermalShutdown d x) s = .next t ∧ t.pwr.mstate = 4 ∧ t.pins.thermTripN = false ∧ t.pins.modReady = false
      ∧ t.boot.step = 2 ∧ t.sec.sessions = [] ∧ t.sec.slots = s.sec.slots ∧ t.sec.flashA = s.sec.flashA ∧ t.gddr.mem = []
      ∧ (∀ c, (t.core c).ls = []) ∧ (∀ r, (t.ring r).state = .disabled) ∧ (t.dom d).sensor = x.toInt * 8 := by
  refine ⟨_, thermalShutdown_eq hx hv hm, rfl, rfl, rfl, rfl, ?_, ?_, ?_, rfl, tripped_core_ls d x s,
    tripped_ring d x s, ?_⟩
  · show (tripped d x s).sec.sessions = _
    rw [tripped_sec]
    rfl
  · show (tripped d x s).sec.slots = _
    rw [tripped_sec]
    rfl
  · show (tripped d x s).sec.flashA = _
    rw [tripped_sec]
    rfl
  · exact congrArg Domain.sensor (State.setDom_dom (tripped d x s) d _)

theorem thermalShutdown_idle {s : State} {d : Fin 59} {x : Byte} (h : x.toInt < 115 ∨ s.pwr.v48 = false ∨ s.pwr.mstate = 4) :
    exec (.thermalShutdown d x) s = .next s := by
  show execThermalShutdown d x s = _
  rw [execThermalShutdown, if_pos]
  simpa [or_assoc] using h

/-- Settles O53: a poll reads every sensor, then the response at 105 °C decides; a shutdown is a module reset's loss. -/
theorem thermalProtection : Obligations.ThermalProtection := by
  unfold Obligations.ThermalProtection
  refine fun s => ⟨fun temps => thermalPoll_responds temps, fun temps h => ?silent, fun temps hv h => ?reads,
    fun d x h => thermalShutdown_idle (.inr h), fun d x hx hv hm => thermalShutdown_ends hx hv hm,
    fun d x hx => thermalShutdown_idle (.inl hx)⟩
  case silent =>
    show execThermalPoll temps s = _
    rw [execThermalPoll, if_pos]
    obtain h | h | h | h := h <;> simp [h]
  case reads =>
    exact ⟨_, thermalPoll_reads temps hv h, readSensors_pwr temps s, readSensors_cores temps s, readSensors_pins temps s,
      readSensors_dom temps s⟩

end Sys2Proof.Machine
end

section
/-! PROOFS. POWER_SET: refused, waiting or carried on (R448, R449, R451, R455). -/
namespace Sys2Proof.Machine
open Sys2Proof

/-! ### Descriptors and power -/

section
variable (r : Fin 256) (idx : Nat) (status : Byte) (detail : Half) (result : Dword) (s : State)

theorem finishDesc_pwr : (finishDesc r idx status detail result s).pwr = s.pwr := by rw [finishDesc_eq]

theorem finishDesc_cpwr (cl : Fin 48) : (finishDesc r idx status detail result s).cpwr cl = s.cpwr cl := by
  rw [State.cpwr, finishDesc_pwr, State.cpwr]

end

/-! ### Clusters that enter a state (R449 to R451) -/

/-- Entering a state moves the clusters' power alone. -/
theorem enterMode_pwr (m : PwrMode) (cl : Fin 48) (s : State) :
    (enterMode m cl s).pwr = { s.pwr with clusters := (enterMode m cl s).pwr.clusters } := by
  unfold enterMode
  split <;> rfl

theorem enterModes_pwr (m : PwrMode) (l : List (Fin 48)) (s : State) :
    (forAll l (enterMode m) s).pwr = { s.pwr with clusters := (forAll l (enterMode m) s).pwr.clusters } :=
  forAll_keeps (fun t => t.pwr = { s.pwr with clusters := t.pwr.clusters }) l _ s (fun cl _ t ht => by rw [enterMode_pwr, ht]) rfl

theorem enterMode_mode (m : PwrMode) (cl : Fin 48) (s : State) :
    ((enterMode m cl s).cpwr cl).mode = if (s.cluster cl).inService then m else (s.cpwr cl).mode := by
  unfold enterMode
  cases (s.cluster cl).inService with
  | false => rfl
  | true => simp only [modCpwr, State.setCpwr_cpwr, Bool.not_true, Bool.false_eq_true, if_false, if_true]

theorem enterMode_cpwr_other (m : PwrMode) {b cl : Fin 48} (h : b ≠ cl) (s : State) : (enterMode m b s).cpwr cl = s.cpwr cl := by
  unfold enterMode
  split
  · rfl
  · exact (setCpwr_cpwr_other h.symm _ _).trans (setCpwr_cpwr_other h.symm _ _)

theorem enterMode_cluster (m : PwrMode) (b cl : Fin 48) (s : State) : (enterMode m b s).cluster cl = s.cluster cl := by
  unfold enterMode
  split <;> rfl

theorem enterModes_mode (m : PwrMode) {l : List (Fin 48)} (hl : l.Nodup) (cl : Fin 48) (s : State) :
    ((forAll l (enterMode m) s).cpwr cl).mode = if (s.cluster cl).inService = true ∧ cl ∈ l then m else (s.cpwr cl).mode := by
  by_cases hcl : cl ∈ l
  · have once := forAll_once hl (f := enterMode m) hcl (fun t => ((t.cluster cl).inService, (t.cpwr cl).mode))
      (fun x => (x.1, if x.1 then m else x.2)) (fun t => by rw [enterMode_cluster, enterMode_mode])
      (fun b t hb => by rw [enterMode_cluster, enterMode_cpwr_other m hb]) s
    simpa [hcl] using congrArg Prod.snd once
  · rw [if_neg fun h => hcl h.2]
    exact forAll_keeps (fun t => (t.cpwr cl).mode = (s.cpwr cl).mode) l _ s
      (fun b hb t ht => by rw [enterMode_cpwr_other m (ne_of_mem_of_not_mem hb hcl), ht]) rfl

/-! ### A POWER_SET (R455) -/

section
variable {s : State} {r : Fin 256} {n st : Nat} {go : DescCtx → State → State} {c : DescCtx}

/-- One that is not there, or comes during an entry or a deferral, waits. -/
theorem powerSet_held (h : descAt s r n 0x50 = none ∨ s.pwr.deferral ≠ none ∨ s.pwr.mstate ≠ 0) : powerSet st go r n s = s := by
  unfold powerSet
  split
  · rfl
  · next c hc =>
    refine if_pos ?_
    obtain h | h | h := h
    · exact absurd (hc.symm.trans h) (by simp)
    · simp [Option.isSome_iff_ne_none.2 h]
    · simp only [Bool.or_eq_true, decide_eq_true_eq]
      exact .inr h

theorem powerSet_other (hc : descAt s r n 0x50 = some c) (h : psState c.word ≠ st) : powerSet st go r n s = s := by
  unfold powerSet
  rw [hc]
  exact if_pos (by simp [h])

/-- One whose turn it is ends refused or is carried on. -/
theorem powerSet_turn (hc : descAt s r n 0x50 = some c) (hd : s.pwr.deferral = none) (hm : s.pwr.mstate = 0) (h : psState c.word = st) :
    powerSet st go r n s = match powerFault s c.word with
      | some f => finishDesc r c.idx f.1 f.2 0 s
      | none => go c s := by
  unfold powerSet
  rw [hc]
  exact if_neg (by simp [h, hd, hm])

end

/-- The five commands of POWER_SET, with the STATE each serves. -/
def powerSets (r : Fin 256) (n : Nat) : List (BitVec 3 × Instr) :=
  [(0, .powerSetCap r n), (1, .powerSetRun r n), (2, .powerSetIdle r n), (3, .powerSetDoze r n), (4, .powerSetSleep r n)]

theorem exec_powerSets (s : State) (r : Fin 256) (n : Nat) : ∀ k ∈ powerSets r n, ∃ go,
    exec k.2 s = .next (powerSet k.1.toNat go r n s) := by
  simp only [powerSets, List.forall_mem_cons, List.not_mem_nil, false_implies, implies_true, and_true]
  exact ⟨⟨_, rfl⟩, ⟨_, rfl⟩, ⟨_, rfl⟩, ⟨_, rfl⟩, ⟨_, rfl⟩⟩

/-- The surge enable that a POWER_SET leaves. -/
def surgeTaken (w : DescWord) (s : State) : Bool := if (dW2 w).getLsbD 13 then (dW2 w).getLsbD 12 else s.pwr.surgeEn

theorem powerTake_pwr (w : DescWord) (s : State) : (powerTake w s).pwr =
    { s.pwr with hostCap := if psCap w = 0 then s.pwr.hostCap else psCap w, surgeEn := surgeTaken w s } := rfl

/-- The state in which the clusters of a list have entered a state at once. -/
def enteredBy (m : PwrMode) (l : List (Fin 48)) (r : Fin 256) (c : DescCtx) (s : State) : State :=
  finishDesc r c.idx stOk 0 0 (rearm (forAll l (enterMode m) (powerTake c.word s)))

theorem enteredBy_pwr (m : PwrMode) (l : List (Fin 48)) (r : Fin 256) (c : DescCtx) (s : State) :
    (enteredBy m l r c s).pwr = { (powerTake c.word s).pwr with clusters := (forAll l (enterMode m) (powerTake c.word s)).pwr.clusters } :=
  (finishDesc_pwr ..).trans (enterModes_pwr m l (powerTake c.word s))

theorem enteredBy_takes (m : PwrMode) {l : List (Fin 48)} (hl : l.Nodup) (r : Fin 256) (c : DescCtx) (s : State) :
    (enteredBy m l r c s).pwr.surgeEn = surgeTaken c.word s
      ∧ (enteredBy m l r c s).pwr.hostCap = (if psCap c.word = 0 then s.pwr.hostCap else psCap c.word)
      ∧ ∀ cl : Fin 48, ((enteredBy m l r c s).cpwr cl).mode =
        if (s.cluster cl).inService = true ∧ cl ∈ l then m else (s.cpwr cl).mode := by
  refine ⟨?_, ?_, fun cl => ?_⟩
  · rw [enteredBy_pwr, powerTake_pwr]
  · rw [enteredBy_pwr, powerTake_pwr]
  · rw [enteredBy, finishDesc_cpwr, rearm_cpwr]
    exact enterModes_mode m hl cl (powerTake c.word s)

section
variable {s : State} {r : Fin 256} {n : Nat} {c : DescCtx} (hc : descAt s r n 0x50 = some c) (hd : s.pwr.deferral = none)
  (hm : s.pwr.mstate = 0)
include hc hd hm

theorem powerSet_carried (hf : powerFault s c.word = none) {st : Nat} (h : psState c.word = st) (go : DescCtx → State → State) :
    powerSet st go r n s = go c s := by
  rw [powerSet_turn hc hd hm h, hf]

theorem powerSetCap_takes (hf : powerFault s c.word = none) (h : psState c.word = 0) :
    ∃ t, exec (.powerSetCap r n) s = .next t ∧ t.pwr.hostCap = (if psCap c.word = 0 then s.pwr.hostCap else psCap c.word)
      ∧ t.pwr.surgeEn = surgeTaken c.word s ∧ t.pwr.clusters = s.pwr.clusters
      ∧ (psCap c.word = 0 → t = finishDesc r c.idx 0x00 0 0 (s.setPwr { s.pwr with surgeEn := surgeTaken c.word s })) := by
  refine ⟨_, congrArg Host.Outcome.next (powerSet_carried hc hd hm hf h _), ?_⟩
  dsimp only
  by_cases hcap : psCap c.word = 0
  · rw [if_pos hcap, finishDesc_pwr, powerTake_pwr]
    refine ⟨rfl, rfl, rfl, fun _ => ?_⟩
    rw [powerTake, if_pos hcap]
    rfl
  · rw [if_neg hcap]
    exact ⟨rfl, rfl, rfl, fun h0 => absurd h0 hcap⟩

theorem powerSetRun_enters (hf : powerFault s c.word = none) (h : psState c.word = 1) :
    exec (.powerSetRun r n) s = .next (enteredBy .run (List.finRange 48) r c s) :=
  congrArg Host.Outcome.next (powerSet_carried hc hd hm hf h _)

theorem powerSetIdle_enters (hf : powerFault s c.word = none) (h : psState c.word = 2) :
    exec (.powerSetIdle r n) s = .next (enteredBy .idle (maskList (bits (dQ c.word 0x10) 0 48)) r c s) :=
  congrArg Host.Outcome.next (powerSet_carried hc hd hm hf h _)

theorem powerSetDoze_defers (hf : powerFault s c.word = none) (h : psState c.word = 3) :
    exec (.powerSetDoze r n) s = .next (deferTo r 3 c s) :=
  congrArg Host.Outcome.next (powerSet_carried hc hd hm hf h _)

theorem powerSetSleep_defers (hf : powerFault s c.word = none) (h : psState c.word = 4) :
    exec (.powerSetSleep r n) s = .next (deferTo r 4 c s) :=
  congrArg Host.Outcome.next (powerSet_carried hc hd hm hf h _)

end

theorem psState_eq_iff {w : DescWord} {k : BitVec 3} : psState w = k.toNat ↔ (bits (dW3 w) 0 3 : BitVec 3) = k := BitVec.toNat_inj

/-- Settles O54: a POWER_SET waits, is refused, or is carried on by its STATE. -/
theorem powerSetEntersStates : Obligations.PowerSetEntersStates := by
  unfold Obligations.PowerSetEntersStates
  refine ⟨fun s r n k hk => ?waits, fun s r n c hc hd hm => ⟨fun f hf k hk hst => ?refused, fun hf =>
    ⟨fun hst => powerSetCap_takes hc hd hm hf (psState_eq_iff.2 hst), fun hst => ?run, fun hst => ?idle,
      fun hst => ⟨_, powerSetDoze_defers hc hd hm hf (psState_eq_iff.2 hst), rfl, rfl⟩,
      fun hst => ⟨_, powerSetSleep_defers hc hd hm hf (psState_eq_iff.2 hst), rfl, rfl⟩⟩⟩⟩
  case waits =>
    obtain ⟨go, e⟩ := exec_powerSets s r n k hk
    rw [e]
    exact ⟨fun h => by rw [powerSet_held h], fun c hc h => by rw [powerSet_other hc (mt psState_eq_iff.1 h)]⟩
  case refused =>
    obtain ⟨go, e⟩ := exec_powerSets s r n k hk
    rw [e, powerSet_turn hc hd hm (psState_eq_iff.2 hst), hf]
  case run =>
    refine ⟨_, powerSetRun_enters hc hd hm hf (psState_eq_iff.2 hst), ?_⟩
    obtain ⟨surge, cap, mode⟩ := enteredBy_takes .run (List.nodup_finRange 48) r c s
    exact ⟨surge, cap, fun cl => by simpa using mode cl⟩
  case idle =>
    refine ⟨_, powerSetIdle_enters hc hd hm hf (psState_eq_iff.2 hst), ?_⟩
    obtain ⟨surge, cap, mode⟩ := enteredBy_takes .idle (maskList_nodup (bits (dQ c.word 0x10) 0 48)) r c s
    exact ⟨surge, cap, fun cl => by simpa only [mem_maskList] using mode cl⟩

end Sys2Proof.Machine
end

section
/-! PROOFS. Power states entered and left: deferrals, automatic idle, Sleep and its wake sources (R449 to R454, R460). -/
namespace Sys2Proof.Machine
open Sys2Proof

/-! ### Deferrals (R451, R452) -/

section
variable {s : State} {d : Deferral}

theorem domainStateEntry_none (h : s.pwr.deferral = none) : exec .domainStateEntry s = .next s := by
  show execDomainStateEntry s = _
  rw [execDomainStateEntry, h]

theorem powerDeferralExpiry_none (h : s.pwr.deferral = none) : exec .powerDeferralExpiry s = .next s := by
  show execPowerDeferralExpiry s = _
  rw [execPowerDeferralExpiry, h]

theorem domainStateEntry_held {k : Nat} (h : s.pwr.deferral = some d) (hk : holdup s d = some k) : exec .domainStateEntry s = .next s := by
  show execDomainStateEntry s = _
  rw [execDomainStateEntry, h]
  exact if_pos (by rw [hk, Option.isSome_some])

theorem powerDeferralExpiry_free (h : s.pwr.deferral = some d) (hk : holdup s d = none) : exec .powerDeferralExpiry s = .next s := by
  show execPowerDeferralExpiry s = _
  rw [execPowerDeferralExpiry, h]
  dsimp only
  rw [hk]

/-- A deferral held up ends after 1 ms, naming what held it up. -/
theorem powerDeferralExpiry_held {k : Nat} (h : s.pwr.deferral = some d) (hk : holdup s d = some k) : exec .powerDeferralExpiry s =
    if s.ns < d.since + 1000000 then .next s
    else .next (finishDesc d.ring d.idx stPower (BitVec.ofNat 16 k) 0 (s.setPwr { s.pwr with deferral := none })) := by
  show execPowerDeferralExpiry s = _
  rw [execPowerDeferralExpiry, h]
  dsimp only
  rw [hk]

end

/-- The state in which a deferral no longer stands, its cap and surge enable taken. -/
def deferralTaken (d : Deferral) (s : State) : State :=
  match ctxOf s d.ring d.idx with
  | some c => powerTake c.word (s.setPwr { s.pwr with deferral := none })
  | none => s.setPwr { s.pwr with deferral := none }

theorem deferralTaken_pwr (d : Deferral) (s : State) : ∃ cap surge,
    (deferralTaken d s).pwr = { s.pwr with deferral := none, hostCap := cap, surgeEn := surge } := by
  unfold deferralTaken
  split
  · exact ⟨_, _, rfl⟩
  · exact ⟨_, _, rfl⟩

theorem deferralTaken_cluster (d : Deferral) (s : State) (cl : Fin 48) : (deferralTaken d s).cluster cl = s.cluster cl := by
  unfold deferralTaken
  split <;> rfl

theorem deferralTaken_cpwr (d : Deferral) (s : State) (cl : Fin 48) : (deferralTaken d s).cpwr cl = s.cpwr cl := by
  unfold deferralTaken
  split <;> rfl

/-- The state a deferred request enters: on the way to Sleep, or its clusters in Doze. -/
def deferredEntered (d : Deferral) (s : State) : State :=
  if d.state = 4 then (deferralTaken d s).setPwr { (deferralTaken d s).pwr with mstate := 1, wakes := 0 }
  else forAll (maskList d.mask) (enterMode .doze) (deferralTaken d s)

theorem domainStateEntry_eq {s : State} {d : Deferral} (h : s.pwr.deferral = some d) (hk : holdup s d = none) :
    exec .domainStateEntry s = .next (finishDesc d.ring d.idx stOk 0 0 (deferredEntered d s)) := by
  show execDomainStateEntry s = _
  rw [execDomainStateEntry, h]
  exact if_neg (by rw [hk]; decide)

theorem deferredEntered_sleep {d : Deferral} (h : d.state = 4) (s : State) :
    (deferredEntered d s).pwr.deferral = none ∧ (deferredEntered d s).pwr.mstate = 1 := by
  obtain ⟨cap, surge, e⟩ := deferralTaken_pwr d s
  rw [deferredEntered, if_pos h, e]
  exact ⟨rfl, rfl⟩

theorem deferredEntered_doze {d : Deferral} (h : d.state ≠ 4) (s : State) :
    (deferredEntered d s).pwr.deferral = none ∧ (deferredEntered d s).pwr.mstate = s.pwr.mstate
      ∧ ∀ cl : Fin 48, ((deferredEntered d s).cpwr cl).mode =
        if (s.cluster cl).inService = true ∧ d.mask.getLsbD cl.val = true then .doze else (s.cpwr cl).mode := by
  obtain ⟨cap, surge, e⟩ := deferralTaken_pwr d s
  rw [deferredEntered, if_neg h]
  have entered := enterModes_pwr .doze (maskList d.mask) (deferralTaken d s)
  refine ⟨?_, ?_, fun cl => ?_⟩
  · rw [entered, e]
  · rw [entered, e]
  · simpa only [mem_maskList, deferralTaken_cluster, deferralTaken_cpwr] using
      enterModes_mode .doze (maskList_nodup d.mask) cl (deferralTaken d s)

theorem domainStateEntry_enters {s : State} {d : Deferral} (h : s.pwr.deferral = some d) (hk : holdup s d = none) :
    ∃ t, exec .domainStateEntry s = .next t ∧ t.pwr.deferral = none
      ∧ (d.state = 4 → t.pwr.mstate = 1)
      ∧ (d.state ≠ 4 → t.pwr.mstate = s.pwr.mstate
        ∧ ∀ cl : Fin 48, (t.cpwr cl).mode = (if (s.cluster cl).inService ∧ d.mask.getLsbD cl.val then .doze else (s.cpwr cl).mode)) := by
  refine ⟨_, domainStateEntry_eq h hk, ?_⟩
  simp only [finishDesc_pwr, finishDesc_cpwr]
  by_cases h4 : d.state = 4
  · obtain ⟨deferral, mstate⟩ := deferredEntered_sleep h4 s
    exact ⟨deferral, fun _ => mstate, fun hn => absurd h4 hn⟩
  · obtain ⟨deferral, entered⟩ := deferredEntered_doze h4 s
    exact ⟨deferral, fun h => absurd h h4, fun _ => entered⟩

/-! ### Idle and Doze (R449, R450) -/

theorem autoIdle_eq (cl : Fin 48) (s : State) : exec (.autoIdle cl) s =
    if s.pwr.idleAuto = true ∧ (s.cpwr cl).mode = .run ∧ (s.cluster cl).launch = none ∧ (s.cpwr cl).idleSince + 100000 ≤ s.ns then
      .next (s.setCpwr cl { s.cpwr cl with mode := .idle, op := 0 })
    else .next s := by
  show execAutoIdle cl s = _
  exact if_congr (by simp [and_assoc]) rfl rfl

theorem dozeWake_eq (cl : Fin 48) (s : State) : exec (.dozeWake cl) s =
    if (s.cpwr cl).mode = .doze then .next (s.setCpwr cl { s.cpwr cl with mode := .idle, op := 0 }) else .next s := rfl

/-! ### Sleep (R452) -/

theorem goSleep_state (s : State) : (goSleep s).pwr.mstate = 2 ∧ (goSleep s).time.locked = false ∧ (goSleep s).time.holdover = true
    ∧ (goSleep s).gddr.selfRefresh = true ∧ (goSleep s).pins.modReady = false := ⟨rfl, rfl, rfl, rfl, rfl⟩

/-- Every port in electrical idle. -/
def darkPorts (s : State) : State := forAll (List.finRange 16) darkPort s

theorem darkPorts_view {α : Type} (g : State → α) (hg : ∀ p t, g (darkPort p t) = g t) (s : State) : g (darkPorts s) = g s :=
  forAll_leaves g (List.finRange 16) darkPort s hg

theorem darkPort_state (p : Fin 16) (s : State) : ((darkPort p s).port p).state = 0 := by rw [darkPort, State.modPort_same]

theorem darkPorts_port (p : Fin 16) (s : State) : ((darkPorts s).port p).state = 0 := by
  refine forAll_establishes (fun t => (t.port p).state = 0) (List.finRange 16) darkPort p s (List.mem_finRange p)
    (darkPort_state p) fun b t hb ht => ?_
  rwa [darkPort, State.modPort_other _ _ _ _ hb]

theorem goSleep_eq (s : State) : goSleep s = (
    let s2 := (darkPorts s).setTime
      { s.time with locked := false, holdover := true, holdSince := if s.time.holdover then s.time.holdSince else s.ns }
    let s3 := s2.setGddr { s2.gddr with selfRefresh := true, chans := s2.gddr.chans.map refreshing }
    let s4 := s3.setPins { s3.pins with modReady := false }
    rearm (s4.setPwr { s4.pwr with mstate := 2, sleepAt := s.ns })) := rfl

theorem goSleep_port (s : State) (p : Fin 16) : ((goSleep s).port p).state = 0 := by
  simp only [goSleep_eq, rearm, State.setPins_port, State.setPwr_port, State.setGddr_port, State.setTime_port]
  exact darkPorts_port p s

theorem goSleep_mem (s : State) : (goSleep s).gddr.mem = s.gddr.mem := by
  simp only [goSleep_eq, rearm, State.setPins_gddr, State.setPwr_gddr, State.setGddr_gddr, State.setTime_gddr]
  exact darkPorts_view (fun t => t.gddr.mem) (fun _ _ => rfl) s

theorem goSleep_cores (s : State) : (goSleep s).cores = s.cores := by
  simp only [goSleep_eq, rearm, State.setPins_cores, State.setPwr_cores, State.setGddr_cores, State.setTime_cores]
  exact darkPorts_view State.cores (fun _ _ => rfl) s

theorem goSleep_rings (s : State) : (goSleep s).rings = s.rings := by
  simp only [goSleep_eq, rearm, State.setPins_rings, State.setPwr_rings, State.setGddr_rings, State.setTime_rings]
  exact darkPorts_view State.rings (fun _ _ => rfl) s

theorem sleepEntry_waits {s : State} (h : (∃ r, (s.ring r).started ≠ []) ∨ s.pwr.mstate ≠ 1) : exec .sleepEntry s = .next s := by
  show execSleepEntry s = _
  refine if_pos ?_
  simp only [Bool.or_eq_true, decide_eq_true_eq, List.any_eq_true, List.mem_finRange, true_and, Bool.not_eq_true', List.isEmpty_eq_false_iff]
  exact h.symm

theorem sleepEntry_enters {s : State} (hr : ∀ r, (s.ring r).started = []) (hm : s.pwr.mstate = 1) :
    exec .sleepEntry s = .next (if s.pwr.wakes = 0 then goSleep s else wakeUp s.pwr.wakes (goSleep s)) := by
  show execSleepEntry s = _
  exact if_neg (by simp [hr, hm])

/-! ### Waking (R453, R454) -/

/-- The module awake again, but for the intervals of its rings. -/
def awakened (b : BitVec 3) (s : State) : State :=
  let s1 := s.setPwr { s.pwr with mstate := 0, smbSeen := b.getLsbD 0, pcieSeen := b.getLsbD 1, pinSeen := b.getLsbD 2, wakes := 0 }
  let s2 := s1.setTime (if s.time.present then { s.time with locked := true, holdover := false } else s.time)
  let s3 := s2.setGddr { s2.gddr with selfRefresh := false, chans := s2.gddr.chans.map refreshed }
  s3.setPins { s3.pins with modReady := true }

/-- A view that no ring enters sees the module awake. -/
theorem wakeUp_view {α : Type} (g : State → α) (hg : ∀ t r f, g (t.modRing r f) = g t) (b : BitVec 3) (s : State) :
    g (wakeUp b s) = g (awakened b s) := forAll_leaves g _ _ _ fun r t => hg t r _

section
variable (b : BitVec 3) (s : State)

theorem wakeUp_pwr : (wakeUp b s).pwr = (awakened b s).pwr := wakeUp_view State.pwr (fun _ _ _ => rfl) b s
theorem wakeUp_time : (wakeUp b s).time = (awakened b s).time := wakeUp_view State.time (fun _ _ _ => rfl) b s
theorem wakeUp_gddr : (wakeUp b s).gddr = (awakened b s).gddr := wakeUp_view State.gddr (fun _ _ _ => rfl) b s
theorem wakeUp_pins : (wakeUp b s).pins = (awakened b s).pins := wakeUp_view State.pins (fun _ _ _ => rfl) b s
theorem wakeUp_cores : (wakeUp b s).cores = (awakened b s).cores := wakeUp_view State.cores (fun _ _ _ => rfl) b s

theorem wakeFrom_asleep (h : s.pwr.mstate = 2) : wakeFrom b s = wakeUp b s := if_pos h

/-- Outside Sleep a source is kept during the entry, and is otherwise without effect. -/
theorem wakeFrom_awake (h : s.pwr.mstate ≠ 2) : wakeFrom b s =
    if s.pwr.mstate = 1 then s.setPwr { s.pwr with wakes := s.pwr.wakes ||| b } else s := if_neg h

end

theorem pcieWake_eq (s : State) : exec .pcieWake s = .next (if s.pwr.pcieEn then wakeFrom 2 s else s) := rfl

theorem smbusWakeAddress_eq (s : State) : exec .smbusWakeAddress s = .next (if s.pwr.smbEn then wakeFrom 1 s else s) := rfl

theorem wakeNAssert_eq (s : State) : exec .wakeNAssert s =
    .next (if s.pwr.pinEn then wakeFrom 4 (s.setPins { s.pins with wakeN := false }) else s.setPins { s.pins with wakeN := false }) := rfl

/-- Outside Sleep an enabled source is kept during the entry, in a state with the module's power. -/
theorem source_kept {s u : State} (hu : u.pwr = s.pwr) (h : s.pwr.mstate ≠ 2) (en : Bool) (b : BitVec 3) :
    (if en then wakeFrom b u else u) =
      if en = true ∧ s.pwr.mstate = 1 then u.setPwr { u.pwr with wakes := s.pwr.wakes ||| b } else u := by
  cases en with
  | false => rfl
  | true =>
    rw [if_pos rfl, wakeFrom_awake b u (hu.symm ▸ h), hu]
    simp only [true_and]

/-- A port in electrical idle, GDDR7 refreshing itself, and nothing else of the block moved: Sleep (R452). -/
theorem sleepEntry_sleeps {s : State} (hr : ∀ r, (s.ring r).started = []) (hm : s.pwr.mstate = 1) (hw : s.pwr.wakes = 0) :
    ∃ t, exec .sleepEntry s = .next t ∧ t.pwr.mstate = 2 ∧ t.time.locked = false ∧ t.time.holdover = true
      ∧ t.gddr.selfRefresh = true ∧ t.pins.modReady = false ∧ (∀ p, (t.port p).state = 0) ∧ t.gddr.mem = s.gddr.mem
      ∧ t.cores = s.cores ∧ t.rings = s.rings := by
  refine ⟨goSleep s, by rw [sleepEntry_enters hr hm, if_pos hw], ?_⟩
  obtain ⟨mstate, locked, holdover, refresh, ready⟩ := goSleep_state s
  exact ⟨mstate, locked, holdover, refresh, ready, goSleep_port s, goSleep_mem s, goSleep_cores s, goSleep_rings s⟩

theorem sleepEntry_woken {s : State} (hr : ∀ r, (s.ring r).started = []) (hm : s.pwr.mstate = 1) (hw : s.pwr.wakes ≠ 0) :
    ∃ t, exec .sleepEntry s = .next t ∧ t.pwr.mstate = 0 ∧ t.gddr.selfRefresh = false ∧ t.pins.modReady = true := by
  refine ⟨wakeUp s.pwr.wakes (goSleep s), by rw [sleepEntry_enters hr hm, if_neg hw], wakeUp_awake _ _, ?_, ?_⟩
  · rw [wakeUp_gddr]
    rfl
  · rw [wakeUp_pins]
    rfl

section
variable {s : State} (h : s.pwr.mstate = 2)
include h

theorem pcieWake_asleep (he : s.pwr.pcieEn = true) : exec .pcieWake s = .next (wakeUp 2 s) := by
  rw [pcieWake_eq, if_pos he, wakeFrom_asleep 2 s h]

/-- The link wakes the module: PWR_STATUS names it, and memory and cores are as they slept (R453, R460). -/
theorem pcieWake_wakes (he : s.pwr.pcieEn = true) : ∃ t, exec .pcieWake s = .next t ∧ t.pwr.mstate = 0 ∧ t.pwr.pcieSeen = true
    ∧ t.pwr.smbSeen = false ∧ t.pwr.pinSeen = false ∧ t.gddr.selfRefresh = false ∧ t.pins.modReady = true
    ∧ t.gddr.mem = s.gddr.mem ∧ t.cores = s.cores := by
  refine ⟨wakeUp 2 s, pcieWake_asleep h he, ?_⟩
  rw [wakeUp_pwr, wakeUp_gddr, wakeUp_pins, wakeUp_cores]
  exact ⟨rfl, rfl, rfl, rfl, rfl, rfl, rfl, rfl⟩

theorem wakeNAssert_wakes (he : s.pwr.pinEn = true) :
    ∃ t, exec .wakeNAssert s = .next t ∧ t.pwr.mstate = 0 ∧ t.pwr.pinSeen = true ∧ t.pins.wakeN = false := by
  refine ⟨wakeUp 4 (s.setPins { s.pins with wakeN := false }), ?_, ?_⟩
  · rw [wakeNAssert_eq, if_pos he, wakeFrom_asleep 4 (s.setPins { s.pins with wakeN := false }) h]
  · rw [wakeUp_pwr, wakeUp_pins]
    exact ⟨rfl, rfl, rfl⟩

theorem smbusWakeAddress_wakes (he : s.pwr.smbEn = true) :
    ∃ t, exec .smbusWakeAddress s = .next t ∧ t.pwr.mstate = 0 ∧ t.pwr.smbSeen = true := by
  refine ⟨wakeUp 1 s, by rw [smbusWakeAddress_eq, if_pos he, wakeFrom_asleep 1 s h], ?_⟩
  rw [wakeUp_pwr]
  exact ⟨rfl, rfl⟩

/-- With a reference present the PLLs relock (R453). -/
theorem pcieWake_relocks (hp : s.time.present = true) (he : s.pwr.pcieEn = true) {t : State} (ht : exec .pcieWake s = .next t) :
    t.time.locked = true ∧ t.time.holdover = false := by
  obtain rfl := Host.Outcome.next.inj ((pcieWake_asleep h he).symm.trans ht)
  have e : (awakened 2 s).time = { s.time with locked := true, holdover := false } := if_pos hp
  rw [wakeUp_time, e]
  exact ⟨rfl, rfl⟩

end

/-- Settles O55: deferrals and clusters, then sources outside Sleep, then sources in it. -/
theorem statesEnteredAndLeft : Obligations.StatesEnteredAndLeft := by
  unfold Obligations.StatesEnteredAndLeft
  refine ⟨fun s => ⟨fun h => ⟨domainStateEntry_none h, powerDeferralExpiry_none h⟩, fun d => powerDeferralExpiry_free, fun cl h => ?busy,
    fun cl h => (dozeWake_eq cl s).trans (if_neg h), sleepEntry_waits, fun d => domainStateEntry_enters, fun d k h hk => ?expiry, fun cl ha hr hl hi => ?idle,
    fun cl h => (dozeWake_eq cl s).trans (if_pos h), fun hr hm => ⟨sleepEntry_sleeps hr hm, sleepEntry_woken hr hm⟩⟩,
    fun s h => ⟨?pcie, ?smbus, ?pin⟩,
    fun s h => ⟨pcieWake_wakes h, wakeNAssert_wakes h, smbusWakeAddress_wakes h, fun he => ?pcieOff, fun he => ?smbusOff, fun he => ?pinOff,
      fun hp t ht he => pcieWake_relocks h hp he ht⟩⟩
  case busy =>
    rw [autoIdle_eq, if_neg]
    rintro ⟨ha, hr, hl, hi⟩
    obtain h | h | h | h := h
    · exact absurd (ha.symm.trans h) (by decide)
    · exact h hr
    · exact h hl
    · exact absurd hi (Nat.not_le.2 h)
  case expiry =>
    rw [powerDeferralExpiry_held h hk]
    exact ⟨fun hn => if_neg (Nat.not_lt.2 hn), fun hn => if_pos hn, domainStateEntry_held h hk⟩
  case idle => rw [autoIdle_eq, if_pos ⟨ha, hr, hl, hi⟩]
  case pcie => exact congrArg Host.Outcome.next (source_kept rfl h _ 2)
  case smbus => exact congrArg Host.Outcome.next (source_kept rfl h _ 1)
  case pin => exact congrArg Host.Outcome.next (source_kept (u := s.setPins { s.pins with wakeN := false }) rfl h _ 4)
  case pcieOff => rw [pcieWake_eq, he, if_neg (by decide)]
  case smbusOff => rw [smbusWakeAddress_eq, he, if_neg (by decide)]
  case pinOff => rw [wakeNAssert_eq, he, if_neg (by decide)]

end Sys2Proof.Machine
end
